-- ==== Sys2Proof/Word.lean ====
section
/-!
DEFINITION. The plain types of the TCH-5120 model: register words, bytes, and the sparse maps in which register
files, indirect spaces and memory are kept.
-/
namespace Sys2Proof

/-- A 32-bit register or indirect word (R354, R428). -/
abbrev Word := BitVec 32

/-- One byte of a surface line, of an entry, of a frame. -/
abbrev Byte := BitVec 8

/-- Sparse data by key: keys strictly rising, no entry equal to what an unlisted key reads as.
The operations and the form's predicate are in `Sys2Proof.Machine.KMap`. -/
abbrev KMap (α : Type) := List (Nat × α)

/-- An exact non-negative ratio. The device's timing and planning arithmetic is exact and rational (R157, R215). -/
structure Frac where
  /-- Numerator. -/
  num : Nat
  /-- Denominator; 0 stands for an undefined ratio and is never produced from defined operands. -/
  den : Nat
  deriving DecidableEq, Repr

end Sys2Proof
end

