-- ==== Sys2Proof/Syntax.lean ====
section
/-!
DEFINITION. The commands of the TCH-5120: one constructor of `Instr` per row of spec/opcode_table.json, with the row's
operands. What comes from outside the device (host memory, flash, the network, temperatures, the outcome of a PHY's
training, an error a checker meets) is an operand.
-/
namespace Sys2Proof

/-- The three masters of the register map (R346). -/
inductive Master where
  /-- The local management port. -/
  | lmp
  /-- PCIe function 0. -/
  | pf0
  /-- PCIe function 1. -/
  | pf1
  deriving DecidableEq, Repr

/-- What the SECDED checker of a memory or table word finds (R68, R119). -/
inductive Ecc where
  /-- No error. -/
  | good
  /-- A single-bit error at this bit position, corrected. -/
  | ce (bit : Nat)
  /-- An uncorrectable error. -/
  | ue
  deriving DecidableEq, Repr

/-- A table word that reads with an error while a unit uses it: space code of R428, word address, what is found. -/
structure Upset where
  /-- Space code (R428). -/
  space : Nat
  /-- Word address in the space. -/
  addr : Nat
  /-- What the checker finds. -/
  ecc : Ecc
  deriving DecidableEq, Repr

/-- The receivers a line of an OFFLINE_COMPOSE job passes (R327): fetch switch and scaler with beads of stored lines, tile with beads of layer
lines, SSP with beads of the result. -/
inductive OfflineStage where
  | fetchSwitch
  | scaler
  | tile
  | ssp
  deriving DecidableEq, Repr

/-- The receiver of a bead on a rod (R21, R40). -/
inductive BeadDst where
  /-- A fetch bead at the fetch switch, on its way to the line request with this number: bead of the line. -/
  | fetchSwitch (req : Nat) (bead : Nat)
  /-- A fetch bead at the scaler holding this line request. -/
  | scaler (req : Nat) (bead : Nat)
  /-- A fetch bead of the read of a queue's job at HWQ. -/
  | hwqJob (q : Fin 64) (bead : Nat)
  /-- A fetch bead of an aperture read of a function at HWQ. -/
  | hwqAperture (k : Fin 2) (bead : Nat)
  /-- A layer bead at a tile: entry number in the running step, line, pixel pair. -/
  | tile (t : Fin 32) (entry : Nat) (y : Nat) (pair : Nat)
  /-- A result bead at a head's output converter: line, pixel pair. -/
  | converter (h : Fin 32) (y : Nat) (pair : Nat)
  /-- A result bead at a head's write-back branch. -/
  | writeBack (h : Fin 32) (y : Nat) (pair : Nat)
  /-- An ingest bead at SSP for a line of a handle. -/
  | ssp (handle : Nat) (line : Nat) (bead : Nat)
  /-- A bead of the line that a queue's OFFLINE_COMPOSE job composes next, at one of its receivers; at the first three, of the layer with
  this number. -/
  | offline (q : Fin 64) (stage : OfflineStage) (layer : Nat) (bead : Nat)
  deriving DecidableEq, Repr

/-- The memory word an access touches: the 1 KiB row, and the surface, stripe and word when it lies in one. -/
structure WordSite where
  /-- Row of the pseudo-channel. -/
  row : Nat
  /-- Surface handle, 0 when the word is in no surface (R92). -/
  handle : Nat
  /-- Stripe of the surface. -/
  stripe : Nat
  /-- 32-byte word within the stripe. -/
  word : Nat
  /-- The second copy of a DUPLEX surface. -/
  twin : Bool
  deriving DecidableEq, Repr

/-- Memory traffic other than the fetches of scalers and run-ahead (R168). -/
inductive Traffic where
  /-- Ingest writes from NMP. -/
  | ingest
  /-- SURFACE_UPLOAD writes. -/
  | upload
  /-- Write-back, CAPTURE among it. -/
  | writeBack
  /-- Stripe carries. -/
  | carry
  | rowSparing
  | patrol
  /-- Scrubbing of freed stripes. -/
  | scrub
  /-- OFFLINE_COMPOSE fetches and writes. -/
  | offline
  /-- Host aperture reads and writes. -/
  | aperture
  /-- SURFACE_COPY and FILL reads and writes, and other job reads of surfaces. -/
  | job
  deriving DecidableEq, Repr

/-- What waits at a pseudo-channel for a grant (R168, R169) beside the requests of scalers and of run-ahead: whether words of fetches withdrawn
since are still due in S0 and in S1, and the other requests, in order of arrival. -/
structure Ready where
  s0 : Bool
  s1 : Bool
  arrived : List (Traffic × WordSite)
  deriving DecidableEq, Repr

/-- The reply of a sink on AUX (R229). -/
inductive AuxReply where
  /-- ACK with the bytes read. -/
  | ack (data : List Byte)
  /-- NACK. -/
  | nack
  /-- DEFER. -/
  | defer
  deriving DecidableEq, Repr

/-- What comes with a frame of a media port (R248, R260, R268, R273): the ingest FIFO was full, the timestamp is lost, FEC codewords corrected
and found uncorrectable since the frame before, and how the words of the assembly store read that the frame completes a line with. -/
structure RxNote where
  fifoFull : Bool
  stampLost : Bool
  fecCorr : Nat
  fecUncorr : Nat
  asm : Ecc
  deriving DecidableEq, Repr

/-- What one oscillator-temperature conversion brings (R288). -/
inductive TempConv where
  /-- OSCTEMP: the samples of the conversion, each as a fraction of VPLL; there are 64. -/
  | samples (vs : List Rat)
  /-- The I2C sensor: the two bytes of its register 0, most significant first. -/
  | i2c (hi lo : Byte)
  /-- No acknowledge from the I2C sensor. -/
  | noAck
  deriving DecidableEq, Repr

/-- How a band-search try of a pixel PLL ends (R295). -/
inductive PllTry where
  /-- Locked. -/
  | locked
  /-- Not locked in 100 us, tuning at its upper rail. -/
  | upperRail
  /-- Not locked in 100 us, tuning not at its upper rail. -/
  | lowerRail
  deriving DecidableEq, Repr

/-- How a host read ends (R325, R344). -/
inductive HostRead where
  /-- The bytes read. -/
  | ok (data : List Byte)
  /-- A completion error or a timeout. -/
  | error
  deriving DecidableEq, Repr

/-- What the host has configured in a PCIe function (R308, R309, R342), when the link answers its configuration requests. -/
structure HostConfig where
  /-- Memory Space Enable and Bus Master Enable. -/
  memory : Bool
  busMaster : Bool
  /-- BAR0, BAR2 and BAR4. -/
  bar0 : BitVec 64
  bar2 : BitVec 64
  bar4 : BitVec 64
  /-- Codes of Max_Payload_Size and Max_Read_Request_Size: 128 bytes shifted left by the code. -/
  mps : BitVec 3
  mrrs : BitVec 3
  /-- 10-bit tags, and ASPM L1. -/
  tags10 : Bool
  aspmL1 : Bool
  /-- MSI-X Enable and Function Mask. -/
  msix : Bool
  functionMask : Bool
  /-- Vectors whose mask bit the host has set. -/
  masked : List (Fin 128)
  deriving DecidableEq, Repr

/-- A metered class of handshake units (R400). -/
inductive UnitClass where
  | rod
  | tile
  | scaler
  | converter
  deriving DecidableEq, Repr

/-- A DisplayPort link configuration: rate code and lane code (R225, R226). -/
structure DpConfig where
  /-- Rate code 0 to 6. -/
  rate : Nat
  /-- Lane code 0 to 2: 1, 2 or 4 lanes. -/
  lanes : Nat
  deriving DecidableEq, Repr

/-- Where a memory sensor reading stands in a thermal update (R418). -/
structure Temps where
  /-- Sixteen die sensors, in 1/256 degree Celsius. -/
  die : List Int
  /-- Four stack temperatures in whole degrees, when they have been read. -/
  hbm : List Nat
  /-- Up to four board sensors, each one byte as IHM_TEMP_BOARD holds it. -/
  board : List Byte
  deriving DecidableEq, Repr

/-- The commands of the device, one constructor per row of the table, in the table's order. -/
inductive Instr where
  -- start-up, loader
  /-- PORST_N driven low (R436). -/
  | porstNAssert
  /-- Rising edge of PORST_N: GPIO[2:0], and whether VDDIO_MGMT is at or above 2.2 V (R42, R436). -/
  | porstNRise (gpio : BitVec 3) (bank33 : Bool)
  /-- The management clock reaches 200 MHz (R44). -/
  | mgmtClockReady
  /-- A rail leaves its range without PORST_N (R437). -/
  | supplyExcursion
  /-- XO_IN stops (R453). -/
  | xoInStop
  /-- PCIE_PERST_N goes low (R439). -/
  | pciePerstNAssert
  /-- A flash read gets no DQS strobe within 1 us (R46). -/
  | xspiDqsTimeout
  /-- Both headers read: the density SFDP reports (log2 of Mbit), whether 8D entry succeeded, page 0 of A and B. -/
  | ldrHeadersRead (density : Option Nat) (octal : Bool) (pageA : List Byte) (pageB : List Byte)
  /-- A section has been read: its bytes (R55). -/
  | ldrSectionDone (data : List Byte)
  /-- SCRUB ends (R55). -/
  | ldrScrubDone
  /-- HBM training ends; the pseudo-channels that failed it (R70, R89). -/
  | hbmTrainingDone (failed : List (Fin 128))
  /-- SETTLE ends (R57): by lock, or by expiry of LOCK_WAIT_MS. -/
  | ldrSettleEnd (expired : Bool)
  /-- START_HOLD_MS after release expires (R59). -/
  | startHoldExpiry
  /-- LDR_CTRL.RELEASE written (R61). -/
  | ldrRelease (m : Master)
  /-- LDR_CTRL.RELOAD written (R61). -/
  | ldrReload (m : Master)
  /-- Scrubbing after RELOAD ends (R61). -/
  | reloadScrubDone
  /-- LDR_UPD_CMD = ERASE (R65). -/
  | ldrUpdErase (m : Master)
  /-- LDR_UPD_CMD = PROGRAM (R65). -/
  | ldrUpdProgram (m : Master)
  /-- LDR_UPD_CMD = FINISH; the bytes the target copy holds in flash from its page 1 on (R65). -/
  | ldrUpdFinish (m : Master) (flash : List Byte)
  /-- A flash update command ends; whether the flash answered (R65). -/
  | ldrUpdDone (flashOk : Bool)
  -- surfaces
  /-- The SURFACE_ALLOC job of a queue acts (R74). -/
  | surfaceAlloc (q : Fin 64)
  /-- The SURFACE_FREE job of a queue acts (R75). -/
  | surfaceFree (q : Fin 64)
  /-- The PIN_HINT job of a queue acts (R82). -/
  | pinHint (q : Fin 64)
  /-- The oldest freed stripe of a pseudo-channel has been zeroed (R75). -/
  | stripeScrubDone (pc : Fin 128)
  /-- The patrol scrub reads one memory word (R69). -/
  | patrolScrubRead (pc : Fin 128) (site : WordSite) (ecc : Ecc)
  /-- A controller grants one memory word (R169); whether it is a run-ahead access. -/
  | memoryWordGrant (pc : Fin 128) (ready : Ready) (runAhead : Bool) (site : WordSite) (ecc : Ecc)
  /-- A heat window ends (R84). -/
  | heatWindowEnd
  /-- The oldest stripe carry in progress has copied its stripe (R86). -/
  | stripeCarryCopyDone
  /-- Retraining has not restored a pseudo-channel within 1 ms (R89). -/
  | pcRetrainTimeout (pc : Fin 128)
  /-- SSP_RETIRE_CMD written (R93). -/
  | sspRetireCmd (m : Master) (v : Word)
  -- rods, scalers, tiles
  /-- A unit receives the 137 bits of a bead on a logical rod (R25, R26). -/
  | rodBeadReceive (rod : Fin 400) (flip : BitVec 137) (dst : BeadDst)
  /-- A logical scaler requests its next stored line (R170). -/
  | scalerLineRequest (l : Fin 80) (ecc : Ecc)
  /-- The oldest stored line a scaler has requested arrives whole (R125); bank words that read with an error. -/
  | scalerLineArrival (l : Fin 80) (upsets : List Upset) (store : Ecc)
  /-- The deadline of a line request passes (R171). -/
  | fetchDeadline (req : Nat)
  /-- A write to a coefficient bank word (R137). -/
  | coefWrite (m : Master) (addr : BitVec 12) (v : Word)
  /-- The planner takes the next PENDING commit (R152). -/
  | planStart (upsets : List Upset)
  /-- The planner finishes; how long the plan took, in us (R152, R165). -/
  | planDone (us : Nat)
  /-- The sequencer of a group reads its next step; table words that read with an error (R149, R151). -/
  | seqStepIssue (g : Fin 8) (upsets : List Upset)
  /-- A logical tile starts its next queued step (R149). -/
  | tileStepStart (t : Fin 32) (upsets : List Upset)
  /-- A logical tile delivers the last result bead of its step (R149). -/
  | tileStepDone (t : Fin 32)
  /-- A tile meets the first VOID bead of an entry's line (R181). -/
  | tileVoidBead (t : Fin 32) (entry : Nat)
  /-- The next result line of a head reaches its output converter (R113); table words that read with an error. -/
  | resultBeadArrival (h : Fin 32) (upsets : List Upset)
  /-- The next line of a head falls due; columns whose buffer words are uncorrectable (R150, R223). -/
  | lineDue (h : Fin 32) (ueCols : List Nat) (upsets : List Upset)
  /-- A head's line period ends (R149, R198). -/
  | lineLeft (h : Fin 32)
  /-- A 256 ns refill tick (R173); outstanding beads of W0 to W3 at its end and their peaks in the tick. -/
  | fshRefillTick (pending : List Nat) (peak : List Nat)
  /-- FSH makes the next run-ahead request of a group (R177). -/
  | runAheadRequest (g : Fin 8)
  /-- A write to LAYER_CNT word w of a descriptor (R182). -/
  | layerCntClear (m : Master) (desc : Fin 4096) (w : Fin 4)
  -- commits, fences
  /-- SEQ_Gn_COMMIT written with CMD = COMMIT (R192). -/
  | seqCommit (m : Master) (g : Fin 8) (tag : BitVec 16)
  /-- SEQ_Gn_COMMIT written with CMD = CANCEL (R195). -/
  | seqCancel (m : Master) (g : Fin 8) (tag : BitVec 16)
  /-- The COMMIT job of a queue acts (R193). -/
  | commitJob (q : Fin 64)
  /-- The job that has waited longest takes a group's freed slot (R193). -/
  | commitJobSlotTaken (g : Fin 8)
  /-- A frame boundary of a group (R197). -/
  | frameBoundary (g : Fin 8)
  /-- Fence word 0 written with SIG = 1, WRITING = 0 (R201). -/
  | fenceSignalWrite (m : Master) (handle : BitVec 16)
  /-- Fence word 0 written with WRITING = 1, SIG = 0 (R201). -/
  | fenceWritingWrite (m : Master) (handle : BitVec 16)
  /-- LAYER_SRC word 1 written (R205). -/
  | layerSrcClear (m : Master) (desc : Fin 4096)
  -- heads, ports, write-back, safe state
  /-- A head enters its gap (R206). -/
  | headGapStart (h : Fin 32)
  /-- A head's output divider is loaded during a gap (R206). -/
  | outputDividerLoad (h : Fin 32)
  /-- A frame start of a group (R290). -/
  | groupFrameStart (g : Fin 8)
  /-- A head starts line 0 (R218). -/
  | headLine0 (h : Fin 32)
  /-- A head's end of frame (R198). -/
  | headEndOfFrame (h : Fin 32)
  /-- OWB_Hnn_RESET.GO written (R221). -/
  | headReset (m : Master) (h : Fin 32)
  /-- The next result line of a head reaches its write-back branch; whether the store is full (R234, R235). -/
  | wbBeadArrival (h : Fin 32) (beads : Nat) (storeFull : Bool)
  /-- The CAPTURE job of a queue acts (R237). -/
  | capture (q : Fin 64)
  /-- HPD high for 2 ms (R226). -/
  | dpHpdPlug (d : Fin 16)
  /-- HPD low for 2 ms (R226). -/
  | dpHpdUnplug (d : Fin 16)
  /-- IRQ_HPD; whether the sink reports lost lock (R226), and whether a faulty lane of the port is why (R392). -/
  | dpIrqHpd (d : Fin 16) (lost lane : Bool)
  /-- OWB_Ddd_CTRL written (R226). -/
  | dpCtrlWrite (m : Master) (d : Fin 16) (v : Word)
  /-- Training ends: the configurations the sink supports, and those of them that train (R226). -/
  | dpTrainingDone (d : Fin 16) (sink : List DpConfig) (trains : List DpConfig)
  /-- The 1 s retry timer expires (R226). -/
  | dpTrainingRetry (d : Fin 16)
  /-- AUX_CMD TYPE 0 (R229). -/
  | auxNativeRead (m : Master) (d : Fin 16) (len : Fin 16) (addr : BitVec 20)
  /-- AUX_CMD TYPE 1 (R229). -/
  | auxNativeWrite (m : Master) (d : Fin 16) (len : Fin 16) (addr : BitVec 20)
  /-- AUX_CMD TYPE 2 (R229). -/
  | auxI2cRead (m : Master) (d : Fin 16) (len : Fin 16) (addr : BitVec 20)
  /-- AUX_CMD TYPE 3 (R229). -/
  | auxI2cWrite (m : Master) (d : Fin 16) (len : Fin 16) (addr : BitVec 20)
  /-- An AUX reply (R229). -/
  | auxReply (d : Fin 16) (r : AuxReply)
  /-- 400 us without an AUX reply (R229). -/
  | auxTimeout (d : Fin 16)
  /-- OWB_Hnn_SAFE_CTRL written with FORCE = 1 (R240). -/
  | safeForceWrite (m : Master) (h : Fin 32) (v : Word)
  /-- OWB_Hnn_SAFE_CTRL written with RELEASE = 1 (R241). -/
  | safeReleaseWrite (m : Master) (h : Fin 32) (v : Word)
  /-- OWB_Hnn_SAFE_CTRL written with neither (R238, R241). -/
  | safeCtrlWrite (m : Master) (h : Fin 32) (v : Word)
  /-- A SAFE_FRAME word written (R241). -/
  | safeFrameWrite (m : Master) (addr : BitVec 18) (v : Word)
  -- network
  /-- An Ethernet frame received whole on a port, destination MAC through FCS, and what comes with it. -/
  | ethRxFrame (p : Fin 16) (frame : List Byte) (note : RxNote)
  /-- The close timer of a stream's frame ends; the frame's RTP timestamp (R261). -/
  | rxFrameClose (st : Fin 256) (ts : Word)
  /-- A stream has had no packet for 100 ms (R261). -/
  | rxStreamSilence (st : Fin 256)
  /-- A path has delivered no packet for 10 ms; path B when true (R259). -/
  | rxPathLivenessTimeout (st : Fin 256) (pathB : Bool)
  /-- An NMP_RXS word written (R257). -/
  | rxStreamConfigWrite (m : Master) (addr : BitVec 12) (v : Word)
  /-- An NMP_TXS word written (R252). -/
  | txStreamConfigWrite (m : Master) (addr : BitVec 10) (v : Word)
  /-- A port's line is free (R264); whether the timestamp of the frame it takes is lost (R268). -/
  | egressLineFree (p : Fin 16) (stampLost : Bool)
  /-- A counter word of NMP_RXC (false) or NMP_TXC (true) written (R275). -/
  | nmpCounterClear (m : Master) (tx : Bool) (addr : BitVec 12)
  /-- NMP_Pnn_GCL_CTRL written with APPLY = 1 (R266). -/
  | gclApply (m : Master) (p : Fin 16) (v : Word)
  /-- NMP_Pnn_GCL_CTRL written with CANCEL = 1 (R266). -/
  | gclCancel (m : Master) (p : Fin 16) (v : Word)
  /-- The instant of a pending gate list arrives (R266). -/
  | gclSwitch (p : Fin 16)
  /-- The interval of the operative entry expires (R266). -/
  | gclEntryEnd (p : Fin 16)
  /-- The Sync interval of a master port expires (R267). -/
  | ptpSyncTx (p : Fin 16)
  /-- The Announce interval of a master port expires (R269). -/
  | ptpAnnounceTx (p : Fin 16)
  /-- The Delay_Req interval of a slave port expires (R267). -/
  | ptpDelayReqTx (p : Fin 16)
  /-- No Announce within the receipt timeout (R267). -/
  | ptpAnnounceTimeout (p : Fin 16)
  /-- NMP_Pnn_RESET.GO written (R270). -/
  | nmpPortReset (m : Master) (p : Fin 16)
  /-- A media port's link comes up (R270). -/
  | ethLinkUp (p : Fin 16)
  /-- A media port's link goes down (R271); whether for a fault of a lane of the port (R392). -/
  | ethLinkDown (p : Fin 16) (lane : Bool)
  -- timing
  /-- TRS_TIME_LO read (R278). -/
  | timeLoRead (m : Master)
  /-- TRS_TOD_SET_HI written (R279). -/
  | todSetHiWrite (m : Master) (v : Word)
  /-- An active edge on REFIN0 or REFIN1 (R280). -/
  | refinEdge (i : Fin 2)
  /-- A 1 ms window of a 10 MHz input ends with this many cycles (R280). -/
  | refinWindowEnd (i : Fin 2) (cycles : Nat)
  /-- No edge by the nominal period plus tolerance (R280). -/
  | refEdgeTimeout (i : Fin 2)
  /-- No Sync for three Sync intervals (R280). -/
  | ptpSyncTimeout (p : Fin 16)
  /-- A candidate's conditions have held for QUAL_TIME (R280). -/
  | refQualified (c : Fin 19)
  /-- The phase error has stayed within THRESH for LOCK_TIME (R282). -/
  | trsLockAchieved
  /-- The phase error has exceeded 8 THRESH for 1 s (R282). -/
  | trsPhaseErrorTimeout
  /-- A better candidate has stayed qualified for WTR (R282). -/
  | trsWtrExpiry
  /-- HO_LIMIT hours have passed in HOLDOVER (R282). -/
  | holdoverLimitExpiry
  /-- TRS_REF_CTRL (0) or TRS_REF_PRIO0 to 2 (1 to 3) written (R281). -/
  | refCtrlWrite (m : Master) (reg : Fin 4) (v : Word)
  /-- TRS_REF_CTRL written with STEP_NOW = 1 (R284). -/
  | trsStepNow (m : Master) (v : Word)
  /-- The bleed timer moves the build-out 1 ns (R284). -/
  | buildoutBleedStep
  /-- Ten seconds of LOCKED end: the loop's mean y in 1/16 ppb, and the reference's phase error now (R285). -/
  | holdoverLearnTick
  /-- A 10 ms holdover update (R286). -/
  | holdoverUpdateTick
  /-- An oscillator-temperature conversion ends (R288). -/
  | tempConversionEnd (c : TempConv)
  /-- A band-search try of a group's pixel PLL ends (R295). -/
  | pllLockTryEnd (g : Fin 8) (r : PllTry)
  /-- A group's pixel PLL loses lock outside a search (R295). -/
  | pllUnlock (g : Fin 8)
  /-- TRS_SYNC_CTRL written with ARM = 1 (R298). -/
  | syncInArm (m : Master) (v : Word)
  /-- An active SYNC_IN edge (R298). -/
  | syncInEdge
  /-- A whole millisecond of device time: BSL_OUT sends its message (R299). -/
  | bslMessageTx
  /-- A message received on BSL_IN: its 52 bytes (R300). -/
  | bslMessageRx (msg : List Byte)
  /-- The BSL receiver aligns (R300). -/
  | bslLinkAlign
  -- queues, host
  /-- HWQ_Qnn_DB written (R318). -/
  | doorbell (m : Master) (q : Fin 64)
  /-- A board queue's HWQ_Qnn_PROD written (R318). -/
  | boardProdWrite (m : Master) (q : Fin 16) (v : Word)
  /-- The producer-index read of a queue completes: the index record's bytes 0 to 3 for a memory queue (R318). -/
  | prodIndexRead (q : Fin 64) (host : HostRead)
  /-- The queue's next entry is read: its 64 bytes from host memory for a memory queue; what the checks of its ring word in QRING, or of its
  index and configuration state, find (R320, R322, R337); a copy of L whose word is uncorrectable, the second when true (R336). -/
  | queueEntryRead (q : Fin 64) (host : HostRead) (ecc : Ecc) (badL : Option Bool)
  /-- The SURFACE_UPLOAD job of a queue: the host reads of its next lines (R325). -/
  | surfaceUpload (q : Fin 64) (lines : List HostRead)
  /-- The SURFACE_COPY job of a queue copies its next n lines (R326). -/
  | surfaceCopy (q : Fin 64) (n : Nat)
  /-- The FILL job of a queue writes its next n lines (R326). -/
  | fill (q : Fin 64) (n : Nat)
  /-- The OFFLINE_COMPOSE job of a queue composes its next n lines (R327). -/
  | offlineCompose (q : Fin 64) (n : Nat) (upsets : List Upset)
  /-- The TALLY_QUERY job of a queue acts (R328). -/
  | tallyQuery (q : Fin 64) (upsets : List Upset)
  /-- A function-level reset; PF1 when true (R333). -/
  | pcieFlr (pf1 : Bool)
  /-- GLB_FUNC_RESET.PF0 written (R332). -/
  | glbFuncResetPf0 (m : Master)
  /-- GLB_FUNC_RESET.PF1 written (R332). -/
  | glbFuncResetPf1 (m : Master)
  /-- GLB_FUNC_RESET.BOARD written (R332). -/
  | glbFuncResetBoard (m : Master)
  /-- The jobs of a reset owner (0 board, 1 PF0, 2 PF1) have ended (R333, R334). -/
  | funcResetJobsEnded (owner : Fin 3)
  /-- HWQ_Qnn_CFG written (R317). -/
  | queueCfgWrite (m : Master) (q : Fin 64) (v : Word)
  /-- HWQ_Fk_EVR_CFG written with EN = 1 (R339). -/
  | evrEnable (m : Master) (k : Fin 2) (v : Word)
  /-- HWQ_Fk_EVR_CONS written (R340). -/
  | evrConsWrite (m : Master) (k : Fin 2) (v : Word)
  /-- The HOLDOFF of an event ring expires (R342). -/
  | msixHoldoffExpiry (k : Fin 2)
  /-- A vector of a function is unmasked, with its address and data in the MSI-X table (R308, R342). -/
  | msixUnmask (k : Fin 2) (vec : Fin 128) (addr : BitVec 64) (data : Word)
  /-- A BAR2 read by a function (R313). -/
  | apertureRead (k : Fin 2) (off : BitVec 30) (len : Nat)
  /-- A BAR2 posted write by a function (R313). -/
  | apertureWrite (k : Fin 2) (off : BitVec 30) (data : List Byte)
  /-- A PCIe lane fails and the link retrains to this width and speed; 0 lanes when it goes down (R309). -/
  | pcieLaneFail (width : Nat) (speed : Nat)
  -- register access
  /-- A read cycle of the LMP at a word address; whether LMP_WR_N is low too (R350, R351); what the mirror word's check finds (R352). -/
  | lmpReadCycle (a : BitVec 22) (wrLow : Bool) (ecc : Ecc)
  /-- A write cycle of the LMP: word address, byte enables (1 enabled), data; whether LMP_RD_N is low too (R351). -/
  | lmpWriteCycle (a : BitVec 22) (be : BitVec 4) (v : Word) (rdLow : Bool)
  /-- A write by a PCIe function or the LMP to a register without behaviour of its own (R353); byte enables. -/
  | registerWrite (m : Master) (off : BitVec 24) (be : BitVec 4) (v : Word)
  /-- The write at the head of a master's queue takes effect (R353). -/
  | writeTakeEffect (m : Master)
  /-- A read of `dws` words from a register on (R310), RC fields cleared when the master is privileged (R357); what the check of the first
  mirror word finds (R352). -/
  | rcRegisterRead (m : Master) (off : BitVec 24) (dws : Nat) (ecc : Ecc)
  /-- A write to a WM register (R356). -/
  | wmRegisterWrite (m : Master) (k : Fin 4) (v : Word)
  /-- GLB_IDX_SEL written (R360). -/
  | idxSelWrite (m : Master) (v : Word)
  /-- GLB_IDX_ADDR written (R360). -/
  | idxAddrWrite (m : Master) (v : Word)
  /-- GLB_IDX_DATA read (R361). -/
  | idxDataRead (m : Master)
  /-- GLB_IDX_DATA written (R360). -/
  | idxDataWrite (m : Master) (v : Word)
  /-- The prefetch of a master's indirect word completes (R361); what the check of the word finds (R119, R138, R391). -/
  | idxPrefetchDone (m : Master) (ecc : Ecc)
  -- integrity
  /-- IHM_CFGCRC_CTRL written with ARM = 1 (R366). -/
  | cfgcrcArm (m : Master)
  /-- IHM_CFGCRC_CTRL written with ARM = 0 (R366). -/
  | cfgcrcDisarm (m : Master)
  /-- IHM_CFGCRC_REF written (R366). -/
  | cfgcrcRefWrite (m : Master) (v : Word)
  /-- A configuration-CRC pass ends (R365). -/
  | cfgcrcPassEnd
  /-- A source is raised on its error line (R373). -/
  | sourceRaise (src : Fin 320)
  /-- A source's counting window expires (R377). -/
  | countWindowEnd (src : Fin 320)
  /-- IHM_PHASE written (R377). -/
  | phaseSet (m : Master) (v : Word)
  /-- An FC_SRC word written (R375). -/
  | fcSrcWrite (m : Master) (src : Fin 320) (v : Word)
  /-- IHM_FC_CLEAR naming a source (R380). -/
  | fcClearSource (m : Master) (src : BitVec 9)
  /-- IHM_FC_CLEAR with ALL = 1 (R380). -/
  | fcClearAll (m : Master)
  /-- IHM_FC_CLEAR with SELF = 1 (R380). -/
  | fcClearSelf (m : Master)
  /-- CLEAR = 1 written to IHM_HISTq_CTRL (R382). -/
  | histClear (m : Master) (q : Fin 4)
  /-- A region's last pixel passes the tally point (R385); what the check of its words finds (R386, R391). -/
  | tallyCompare (r : Fin 512) (upsets : List Upset)
  /-- A parity sweep of the collector ends; a word that newly fails parity (R391). -/
  | collectorSweepEnd (failing : Option Nat)
  /-- The two copies of the force path disagree for 100 ns (R391). -/
  | collectorCopyDisagree
  /-- IHM_INJ written with GO = 1 (R394). -/
  | injGo (m : Master) (v : Word)
  /-- IHM_INJ written with CANCEL = 1 (R395). -/
  | injCancel (m : Master) (v : Word)
  /-- IHM_CRCUu_CTRL written with LOAD = 1 (R396). -/
  | crcuLoad (m : Master) (u : Fin 4) (v : Word)
  /-- IHM_CRCUu_DATA8 written (R396). -/
  | crcuData8 (m : Master) (u : Fin 4) (v : Word)
  /-- IHM_CRCUu_DATA16 written (R396). -/
  | crcuData16 (m : Master) (u : Fin 4) (v : Word)
  /-- IHM_CRCUu_DATA32 written (R396). -/
  | crcuData32 (m : Master) (u : Fin 4) (v : Word)
  -- health
  /-- A cycle meter's window ends: period in ps, ring period in ps, handshakes counted (R401). -/
  | meterWindowEnd (u : Fin 570) (period : Nat) (ring : Nat) (handshakes : Nat)
  /-- An idle unit has run its self-test; whether it passed (R401, R456). -/
  | selfTestRun (u : Fin 570) (passed : Bool) (period : Nat) (ring : Nat)
  /-- Start-up self-test ends: the units that failed it, and the windows measured: unit, period and ring period in ps
  (R405). -/
  | startupSelfTestDone (failed : List (Fin 570)) (windows : List (Fin 570 × Nat × Nat))
  /-- IHM_CARRY_CMD written with GO = 1 (R406). -/
  | carryCmd (m : Master) (v : Word)
  /-- A unit is found faulty (R406); whether by VOID beads it answers (R122). -/
  | unitFault (u : Fin 570) (voids : Bool)
  /-- The spare of the carry of a class is powered and ready (R407). -/
  | carrySpareReady (c : UnitClass)
  /-- The old unit of the carry of a class has delivered its last step of the old frame (R407). -/
  | carryOldUnitDone (c : UnitClass)
  /-- The spare rod is joined at both switches (R408). -/
  | rodSpareJoined
  /-- The old rod has delivered or voided its beads (R408). -/
  | rodCarryEnd
  /-- A draining unit has answered every request (R411). -/
  | drainEnd (u : Fin 570)
  /-- IHM_UNIT_CMD written with OP = RESET (R412). -/
  | unitReset (m : Master) (v : Word)
  /-- A reset unit is active again (R412). -/
  | unitResetDone (u : Fin 570)
  /-- A unit has been idle for 1 ms (R413). -/
  | unitPowerGate (u : Fin 570)
  /-- 100 ms without heads, streams or jobs (R413). -/
  | hbmSelfRefreshEntry
  /-- REQ_STATE and EFF_STATE of a metered unit, a head, a port or another unit differ for a frame: its source. -/
  | stateMismatchTimeout (src : Fin 320)
  /-- The 1 ms voltage update; the readback in mV, none without a valid response (R415, R417). -/
  | avsUpdate (readback : Option Nat)
  /-- The 1 ms thermal update (R418). -/
  | thermalUpdate (t : Temps)
  /-- The shutdown temperature has held for 1 ms (R420). -/
  | thermalShutdown
  -- links and reports
  /-- The PCIe link goes down (R345). -/
  | pcieLinkDown
  /-- The PCIe link comes up at this width and speed, and answers the configuration requests that leave the functions so (R44). -/
  | pcieLinkUp (width : Nat) (speed : Nat) (pf0 : HostConfig) (pf1 : HostConfig)
  /-- The PHY reports lost training (R89). -/
  | hbmPcTrainingLost (pc : Fin 128)
  /-- Retraining restores a pseudo-channel (R89). -/
  | hbmPcRetrainDone (pc : Fin 128)
  /-- A refresh falls due (R169). -/
  | hbmRefreshDue (pc : Fin 128)
  /-- The BSL receiver loses alignment (R300). -/
  | bslLinkLost
  /-- No BSL message in the expected millisecond (R300). -/
  | bslMessageMissing
  /-- A 1 us interval of a port ends (R263). -/
  | txqWmIntervalEnd (p : Fin 16)
  deriving DecidableEq, Repr

end Sys2Proof
end

