-- ==== Sys2Proof/Config.lean ====
section
/-!
DEFINITION. What one device fixes (its ordering variant and fused values), and the free values: constants without a body
for what the spec leaves open. A statement about a free value holds for every value of it.
-/
namespace Sys2Proof.Config

/-- The ordering variants of R2. -/
inductive Variant where
  /-- TCH-5120-H96-C. -/
  | h96c
  /-- TCH-5120-H96-E. -/
  | h96e
  /-- TCH-5120-H48-C. -/
  | h48c
  deriving DecidableEq, Repr

/-- GLB_DEVICE_ID of a variant at stepping B0 (R3, R430). -/
def Variant.deviceId : Variant → Word
  | .h96c => 0x01B05120#32
  | .h96e => 0x11B05120#32
  | .h48c => 0x02B05120#32

/-- Whether the variant holds four 24 GB stacks (R2). -/
def Variant.isH96 : Variant → Bool
  | .h48c => false
  | _ => true

/-- Stripes of SSP_CAPACITY (R92). -/
def Variant.capacity (v : Variant) : Nat := if v.isH96 then 0x170000 else 0xB8000

/-- Stripes of one pseudo-channel available for data (R67). -/
def Variant.stripesPerPc (v : Variant) : Nat := if v.isH96 then 12096 else 6048

/-- Spare rows of one pseudo-channel (R67). -/
def Variant.spareRows (v : Variant) : Nat := if v.isH96 then 12288 else 6144

/-- Stripes of the carry landing area (R88). -/
def Variant.landing (v : Variant) : Nat := if v.isH96 then 26624 else 12288

/-- Stripes of the retirement headroom (R88). -/
def Variant.headroom (v : Variant) : Nat := if v.isH96 then 12288 else 6144

/-- A pixel that completes a last, partial pixel group of a transmitted line: the spec states none. By a fresh number. -/
opaque freePixel : Nat → BitVec 64

/-- The fused BASE ratio of metered unit u (R401). DESIGN CHOICE: production test fixes it per part, so it is free. -/
opaque fusedBase : Nat → BitVec 16

/-- Damping of the second-order loop, by BW: R282 states the order and the bandwidth, which leave it open. -/
opaque loopDamping : Nat → Rat

/-- Where the triangular spread of a group's pixel PLL stands when the oscillator starts, in periods (R296): the spec states no phase. -/
opaque sscPhase : Nat → Rat

/-- The temperature of OSCTEMP, in 1/256 degree, for a sample as a fraction of VPLL with BETA = 0: the B-constant formula gives none. -/
opaque ntcZero : Rat → Int

/-- Haldune's PCI-SIG vendor identifier (R308). -/
opaque vendorId : BitVec 16

/-- Capabilities Pointer of the functions' configuration space, and the link to the next capability behind MSI-X. -/
opaque capPointer : BitVec 8
opaque capNext : BitVec 8

/-- Half the density, in bytes, of the flash attached, where the loader has not read its SFDP (R47, R65). -/
opaque flashHalf : Nat

/-- Latency in ns from the start of R15 to the first safe-state pixel; R15 bounds it by 1000. -/
opaque safeLatency : Nat → BitVec 10

/-- A value free at each use, by a fresh number: what a read returns where no value is stated. -/
opaque freeWord : Nat → BitVec 32

/-- The coefficient of a column of the fit of R285 that the records leave undetermined, by a fresh number and the column. -/
opaque fitFree : Nat → Nat → Rat

end Sys2Proof.Config
end

