-- ==== Sys2Proof/Machine/KMap.lean ====
section
/-!
DEFINITION. Sparse maps in canonical form, and the bit-field and byte-order helpers every meaning uses.
-/
namespace Sys2Proof.Machine

variable {α : Type}

/-- What key `k` reads as; `d` is what an unlisted key reads as. -/
def kget (d : Nat → α) : KMap α → Nat → α
  | [], k => d k
  | (k', v) :: m, k => if k = k' then v else kget d m k

/-- List `v` at key `k`, keeping keys strictly rising. -/
def kput : KMap α → Nat → α → KMap α
  | [], k, v => [(k, v)]
  | (k', v') :: m, k, v =>
    if k = k' then (k, v) :: m else if k < k' then (k, v) :: (k', v') :: m else (k', v') :: kput m k v

/-- Drop key `k`. -/
def kdel : KMap α → Nat → KMap α
  | [], _ => []
  | (k', v') :: m, k => if k = k' then kdel m k else (k', v') :: kdel m k

/-- Write `v` at key `k`; writing what an unlisted key reads as removes the entry. -/
def kset [DecidableEq α] (d : Nat → α) (m : KMap α) (k : Nat) (v : α) : KMap α :=
  if v = d k then kdel m k else kput m k v

/-- The canonical form, for keys at or above `lo`: strictly rising, no entry equal to what an unlisted key reads as. -/
def kwfFrom [DecidableEq α] (d : Nat → α) : Nat → KMap α → Bool
  | _, [] => true
  | lo, (k, v) :: m => decide (lo ≤ k) && decide (v ≠ d k) && kwfFrom d (k + 1) m

/-- The canonical form of a sparse map. -/
def kwf [DecidableEq α] (d : Nat → α) (m : KMap α) : Bool := kwfFrom d 0 m

/-- Drop every key in [lo, hi). -/
def kclear : KMap α → Nat → Nat → KMap α
  | [], _, _ => []
  | (k, v) :: m, lo, hi => if lo ≤ k ∧ k < hi then kclear m lo hi else (k, v) :: kclear m lo hi

/-- The entries at keys in [lo, hi). -/
def krange : KMap α → Nat → Nat → KMap α
  | [], _, _ => []
  | (k, v) :: m, lo, hi => if lo ≤ k ∧ k < hi then (k, v) :: krange m lo hi else krange m lo hi

/-- The entries that list the values `vs` from key `k` on: those that differ from what an unlisted key reads as. -/
def kblock [DecidableEq α] (d : Nat → α) : Nat → List α → KMap α
  | _, [] => []
  | k, v :: vs => if v = d k then kblock d (k + 1) vs else (k, v) :: kblock d (k + 1) vs

/-- Write the values `vs` at the keys from `k` on. -/
def kputs [DecidableEq α] (d : Nat → α) (m : KMap α) (k : Nat) (vs : List α) : KMap α :=
  let hi := k + vs.length
  m.filter (fun e => e.1 < k) ++ kblock d k vs ++ m.filter (fun e => hi ≤ e.1)

/-- `n` values from key `k` on, of a map in canonical form whose keys below `k` are dropped. -/
def kspan (d : Nat → α) : Nat → Nat → KMap α → List α
  | 0, _, _ => []
  | n + 1, k, [] => d k :: kspan d n (k + 1) []
  | n + 1, k, (k', v) :: m => if k' = k then v :: kspan d n (k + 1) m else d k :: kspan d n (k + 1) ((k', v) :: m)

/-- `n` values from key `k` on. -/
def kgets (d : Nat → α) (m : KMap α) (k n : Nat) : List α := kspan d n k (krange m k (k + n))

/-- How many different numbers a list holds; the pair is the set of those seen, as a bit mask, and their count. -/
def countDistinct (xs : List Nat) : Nat :=
  (xs.foldl (fun (a : Nat × Nat) k => if a.1.testBit k then a else (a.1 ||| 2 ^ k, a.2 + 1)) (0, 0)).2

/-- Bits hi to lo of a word, as a number. -/
def bits (w : Word) (hi lo : Nat) : Nat := (w.toNat >>> lo) % 2 ^ (hi + 1 - lo)

/-- Bit i of a word. -/
def bit (w : Word) (i : Nat) : Bool := w.toNat.testBit i

/-- A word with bits hi to lo replaced by the low bits of `v`. -/
def setBits (w : Word) (hi lo : Nat) (v : Nat) : Word :=
  let span := 2 ^ (hi + 1 - lo)
  BitVec.ofNat 32 ((w.toNat >>> (hi + 1)) <<< (hi + 1) + (v % span) <<< lo + w.toNat % 2 ^ lo)

/-- A word with bit i set to `b`. -/
def setBit (w : Word) (i : Nat) (b : Bool) : Word := setBits w i i (if b then 1 else 0)

/-- A number as a word. -/
def word (n : Nat) : Word := BitVec.ofNat 32 n

/-- A signed number as a word, two's complement. -/
def wordOfInt (i : Int) : Word := BitVec.ofInt 32 i

/-- A signed number saturated to 32 bits, as a word. -/
def satWord (i : Int) : Word := BitVec.ofInt 32 (max (-2147483648) (min 2147483647 i))

/-- A 32-bit saturating increase. -/
def satAdd32 (w : Word) (n : Nat) : Word := word (min (w.toNat + n) 0xFFFFFFFF)

/-- A saturating increase of the field at bits hi to lo. -/
def satField (w : Word) (hi lo : Nat) (n : Nat) : Word :=
  setBits w hi lo (min (bits w hi lo + n) (2 ^ (hi + 1 - lo) - 1))

/-- The bits of `w` where the mask is set replaced by those of `v`. -/
def merge (w v mask : Word) : Word := (w &&& ~~~mask) ||| (v &&& mask)

/-- Two's complement reading of the low n bits of a number. -/
def signed (n : Nat) (v : Nat) : Int := if v % 2 ^ n < 2 ^ (n - 1) then (v % 2 ^ n : Nat) else ((v % 2 ^ n : Nat) : Int) - 2 ^ n

/-- Ceiling of a quotient; 0 when the divisor is 0. -/
def ceilDiv (a b : Nat) : Nat := if b = 0 then 0 else (a + b - 1) / b

/-- Little-endian value of bytes (R48). -/
def leNat : List Byte → Nat
  | [] => 0
  | b :: bs => b.toNat + 256 * leNat bs

/-- Big-endian value of bytes, given what stands above them. -/
def beNatFrom : Nat → List Byte → Nat
  | acc, [] => acc
  | acc, b :: bs => beNatFrom (256 * acc + b.toNat) bs

/-- Big-endian value of bytes (network byte order). -/
def beNat (bs : List Byte) : Nat := beNatFrom 0 bs

/-- `n` bytes of a number, least significant first. -/
def leBytes : Nat → Nat → List Byte
  | 0, _ => []
  | n + 1, v => BitVec.ofNat 8 v :: leBytes n (v / 256)

/-- `n` bytes of a number, most significant first. -/
def beBytes (n v : Nat) : List Byte := (leBytes n v).reverse

/-- Bytes [off, off + len) of a list, missing ones read as 0. -/
def slice (bs : List Byte) (off len : Nat) : List Byte :=
  (bs.drop off).take len ++ List.replicate (len - ((bs.drop off).take len).length) 0#8

/-- Little-endian field of a byte list. -/
def le (bs : List Byte) (off len : Nat) : Nat := leNat (slice bs off len)

/-- Big-endian field of a byte list. -/
def be (bs : List Byte) (off len : Nat) : Nat := beNat (slice bs off len)

/-- Byte `i` of a list as a number. -/
def byteAt (bs : List Byte) (i : Nat) : Nat := (bs.getD i 0#8).toNat

/-- Whether every byte is zero. -/
def allZero (bs : List Byte) : Bool := bs.all (· == 0#8)

/-- Replace element `i` of a list; a position outside it changes nothing. -/
def setAt : List α → Nat → α → List α
  | [], _, _ => []
  | _ :: xs, 0, v => v :: xs
  | x :: xs, n + 1, v => x :: setAt xs n v

/-- One step of a reflected CRC over a bit width, for one bit already merged (R48). -/
def crcBit (poly : Nat) (c : Nat) : Nat := if c % 2 = 1 then (c / 2) ^^^ poly else c / 2

/-- Eight bit steps. -/
def crcByte (poly : Nat) (c : Nat) (b : Byte) : Nat :=
  let f := crcBit poly
  f (f (f (f (f (f (f (f (c ^^^ b.toNat))))))))

/-- The running register of CRC-32C with the reflected Castagnoli polynomial, over more bytes (R48). -/
def crc32cStep (c : Nat) (bs : List Byte) : Nat := bs.foldl (crcByte 0x82F63B78) c

/-- CRC-32C with the parameters of R48. -/
def crc32c (bs : List Byte) : Nat := (crc32cStep 0xFFFFFFFF bs) ^^^ 0xFFFFFFFF

/-- The Ethernet frame check sequence (IEEE 802.3 CRC-32). -/
def crcEth (bs : List Byte) : Nat := (bs.foldl (crcByte 0xEDB88320) 0xFFFFFFFF) ^^^ 0xFFFFFFFF

/-- A ratio compared with another: a ≤ b. -/
def fracLe (a b : Frac) : Bool := decide (a.num * b.den ≤ b.num * a.den)

/-- Sum of ratios. -/
def fracAdd (a b : Frac) : Frac := ⟨a.num * b.den + b.num * a.den, a.den * b.den⟩

/-- A ratio reduced to lowest terms. -/
def fracNorm (a : Frac) : Frac := let g := Nat.gcd a.num a.den; if g = 0 then a else ⟨a.num / g, a.den / g⟩

/-- A ratio rounded up to a multiple of 2^-16, in units of 2^-16 (R157). -/
def q16 (a : Frac) : Nat := ceilDiv (a.num * 65536) a.den

/-- Round a ratio of integers to nearest, halves away from zero; 0 when the divisor is 0. -/
def roundDiv (a : Int) (b : Nat) : Int :=
  if b = 0 then 0 else if 0 ≤ a then (2 * a + b) / (2 * b) else -((2 * (-a) + b) / (2 * b))

end Sys2Proof.Machine
end

