-- ==== Sys2Proof/Machine/Registers.lean ====
section
/-!
DEFINITION. The register map: the offset of every register by its name in the spec (R425 to R427, R431 and the register
tables of each chapter), the table of their field masks, privilege, reset value and deck class, and the index of
indirect spaces (R428).
-/
namespace Sys2Proof.Machine

/-- How the fields of a register are privileged (the Priv column; R210, R314, R343). -/
inductive PrivKind where
  /-- Open. -/
  | open_
  /-- Privileged-only. -/
  | priv
  /-- Open, privileged while the head, or a head of the group, has tallies enabled (R210). -/
  | r210
  /-- Privileged for board queues, under the ownership rule of R314 for memory queues. -/
  | queue
  /-- A register of one PCIe function, under the ownership rule of R314. -/
  | func
  deriving DecidableEq, Repr

/-- Deck class (R188, R431). -/
inductive DeckClass where
  /-- Group-decked. -/
  | group
  /-- Disruptive. -/
  | disruptive
  /-- Immediate. -/
  | immediate
  /-- Status or command register. -/
  | none_
  deriving DecidableEq, Repr

/-- One row of a register table, over all its instances. -/
structure RegRow where
  /-- Offset of the first instance. -/
  base : Nat
  /-- Stride and count of the outer instance number. -/
  stride : Nat
  count : Nat
  /-- Stride and count of the inner instance number. -/
  stride2 : Nat
  count2 : Nat
  /-- RW and WM bits. -/
  rw : Word
  /-- RC bits. -/
  rc : Word
  /-- WO bits. -/
  wo : Word
  priv : PrivKind
  reset : Word
  cls : DeckClass
  deriving DecidableEq, Repr

-- The offsets of the registers, by their names.
namespace R

/-- GLB_DEVICE_ID (R430). -/
def GLB_DEVICE_ID : Nat := 0x000000
/-- GLB_FUNC_RESET (R344). -/
def GLB_FUNC_RESET : Nat := 0x000020
/-- GLB_VIEW (R191). -/
def GLB_VIEW : Nat := 0x000040
/-- GLB_WRQ (R353). -/
def GLB_WRQ : Nat := 0x000044
/-- GLB_BERR_LOG (R354). -/
def GLB_BERR_LOG : Nat := 0x000048
/-- GLB_FLAGSn (R356). -/
def GLB_FLAGSn (n : Nat) : Nat := 0x000080 + 0x4 * n
/-- LDR_STAT (R64). -/
def LDR_STAT : Nat := 0x010000
/-- LDR_A_GEN (R63). -/
def LDR_A_GEN : Nat := 0x010004
/-- LDR_A_ERR (R64). -/
def LDR_A_ERR : Nat := 0x010008
/-- LDR_B_GEN (R63). -/
def LDR_B_GEN : Nat := 0x01000C
/-- LDR_B_ERR (R64). -/
def LDR_B_ERR : Nat := 0x010010
/-- LDR_LOAD_TIME (R63). -/
def LDR_LOAD_TIME : Nat := 0x010014
/-- LDR_EARLY_WR (R63). -/
def LDR_EARLY_WR : Nat := 0x010018
/-- LDR_STRAPS (R63). -/
def LDR_STRAPS : Nat := 0x01001C
/-- LDR_CTRL (R64). -/
def LDR_CTRL : Nat := 0x010020
/-- LDR_SEAL_STAT (R63). -/
def LDR_SEAL_STAT : Nat := 0x010024
/-- LDR_MASTER_PRIV (R63). -/
def LDR_MASTER_PRIV : Nat := 0x010028
/-- LDR_UPD_CMD (R65). -/
def LDR_UPD_CMD : Nat := 0x010040
/-- LDR_UPD_ADDR (R65). -/
def LDR_UPD_ADDR : Nat := 0x010044
/-- LDR_UPD_STAT (R65). -/
def LDR_UPD_STAT : Nat := 0x010048
/-- HWQ_PRIV_DENY (R348). -/
def HWQ_PRIV_DENY : Nat := 0x020000
/-- HWQ_OWN_DENY (R343). -/
def HWQ_OWN_DENY : Nat := 0x020004
/-- HWQ_PCIE_STAT (R343). -/
def HWQ_PCIE_STAT : Nat := 0x020008
/-- HWQ_SUBSYS (R343). -/
def HWQ_SUBSYS : Nat := 0x02000C
/-- HWQ_QMAP0 (R343). -/
def HWQ_QMAP0 : Nat := 0x020010
/-- HWQ_QMAP1 (R343). -/
def HWQ_QMAP1 : Nat := 0x020014
/-- HWQ_QMAP2 (R343). -/
def HWQ_QMAP2 : Nat := 0x020018
/-- HWQ_AP_ERR (R343). -/
def HWQ_AP_ERR : Nat := 0x02001C
/-- HWQ_BOARD_DONE (R343). -/
def HWQ_BOARD_DONE : Nat := 0x020020
/-- HWQ_LMP_INT_EN (R343). -/
def HWQ_LMP_INT_EN : Nat := 0x020024
/-- HWQ_PRIV_DENY_LOG (R348). -/
def HWQ_PRIV_DENY_LOG : Nat := 0x020028
/-- HWQ_LMP_CFG (R351). -/
def HWQ_LMP_CFG : Nat := 0x020030
/-- HWQ_LMP_ERR (R351). -/
def HWQ_LMP_ERR : Nat := 0x020034
/-- HWQ_MIRROR_UE (R352). -/
def HWQ_MIRROR_UE : Nat := 0x020038
/-- HWQ_Fk_EVR_BASE_LO (R343). -/
def HWQ_Fk_EVR_BASE_LO (n : Nat) : Nat := 0x020100 + 0x80 * n
/-- HWQ_Fk_EVR_BASE_HI (R343). -/
def HWQ_Fk_EVR_BASE_HI (n : Nat) : Nat := 0x020104 + 0x80 * n
/-- HWQ_Fk_EVR_CFG (R344). -/
def HWQ_Fk_EVR_CFG (n : Nat) : Nat := 0x020108 + 0x80 * n
/-- HWQ_Fk_EVR_PROD (R343). -/
def HWQ_Fk_EVR_PROD (n : Nat) : Nat := 0x02010C + 0x80 * n
/-- HWQ_Fk_EVR_CONS (R343). -/
def HWQ_Fk_EVR_CONS (n : Nat) : Nat := 0x020110 + 0x80 * n
/-- HWQ_Fk_EVR_LOST (R343). -/
def HWQ_Fk_EVR_LOST (n : Nat) : Nat := 0x020114 + 0x80 * n
/-- HWQ_Fk_EVMASKn (R343). -/
def HWQ_Fk_EVMASKn (n : Nat) (k : Nat) : Nat := 0x020120 + 0x80 * n + 0x4 * k
/-- HWQ_Fk_AWww_CTRL (R343). -/
def HWQ_Fk_AWww_CTRL (n : Nat) (k : Nat) : Nat := 0x020400 + 0x100 * n + 0x8 * k
/-- HWQ_Fk_AWww_OFF (R343). -/
def HWQ_Fk_AWww_OFF (n : Nat) (k : Nat) : Nat := 0x020404 + 0x100 * n + 0x8 * k
/-- HWQ_Qnn_CFG (R344). -/
def HWQ_Qnn_CFG (n : Nat) : Nat := 0x021000 + 0x40 * n
/-- HWQ_Qnn_BASE_LO (R343). -/
def HWQ_Qnn_BASE_LO (n : Nat) : Nat := 0x021004 + 0x40 * n
/-- HWQ_Qnn_BASE_HI (R343). -/
def HWQ_Qnn_BASE_HI (n : Nat) : Nat := 0x021008 + 0x40 * n
/-- HWQ_Qnn_IDX_LO (R343). -/
def HWQ_Qnn_IDX_LO (n : Nat) : Nat := 0x02100C + 0x40 * n
/-- HWQ_Qnn_IDX_HI (R343). -/
def HWQ_Qnn_IDX_HI (n : Nat) : Nat := 0x021010 + 0x40 * n
/-- HWQ_Qnn_PROD (R343). -/
def HWQ_Qnn_PROD (n : Nat) : Nat := 0x021014 + 0x40 * n
/-- HWQ_Qnn_CONS (R343). -/
def HWQ_Qnn_CONS (n : Nat) : Nat := 0x021018 + 0x40 * n
/-- HWQ_Qnn_DB (R343). -/
def HWQ_Qnn_DB (n : Nat) : Nat := 0x02101C + 0x40 * n
/-- HWQ_Qnn_SEQ (R343). -/
def HWQ_Qnn_SEQ (n : Nat) : Nat := 0x021020 + 0x40 * n
/-- HWQ_Qnn_STAT (R344). -/
def HWQ_Qnn_STAT (n : Nat) : Nat := 0x021024 + 0x40 * n
/-- HWQ_Qnn_JOBS (R343). -/
def HWQ_Qnn_JOBS (n : Nat) : Nat := 0x021028 + 0x40 * n
/-- HWQ_Qnn_RERUNS (R343). -/
def HWQ_Qnn_RERUNS (n : Nat) : Nat := 0x02102C + 0x40 * n
/-- IHM_FC_SUMMARY (R398). -/
def IHM_FC_SUMMARY : Nat := 0x040000
/-- IHM_PHASE (R399). -/
def IHM_PHASE : Nat := 0x040004
/-- IHM_FC_CLEAR (R399). -/
def IHM_FC_CLEAR : Nat := 0x040008
/-- IHM_FC_SELF (R399). -/
def IHM_FC_SELF : Nat := 0x04000C
/-- IHM_SCOPE_MASKn (R398). -/
def IHM_SCOPE_MASKn (n : Nat) : Nat := 0x040010 + 0x4 * n
/-- IHM_DF_LOG (R398). -/
def IHM_DF_LOG : Nat := 0x040020
/-- IHM_TALLY_SUM (R398). -/
def IHM_TALLY_SUM : Nat := 0x040024
/-- IHM_FC_SRCn (R398). -/
def IHM_FC_SRCn (n : Nat) : Nat := 0x040040 + 0x4 * n
/-- IHM_HISTq_STAT (R398). -/
def IHM_HISTq_STAT (n : Nat) : Nat := 0x040080 + 0x8 * n
/-- IHM_HISTq_CTRL (R398). -/
def IHM_HISTq_CTRL (n : Nat) : Nat := 0x040084 + 0x8 * n
/-- IHM_INJ (R399). -/
def IHM_INJ : Nat := 0x040100
/-- IHM_INJ_STAT (R399). -/
def IHM_INJ_STAT : Nat := 0x040104
/-- IHM_CFGCRC_CTRL (R368). -/
def IHM_CFGCRC_CTRL : Nat := 0x040200
/-- IHM_CFGCRC_REF (R368). -/
def IHM_CFGCRC_REF : Nat := 0x040204
/-- IHM_CFGCRC_NOW (R368). -/
def IHM_CFGCRC_NOW : Nat := 0x040208
/-- IHM_CFGCRC_STAT (R368). -/
def IHM_CFGCRC_STAT : Nat := 0x04020C
/-- IHM_CRCUu_CTRL (R399). -/
def IHM_CRCUu_CTRL (n : Nat) : Nat := 0x040300 + 0x40 * n
/-- IHM_CRCUu_POLY (R398). -/
def IHM_CRCUu_POLY (n : Nat) : Nat := 0x040304 + 0x40 * n
/-- IHM_CRCUu_INIT (R398). -/
def IHM_CRCUu_INIT (n : Nat) : Nat := 0x040308 + 0x40 * n
/-- IHM_CRCUu_XOROUT (R398). -/
def IHM_CRCUu_XOROUT (n : Nat) : Nat := 0x04030C + 0x40 * n
/-- IHM_CRCUu_DATA8 (R398). -/
def IHM_CRCUu_DATA8 (n : Nat) : Nat := 0x040310 + 0x40 * n
/-- IHM_CRCUu_DATA16 (R398). -/
def IHM_CRCUu_DATA16 (n : Nat) : Nat := 0x040314 + 0x40 * n
/-- IHM_CRCUu_DATA32 (R398). -/
def IHM_CRCUu_DATA32 (n : Nat) : Nat := 0x040318 + 0x40 * n
/-- IHM_CRCUu_RESULT (R398). -/
def IHM_CRCUu_RESULT (n : Nat) : Nat := 0x04031C + 0x40 * n
/-- IHM_CRCUu_STAT (R399). -/
def IHM_CRCUu_STAT (n : Nat) : Nat := 0x040320 + 0x40 * n
/-- IHM_SPARE_CTRL (R423). -/
def IHM_SPARE_CTRL : Nat := 0x040400
/-- IHM_CARRY_CMD (R423). -/
def IHM_CARRY_CMD : Nat := 0x040404
/-- IHM_CARRY_STAT (R423). -/
def IHM_CARRY_STAT : Nat := 0x040408
/-- IHM_ROD_SPARE_STAT (R422). -/
def IHM_ROD_SPARE_STAT : Nat := 0x04040C
/-- IHM_UNIT_CMD (R423). -/
def IHM_UNIT_CMD : Nat := 0x040410
/-- IHM_PG_CTRL (R422). -/
def IHM_PG_CTRL : Nat := 0x040414
/-- IHM_AVS_CTRL (R423). -/
def IHM_AVS_CTRL : Nat := 0x040420
/-- IHM_AVS_VMIN (R422). -/
def IHM_AVS_VMIN : Nat := 0x040424
/-- IHM_AVS_VMAX (R422). -/
def IHM_AVS_VMAX : Nat := 0x040428
/-- IHM_AVS_STAT (R423). -/
def IHM_AVS_STAT : Nat := 0x04042C
/-- IHM_AVS_CONSTRAINED (R422). -/
def IHM_AVS_CONSTRAINED : Nat := 0x040430
/-- IHM_THERM_CTRL (R423). -/
def IHM_THERM_CTRL : Nat := 0x040440
/-- IHM_THERM_STAT (R423). -/
def IHM_THERM_STAT : Nat := 0x040444
/-- IHM_TEMP_DIE (R422). -/
def IHM_TEMP_DIE : Nat := 0x040448
/-- IHM_TEMP_HBM (R422). -/
def IHM_TEMP_HBM : Nat := 0x04044C
/-- IHM_TEMP_BOARD (R422). -/
def IHM_TEMP_BOARD : Nat := 0x040450
/-- TRS_STATE (R305). -/
def TRS_STATE : Nat := 0x080000
/-- TRS_REF_CTRL (R305). -/
def TRS_REF_CTRL : Nat := 0x080004
/-- TRS_REF_PRIOk (R304). -/
def TRS_REF_PRIOk (n : Nat) : Nat := 0x080008 + 0x4 * n
/-- TRS_REF_QUAL (R304). -/
def TRS_REF_QUAL : Nat := 0x080014
/-- TRS_LOOP (R305). -/
def TRS_LOOP : Nat := 0x080018
/-- TRS_REFINx_CTRL (R305). -/
def TRS_REFINx_CTRL (n : Nat) : Nat := 0x08001C + 0x8 * n
/-- TRS_REFINx_PER (R304). -/
def TRS_REFINx_PER (n : Nat) : Nat := 0x080020 + 0x8 * n
/-- TRS_BUILDOUT_LO (R304). -/
def TRS_BUILDOUT_LO : Nat := 0x080030
/-- TRS_BUILDOUT_HI (R304). -/
def TRS_BUILDOUT_HI : Nat := 0x080034
/-- TRS_BLEED (R304). -/
def TRS_BLEED : Nat := 0x080038
/-- TRS_TIME_LO (R304). -/
def TRS_TIME_LO : Nat := 0x080040
/-- TRS_TIME_HI (R304). -/
def TRS_TIME_HI : Nat := 0x080044
/-- TRS_TOD_SET_LO (R304). -/
def TRS_TOD_SET_LO : Nat := 0x080048
/-- TRS_TOD_SET_HI (R304). -/
def TRS_TOD_SET_HI : Nat := 0x08004C
/-- TRS_FREQ_CORR (R304). -/
def TRS_FREQ_CORR : Nat := 0x080050
/-- TRS_PHASE_ERR (R304). -/
def TRS_PHASE_ERR : Nat := 0x080054
/-- TRS_REF_SWITCHES (R304). -/
def TRS_REF_SWITCHES : Nat := 0x080058
/-- TRS_HO_CTRL (R305). -/
def TRS_HO_CTRL : Nat := 0x080060
/-- TRS_HO_AGE (R304). -/
def TRS_HO_AGE : Nat := 0x080064
/-- TRS_HO_C1 (R304). -/
def TRS_HO_C1 : Nat := 0x080068
/-- TRS_HO_C2 (R304). -/
def TRS_HO_C2 : Nat := 0x08006C
/-- TRS_HO_T0 (R304). -/
def TRS_HO_T0 : Nat := 0x080070
/-- TRS_HO_LEARNED (R304). -/
def TRS_HO_LEARNED : Nat := 0x080074
/-- TRS_TEMP_CTRL (R305). -/
def TRS_TEMP_CTRL : Nat := 0x080080
/-- TRS_TEMP_STAT (R305). -/
def TRS_TEMP_STAT : Nat := 0x080084
/-- TRS_LOCK_A (R304). -/
def TRS_LOCK_A : Nat := 0x080090
/-- TRS_SYNC_CTRL (R305). -/
def TRS_SYNC_CTRL : Nat := 0x0800A0
/-- TRS_SYNC_STAT (R305). -/
def TRS_SYNC_STAT : Nat := 0x0800A4
/-- TRS_SYNC_TS_LO (R304). -/
def TRS_SYNC_TS_LO : Nat := 0x0800A8
/-- TRS_SYNC_TS_HI (R304). -/
def TRS_SYNC_TS_HI : Nat := 0x0800AC
/-- TRS_BSL_CTRL (R304). -/
def TRS_BSL_CTRL : Nat := 0x0800C0
/-- TRS_BSL_STAT (R304). -/
def TRS_BSL_STAT : Nat := 0x0800C4
/-- TRS_BSL_DELAY (R304). -/
def TRS_BSL_DELAY : Nat := 0x0800C8
/-- TRS_BSL_ERR_CNT (R304). -/
def TRS_BSL_ERR_CNT : Nat := 0x0800CC
/-- TRS_PLL_MAP (R304). -/
def TRS_PLL_MAP : Nat := 0x0800E0
/-- TRS_Gn_FREQ_LO (R304). -/
def TRS_Gn_FREQ_LO (n : Nat) : Nat := 0x080100 + 0x40 * n
/-- TRS_Gn_FREQ_HI (R304). -/
def TRS_Gn_FREQ_HI (n : Nat) : Nat := 0x080104 + 0x40 * n
/-- TRS_Gn_ALIGN (R305). -/
def TRS_Gn_ALIGN (n : Nat) : Nat := 0x080108 + 0x40 * n
/-- TRS_Gn_OFFSET (R304). -/
def TRS_Gn_OFFSET (n : Nat) : Nat := 0x08010C + 0x40 * n
/-- TRS_Gn_SSC (R305). -/
def TRS_Gn_SSC (n : Nat) : Nat := 0x080110 + 0x40 * n
/-- TRS_Gn_STAT (R305). -/
def TRS_Gn_STAT (n : Nat) : Nat := 0x080114 + 0x40 * n
/-- TRS_Gn_PHASE (R304). -/
def TRS_Gn_PHASE (n : Nat) : Nat := 0x080118 + 0x40 * n
/-- TRS_Gn_PHASE_ERR (R304). -/
def TRS_Gn_PHASE_ERR (n : Nat) : Nat := 0x08011C + 0x40 * n
/-- TRS_Gn_ADRIFT (R304). -/
def TRS_Gn_ADRIFT (n : Nat) : Nat := 0x080120 + 0x40 * n
/-- TRS_Gn_RELOCKS (R304). -/
def TRS_Gn_RELOCKS (n : Nat) : Nat := 0x080124 + 0x40 * n
/-- SEQ_BUDGET_MEM (R165). -/
def SEQ_BUDGET_MEM : Nat := 0x0C0000
/-- SEQ_BUDGET_FETCH (R165). -/
def SEQ_BUDGET_FETCH : Nat := 0x0C0004
/-- SEQ_BUDGET_LAYER (R165). -/
def SEQ_BUDGET_LAYER : Nat := 0x0C0008
/-- SEQ_FILL (R165). -/
def SEQ_FILL : Nat := 0x0C000C
/-- SEQ_INGEST_RES (R165). -/
def SEQ_INGEST_RES : Nat := 0x0C0010
/-- SEQ_DEMAND_MEM (R165). -/
def SEQ_DEMAND_MEM : Nat := 0x0C0014
/-- SEQ_DEMAND_FETCH (R165). -/
def SEQ_DEMAND_FETCH : Nat := 0x0C0018
/-- SEQ_DEMAND_LAYER (R165). -/
def SEQ_DEMAND_LAYER : Nat := 0x0C001C
/-- SEQ_DEMAND_PIX (R165). -/
def SEQ_DEMAND_PIX : Nat := 0x0C0020
/-- SEQ_POOL (R165). -/
def SEQ_POOL : Nat := 0x0C0024
/-- SEQ_PLAN_TIME (R165). -/
def SEQ_PLAN_TIME : Nat := 0x0C0028
/-- SEQ_FENCE_STAMP (R212). -/
def SEQ_FENCE_STAMP : Nat := 0x0C002C
/-- SEQ_Gn_APPLIED (R212). -/
def SEQ_Gn_APPLIED (n : Nat) : Nat := 0x0C0040 + 0x10 * n
/-- SEQ_Gn_EXPIRED (R212). -/
def SEQ_Gn_EXPIRED (n : Nat) : Nat := 0x0C0044 + 0x10 * n
/-- SEQ_Gn_HOLD_FRAMES (R212). -/
def SEQ_Gn_HOLD_FRAMES (n : Nat) : Nat := 0x0C0048 + 0x10 * n
/-- SEQ_Gn_DECK_DENY (R213). -/
def SEQ_Gn_DECK_DENY (n : Nat) : Nat := 0x0C004C + 0x10 * n
/-- SEQ_Gn_CTRL (R166). -/
def SEQ_Gn_CTRL (n : Nat) : Nat := 0x0C0100 + 0x40 * n
/-- SEQ_Gn_HEADS (R165). -/
def SEQ_Gn_HEADS (n : Nat) : Nat := 0x0C0104 + 0x40 * n
/-- SEQ_Gn_COMMIT (R213). -/
def SEQ_Gn_COMMIT (n : Nat) : Nat := 0x0C0108 + 0x40 * n
/-- SEQ_Gn_COMMIT_STAT (R213). -/
def SEQ_Gn_COMMIT_STAT (n : Nat) : Nat := 0x0C010C + 0x40 * n
/-- SEQ_Gn_HOLD_LIMIT (R213). -/
def SEQ_Gn_HOLD_LIMIT (n : Nat) : Nat := 0x0C0110 + 0x40 * n
/-- SEQ_Gn_GUARD (R306). -/
def SEQ_Gn_GUARD (n : Nat) : Nat := 0x0C0114 + 0x40 * n
/-- SEQ_Gn_SLEW (R306). -/
def SEQ_Gn_SLEW (n : Nat) : Nat := 0x0C0118 + 0x40 * n
/-- SEQ_Gn_REJOIN (R306). -/
def SEQ_Gn_REJOIN (n : Nat) : Nat := 0x0C011C + 0x40 * n
/-- SEQ_Gn_WB_RES (R165). -/
def SEQ_Gn_WB_RES (n : Nat) : Nat := 0x0C0120 + 0x40 * n
/-- SEQ_Gn_PLAN_STAT (R166). -/
def SEQ_Gn_PLAN_STAT (n : Nat) : Nat := 0x0C0124 + 0x40 * n
/-- SEQ_Gn_PLAN_BAND (R166). -/
def SEQ_Gn_PLAN_BAND (n : Nat) : Nat := 0x0C0128 + 0x40 * n
/-- SEQ_Gn_PLAN_NEED (R165). -/
def SEQ_Gn_PLAN_NEED (n : Nat) : Nat := 0x0C012C + 0x40 * n
/-- SEQ_Gn_REFUSED (R165). -/
def SEQ_Gn_REFUSED (n : Nat) : Nat := 0x0C0130 + 0x40 * n
/-- SEQ_Gn_TABLE_STAT (R166). -/
def SEQ_Gn_TABLE_STAT (n : Nat) : Nat := 0x0C0134 + 0x40 * n
/-- SEQ_Gn_LSET_USED (R165). -/
def SEQ_Gn_LSET_USED (n : Nat) : Nat := 0x0C0138 + 0x40 * n
/-- SEQ_Gn_BAD_STEP (R165). -/
def SEQ_Gn_BAD_STEP (n : Nat) : Nat := 0x0C013C + 0x40 * n
/-- SSP_CAPACITY (R92). -/
def SSP_CAPACITY : Nat := 0x100000
/-- SSP_ALLOCATED (R92). -/
def SSP_ALLOCATED : Nat := 0x100004
/-- SSP_FREE (R92). -/
def SSP_FREE : Nat := 0x100008
/-- SSP_SCRUB_PENDING (R92). -/
def SSP_SCRUB_PENDING : Nat := 0x10000C
/-- SSP_RESERVE_STAT (R92). -/
def SSP_RESERVE_STAT : Nat := 0x100010
/-- SSP_BAL_CTRL (R93). -/
def SSP_BAL_CTRL : Nat := 0x100014
/-- SSP_RETIRE_CMD (R93). -/
def SSP_RETIRE_CMD : Nat := 0x100018
/-- SSP_CONSTRAINED (R93). -/
def SSP_CONSTRAINED : Nat := 0x10001C
/-- SSP_CE_CNT (R92). -/
def SSP_CE_CNT : Nat := 0x100020
/-- SSP_UE_CNT (R92). -/
def SSP_UE_CNT : Nat := 0x100024
/-- SSP_TAIL_FAIL_CNT (R92). -/
def SSP_TAIL_FAIL_CNT : Nat := 0x100028
/-- SSP_POISON_CNT (R92). -/
def SSP_POISON_CNT : Nat := 0x10002C
/-- SSP_UNWRITTEN_CNT (R92). -/
def SSP_UNWRITTEN_CNT : Nat := 0x100030
/-- SSP_TAIL_LOG (R92). -/
def SSP_TAIL_LOG : Nat := 0x100034
/-- SSP_UE_LOG (R92). -/
def SSP_UE_LOG : Nat := 0x100038
/-- SSP_LOST_LOG (R92). -/
def SSP_LOST_LOG : Nat := 0x10003C
/-- SSP_CARRY_CNT_BAL (R92). -/
def SSP_CARRY_CNT_BAL : Nat := 0x100040
/-- SSP_CARRY_CNT_WEAR (R92). -/
def SSP_CARRY_CNT_WEAR : Nat := 0x100044
/-- SSP_CARRY_CNT_PIN (R92). -/
def SSP_CARRY_CNT_PIN : Nat := 0x100048
/-- SSP_PC_STATEn (R92). -/
def SSP_PC_STATEn (n : Nat) : Nat := 0x100080 + 0x4 * n
/-- FSH_RA_QUOTA (R185). -/
def FSH_RA_QUOTA : Nat := 0x140000
/-- FSH_RA_LEVEL (R185). -/
def FSH_RA_LEVEL : Nat := 0x140004
/-- FSH_RA_WM (R185). -/
def FSH_RA_WM : Nat := 0x140008
/-- FSH_WM_RA (R186). -/
def FSH_WM_RA : Nat := 0x14000C
/-- FSH_RA_DISCARD (R185). -/
def FSH_RA_DISCARD : Nat := 0x140010
/-- FSH_WB_FLOOR (R185). -/
def FSH_WB_FLOOR : Nat := 0x140014
/-- FSH_S0_LATE_CNT (R185). -/
def FSH_S0_LATE_CNT : Nat := 0x140018
/-- FSH_PAR_CNT (R185). -/
def FSH_PAR_CNT : Nat := 0x14001C
/-- FSH_Wc_SHAPE (R186). -/
def FSH_Wc_SHAPE (n : Nat) : Nat := 0x140040 + 0x20 * n
/-- FSH_Wc_LIMIT (R185). -/
def FSH_Wc_LIMIT (n : Nat) : Nat := 0x140044 + 0x20 * n
/-- FSH_Wc_BACKLOG (R185). -/
def FSH_Wc_BACKLOG (n : Nat) : Nat := 0x140048 + 0x20 * n
/-- FSH_Wc_CREDIT (R185). -/
def FSH_Wc_CREDIT (n : Nat) : Nat := 0x14004C + 0x20 * n
/-- FSH_Wc_WM_BACKLOG (R186). -/
def FSH_Wc_WM_BACKLOG (n : Nat) : Nat := 0x140050 + 0x20 * n
/-- FSH_Wc_SHAPED (R185). -/
def FSH_Wc_SHAPED (n : Nat) : Nat := 0x140054 + 0x20 * n
/-- FSH_Wc_STARVED (R185). -/
def FSH_Wc_STARVED (n : Nat) : Nat := 0x140058 + 0x20 * n
/-- FSH_Wc_PENDING (R185). -/
def FSH_Wc_PENDING (n : Nat) : Nat := 0x14005C + 0x20 * n
/-- FSH_PERF_S0 (R185). -/
def FSH_PERF_S0 : Nat := 0x1400C0
/-- FSH_PERF_S1 (R185). -/
def FSH_PERF_S1 : Nat := 0x1400C4
/-- FSH_PERF_S2 (R185). -/
def FSH_PERF_S2 : Nat := 0x1400C8
/-- FSH_PERF_W (R185). -/
def FSH_PERF_W : Nat := 0x1400CC
/-- FSH_PERF_RA (R185). -/
def FSH_PERF_RA : Nat := 0x1400D0
/-- FSH_Gn_TIMING (R186). -/
def FSH_Gn_TIMING (n : Nat) : Nat := 0x140100 + 0x20 * n
/-- FSH_Gn_LADDER (R186). -/
def FSH_Gn_LADDER (n : Nat) : Nat := 0x140104 + 0x20 * n
/-- FSH_Gn_LATE (R185). -/
def FSH_Gn_LATE (n : Nat) : Nat := 0x140108 + 0x20 * n
/-- FSH_Gn_WM_SLACK (R186). -/
def FSH_Gn_WM_SLACK (n : Nat) : Nat := 0x14010C + 0x20 * n
/-- FSH_Gn_SUBST (R185). -/
def FSH_Gn_SUBST (n : Nat) : Nat := 0x140110 + 0x20 * n
/-- FSH_Gn_DELAYED (R185). -/
def FSH_Gn_DELAYED (n : Nat) : Nat := 0x140114 + 0x20 * n
/-- SCA_BANK_BUSY (R142). -/
def SCA_BANK_BUSY : Nat := 0x180000
/-- SCA_COEF_DENY (R142). -/
def SCA_COEF_DENY : Nat := 0x180004
/-- SCA_COEF_CE_CNT (R141). -/
def SCA_COEF_CE_CNT : Nat := 0x180008
/-- SCA_COEF_UE_CNT (R141). -/
def SCA_COEF_UE_CNT : Nat := 0x18000C
/-- SCA_COEF_UE_LOG (R142). -/
def SCA_COEF_UE_LOG : Nat := 0x180010
/-- SCA_CLIP_CNT (R141). -/
def SCA_CLIP_CNT : Nat := 0x180014
/-- SCA_VOID_OUT_CNT (R141). -/
def SCA_VOID_OUT_CNT : Nat := 0x180018
/-- SCA_SPARE_STAT (R142). -/
def SCA_SPARE_STAT : Nat := 0x18001C
/-- SCA_MAPnn (R141). -/
def SCA_MAPnn (n : Nat) : Nat := 0x180040 + 0x4 * n
/-- CMP_SAT_CNT (R120). -/
def CMP_SAT_CNT : Nat := 0x1C0000
/-- CMP_TABLE_CE_CNT (R120). -/
def CMP_TABLE_CE_CNT : Nat := 0x1C0004
/-- CMP_TABLE_UE_CNT (R120). -/
def CMP_TABLE_UE_CNT : Nat := 0x1C0008
/-- CMP_TABLE_UE_LOG (R120). -/
def CMP_TABLE_UE_LOG : Nat := 0x1C000C
/-- CMP_ZERO_FILL_CNT (R120). -/
def CMP_ZERO_FILL_CNT : Nat := 0x1C0010
/-- CMP_Hnn_BG_RG (R121). -/
def CMP_Hnn_BG_RG (n : Nat) : Nat := 0x1C1000 + 0x40 * n
/-- CMP_Hnn_BG_B (R121). -/
def CMP_Hnn_BG_B (n : Nat) : Nat := 0x1C1004 + 0x40 * n
/-- CMP_Hnn_OUT_CTRL (R121). -/
def CMP_Hnn_OUT_CTRL (n : Nat) : Nat := 0x1C1008 + 0x40 * n
/-- CMP_Hnn_OMTX0 (R120). -/
def CMP_Hnn_OMTX0 (n : Nat) : Nat := 0x1C100C + 0x40 * n
/-- CMP_Hnn_OMTX1 (R120). -/
def CMP_Hnn_OMTX1 (n : Nat) : Nat := 0x1C1010 + 0x40 * n
/-- CMP_Hnn_OMTX2 (R120). -/
def CMP_Hnn_OMTX2 (n : Nat) : Nat := 0x1C1014 + 0x40 * n
/-- CMP_Hnn_OMTX3 (R120). -/
def CMP_Hnn_OMTX3 (n : Nat) : Nat := 0x1C1018 + 0x40 * n
/-- CMP_Hnn_OMTX4 (R120). -/
def CMP_Hnn_OMTX4 (n : Nat) : Nat := 0x1C101C + 0x40 * n
/-- OWB_Hnn_TG_CTRL (R244). -/
def OWB_Hnn_TG_CTRL (n : Nat) : Nat := 0x200000 + 0x2000 * n
/-- OWB_Hnn_HTIME0 (R244). -/
def OWB_Hnn_HTIME0 (n : Nat) : Nat := 0x200004 + 0x2000 * n
/-- OWB_Hnn_HTIME1 (R244). -/
def OWB_Hnn_HTIME1 (n : Nat) : Nat := 0x200008 + 0x2000 * n
/-- OWB_Hnn_VTIME0 (R244). -/
def OWB_Hnn_VTIME0 (n : Nat) : Nat := 0x20000C + 0x2000 * n
/-- OWB_Hnn_VTIME1 (R244). -/
def OWB_Hnn_VTIME1 (n : Nat) : Nat := 0x200010 + 0x2000 * n
/-- OWB_Hnn_VPHASE (R243). -/
def OWB_Hnn_VPHASE (n : Nat) : Nat := 0x200014 + 0x2000 * n
/-- OWB_Hnn_DIV (R244). -/
def OWB_Hnn_DIV (n : Nat) : Nat := 0x200018 + 0x2000 * n
/-- OWB_Hnn_OUT_EN (R243). -/
def OWB_Hnn_OUT_EN (n : Nat) : Nat := 0x200020 + 0x2000 * n
/-- OWB_Hnn_RESET (R243). -/
def OWB_Hnn_RESET (n : Nat) : Nat := 0x200024 + 0x2000 * n
/-- OWB_Hnn_FRAME (R218). -/
def OWB_Hnn_FRAME (n : Nat) : Nat := 0x200028 + 0x2000 * n
/-- OWB_Hnn_STATE (R243). -/
def OWB_Hnn_STATE (n : Nat) : Nat := 0x20002C + 0x2000 * n
/-- OWB_Hnn_SAFE_CTRL (R244). -/
def OWB_Hnn_SAFE_CTRL (n : Nat) : Nat := 0x200030 + 0x2000 * n
/-- OWB_Hnn_SAFE_STAT (R244). -/
def OWB_Hnn_SAFE_STAT (n : Nat) : Nat := 0x200034 + 0x2000 * n
/-- OWB_Hnn_WB_CTRL (R244). -/
def OWB_Hnn_WB_CTRL (n : Nat) : Nat := 0x200040 + 0x2000 * n
/-- OWB_Hnn_WB_STAT (R244). -/
def OWB_Hnn_WB_STAT (n : Nat) : Nat := 0x200044 + 0x2000 * n
/-- OWB_Hnn_WB_VOID (R243). -/
def OWB_Hnn_WB_VOID (n : Nat) : Nat := 0x200048 + 0x2000 * n
/-- OWB_Hnn_WB_DROP (R243). -/
def OWB_Hnn_WB_DROP (n : Nat) : Nat := 0x20004C + 0x2000 * n
/-- OWB_Hnn_WB_FRAMES (R243). -/
def OWB_Hnn_WB_FRAMES (n : Nat) : Nat := 0x200050 + 0x2000 * n
/-- OWB_Hnn_WB_SKIP (R243). -/
def OWB_Hnn_WB_SKIP (n : Nat) : Nat := 0x200054 + 0x2000 * n
/-- OWB_Hnn_BG_FILL (R243). -/
def OWB_Hnn_BG_FILL (n : Nat) : Nat := 0x200060 + 0x2000 * n
/-- OWB_Hnn_WM_LOW (R243). -/
def OWB_Hnn_WM_LOW (n : Nat) : Nat := 0x200064 + 0x2000 * n
/-- OWB_Hnn_WM_CTRL (R243). -/
def OWB_Hnn_WM_CTRL (n : Nat) : Nat := 0x200068 + 0x2000 * n
/-- OWB_Hnn_UE_CNT (R243). -/
def OWB_Hnn_UE_CNT (n : Nat) : Nat := 0x20006C + 0x2000 * n
/-- OWB_Ddd_CTRL (R246). -/
def OWB_Ddd_CTRL (n : Nat) : Nat := 0x240000 + 0x1000 * n
/-- OWB_Ddd_STAT (R246). -/
def OWB_Ddd_STAT (n : Nat) : Nat := 0x240004 + 0x1000 * n
/-- OWB_Ddd_EVT (R246). -/
def OWB_Ddd_EVT (n : Nat) : Nat := 0x240008 + 0x1000 * n
/-- OWB_Ddd_AUX_CMD (R246). -/
def OWB_Ddd_AUX_CMD (n : Nat) : Nat := 0x240010 + 0x1000 * n
/-- OWB_Ddd_AUX_STAT (R246). -/
def OWB_Ddd_AUX_STAT (n : Nat) : Nat := 0x240014 + 0x1000 * n
/-- OWB_Ddd_AUX_DATAn (R245). -/
def OWB_Ddd_AUX_DATAn (n : Nat) (k : Nat) : Nat := 0x240020 + 0x1000 * n + 0x4 * k
/-- OWB_Ddd_HDRn (R245). -/
def OWB_Ddd_HDRn (n : Nat) (k : Nat) : Nat := 0x240040 + 0x1000 * n + 0x4 * k
/-- NMP_Pnn_CTRL (R274). -/
def NMP_Pnn_CTRL (n : Nat) : Nat := 0x280000 + 0x4000 * n
/-- NMP_Pnn_STAT (R274). -/
def NMP_Pnn_STAT (n : Nat) : Nat := 0x280004 + 0x4000 * n
/-- NMP_Pnn_EVT (R274). -/
def NMP_Pnn_EVT (n : Nat) : Nat := 0x280008 + 0x4000 * n
/-- NMP_Pnn_RESET (R273). -/
def NMP_Pnn_RESET (n : Nat) : Nat := 0x28000C + 0x4000 * n
/-- NMP_Pnn_MAC_LO (R273). -/
def NMP_Pnn_MAC_LO (n : Nat) : Nat := 0x280010 + 0x4000 * n
/-- NMP_Pnn_MAC_HI (R273). -/
def NMP_Pnn_MAC_HI (n : Nat) : Nat := 0x280014 + 0x4000 * n
/-- NMP_Pnn_IPV4 (R273). -/
def NMP_Pnn_IPV4 (n : Nat) : Nat := 0x280018 + 0x4000 * n
/-- NMP_Pnn_VLAN (R273). -/
def NMP_Pnn_VLAN (n : Nat) : Nat := 0x28001C + 0x4000 * n
/-- NMP_Pnn_STATE (R273). -/
def NMP_Pnn_STATE (n : Nat) : Nat := 0x280020 + 0x4000 * n
/-- NMP_Pnn_RX_BAD (R273). -/
def NMP_Pnn_RX_BAD (n : Nat) : Nat := 0x280030 + 0x4000 * n
/-- NMP_Pnn_RX_OTHER (R273). -/
def NMP_Pnn_RX_OTHER (n : Nat) : Nat := 0x280034 + 0x4000 * n
/-- NMP_Pnn_RX_OVF (R273). -/
def NMP_Pnn_RX_OVF (n : Nat) : Nat := 0x280038 + 0x4000 * n
/-- NMP_Pnn_FEC_CORR (R273). -/
def NMP_Pnn_FEC_CORR (n : Nat) : Nat := 0x28003C + 0x4000 * n
/-- NMP_Pnn_FEC_UNCORR (R273). -/
def NMP_Pnn_FEC_UNCORR (n : Nat) : Nat := 0x280040 + 0x4000 * n
/-- NMP_Pnn_TXQ_WM (R273). -/
def NMP_Pnn_TXQ_WM (n : Nat) : Nat := 0x280044 + 0x4000 * n
/-- NMP_Pnn_WM_TXQ (R273). -/
def NMP_Pnn_WM_TXQ (n : Nat) : Nat := 0x280048 + 0x4000 * n
/-- NMP_Pnn_TX_DROPc (R273). -/
def NMP_Pnn_TX_DROPc (n : Nat) (k : Nat) : Nat := 0x280060 + 0x4000 * n + 0x4 * k
/-- NMP_Pnn_TCk_SHAPE (R273). -/
def NMP_Pnn_TCk_SHAPE (n : Nat) (k : Nat) : Nat := 0x280080 + 0x4000 * n + 0x10 * k
/-- NMP_Pnn_TCk_LIMIT (R273). -/
def NMP_Pnn_TCk_LIMIT (n : Nat) (k : Nat) : Nat := 0x280084 + 0x4000 * n + 0x10 * k
/-- NMP_Pnn_TCk_CREDIT (R273). -/
def NMP_Pnn_TCk_CREDIT (n : Nat) (k : Nat) : Nat := 0x280088 + 0x4000 * n + 0x10 * k
/-- NMP_Pnn_GCL_CTRL (R274). -/
def NMP_Pnn_GCL_CTRL (n : Nat) : Nat := 0x280100 + 0x4000 * n
/-- NMP_Pnn_GCL_BASE_LO (R273). -/
def NMP_Pnn_GCL_BASE_LO (n : Nat) : Nat := 0x280104 + 0x4000 * n
/-- NMP_Pnn_GCL_BASE_HI (R273). -/
def NMP_Pnn_GCL_BASE_HI (n : Nat) : Nat := 0x280108 + 0x4000 * n
/-- NMP_Pnn_GCL_STAT (R274). -/
def NMP_Pnn_GCL_STAT (n : Nat) : Nat := 0x28010C + 0x4000 * n
/-- NMP_Pnn_GCL_CYCLE (R273). -/
def NMP_Pnn_GCL_CYCLE (n : Nat) : Nat := 0x280110 + 0x4000 * n
/-- NMP_Pnn_PTP_CTRL (R274). -/
def NMP_Pnn_PTP_CTRL (n : Nat) : Nat := 0x280140 + 0x4000 * n
/-- NMP_Pnn_PTP_PRIO (R273). -/
def NMP_Pnn_PTP_PRIO (n : Nat) : Nat := 0x280144 + 0x4000 * n
/-- NMP_Pnn_PTP_STAT (R274). -/
def NMP_Pnn_PTP_STAT (n : Nat) : Nat := 0x280148 + 0x4000 * n
/-- NMP_Pnn_PTP_OFFSET (R273). -/
def NMP_Pnn_PTP_OFFSET (n : Nat) : Nat := 0x28014C + 0x4000 * n
/-- NMP_Pnn_PTP_DELAY (R273). -/
def NMP_Pnn_PTP_DELAY (n : Nat) : Nat := 0x280150 + 0x4000 * n
/-- NMP_Pnn_PTP_ASYM (R273). -/
def NMP_Pnn_PTP_ASYM (n : Nat) : Nat := 0x280154 + 0x4000 * n
/-- NMP_Pnn_PTP_GM_LO (R273). -/
def NMP_Pnn_PTP_GM_LO (n : Nat) : Nat := 0x280158 + 0x4000 * n
/-- NMP_Pnn_PTP_GM_HI (R273). -/
def NMP_Pnn_PTP_GM_HI (n : Nat) : Nat := 0x28015C + 0x4000 * n
/-- NMP_Pnn_PTP_TS_ERR (R273). -/
def NMP_Pnn_PTP_TS_ERR (n : Nat) : Nat := 0x280160 + 0x4000 * n
/-- GLB_IDX_SEL (R363). -/
def GLB_IDX_SEL : Nat := 0x300000
/-- GLB_IDX_ADDR (R363). -/
def GLB_IDX_ADDR : Nat := 0x300004
/-- GLB_IDX_DATA (R363). -/
def GLB_IDX_DATA : Nat := 0x300008
/-- GLB_IDX_STAT (R363). -/
def GLB_IDX_STAT : Nat := 0x30000C
end R

/-- Register rows of block Glb. -/
def rowsGlb : List RegRow := [
  ⟨R.GLB_DEVICE_ID, 0x0, 1, 0x0, 1, 0x0#32, 0x0#32, 0x0#32, .open_, 0x01B05120#32, .none_⟩,
  ⟨R.GLB_FUNC_RESET, 0x0, 1, 0x0, 1, 0x0#32, 0x0#32, 0x7#32, .priv, 0x0#32, .none_⟩,
  ⟨R.GLB_VIEW, 0x0, 1, 0x0, 1, 0x1#32, 0x0#32, 0x0#32, .open_, 0x0#32, .none_⟩,
  ⟨R.GLB_WRQ, 0x0, 1, 0x0, 1, 0x0#32, 0x0#32, 0x0#32, .open_, 0x0#32, .none_⟩,
  ⟨R.GLB_BERR_LOG, 0x0, 1, 0x0, 1, 0x0#32, 0x0#32, 0x0#32, .open_, 0x0#32, .none_⟩,
  ⟨R.GLB_FLAGSn 0, 0x4, 4, 0x0, 1, 0xFFFF#32, 0x0#32, 0x0#32, .open_, 0x0#32, .none_⟩]

/-- Register rows of block Ldr. DESIGN CHOICE: LDR_UPD_ADDR reads back every bit written, those outside its page field too (R63, R65). -/
def rowsLdr : List RegRow := [
  ⟨R.LDR_STAT, 0x0, 1, 0x0, 1, 0x0#32, 0x0#32, 0x0#32, .open_, 0x0#32, .none_⟩,
  ⟨R.LDR_A_GEN, 0x0, 1, 0x0, 1, 0x0#32, 0x0#32, 0x0#32, .open_, 0x0#32, .none_⟩,
  ⟨R.LDR_A_ERR, 0x0, 1, 0x0, 1, 0x0#32, 0x0#32, 0x0#32, .open_, 0x1#32, .none_⟩,
  ⟨R.LDR_B_GEN, 0x0, 1, 0x0, 1, 0x0#32, 0x0#32, 0x0#32, .open_, 0x0#32, .none_⟩,
  ⟨R.LDR_B_ERR, 0x0, 1, 0x0, 1, 0x0#32, 0x0#32, 0x0#32, .open_, 0x1#32, .none_⟩,
  ⟨R.LDR_LOAD_TIME, 0x0, 1, 0x0, 1, 0x0#32, 0x0#32, 0x0#32, .open_, 0x0#32, .none_⟩,
  ⟨R.LDR_EARLY_WR, 0x0, 1, 0x0, 1, 0x0#32, 0x0#32, 0x0#32, .open_, 0x0#32, .none_⟩,
  ⟨R.LDR_STRAPS, 0x0, 1, 0x0, 1, 0x0#32, 0x0#32, 0x0#32, .open_, 0x0#32, .none_⟩,
  ⟨R.LDR_CTRL, 0x0, 1, 0x0, 1, 0x0#32, 0x0#32, 0x3#32, .priv, 0x0#32, .none_⟩,
  ⟨R.LDR_SEAL_STAT, 0x0, 1, 0x0, 1, 0x0#32, 0x0#32, 0x0#32, .priv, 0x0#32, .none_⟩,
  ⟨R.LDR_MASTER_PRIV, 0x0, 1, 0x0, 1, 0x0#32, 0x0#32, 0x0#32, .open_, 0x0#32, .none_⟩,
  ⟨R.LDR_UPD_CMD, 0x0, 1, 0x0, 1, 0x0#32, 0x0#32, 0xF#32, .priv, 0x0#32, .none_⟩,
  ⟨R.LDR_UPD_ADDR, 0x0, 1, 0x0, 1, 0xFFFFFFFF#32, 0x0#32, 0x0#32, .priv, 0x0#32, .immediate⟩,
  ⟨R.LDR_UPD_STAT, 0x0, 1, 0x0, 1, 0x0#32, 0x2#32, 0x0#32, .priv, 0x0#32, .none_⟩]

/-- Register rows of block Hwq. -/
def rowsHwq : List RegRow := [
  ⟨R.HWQ_PRIV_DENY, 0x0, 1, 0x0, 1, 0x0#32, 0x0#32, 0x0#32, .open_, 0x0#32, .none_⟩,
  ⟨R.HWQ_OWN_DENY, 0x0, 1, 0x0, 1, 0x0#32, 0x0#32, 0x0#32, .open_, 0x0#32, .none_⟩,
  ⟨R.HWQ_PCIE_STAT, 0x0, 1, 0x0, 1, 0x0#32, 0x0#32, 0x0#32, .open_, 0x0#32, .none_⟩,
  ⟨R.HWQ_SUBSYS, 0x0, 1, 0x0, 1, 0xFFFFFFFF#32, 0x0#32, 0x0#32, .priv, 0x0#32, .immediate⟩,
  ⟨R.HWQ_QMAP0, 0x0, 1, 0x0, 1, 0xFFFFFFFF#32, 0x0#32, 0x0#32, .priv, 0x55555555#32, .immediate⟩,
  ⟨R.HWQ_QMAP1, 0x0, 1, 0x0, 1, 0xFFFFFFFF#32, 0x0#32, 0x0#32, .priv, 0x55555555#32, .immediate⟩,
  ⟨R.HWQ_QMAP2, 0x0, 1, 0x0, 1, 0xFFFFFFFF#32, 0x0#32, 0x0#32, .priv, 0xAAAAAAAA#32, .immediate⟩,
  ⟨R.HWQ_AP_ERR, 0x0, 1, 0x0, 1, 0x0#32, 0x0#32, 0x0#32, .open_, 0x0#32, .none_⟩,
  ⟨R.HWQ_BOARD_DONE, 0x0, 1, 0x0, 1, 0x0#32, 0xFFFF#32, 0x0#32, .priv, 0x0#32, .none_⟩,
  ⟨R.HWQ_LMP_INT_EN, 0x0, 1, 0x0, 1, 0x1FFFF#32, 0x0#32, 0x0#32, .priv, 0x0#32, .immediate⟩,
  ⟨R.HWQ_PRIV_DENY_LOG, 0x0, 1, 0x0, 1, 0x0#32, 0x0#32, 0x0#32, .open_, 0x0#32, .none_⟩,
  ⟨R.HWQ_LMP_CFG, 0x0, 1, 0x0, 1, 0x3F#32, 0x0#32, 0x0#32, .priv, 0x0#32, .immediate⟩,
  ⟨R.HWQ_LMP_ERR, 0x0, 1, 0x0, 1, 0x0#32, 0x7#32, 0x0#32, .priv, 0x0#32, .none_⟩,
  ⟨R.HWQ_MIRROR_UE, 0x0, 1, 0x0, 1, 0x0#32, 0x0#32, 0x0#32, .open_, 0x0#32, .none_⟩,
  ⟨R.HWQ_Fk_EVR_BASE_LO 0, 0x80, 2, 0x0, 1, 0xFFFFFFFF#32, 0x0#32, 0x0#32, .func, 0x0#32, .immediate⟩,
  ⟨R.HWQ_Fk_EVR_BASE_HI 0, 0x80, 2, 0x0, 1, 0xFFFFFFFF#32, 0x0#32, 0x0#32, .func, 0x0#32, .immediate⟩,
  ⟨R.HWQ_Fk_EVR_CFG 0, 0x80, 2, 0x0, 1, 0x80FFFF1F#32, 0x0#32, 0x0#32, .func, 0x8#32, .immediate⟩,
  ⟨R.HWQ_Fk_EVR_PROD 0, 0x80, 2, 0x0, 1, 0x0#32, 0x0#32, 0x0#32, .open_, 0x0#32, .none_⟩,
  ⟨R.HWQ_Fk_EVR_CONS 0, 0x80, 2, 0x0, 1, 0xFFFFFFFF#32, 0x0#32, 0x0#32, .func, 0x0#32, .none_⟩,
  ⟨R.HWQ_Fk_EVR_LOST 0, 0x80, 2, 0x0, 1, 0x0#32, 0x0#32, 0x0#32, .open_, 0x0#32, .none_⟩,
  ⟨R.HWQ_Fk_EVMASKn 0 0, 0x80, 2, 0x4, 10, 0xFFFFFFFF#32, 0x0#32, 0x0#32, .func, 0x0#32, .immediate⟩,
  ⟨R.HWQ_Fk_AWww_CTRL 0 0, 0x100, 2, 0x8, 16, 0x8000FFFF#32, 0x0#32, 0x0#32, .func, 0x0#32, .none_⟩,
  ⟨R.HWQ_Fk_AWww_OFF 0 0, 0x100, 2, 0x8, 16, 0xFFFFF000#32, 0x0#32, 0x0#32, .func, 0x0#32, .none_⟩,
  ⟨R.HWQ_Qnn_CFG 0, 0x40, 64, 0x0, 1, 0x80FF001F#32, 0x0#32, 0x0#32, .queue, 0x4#32, .immediate⟩,
  ⟨R.HWQ_Qnn_BASE_LO 0, 0x40, 64, 0x0, 1, 0xFFFFFFFF#32, 0x0#32, 0x0#32, .queue, 0x0#32, .immediate⟩,
  ⟨R.HWQ_Qnn_BASE_HI 0, 0x40, 64, 0x0, 1, 0xFFFFFFFF#32, 0x0#32, 0x0#32, .queue, 0x0#32, .immediate⟩,
  ⟨R.HWQ_Qnn_IDX_LO 0, 0x40, 64, 0x0, 1, 0xFFFFFFFF#32, 0x0#32, 0x0#32, .queue, 0x0#32, .immediate⟩,
  ⟨R.HWQ_Qnn_IDX_HI 0, 0x40, 64, 0x0, 1, 0xFFFFFFFF#32, 0x0#32, 0x0#32, .queue, 0x0#32, .immediate⟩,
  ⟨R.HWQ_Qnn_PROD 0, 0x40, 64, 0x0, 1, 0xFFFFFFFF#32, 0x0#32, 0x0#32, .queue, 0x0#32, .none_⟩,
  ⟨R.HWQ_Qnn_CONS 0, 0x40, 64, 0x0, 1, 0xFFFFFFFF#32, 0x0#32, 0x0#32, .queue, 0x0#32, .none_⟩,
  ⟨R.HWQ_Qnn_DB 0, 0x40, 64, 0x0, 1, 0x0#32, 0x0#32, 0xFFFFFFFF#32, .queue, 0x0#32, .none_⟩,
  ⟨R.HWQ_Qnn_SEQ 0, 0x40, 64, 0x0, 1, 0x0#32, 0x0#32, 0x0#32, .open_, 0x0#32, .none_⟩,
  ⟨R.HWQ_Qnn_STAT 0, 0x40, 64, 0x0, 1, 0x0#32, 0x1F#32, 0x0#32, .open_, 0x0#32, .none_⟩,
  ⟨R.HWQ_Qnn_JOBS 0, 0x40, 64, 0x0, 1, 0x0#32, 0x0#32, 0x0#32, .open_, 0x0#32, .none_⟩,
  ⟨R.HWQ_Qnn_RERUNS 0, 0x40, 64, 0x0, 1, 0x0#32, 0x0#32, 0x0#32, .open_, 0x0#32, .none_⟩]

/-- Register rows of block Ihm. -/
def rowsIhm : List RegRow := [
  ⟨R.IHM_FC_SUMMARY, 0x0, 1, 0x0, 1, 0x0#32, 0x0#32, 0x0#32, .priv, 0x0#32, .none_⟩,
  ⟨R.IHM_PHASE, 0x0, 1, 0x0, 1, 0x0#32, 0x0#32, 0x3#32, .priv, 0x0#32, .none_⟩,
  ⟨R.IHM_FC_CLEAR, 0x0, 1, 0x0, 1, 0x0#32, 0x0#32, 0xE00001FF#32, .priv, 0x0#32, .none_⟩,
  ⟨R.IHM_FC_SELF, 0x0, 1, 0x0, 1, 0x0#32, 0xF#32, 0x0#32, .priv, 0x0#32, .none_⟩,
  ⟨R.IHM_SCOPE_MASKn 0, 0x4, 4, 0x0, 1, 0xFFFFFFFF#32, 0x0#32, 0x0#32, .priv, 0xFFFFFFFF#32, .immediate⟩,
  ⟨R.IHM_DF_LOG, 0x0, 1, 0x0, 1, 0x0#32, 0x0#32, 0x0#32, .priv, 0x0#32, .none_⟩,
  ⟨R.IHM_TALLY_SUM, 0x0, 1, 0x0, 1, 0x0#32, 0x0#32, 0x0#32, .priv, 0x0#32, .none_⟩,
  ⟨R.IHM_FC_SRCn 0, 0x4, 10, 0x0, 1, 0x0#32, 0x0#32, 0x0#32, .priv, 0x0#32, .none_⟩,
  ⟨R.IHM_HISTq_STAT 0, 0x8, 4, 0x0, 1, 0x0#32, 0x0#32, 0x0#32, .priv, 0x0#32, .none_⟩,
  ⟨R.IHM_HISTq_CTRL 0, 0x8, 4, 0x0, 1, 0x0#32, 0x0#32, 0x1#32, .priv, 0x0#32, .none_⟩,
  ⟨R.IHM_INJ, 0x0, 1, 0x0, 1, 0xFF0FFFF#32, 0x0#32, 0xC0000000#32, .priv, 0x0#32, .immediate⟩,
  ⟨R.IHM_INJ_STAT, 0x0, 1, 0x0, 1, 0x0#32, 0x60000000#32, 0x0#32, .priv, 0x0#32, .none_⟩,
  ⟨R.IHM_CFGCRC_CTRL, 0x0, 1, 0x0, 1, 0x1#32, 0x0#32, 0x0#32, .priv, 0x0#32, .immediate⟩,
  ⟨R.IHM_CFGCRC_REF, 0x0, 1, 0x0, 1, 0xFFFFFFFF#32, 0x0#32, 0x0#32, .priv, 0x0#32, .immediate⟩,
  ⟨R.IHM_CFGCRC_NOW, 0x0, 1, 0x0, 1, 0x0#32, 0x0#32, 0x0#32, .open_, 0x0#32, .none_⟩,
  ⟨R.IHM_CFGCRC_STAT, 0x0, 1, 0x0, 1, 0x0#32, 0xC000000#32, 0x0#32, .priv, 0x0#32, .none_⟩,
  ⟨R.IHM_CRCUu_CTRL 0, 0x40, 4, 0x0, 1, 0x0#32, 0x0#32, 0x80000033#32, .open_, 0x32#32, .none_⟩,
  ⟨R.IHM_CRCUu_POLY 0, 0x40, 4, 0x0, 1, 0x0#32, 0x0#32, 0xFFFFFFFF#32, .open_, 0x1EDC6F41#32, .none_⟩,
  ⟨R.IHM_CRCUu_INIT 0, 0x40, 4, 0x0, 1, 0x0#32, 0x0#32, 0xFFFFFFFF#32, .open_, 0xFFFFFFFF#32, .none_⟩,
  ⟨R.IHM_CRCUu_XOROUT 0, 0x40, 4, 0x0, 1, 0x0#32, 0x0#32, 0xFFFFFFFF#32, .open_, 0xFFFFFFFF#32, .none_⟩,
  ⟨R.IHM_CRCUu_DATA8 0, 0x40, 4, 0x0, 1, 0x0#32, 0x0#32, 0xFF#32, .open_, 0x0#32, .none_⟩,
  ⟨R.IHM_CRCUu_DATA16 0, 0x40, 4, 0x0, 1, 0x0#32, 0x0#32, 0xFFFF#32, .open_, 0x0#32, .none_⟩,
  ⟨R.IHM_CRCUu_DATA32 0, 0x40, 4, 0x0, 1, 0x0#32, 0x0#32, 0xFFFFFFFF#32, .open_, 0x0#32, .none_⟩,
  ⟨R.IHM_CRCUu_RESULT 0, 0x40, 4, 0x0, 1, 0x0#32, 0x0#32, 0x0#32, .open_, 0x0#32, .none_⟩,
  ⟨R.IHM_CRCUu_STAT 0, 0x40, 4, 0x0, 1, 0x0#32, 0x0#32, 0x0#32, .open_, 0x32#32, .none_⟩,
  ⟨R.IHM_SPARE_CTRL, 0x0, 1, 0x0, 1, 0xFFFF0007#32, 0x0#32, 0x0#32, .priv, 0x28140007#32, .immediate⟩,
  ⟨R.IHM_CARRY_CMD, 0x0, 1, 0x0, 1, 0x0#32, 0x0#32, 0x870001FF#32, .priv, 0x0#32, .none_⟩,
  ⟨R.IHM_CARRY_STAT, 0x0, 1, 0x0, 1, 0x0#32, 0x60000000#32, 0x0#32, .open_, 0x0#32, .none_⟩,
  ⟨R.IHM_ROD_SPARE_STAT, 0x0, 1, 0x0, 1, 0x0#32, 0x0#32, 0x0#32, .open_, 0x0#32, .none_⟩,
  ⟨R.IHM_UNIT_CMD, 0x0, 1, 0x0, 1, 0x0#32, 0x0#32, 0xF70001FF#32, .priv, 0x0#32, .none_⟩,
  ⟨R.IHM_PG_CTRL, 0x0, 1, 0x0, 1, 0x3#32, 0x0#32, 0x0#32, .priv, 0x3#32, .immediate⟩,
  ⟨R.IHM_AVS_CTRL, 0x0, 1, 0x0, 1, 0x83FF03FF#32, 0x0#32, 0x0#32, .priv, 0x83B60384#32, .immediate⟩,
  ⟨R.IHM_AVS_VMIN, 0x0, 1, 0x0, 1, 0x3FF#32, 0x0#32, 0x0#32, .priv, 0x28A#32, .immediate⟩,
  ⟨R.IHM_AVS_VMAX, 0x0, 1, 0x0, 1, 0x3FF#32, 0x0#32, 0x0#32, .priv, 0x352#32, .immediate⟩,
  ⟨R.IHM_AVS_STAT, 0x0, 1, 0x0, 1, 0x0#32, 0x0#32, 0x0#32, .open_, 0x0#32, .none_⟩,
  ⟨R.IHM_AVS_CONSTRAINED, 0x0, 1, 0x0, 1, 0x0#32, 0x80#32, 0x0#32, .open_, 0x0#32, .none_⟩,
  ⟨R.IHM_THERM_CTRL, 0x0, 1, 0x0, 1, 0xFFFFFF0F#32, 0x0#32, 0x0#32, .priv, 0x73696405#32, .immediate⟩,
  ⟨R.IHM_THERM_STAT, 0x0, 1, 0x0, 1, 0x0#32, 0x1E000000#32, 0x0#32, .open_, 0x0#32, .none_⟩,
  ⟨R.IHM_TEMP_DIE, 0x0, 1, 0x0, 1, 0x0#32, 0x0#32, 0x0#32, .open_, 0x0#32, .none_⟩,
  ⟨R.IHM_TEMP_HBM, 0x0, 1, 0x0, 1, 0x0#32, 0x0#32, 0x0#32, .open_, 0x0#32, .none_⟩,
  ⟨R.IHM_TEMP_BOARD, 0x0, 1, 0x0, 1, 0x0#32, 0x0#32, 0x0#32, .open_, 0x0#32, .none_⟩]

/-- Register rows of block Trs. -/
def rowsTrs : List RegRow := [
  ⟨R.TRS_STATE, 0x0, 1, 0x0, 1, 0x0#32, 0x0#32, 0x0#32, .open_, 0x1F00#32, .none_⟩,
  ⟨R.TRS_REF_CTRL, 0x0, 1, 0x0, 1, 0x1FF#32, 0x0#32, 0x80000000#32, .priv, 0x2#32, .immediate⟩,
  ⟨R.TRS_REF_PRIOk 0, 0x4, 3, 0x0, 1, 0xFFFFFFFF#32, 0x0#32, 0x0#32, .priv, 0x0#32, .immediate⟩,
  ⟨R.TRS_REF_QUAL, 0x0, 1, 0x0, 1, 0x0#32, 0x0#32, 0x0#32, .open_, 0x0#32, .none_⟩,
  ⟨R.TRS_LOOP, 0x0, 1, 0x0, 1, 0xFFFFFFFF#32, 0x0#32, 0x0#32, .priv, 0x30640223#32, .immediate⟩,
  ⟨R.TRS_REFINx_CTRL 0, 0x8, 2, 0x0, 1, 0xFFFF0F07#32, 0x0#32, 0x0#32, .priv, 0x00010000#32, .immediate⟩,
  ⟨R.TRS_REFINx_PER 0, 0x8, 2, 0x0, 1, 0xFFFFFFFF#32, 0x0#32, 0x0#32, .priv, 0x0#32, .immediate⟩,
  ⟨R.TRS_BUILDOUT_LO, 0x0, 1, 0x0, 1, 0x0#32, 0x0#32, 0x0#32, .open_, 0x0#32, .none_⟩,
  ⟨R.TRS_BUILDOUT_HI, 0x0, 1, 0x0, 1, 0x0#32, 0x0#32, 0x0#32, .open_, 0x0#32, .none_⟩,
  ⟨R.TRS_BLEED, 0x0, 1, 0x0, 1, 0x7F#32, 0x0#32, 0x0#32, .priv, 0x0#32, .immediate⟩,
  ⟨R.TRS_TIME_LO, 0x0, 1, 0x0, 1, 0x0#32, 0x0#32, 0x0#32, .open_, 0x0#32, .none_⟩,
  ⟨R.TRS_TIME_HI, 0x0, 1, 0x0, 1, 0x0#32, 0x0#32, 0x0#32, .open_, 0x0#32, .none_⟩,
  ⟨R.TRS_TOD_SET_LO, 0x0, 1, 0x0, 1, 0x0#32, 0x0#32, 0xFFFFFFFF#32, .priv, 0x0#32, .none_⟩,
  ⟨R.TRS_TOD_SET_HI, 0x0, 1, 0x0, 1, 0x0#32, 0x0#32, 0xFFFFFFFF#32, .priv, 0x0#32, .none_⟩,
  ⟨R.TRS_FREQ_CORR, 0x0, 1, 0x0, 1, 0x0#32, 0x0#32, 0x0#32, .open_, 0x0#32, .none_⟩,
  ⟨R.TRS_PHASE_ERR, 0x0, 1, 0x0, 1, 0x0#32, 0x0#32, 0x0#32, .open_, 0x0#32, .none_⟩,
  ⟨R.TRS_REF_SWITCHES, 0x0, 1, 0x0, 1, 0x0#32, 0x0#32, 0x0#32, .open_, 0x0#32, .none_⟩,
  ⟨R.TRS_HO_CTRL, 0x0, 1, 0x0, 1, 0xFFFFFFFF#32, 0x0#32, 0x0#32, .priv, 0x0000063C#32, .immediate⟩,
  ⟨R.TRS_HO_AGE, 0x0, 1, 0x0, 1, 0x0#32, 0x0#32, 0x0#32, .open_, 0x0#32, .none_⟩,
  ⟨R.TRS_HO_C1, 0x0, 1, 0x0, 1, 0x0#32, 0x0#32, 0x0#32, .open_, 0x0#32, .none_⟩,
  ⟨R.TRS_HO_C2, 0x0, 1, 0x0, 1, 0x0#32, 0x0#32, 0x0#32, .open_, 0x0#32, .none_⟩,
  ⟨R.TRS_HO_T0, 0x0, 1, 0x0, 1, 0x0#32, 0x0#32, 0x0#32, .open_, 0x0#32, .none_⟩,
  ⟨R.TRS_HO_LEARNED, 0x0, 1, 0x0, 1, 0x0#32, 0x0#32, 0x0#32, .open_, 0x0#32, .none_⟩,
  ⟨R.TRS_TEMP_CTRL, 0x0, 1, 0x0, 1, 0xFFFFFE03#32, 0x0#32, 0x0#32, .priv, 0x0D6B0000#32, .immediate⟩,
  ⟨R.TRS_TEMP_STAT, 0x0, 1, 0x0, 1, 0x0#32, 0x7#32, 0x0#32, .open_, 0x0#32, .none_⟩,
  ⟨R.TRS_LOCK_A, 0x0, 1, 0x0, 1, 0xF#32, 0x0#32, 0x0#32, .priv, 0x0#32, .immediate⟩,
  ⟨R.TRS_SYNC_CTRL, 0x0, 1, 0x0, 1, 0xE0000FFF#32, 0x0#32, 0x0#32, .priv, 0x0#32, .immediate⟩,
  ⟨R.TRS_SYNC_STAT, 0x0, 1, 0x0, 1, 0x0#32, 0x40000000#32, 0x0#32, .open_, 0x0#32, .none_⟩,
  ⟨R.TRS_SYNC_TS_LO, 0x0, 1, 0x0, 1, 0x0#32, 0x0#32, 0x0#32, .open_, 0x0#32, .none_⟩,
  ⟨R.TRS_SYNC_TS_HI, 0x0, 1, 0x0, 1, 0x0#32, 0x0#32, 0x0#32, .open_, 0x0#32, .none_⟩,
  ⟨R.TRS_BSL_CTRL, 0x0, 1, 0x0, 1, 0xC00700FF#32, 0x0#32, 0x0#32, .priv, 0x0#32, .immediate⟩,
  ⟨R.TRS_BSL_STAT, 0x0, 1, 0x0, 1, 0x0#32, 0x0#32, 0x0#32, .open_, 0x0#32, .none_⟩,
  ⟨R.TRS_BSL_DELAY, 0x0, 1, 0x0, 1, 0xFFFFFFFF#32, 0x0#32, 0x0#32, .priv, 0x0#32, .immediate⟩,
  ⟨R.TRS_BSL_ERR_CNT, 0x0, 1, 0x0, 1, 0x0#32, 0x0#32, 0x0#32, .open_, 0x0#32, .none_⟩,
  ⟨R.TRS_PLL_MAP, 0x0, 1, 0x0, 1, 0x0#32, 0x0#32, 0x0#32, .open_, 0x76543210#32, .none_⟩,
  ⟨R.TRS_Gn_FREQ_LO 0, 0x40, 8, 0x0, 1, 0xFFFFFFFF#32, 0x0#32, 0x0#32, .r210, 0x0#32, .disruptive⟩,
  ⟨R.TRS_Gn_FREQ_HI 0, 0x40, 8, 0x0, 1, 0xFFFFFFFF#32, 0x0#32, 0x0#32, .r210, 0x00010000#32, .disruptive⟩,
  ⟨R.TRS_Gn_ALIGN 0, 0x40, 8, 0x0, 1, 0x77#32, 0x0#32, 0x0#32, .r210, 0x0#32, .disruptive⟩,
  ⟨R.TRS_Gn_OFFSET 0, 0x40, 8, 0x0, 1, 0xFFFFFFFF#32, 0x0#32, 0x0#32, .r210, 0x0#32, .disruptive⟩,
  ⟨R.TRS_Gn_SSC 0, 0x40, 8, 0x0, 1, 0xC0003F3F#32, 0x0#32, 0x0#32, .r210, 0x1F#32, .disruptive⟩,
  ⟨R.TRS_Gn_STAT 0, 0x40, 8, 0x0, 1, 0x0#32, 0x0#32, 0x0#32, .open_, 0x1#32, .none_⟩,
  ⟨R.TRS_Gn_PHASE 0, 0x40, 8, 0x0, 1, 0x0#32, 0x0#32, 0x0#32, .open_, 0x0#32, .none_⟩,
  ⟨R.TRS_Gn_PHASE_ERR 0, 0x40, 8, 0x0, 1, 0x0#32, 0x0#32, 0x0#32, .open_, 0x0#32, .none_⟩,
  ⟨R.TRS_Gn_ADRIFT 0, 0x40, 8, 0x0, 1, 0x0#32, 0x0#32, 0x0#32, .open_, 0x0#32, .none_⟩,
  ⟨R.TRS_Gn_RELOCKS 0, 0x40, 8, 0x0, 1, 0x0#32, 0x0#32, 0x0#32, .open_, 0x0#32, .none_⟩]

/-- Register rows of block Seq. -/
def rowsSeq : List RegRow := [
  ⟨R.SEQ_BUDGET_MEM, 0x0, 1, 0x0, 1, 0xFFFF#32, 0x0#32, 0x0#32, .priv, 0x7530#32, .immediate⟩,
  ⟨R.SEQ_BUDGET_FETCH, 0x0, 1, 0x0, 1, 0xFF#32, 0x0#32, 0x0#32, .priv, 0xB8#32, .immediate⟩,
  ⟨R.SEQ_BUDGET_LAYER, 0x0, 1, 0x0, 1, 0xFF#32, 0x0#32, 0x0#32, .priv, 0xA0#32, .immediate⟩,
  ⟨R.SEQ_FILL, 0x0, 1, 0x0, 1, 0x1F#32, 0x0#32, 0x0#32, .priv, 0xE#32, .immediate⟩,
  ⟨R.SEQ_INGEST_RES, 0x0, 1, 0x0, 1, 0xFFFF#32, 0x0#32, 0x0#32, .priv, 0x800#32, .immediate⟩,
  ⟨R.SEQ_DEMAND_MEM, 0x0, 1, 0x0, 1, 0x0#32, 0x0#32, 0x0#32, .open_, 0x0#32, .none_⟩,
  ⟨R.SEQ_DEMAND_FETCH, 0x0, 1, 0x0, 1, 0x0#32, 0x0#32, 0x0#32, .open_, 0x0#32, .none_⟩,
  ⟨R.SEQ_DEMAND_LAYER, 0x0, 1, 0x0, 1, 0x0#32, 0x0#32, 0x0#32, .open_, 0x0#32, .none_⟩,
  ⟨R.SEQ_DEMAND_PIX, 0x0, 1, 0x0, 1, 0x0#32, 0x0#32, 0x0#32, .open_, 0x0#32, .none_⟩,
  ⟨R.SEQ_POOL, 0x0, 1, 0x0, 1, 0x0#32, 0x0#32, 0x0#32, .open_, 0x00200050#32, .none_⟩,
  ⟨R.SEQ_PLAN_TIME, 0x0, 1, 0x0, 1, 0x0#32, 0x0#32, 0x0#32, .open_, 0x0#32, .none_⟩,
  ⟨R.SEQ_FENCE_STAMP, 0x0, 1, 0x0, 1, 0x0#32, 0x0#32, 0x0#32, .open_, 0x0#32, .none_⟩,
  ⟨R.SEQ_Gn_APPLIED 0, 0x10, 8, 0x0, 1, 0x0#32, 0x0#32, 0x0#32, .open_, 0x0#32, .none_⟩,
  ⟨R.SEQ_Gn_EXPIRED 0, 0x10, 8, 0x0, 1, 0x0#32, 0x0#32, 0x0#32, .open_, 0x0#32, .none_⟩,
  ⟨R.SEQ_Gn_HOLD_FRAMES 0, 0x10, 8, 0x0, 1, 0x0#32, 0x0#32, 0x0#32, .open_, 0x0#32, .none_⟩,
  ⟨R.SEQ_Gn_DECK_DENY 0, 0x10, 8, 0x0, 1, 0x0#32, 0x0#32, 0x0#32, .open_, 0x0#32, .none_⟩,
  ⟨R.SEQ_Gn_CTRL 0, 0x40, 8, 0x0, 1, 0x11F#32, 0x0#32, 0x0#32, .open_, 0x0#32, .group⟩,
  ⟨R.SEQ_Gn_HEADS 0, 0x40, 8, 0x0, 1, 0xFFFFFFFF#32, 0x0#32, 0x0#32, .open_, 0x0#32, .group⟩,
  ⟨R.SEQ_Gn_COMMIT 0, 0x40, 8, 0x0, 1, 0x0#32, 0x0#32, 0xFFFF0003#32, .open_, 0x0#32, .none_⟩,
  ⟨R.SEQ_Gn_COMMIT_STAT 0, 0x40, 8, 0x0, 1, 0x0#32, 0x0#32, 0x0#32, .open_, 0x0#32, .none_⟩,
  ⟨R.SEQ_Gn_HOLD_LIMIT 0, 0x40, 8, 0x0, 1, 0xF#32, 0x0#32, 0x0#32, .open_, 0x2#32, .immediate⟩,
  ⟨R.SEQ_Gn_GUARD 0, 0x40, 8, 0x0, 1, 0x3FF#32, 0x0#32, 0x0#32, .open_, 0x2#32, .immediate⟩,
  ⟨R.SEQ_Gn_SLEW 0, 0x40, 8, 0x0, 1, 0xFF#32, 0x0#32, 0x0#32, .open_, 0x4#32, .immediate⟩,
  ⟨R.SEQ_Gn_REJOIN 0, 0x40, 8, 0x0, 1, 0x1#32, 0x0#32, 0x0#32, .open_, 0x0#32, .immediate⟩,
  ⟨R.SEQ_Gn_WB_RES 0, 0x40, 8, 0x0, 1, 0xFFFFFFFF#32, 0x0#32, 0x0#32, .open_, 0x0#32, .group⟩,
  ⟨R.SEQ_Gn_PLAN_STAT 0, 0x40, 8, 0x0, 1, 0x0#32, 0x0#32, 0x0#32, .open_, 0x0#32, .none_⟩,
  ⟨R.SEQ_Gn_PLAN_BAND 0, 0x40, 8, 0x0, 1, 0x0#32, 0x0#32, 0x0#32, .open_, 0xFFFF0000#32, .none_⟩,
  ⟨R.SEQ_Gn_PLAN_NEED 0, 0x40, 8, 0x0, 1, 0x0#32, 0x0#32, 0x0#32, .open_, 0x0#32, .none_⟩,
  ⟨R.SEQ_Gn_REFUSED 0, 0x40, 8, 0x0, 1, 0x0#32, 0x0#32, 0x0#32, .open_, 0x0#32, .none_⟩,
  ⟨R.SEQ_Gn_TABLE_STAT 0, 0x40, 8, 0x0, 1, 0x0#32, 0xE0000000#32, 0x0#32, .open_, 0x0#32, .none_⟩,
  ⟨R.SEQ_Gn_LSET_USED 0, 0x40, 8, 0x0, 1, 0x0#32, 0x0#32, 0x0#32, .open_, 0x0#32, .none_⟩,
  ⟨R.SEQ_Gn_BAD_STEP 0, 0x40, 8, 0x0, 1, 0x0#32, 0x0#32, 0x0#32, .open_, 0x0#32, .none_⟩]

/-- Register rows of block Ssp. -/
def rowsSsp : List RegRow := [
  ⟨R.SSP_CAPACITY, 0x0, 1, 0x0, 1, 0x0#32, 0x0#32, 0x0#32, .open_, 0x00170000#32, .none_⟩,
  ⟨R.SSP_ALLOCATED, 0x0, 1, 0x0, 1, 0x0#32, 0x0#32, 0x0#32, .open_, 0x0#32, .none_⟩,
  ⟨R.SSP_FREE, 0x0, 1, 0x0, 1, 0x0#32, 0x0#32, 0x0#32, .open_, 0x0#32, .none_⟩,
  ⟨R.SSP_SCRUB_PENDING, 0x0, 1, 0x0, 1, 0x0#32, 0x0#32, 0x0#32, .open_, 0x0#32, .none_⟩,
  ⟨R.SSP_RESERVE_STAT, 0x0, 1, 0x0, 1, 0x0#32, 0x40000#32, 0x0#32, .open_, 0x0#32, .none_⟩,
  ⟨R.SSP_BAL_CTRL, 0x0, 1, 0x0, 1, 0xFFFF0F01#32, 0x0#32, 0x0#32, .priv, 0x400A0301#32, .immediate⟩,
  ⟨R.SSP_RETIRE_CMD, 0x0, 1, 0x0, 1, 0x0#32, 0x0#32, 0x8000007F#32, .priv, 0x0#32, .none_⟩,
  ⟨R.SSP_CONSTRAINED, 0x0, 1, 0x0, 1, 0x0#32, 0x80#32, 0x0#32, .open_, 0x0#32, .none_⟩,
  ⟨R.SSP_CE_CNT, 0x0, 1, 0x0, 1, 0x0#32, 0x0#32, 0x0#32, .open_, 0x0#32, .none_⟩,
  ⟨R.SSP_UE_CNT, 0x0, 1, 0x0, 1, 0x0#32, 0x0#32, 0x0#32, .open_, 0x0#32, .none_⟩,
  ⟨R.SSP_TAIL_FAIL_CNT, 0x0, 1, 0x0, 1, 0x0#32, 0x0#32, 0x0#32, .open_, 0x0#32, .none_⟩,
  ⟨R.SSP_POISON_CNT, 0x0, 1, 0x0, 1, 0x0#32, 0x0#32, 0x0#32, .open_, 0x0#32, .none_⟩,
  ⟨R.SSP_UNWRITTEN_CNT, 0x0, 1, 0x0, 1, 0x0#32, 0x0#32, 0x0#32, .open_, 0x0#32, .none_⟩,
  ⟨R.SSP_TAIL_LOG, 0x0, 1, 0x0, 1, 0x0#32, 0x0#32, 0x0#32, .open_, 0x0#32, .none_⟩,
  ⟨R.SSP_UE_LOG, 0x0, 1, 0x0, 1, 0x0#32, 0x0#32, 0x0#32, .open_, 0x0#32, .none_⟩,
  ⟨R.SSP_LOST_LOG, 0x0, 1, 0x0, 1, 0x0#32, 0x0#32, 0x0#32, .open_, 0x0#32, .none_⟩,
  ⟨R.SSP_CARRY_CNT_BAL, 0x0, 1, 0x0, 1, 0x0#32, 0x0#32, 0x0#32, .open_, 0x0#32, .none_⟩,
  ⟨R.SSP_CARRY_CNT_WEAR, 0x0, 1, 0x0, 1, 0x0#32, 0x0#32, 0x0#32, .open_, 0x0#32, .none_⟩,
  ⟨R.SSP_CARRY_CNT_PIN, 0x0, 1, 0x0, 1, 0x0#32, 0x0#32, 0x0#32, .open_, 0x0#32, .none_⟩,
  ⟨R.SSP_PC_STATEn 0, 0x4, 8, 0x0, 1, 0x0#32, 0x0#32, 0x0#32, .open_, 0x0#32, .none_⟩]

/-- Register rows of block Fsh. -/
def rowsFsh : List RegRow := [
  ⟨R.FSH_RA_QUOTA, 0x0, 1, 0x0, 1, 0xFFFFFFFF#32, 0x0#32, 0x0#32, .priv, 0x22222222#32, .immediate⟩,
  ⟨R.FSH_RA_LEVEL, 0x0, 1, 0x0, 1, 0x0#32, 0x0#32, 0x0#32, .open_, 0x0#32, .none_⟩,
  ⟨R.FSH_RA_WM, 0x0, 1, 0x0, 1, 0x7FFF#32, 0x0#32, 0x0#32, .priv, 0x3000#32, .immediate⟩,
  ⟨R.FSH_WM_RA, 0x0, 1, 0x0, 1, 0x0#32, 0x80#32, 0x0#32, .open_, 0x0#32, .none_⟩,
  ⟨R.FSH_RA_DISCARD, 0x0, 1, 0x0, 1, 0x0#32, 0x0#32, 0x0#32, .open_, 0x0#32, .none_⟩,
  ⟨R.FSH_WB_FLOOR, 0x0, 1, 0x0, 1, 0x0#32, 0x0#32, 0x0#32, .open_, 0x0#32, .none_⟩,
  ⟨R.FSH_S0_LATE_CNT, 0x0, 1, 0x0, 1, 0x0#32, 0x0#32, 0x0#32, .open_, 0x0#32, .none_⟩,
  ⟨R.FSH_PAR_CNT, 0x0, 1, 0x0, 1, 0x0#32, 0x0#32, 0x0#32, .open_, 0x0#32, .none_⟩,
  ⟨R.FSH_Wc_SHAPE 0, 0x20, 4, 0x0, 1, 0x8001FFFF#32, 0x0#32, 0x0#32, .priv, 0x80000800#32, .immediate⟩,
  ⟨R.FSH_Wc_LIMIT 0, 0x20, 4, 0x0, 1, 0x1FFFF#32, 0x0#32, 0x0#32, .priv, 0x4000#32, .immediate⟩,
  ⟨R.FSH_Wc_BACKLOG 0, 0x20, 4, 0x0, 1, 0xFFFFFF#32, 0x0#32, 0x0#32, .priv, 0x00010000#32, .immediate⟩,
  ⟨R.FSH_Wc_CREDIT 0, 0x20, 4, 0x0, 1, 0x0#32, 0x0#32, 0x0#32, .open_, 0x0#32, .none_⟩,
  ⟨R.FSH_Wc_WM_BACKLOG 0, 0x20, 4, 0x0, 1, 0x0#32, 0x80#32, 0x0#32, .open_, 0x0#32, .none_⟩,
  ⟨R.FSH_Wc_SHAPED 0, 0x20, 4, 0x0, 1, 0x0#32, 0x0#32, 0x0#32, .open_, 0x0#32, .none_⟩,
  ⟨R.FSH_Wc_STARVED 0, 0x20, 4, 0x0, 1, 0x0#32, 0x0#32, 0x0#32, .open_, 0x0#32, .none_⟩,
  ⟨R.FSH_Wc_PENDING 0, 0x20, 4, 0x0, 1, 0x0#32, 0x0#32, 0x0#32, .open_, 0x0#32, .none_⟩,
  ⟨R.FSH_PERF_S0, 0x0, 1, 0x0, 1, 0x0#32, 0x0#32, 0x0#32, .open_, 0x0#32, .none_⟩,
  ⟨R.FSH_PERF_S1, 0x0, 1, 0x0, 1, 0x0#32, 0x0#32, 0x0#32, .open_, 0x0#32, .none_⟩,
  ⟨R.FSH_PERF_S2, 0x0, 1, 0x0, 1, 0x0#32, 0x0#32, 0x0#32, .open_, 0x0#32, .none_⟩,
  ⟨R.FSH_PERF_W, 0x0, 1, 0x0, 1, 0x0#32, 0x0#32, 0x0#32, .open_, 0x0#32, .none_⟩,
  ⟨R.FSH_PERF_RA, 0x0, 1, 0x0, 1, 0x0#32, 0x0#32, 0x0#32, .open_, 0x0#32, .none_⟩,
  ⟨R.FSH_Gn_TIMING 0, 0x20, 8, 0x0, 1, 0xFFFFFFFF#32, 0x0#32, 0x0#32, .open_, 0x20001000#32, .group⟩,
  ⟨R.FSH_Gn_LADDER 0, 0x20, 8, 0x0, 1, 0xFF0F#32, 0x0#32, 0x0#32, .open_, 0xFF02#32, .group⟩,
  ⟨R.FSH_Gn_LATE 0, 0x20, 8, 0x0, 1, 0x0#32, 0x0#32, 0x0#32, .open_, 0x0#32, .none_⟩,
  ⟨R.FSH_Gn_WM_SLACK 0, 0x20, 8, 0x0, 1, 0x0#32, 0x80#32, 0x0#32, .open_, 0x0#32, .none_⟩,
  ⟨R.FSH_Gn_SUBST 0, 0x20, 8, 0x0, 1, 0x0#32, 0x0#32, 0x0#32, .open_, 0x0#32, .none_⟩,
  ⟨R.FSH_Gn_DELAYED 0, 0x20, 8, 0x0, 1, 0x0#32, 0x0#32, 0x0#32, .open_, 0x0#32, .none_⟩]

/-- Register rows of block Sca. -/
def rowsSca : List RegRow := [
  ⟨R.SCA_BANK_BUSY, 0x0, 1, 0x0, 1, 0x0#32, 0x0#32, 0x0#32, .open_, 0x0#32, .none_⟩,
  ⟨R.SCA_COEF_DENY, 0x0, 1, 0x0, 1, 0x0#32, 0x0#32, 0x0#32, .open_, 0x0#32, .none_⟩,
  ⟨R.SCA_COEF_CE_CNT, 0x0, 1, 0x0, 1, 0x0#32, 0x0#32, 0x0#32, .open_, 0x0#32, .none_⟩,
  ⟨R.SCA_COEF_UE_CNT, 0x0, 1, 0x0, 1, 0x0#32, 0x0#32, 0x0#32, .open_, 0x0#32, .none_⟩,
  ⟨R.SCA_COEF_UE_LOG, 0x0, 1, 0x0, 1, 0x0#32, 0x0#32, 0x0#32, .open_, 0x0#32, .none_⟩,
  ⟨R.SCA_CLIP_CNT, 0x0, 1, 0x0, 1, 0x0#32, 0x0#32, 0x0#32, .open_, 0x0#32, .none_⟩,
  ⟨R.SCA_VOID_OUT_CNT, 0x0, 1, 0x0, 1, 0x0#32, 0x0#32, 0x0#32, .open_, 0x0#32, .none_⟩,
  ⟨R.SCA_SPARE_STAT, 0x0, 1, 0x0, 1, 0x0#32, 0x0#32, 0x0#32, .open_, 0x0#32, .none_⟩,
  ⟨R.SCA_MAPnn 0, 0x4, 20, 0x0, 1, 0x0#32, 0x0#32, 0x0#32, .open_, 0x0#32, .none_⟩]

/-- Register rows of block Cmp. -/
def rowsCmp : List RegRow := [
  ⟨R.CMP_SAT_CNT, 0x0, 1, 0x0, 1, 0x0#32, 0x0#32, 0x0#32, .open_, 0x0#32, .none_⟩,
  ⟨R.CMP_TABLE_CE_CNT, 0x0, 1, 0x0, 1, 0x0#32, 0x0#32, 0x0#32, .open_, 0x0#32, .none_⟩,
  ⟨R.CMP_TABLE_UE_CNT, 0x0, 1, 0x0, 1, 0x0#32, 0x0#32, 0x0#32, .open_, 0x0#32, .none_⟩,
  ⟨R.CMP_TABLE_UE_LOG, 0x0, 1, 0x0, 1, 0x0#32, 0x0#32, 0x0#32, .open_, 0x0#32, .none_⟩,
  ⟨R.CMP_ZERO_FILL_CNT, 0x0, 1, 0x0, 1, 0x0#32, 0x0#32, 0x0#32, .open_, 0x0#32, .none_⟩,
  ⟨R.CMP_Hnn_BG_RG 0, 0x40, 32, 0x0, 1, 0xFFFFFFFF#32, 0x0#32, 0x0#32, .open_, 0x0#32, .group⟩,
  ⟨R.CMP_Hnn_BG_B 0, 0x40, 32, 0x0, 1, 0xFFFF#32, 0x0#32, 0x0#32, .open_, 0x0#32, .group⟩,
  ⟨R.CMP_Hnn_OUT_CTRL 0, 0x40, 32, 0x0, 1, 0x37#32, 0x0#32, 0x0#32, .open_, 0x0#32, .group⟩,
  ⟨R.CMP_Hnn_OMTX0 0, 0x40, 32, 0x0, 1, 0xFFFFFFFF#32, 0x0#32, 0x0#32, .open_, 0x3C00#32, .group⟩,
  ⟨R.CMP_Hnn_OMTX1 0, 0x40, 32, 0x0, 1, 0xFFFFFFFF#32, 0x0#32, 0x0#32, .open_, 0x0#32, .group⟩,
  ⟨R.CMP_Hnn_OMTX2 0, 0x40, 32, 0x0, 1, 0xFFFFFFFF#32, 0x0#32, 0x0#32, .open_, 0x3C00#32, .group⟩,
  ⟨R.CMP_Hnn_OMTX3 0, 0x40, 32, 0x0, 1, 0xFFFFFFFF#32, 0x0#32, 0x0#32, .open_, 0x0#32, .group⟩,
  ⟨R.CMP_Hnn_OMTX4 0, 0x40, 32, 0x0, 1, 0xFFFF#32, 0x0#32, 0x0#32, .open_, 0x3C00#32, .group⟩]

/-- Register rows of block Owb. -/
def rowsOwb : List RegRow := [
  ⟨R.OWB_Hnn_TG_CTRL 0, 0x2000, 32, 0x0, 1, 0x800F031F#32, 0x0#32, 0x0#32, .r210, 0xA#32, .disruptive⟩,
  ⟨R.OWB_Hnn_HTIME0 0, 0x2000, 32, 0x0, 1, 0xFFFFFFFF#32, 0x0#32, 0x0#32, .r210, 0x0#32, .disruptive⟩,
  ⟨R.OWB_Hnn_HTIME1 0, 0x2000, 32, 0x0, 1, 0xFFFFFFFF#32, 0x0#32, 0x0#32, .r210, 0x0#32, .disruptive⟩,
  ⟨R.OWB_Hnn_VTIME0 0, 0x2000, 32, 0x0, 1, 0xFFFFFFFF#32, 0x0#32, 0x0#32, .r210, 0x0#32, .disruptive⟩,
  ⟨R.OWB_Hnn_VTIME1 0, 0x2000, 32, 0x0, 1, 0xFFFFFFFF#32, 0x0#32, 0x0#32, .r210, 0x0#32, .disruptive⟩,
  ⟨R.OWB_Hnn_VPHASE 0, 0x2000, 32, 0x0, 1, 0xFFFF#32, 0x0#32, 0x0#32, .r210, 0x0#32, .disruptive⟩,
  ⟨R.OWB_Hnn_DIV 0, 0x2000, 32, 0x0, 1, 0xFFFFFFFF#32, 0x0#32, 0x0#32, .r210, 0x00010001#32, .disruptive⟩,
  ⟨R.OWB_Hnn_OUT_EN 0, 0x2000, 32, 0x0, 1, 0x1#32, 0x0#32, 0x0#32, .priv, 0x0#32, .immediate⟩,
  ⟨R.OWB_Hnn_RESET 0, 0x2000, 32, 0x0, 1, 0x0#32, 0x0#32, 0x1#32, .priv, 0x0#32, .none_⟩,
  ⟨R.OWB_Hnn_FRAME 0, 0x2000, 32, 0x0, 1, 0x0#32, 0x0#32, 0x0#32, .open_, 0x0#32, .none_⟩,
  ⟨R.OWB_Hnn_STATE 0, 0x2000, 32, 0x0, 1, 0x0#32, 0x0#32, 0x0#32, .open_, 0x0#32, .none_⟩,
  ⟨R.OWB_Hnn_SAFE_CTRL 0, 0x2000, 32, 0x0, 1, 0xF07#32, 0x0#32, 0x1000#32, .priv, 0x0#32, .immediate⟩,
  ⟨R.OWB_Hnn_SAFE_STAT 0, 0x2000, 32, 0x0, 1, 0x0#32, 0x38000000#32, 0x0#32, .priv, 0x0#32, .none_⟩,
  ⟨R.OWB_Hnn_WB_CTRL 0, 0x2000, 32, 0x0, 1, 0x8003FFFF#32, 0x0#32, 0x0#32, .open_, 0x0#32, .immediate⟩,
  ⟨R.OWB_Hnn_WB_STAT 0, 0x2000, 32, 0x0, 1, 0x0#32, 0x0#32, 0x0#32, .open_, 0x0#32, .none_⟩,
  ⟨R.OWB_Hnn_WB_VOID 0, 0x2000, 32, 0x0, 1, 0x0#32, 0x0#32, 0x0#32, .open_, 0x0#32, .none_⟩,
  ⟨R.OWB_Hnn_WB_DROP 0, 0x2000, 32, 0x0, 1, 0x0#32, 0x0#32, 0x0#32, .open_, 0x0#32, .none_⟩,
  ⟨R.OWB_Hnn_WB_FRAMES 0, 0x2000, 32, 0x0, 1, 0x0#32, 0x0#32, 0x0#32, .open_, 0x0#32, .none_⟩,
  ⟨R.OWB_Hnn_WB_SKIP 0, 0x2000, 32, 0x0, 1, 0x0#32, 0x0#32, 0x0#32, .open_, 0x0#32, .none_⟩,
  ⟨R.OWB_Hnn_BG_FILL 0, 0x2000, 32, 0x0, 1, 0x0#32, 0x0#32, 0x0#32, .open_, 0x0#32, .none_⟩,
  ⟨R.OWB_Hnn_WM_LOW 0, 0x2000, 32, 0x0, 1, 0x0#32, 0x80#32, 0x0#32, .open_, 0x0#32, .none_⟩,
  ⟨R.OWB_Hnn_WM_CTRL 0, 0x2000, 32, 0x0, 1, 0xF#32, 0x0#32, 0x0#32, .open_, 0x1#32, .immediate⟩,
  ⟨R.OWB_Hnn_UE_CNT 0, 0x2000, 32, 0x0, 1, 0x0#32, 0x0#32, 0x0#32, .open_, 0x0#32, .none_⟩]

/-- Register rows of block Dp. -/
def rowsDp : List RegRow := [
  ⟨R.OWB_Ddd_CTRL 0, 0x1000, 16, 0x0, 1, 0x80006DFF#32, 0x0#32, 0x0#32, .priv, 0x980#32, .immediate⟩,
  ⟨R.OWB_Ddd_STAT 0, 0x1000, 16, 0x0, 1, 0x0#32, 0x0#32, 0x0#32, .open_, 0x0#32, .none_⟩,
  ⟨R.OWB_Ddd_EVT 0, 0x1000, 16, 0x0, 1, 0x0#32, 0xF#32, 0x0#32, .open_, 0x0#32, .none_⟩,
  ⟨R.OWB_Ddd_AUX_CMD 0, 0x1000, 16, 0x0, 1, 0x0#32, 0x0#32, 0xFF0FFFFF#32, .priv, 0x0#32, .none_⟩,
  ⟨R.OWB_Ddd_AUX_STAT 0, 0x1000, 16, 0x0, 1, 0x0#32, 0x0#32, 0x0#32, .priv, 0x0#32, .none_⟩,
  ⟨R.OWB_Ddd_AUX_DATAn 0 0, 0x1000, 16, 0x4, 4, 0xFFFFFFFF#32, 0x0#32, 0x0#32, .priv, 0x0#32, .immediate⟩,
  ⟨R.OWB_Ddd_HDRn 0 0, 0x1000, 16, 0x4, 7, 0xFFFFFFFF#32, 0x0#32, 0x0#32, .priv, 0x0#32, .immediate⟩]

/-- Register rows of block Nmp. -/
def rowsNmp : List RegRow := [
  ⟨R.NMP_Pnn_CTRL 0, 0x4000, 16, 0x0, 1, 0x80000F07#32, 0x0#32, 0x0#32, .priv, 0xD01#32, .immediate⟩,
  ⟨R.NMP_Pnn_STAT 0, 0x4000, 16, 0x0, 1, 0x0#32, 0x0#32, 0x0#32, .open_, 0x0#32, .none_⟩,
  ⟨R.NMP_Pnn_EVT 0, 0x4000, 16, 0x0, 1, 0x0#32, 0xF#32, 0x0#32, .open_, 0x0#32, .none_⟩,
  ⟨R.NMP_Pnn_RESET 0, 0x4000, 16, 0x0, 1, 0x0#32, 0x0#32, 0x1#32, .priv, 0x0#32, .none_⟩,
  ⟨R.NMP_Pnn_MAC_LO 0, 0x4000, 16, 0x0, 1, 0xFFFFFFFF#32, 0x0#32, 0x0#32, .priv, 0x0#32, .immediate⟩,
  ⟨R.NMP_Pnn_MAC_HI 0, 0x4000, 16, 0x0, 1, 0xFFFF#32, 0x0#32, 0x0#32, .priv, 0x0#32, .immediate⟩,
  ⟨R.NMP_Pnn_IPV4 0, 0x4000, 16, 0x0, 1, 0xFFFFFFFF#32, 0x0#32, 0x0#32, .priv, 0x0#32, .immediate⟩,
  ⟨R.NMP_Pnn_VLAN 0, 0x4000, 16, 0x0, 1, 0x10FFF#32, 0x0#32, 0x0#32, .priv, 0x0#32, .immediate⟩,
  ⟨R.NMP_Pnn_STATE 0, 0x4000, 16, 0x0, 1, 0x0#32, 0x0#32, 0x0#32, .open_, 0x0#32, .none_⟩,
  ⟨R.NMP_Pnn_RX_BAD 0, 0x4000, 16, 0x0, 1, 0x0#32, 0x0#32, 0x0#32, .open_, 0x0#32, .none_⟩,
  ⟨R.NMP_Pnn_RX_OTHER 0, 0x4000, 16, 0x0, 1, 0x0#32, 0x0#32, 0x0#32, .open_, 0x0#32, .none_⟩,
  ⟨R.NMP_Pnn_RX_OVF 0, 0x4000, 16, 0x0, 1, 0x0#32, 0x0#32, 0x0#32, .open_, 0x0#32, .none_⟩,
  ⟨R.NMP_Pnn_FEC_CORR 0, 0x4000, 16, 0x0, 1, 0x0#32, 0x0#32, 0x0#32, .open_, 0x0#32, .none_⟩,
  ⟨R.NMP_Pnn_FEC_UNCORR 0, 0x4000, 16, 0x0, 1, 0x0#32, 0x0#32, 0x0#32, .open_, 0x0#32, .none_⟩,
  ⟨R.NMP_Pnn_TXQ_WM 0, 0x4000, 16, 0x0, 1, 0x1FFFFF#32, 0x0#32, 0x0#32, .priv, 0x00080000#32, .immediate⟩,
  ⟨R.NMP_Pnn_WM_TXQ 0, 0x4000, 16, 0x0, 1, 0x0#32, 0x80#32, 0x0#32, .open_, 0x0#32, .none_⟩,
  ⟨R.NMP_Pnn_TX_DROPc 0 0, 0x4000, 16, 0x4, 8, 0x0#32, 0x0#32, 0x0#32, .open_, 0x0#32, .none_⟩,
  ⟨R.NMP_Pnn_TCk_SHAPE 0 0, 0x4000, 16, 0x10, 6, 0x8001FFFF#32, 0x0#32, 0x0#32, .priv, 0x800003E8#32, .immediate⟩,
  ⟨R.NMP_Pnn_TCk_LIMIT 0 0, 0x4000, 16, 0x10, 6, 0xFFFF#32, 0x0#32, 0x0#32, .priv, 0x4000#32, .immediate⟩,
  ⟨R.NMP_Pnn_TCk_CREDIT 0 0, 0x4000, 16, 0x10, 6, 0x0#32, 0x0#32, 0x0#32, .open_, 0x0#32, .none_⟩,
  ⟨R.NMP_Pnn_GCL_CTRL 0, 0x4000, 16, 0x0, 1, 0x800001FF#32, 0x0#32, 0x60000000#32, .priv, 0x0#32, .immediate⟩,
  ⟨R.NMP_Pnn_GCL_BASE_LO 0, 0x4000, 16, 0x0, 1, 0xFFFFFFFF#32, 0x0#32, 0x0#32, .priv, 0x0#32, .immediate⟩,
  ⟨R.NMP_Pnn_GCL_BASE_HI 0, 0x4000, 16, 0x0, 1, 0xFFFFFFFF#32, 0x0#32, 0x0#32, .priv, 0x0#32, .immediate⟩,
  ⟨R.NMP_Pnn_GCL_STAT 0, 0x4000, 16, 0x0, 1, 0x0#32, 0x10000000#32, 0x0#32, .open_, 0x0#32, .none_⟩,
  ⟨R.NMP_Pnn_GCL_CYCLE 0, 0x4000, 16, 0x0, 1, 0x0#32, 0x0#32, 0x0#32, .open_, 0x0#32, .none_⟩,
  ⟨R.NMP_Pnn_PTP_CTRL 0, 0x4000, 16, 0x0, 1, 0xC0FFFFFF#32, 0x0#32, 0x0#32, .priv, 0x007FDED3#32, .immediate⟩,
  ⟨R.NMP_Pnn_PTP_PRIO 0, 0x4000, 16, 0x0, 1, 0xFFFF#32, 0x0#32, 0x0#32, .priv, 0x8080#32, .immediate⟩,
  ⟨R.NMP_Pnn_PTP_STAT 0, 0x4000, 16, 0x0, 1, 0x0#32, 0x0#32, 0x0#32, .open_, 0x0#32, .none_⟩,
  ⟨R.NMP_Pnn_PTP_OFFSET 0, 0x4000, 16, 0x0, 1, 0x0#32, 0x0#32, 0x0#32, .open_, 0x0#32, .none_⟩,
  ⟨R.NMP_Pnn_PTP_DELAY 0, 0x4000, 16, 0x0, 1, 0x0#32, 0x0#32, 0x0#32, .open_, 0x0#32, .none_⟩,
  ⟨R.NMP_Pnn_PTP_ASYM 0, 0x4000, 16, 0x0, 1, 0xFFFFFFFF#32, 0x0#32, 0x0#32, .priv, 0x0#32, .immediate⟩,
  ⟨R.NMP_Pnn_PTP_GM_LO 0, 0x4000, 16, 0x0, 1, 0x0#32, 0x0#32, 0x0#32, .open_, 0x0#32, .none_⟩,
  ⟨R.NMP_Pnn_PTP_GM_HI 0, 0x4000, 16, 0x0, 1, 0x0#32, 0x0#32, 0x0#32, .open_, 0x0#32, .none_⟩,
  ⟨R.NMP_Pnn_PTP_TS_ERR 0, 0x4000, 16, 0x0, 1, 0x0#32, 0x0#32, 0x0#32, .open_, 0x0#32, .none_⟩]

/-- Register rows of block Idx. -/
def rowsIdx : List RegRow := [
  ⟨R.GLB_IDX_SEL, 0x0, 1, 0x0, 1, 0x7F#32, 0x0#32, 0x0#32, .open_, 0x0#32, .none_⟩,
  ⟨R.GLB_IDX_ADDR, 0x0, 1, 0x0, 1, 0xFFFFFF#32, 0x0#32, 0x0#32, .open_, 0x0#32, .none_⟩,
  ⟨R.GLB_IDX_DATA, 0x0, 1, 0x0, 1, 0xFFFFFFFF#32, 0x0#32, 0x0#32, .open_, 0x0#32, .none_⟩,
  ⟨R.GLB_IDX_STAT, 0x0, 1, 0x0, 1, 0x0#32, 0x0#32, 0x0#32, .open_, 0x80000000#32, .none_⟩]

/-- Whether offset `o` is an instance of the row. -/
def RegRow.has (r : RegRow) (o : Nat) : Bool :=
  decide (r.base ≤ o) &&
    (let x := o - r.base
     let i := if r.stride = 0 then 0 else x / r.stride
     let y := if r.stride = 0 then x else x % r.stride
     let j := if r.stride2 = 0 then 0 else y / r.stride2
     let z := if r.stride2 = 0 then y else y % r.stride2
     decide (z = 0) && decide (i < r.count) && decide (j < r.count2))

/-- The register rows of the block that offset `o` lies in (R425). -/
def blockRows (o : Nat) : List RegRow :=
  if o < 0x10000 then rowsGlb
  else if o < 0x20000 then rowsLdr
  else if o < 0x40000 then rowsHwq
  else if o < 0x80000 then rowsIhm
  else if o < 0xC0000 then rowsTrs
  else if o < 0x100000 then rowsSeq
  else if o < 0x140000 then rowsSsp
  else if o < 0x180000 then rowsFsh
  else if o < 0x1C0000 then rowsSca
  else if o < 0x200000 then rowsCmp
  else if o < 0x240000 then rowsOwb
  else if o < 0x250000 then rowsDp
  else if o < 0x2C0000 then rowsNmp
  else if o < 0x300000 then [] else if o < 0x300010 then rowsIdx
  else []

/-- The row of the register at byte offset `o`; none when the location is reserved (R354). -/
def findRow (o : Nat) : Option RegRow := (blockRows o).find? (·.has o)

/-- SCA_MAPnn at reset: logical scaler l of domain d on physical scaler 22 d + l mod 20 (R123). -/
def scaMapReset (n : Nat) : Word :=
  let phys (l : Nat) := 22 * (l / 20) + l % 20
  word (phys (4 * n) + 256 * phys (4 * n + 1) + 65536 * phys (4 * n + 2) + 16777216 * phys (4 * n + 3))

/-- Reset value of the register at byte offset `o`. -/
def regReset (o : Nat) : Word :=
  if o = R.FSH_Wc_SHAPE 1 then 0x80000400#32
  else if o = R.HWQ_QMAP2 then 0xAAAAAAAA#32
  else if R.SCA_MAPnn 0 ≤ o ∧ o ≤ R.SCA_MAPnn 19 then scaMapReset ((o - R.SCA_MAPnn 0) / 4)
  else match findRow o with
    | some r => r.reset
    | none => 0#32

/-- Whether R364 leaves a register out of the configuration CRC. -/
def crcExcept (o : Nat) : Bool :=
  decide (o < 0x20000 ∨ 0x300000 ≤ o) || [R.IHM_CFGCRC_CTRL, R.IHM_CFGCRC_REF, R.IHM_INJ].contains o
    || (decide (0x21000 ≤ o ∧ o < 0x22000) && (decide (o % 0x40 = 0x14) || decide (o % 0x40 = 0x18)))
    || (List.range 2).any (fun k => o == R.HWQ_Fk_EVR_CONS k) || decide (0x20400 ≤ o ∧ o < 0x20600)

/-- RW bits that the device itself changes, taken as 0 in the configuration CRC (R364). -/
def crcOwn (o : Nat) : Word :=
  if (decide (0x21000 ≤ o ∧ o < 0x22000) && decide (o % 0x40 = 0)) ∨ o = R.HWQ_Fk_EVR_CFG 0 ∨ o = R.HWQ_Fk_EVR_CFG 1
    ∨ o = R.TRS_SYNC_CTRL then 0x80000000#32 else 0#32

/-- Bits of the register at `o` that the configuration CRC covers (R364). -/
def crcMask (o : Nat) : Word :=
  if crcExcept o then 0#32
  else match findRow o with
    | some r => r.rw &&& ~~~(crcOwn o)
    | none => 0#32

/-- One row of the index of indirect spaces (R428). -/
structure SpaceRow where
  code : Nat
  words : Nat
  /-- Ordinary masters may read. -/
  readOpen : Bool
  /-- Ordinary masters may write. -/
  writeOpen : Bool
  readOnly : Bool
  /-- Group-decked. -/
  decked : Bool
  deriving DecidableEq, Repr

-- The codes of R428.
namespace Space
def FLASH_PAGE : Nat := 0x01
def RECKON : Nat := 0x10
def RECKON_LIVE : Nat := 0x11
def LSET : Nat := 0x12
def LSET_LIVE : Nat := 0x13
def FENCE : Nat := 0x14
def LAYER_SRC : Nat := 0x15
def SURF_ATTR : Nat := 0x18
def SURF_PLACE : Nat := 0x19
def LAYER_CNT : Nat := 0x1C
def COEF : Nat := 0x20
def LAYER_DESC : Nat := 0x24
def LAYER_LIVE : Nat := 0x25
def LUT_EOTF : Nat := 0x26
def LUT_3D : Nat := 0x27
def LUT_OETF : Nat := 0x28
def SAFE_FRAME : Nat := 0x2C
def NMP_RXS : Nat := 0x30
def NMP_RXC : Nat := 0x31
def NMP_TXS : Nat := 0x32
def NMP_TXC : Nat := 0x33
def NMP_GCL : Nat := 0x34
def BAND : Nat := 0x38
def QRING : Nat := 0x3C
def FC_SRC : Nat := 0x40
def FC_HIST : Nat := 0x41
def FC_STATE : Nat := 0x42
def TALLY_REGION : Nat := 0x43
def TALLY_EXP : Nat := 0x44
def TALLY_STAT : Nat := 0x45
def CMETER : Nat := 0x46
end Space

/-- The index of indirect spaces (R428). -/
def spaceRows : List SpaceRow := [
  ⟨Space.FLASH_PAGE, 64, false, false, false, false⟩,
  ⟨Space.RECKON, 524288, true, true, false, true⟩,
  ⟨Space.RECKON_LIVE, 524288, true, true, true, false⟩,
  ⟨Space.LSET, 262144, true, true, false, true⟩,
  ⟨Space.LSET_LIVE, 262144, true, true, true, false⟩,
  ⟨Space.FENCE, 131072, true, true, false, false⟩,
  ⟨Space.LAYER_SRC, 8192, true, true, false, false⟩,
  ⟨Space.SURF_ATTR, 524288, true, true, true, false⟩,
  ⟨Space.SURF_PLACE, 262144, true, true, true, false⟩,
  ⟨Space.LAYER_CNT, 16384, true, true, false, false⟩,
  ⟨Space.COEF, 4096, true, true, false, false⟩,
  ⟨Space.LAYER_DESC, 65536, true, true, false, true⟩,
  ⟨Space.LAYER_LIVE, 65536, true, true, true, false⟩,
  ⟨Space.LUT_EOTF, 32768, true, true, false, true⟩,
  ⟨Space.LUT_3D, 4194304, true, true, false, true⟩,
  ⟨Space.LUT_OETF, 65536, true, true, false, true⟩,
  ⟨Space.SAFE_FRAME, 262144, false, false, false, false⟩,
  ⟨Space.NMP_RXS, 4096, true, true, false, false⟩,
  ⟨Space.NMP_RXC, 4096, true, true, false, false⟩,
  ⟨Space.NMP_TXS, 1024, true, false, false, false⟩,
  ⟨Space.NMP_TXC, 512, true, true, false, false⟩,
  ⟨Space.NMP_GCL, 8192, true, false, false, false⟩,
  ⟨Space.BAND, 288, true, true, false, false⟩,
  ⟨Space.QRING, 262144, false, false, false, false⟩,
  ⟨Space.FC_SRC, 320, false, false, false, false⟩,
  ⟨Space.FC_HIST, 256, false, false, true, false⟩,
  ⟨Space.FC_STATE, 320, false, false, true, false⟩,
  ⟨Space.TALLY_REGION, 2048, false, false, false, true⟩,
  ⟨Space.TALLY_EXP, 2048, false, false, false, true⟩,
  ⟨Space.TALLY_STAT, 2048, false, false, true, false⟩,
  ⟨Space.CMETER, 2280, true, true, true, false⟩]

/-- The row of a space code; none when it names no space (R429). -/
def findSpace (code : Nat) : Option SpaceRow := spaceRows.find? (·.code == code)

/-- Key of a word of an indirect space. -/
def skey (code addr : Nat) : Nat := code * 16777216 + addr

/-- Reset severities of the sources, 0 where a source is reserved (R60, R94, R122, R143, R167, R187, R247, R276, R307,
R345, R372, R424). -/
def sevReset (s : Nat) : Nat :=
  if s ∈ [27, 28, 60, 61, 76, 305] then 0
  else if s = 304 ∨ s = 308 then 3
  else if s ∈ [2, 25, 26, 30, 31, 32, 35, 39, 48, 53, 55, 56, 58, 64, 72, 73, 75, 79, 267, 268, 269, 270, 271, 273, 277,
      287, 290, 292, 306, 309, 311, 313, 315, 316, 317, 319] then 2
  else if s ≤ 7 ∨ (24 ≤ s ∧ s ≤ 39) ∨ (40 ≤ s ∧ s ≤ 55) ∨ (56 ≤ s ∧ s ≤ 64) ∨ (72 ≤ s ∧ s ≤ 79) ∨
      (264 ≤ s ∧ s ≤ 292) ∨ (304 ≤ s ∧ s ≤ 319) then 1
  else if 8 ≤ s ∧ s ≤ 23 then (if s % 2 = 1 then 2 else 1)
  else if 104 ≤ s ∧ s ≤ 199 then (if (s - 104) % 3 = 0 then 2 else 1)
  else if 200 ≤ s ∧ s ≤ 263 then (if (s - 200) % 4 = 0 then 2 else 1)
  else 0

/-- Reset word of FC_SRC word `s` (R375). -/
def fcSrcReset (s : Nat) : Word := word (0x03A80000 + sevReset s)

/-- What an indirect word reads as at reset: FC_SRC of R375, RATE of NMP_RXS word 2 of R275, else 0. -/
def spaceReset (k : Nat) : Word :=
  let code := k / 16777216
  let addr := k % 16777216
  if code = Space.FC_SRC ∧ addr < 320 then fcSrcReset addr
  else if code = Space.NMP_RXS ∧ addr % 16 = 2 then 1000#32
  else 0#32

end Sys2Proof.Machine
end

