-- ==== Sys2Proof/Machine/State.lean ====
section
/-!
DEFINITION. The state of the TCH-5120 as plain data, the reasons a step can stop, and the state at reset.
Registers live in `regs` (what the mirror shows) and `unit` (what the units use); everything the spec gives the device that
is not a register has a field of its own.
-/
namespace Sys2Proof.Machine

/-- A fault of the model. The device reports every trouble the spec describes through its fault collector, which is an
effect on the state; so no command of the table ends in one. -/
inductive Fault where
  /-- Raised by no command: kept for a step of a state that the spec does not let exist. Safe. -/
  | impossible
  deriving DecidableEq, Repr

/-- Why a command has no next state. -/
inductive Refusal where
  /-- Raised by the dispatch for a command that has no meaning yet. Safe: the model stops. -/
  | notModelled (mnemonic : String)
  deriving DecidableEq, Repr

/-- A write accepted from a master and not yet in effect (R353). -/
structure QWrite where
  /-- The target is a word of an indirect space. -/
  indirect : Bool
  /-- Register byte offset, or space key. -/
  at_ : Nat
  /-- Value the write leaves for a register; value written for a space word. -/
  v : Word
  /-- The write was accepted as privileged. -/
  priv : Bool
  deriving DecidableEq, Repr

/-- What exists once per master (R359): its write queue, view, window and latches. -/
structure MState where
  /-- Writes accepted, oldest first (R353). -/
  wq : List QWrite
  /-- GLB_WRQ.DONE. -/
  done : BitVec 16
  /-- GLB_VIEW. -/
  view : Word
  /-- GLB_BERR_LOG. -/
  berr : Word
  /-- GLB_IDX_SEL. -/
  sel : Word
  /-- GLB_IDX_ADDR. -/
  addr : Word
  ready : Bool
  miss : Bool
  range : Bool
  badSpace : Bool
  denied : Bool
  /-- The prefetch buffer (R361). -/
  buf : Word
  /-- The value of the previous GLB_IDX_DATA read (R361). -/
  last : Word
  /-- GLB_VIEW.LIVE when the fetch in progress started (R361). -/
  fetchLive : Bool
  /-- Writes of this master that the fetch still waits for (R361). -/
  ahead : Nat
  /-- The latch of TRS_TIME_HI (R278). -/
  timeHi : Word
  deriving DecidableEq, Repr

def MState.reset : MState :=
  ⟨[], 0, 0, 0, 0, 0, true, false, false, false, false, 0, 0, false, 0, 0⟩

/-- One event source in the fault collector (R373, R377, R378, R398). -/
structure SrcSt where
  /-- Latched level, 0 none to 3 SAFE. -/
  level : Nat
  /-- RAISES, saturating at 65,535. -/
  raises : Nat
  /-- The latest raise was injected. -/
  inj : Bool
  /-- A counting window is open. -/
  win : Bool
  /-- Count in the window. -/
  count : Nat
  /-- Affected heads. -/
  heads : Word
  deriving DecidableEq, Repr

def SrcSt.reset : SrcSt := ⟨0, 0, false, false, 0, 0⟩

/-- An armed injection (R394). -/
structure Inj where
  target : Nat
  unit : Nat
  left : Nat
  deriving DecidableEq, Repr

/-- A part fault whose answer has not completed (R12, R392). -/
structure PartFault where
  /-- Source that reported it (R392). -/
  src : Nat
  /-- The part: unit number, pseudo-channel, physical pixel PLL, media port; a DisplayPort port d as 0x10000 + d. -/
  part : Nat
  deriving DecidableEq, Repr

/-- The fault collector (R371 to R395) and the configuration-CRC engine (R364 to R366). -/
structure Collector where
  src : KMap SrcSt
  /-- Phase in force (R377). -/
  phase : Nat
  /-- Collector words that fail parity, until rewritten (R391). -/
  bad : List Nat
  /-- Sweeps still to end before a SELF clear is judged; 0 when none waits (R380). -/
  selfWait : Nat
  inj : Option Inj
  /-- Part faults whose answers have not completed (R392). -/
  faults : List PartFault
  /-- The check of R366 is armed. -/
  armed : Bool
  /-- Passes are being compared. -/
  comparing : Bool
  /-- A pass that began after the arm is in progress. -/
  passArmed : Bool
  /-- A covered register has changed during the pass in progress. -/
  changed : Bool
  deriving DecidableEq, Repr

def Collector.reset : Collector := ⟨[], 0, [], 0, none, [], false, false, false, false⟩

/-- How far a job has come (R320, R322). -/
inductive JobPhase where
  /-- Its chain is being read. -/
  | chain
  /-- The chain is read and its fields passed: it is to act. -/
  | act
  /-- It acts over several commands (lines of an upload, copy, fill or composition; carries of a pin). -/
  | running
  /-- A COMMIT job waits for its group's slot (R193). -/
  | slot
  /-- Its commit is in flight (R193). -/
  | commit
  deriving DecidableEq, Repr

/-- The job in progress on a queue (R320 to R322). -/
structure Job where
  /-- Sequence number taken at acceptance. -/
  seq : BitVec 16
  typ : Nat
  /-- Entries that CONS has passed, FIRST first, 64 bytes each, as last read. -/
  entries : List (List Byte)
  /-- Entries read in this run: fewer than passed while a job run again reads its chain (R335). -/
  read : Nat
  /-- Entry count E (R323). -/
  want : Nat
  /-- Privilege at acceptance (R314). -/
  priv : Bool
  /-- Run again under R335. -/
  rerun : Bool
  phase : JobPhase
  /-- Index of the FIRST entry. -/
  index : Word
  /-- Lines, segments or records done; of an OFFLINE_COMPOSE, lines done of the layer in progress. -/
  pos : Nat
  /-- Segment in progress of an upload, layer in progress of an OFFLINE_COMPOSE. -/
  seg : Nat
  /-- A destination line took substituted content (R327). -/
  subst : Bool
  /-- The first write has been made (R326). -/
  wrote : Bool
  /-- Repeats of the present read after VOID (R40). -/
  voids : Nat
  /-- Live tables of the group when an OFFLINE_COMPOSE job started, and their failing words (R327). -/
  tables : KMap Word
  bad : List Nat
  /-- Metered numbers of the tile and the scaler an OFFLINE_COMPOSE job composes with. -/
  units : List Nat
  /-- Lines of the destination as the layers composed so far leave them, and stored lines that the scaler of an OFFLINE_COMPOSE job holds of
  the layer in progress; none where a line is not GOOD. -/
  acc : List (List (BitVec 64))
  held : List (Nat × Option (List Byte))
  /-- Stored lines of that layer whose horizontal results it has (R133). -/
  hdone : List Nat
  /-- Beads of the job's present line that have come over rods, and the bits changed in each (R26): receiver and layer, bead. -/
  flips : List ((OfflineStage × Nat) × Nat × BitVec 137)
  deriving DecidableEq, Repr

/-- A work queue beyond its registers (R314 to R337). -/
structure Queue where
  /-- Doorbell pending flag (R318). -/
  bell : Bool
  /-- A producer-index read is outstanding (R318). -/
  reading : Bool
  /-- Known producer index. -/
  prod : Word
  job : Option Job
  /-- L of R336, the sequence number of the last completion, in its two copies. -/
  last : BitVec 16
  lastB : BitVec 16
  /-- DONE of the index record: completions written (R316). -/
  done : Word
  /-- Stopped by a reset in progress (R333). -/
  stopping : Bool
  deriving DecidableEq, Repr

def Queue.reset : Queue := ⟨false, false, 0, none, 0xFFFF, 0xFFFF, 0, false⟩

/-- The configuration space of one PCIe function, beyond what is fixed (R308, R309). -/
structure PciCfg where
  memory : Bool
  busMaster : Bool
  bar0 : BitVec 64
  bar2 : BitVec 64
  bar4 : BitVec 64
  mps : BitVec 3
  mrrs : BitVec 3
  tags10 : Bool
  aspmL1 : Bool
  /-- Uncorrectable Error Status of Advanced Error Reporting. -/
  aer : Word
  msix : Bool
  functionMask : Bool
  deriving DecidableEq, Repr

/-- As PCIe Base 5.0 resets it: no memory space, no bus mastering, MSI-X off, Max_Payload_Size 128, Max_Read_Request_Size 512. -/
def PciCfg.reset : PciCfg := ⟨false, false, 0, 0, 0, 0, 2, false, false, 0, false, false⟩

/-- One PCIe function beyond its registers: configuration space, event ring and MSI-X (R308, R309, R339 to R342). -/
structure Func where
  /-- Event record PHASE of the next record. -/
  phase : Bool
  /-- Records lost since the last record of KIND 2. -/
  lost : Nat
  /-- Records posted since the last message of the ring. -/
  covered : Bool
  /-- HOLDOFF is running since the last message. -/
  holdoff : Bool
  /-- MSI-X table: vectors unmasked in it, and the address and data of each vector set. -/
  unmasked : List Nat
  table : KMap (Nat × Nat)
  /-- Pending Bit Array. -/
  pba : List Nat
  cfg : PciCfg
  /-- VOID beads met by the function's present aperture read (R40), and the bead of it that comes next (R26). -/
  apVoids : Nat
  apNext : Nat
  /-- A function-level reset is in progress (R333). -/
  flr : Bool
  /-- A reset of the function's queues, event ring and windows is in progress. -/
  resetting : Bool
  deriving DecidableEq, Repr

def Func.reset : Func := ⟨true, 0, false, false, [], [], [], PciCfg.reset, 0, 0, false, false⟩

/-- States of the loader (R64). -/
inductive LdrState where
  | reset
  | probe
  | load
  | scrub
  | settle
  | held
  | released
  | waitHost
  | noImage
  deriving DecidableEq, Repr

def LdrState.code : LdrState → Nat
  | .reset => 0
  | .probe => 1
  | .load => 2
  | .scrub => 3
  | .settle => 4
  | .held => 5
  | .released => 6
  | .waitHost => 7
  | .noImage => 8

/-- One image copy as the loader judged it (R49, R50, R53). -/
structure CopyInfo where
  candidate : Bool
  tried : Bool
  generation : Nat
  /-- Page 0. -/
  page : List Byte
  deriving DecidableEq, Repr

def CopyInfo.reset : CopyInfo := ⟨false, false, 0, []⟩

/-- The loader (R42 to R65). -/
structure Ldr where
  state : LdrState
  copyA : CopyInfo
  copyB : CopyInfo
  /-- Copy being loaded or in use: 0 none, 1 A, 2 B. -/
  copy : Nat
  /-- Section entry in progress. -/
  sec : Nat
  /-- The section waits for HBM training (R56). -/
  held : Option (List Byte)
  /-- Something has been written by the attempt. -/
  dirty : Bool
  bootMode : Nat
  slow : Bool
  /-- VDDIO_MGMT at or above 2.2 V at power-up (R46). -/
  bank33 : Bool
  /-- The copy awaits the configuration-CRC pass of R58 step 3: passes still to end. -/
  crcWait : Nat
  /-- A loaded, sealed image is in force (R62). -/
  sealed : Bool
  /-- A RELOAD waits until the stripes it freed have been zeroed (R61). -/
  reloading : Bool
  /-- TRS has started with the settings in force (R56). -/
  trsOn : Bool
  /-- START_HOLD_MS is running (R59). -/
  startHold : Bool
  /-- DQS retries of the present read (R46). -/
  dqs : Nat
  /-- Flash update command running: 0 none, else CMD. -/
  upd : Nat
  /-- An ERASE has run since the last FINISH. -/
  erased : Bool
  /-- Result found by the running command's own checks (R65). -/
  updResult : Nat
  /-- The page buffer as the running command took it. -/
  updPage : List Byte
  /-- The loader has begun to use the flash interface (R44 step 3, R438). -/
  xspi : Bool
  deriving DecidableEq, Repr

def Ldr.init : Ldr :=
  ⟨.reset, .reset, .reset, 0, 0, none, false, 0, false, false, 0, false, false, false, false, 0, 0, false, 0, [], false⟩

/-- Why a stripe is carried (R92). -/
inductive CarryReason where
  | balance
  | wear
  /-- From its twin, after its pseudo-channel failed (R91). -/
  | fail
  | pin
  deriving DecidableEq, Repr

/-- A stripe carry: waiting, or in progress once a target is taken (R86). -/
structure Carry where
  handle : Nat
  stripe : Nat
  /-- The second copy of a DUPLEX surface is carried. -/
  twin : Bool
  reason : CarryReason
  /-- Target taken from the landing area; none while the carry waits (R87: at most 64 run). -/
  target : Option Nat
  /-- Target the balance loop has chosen for it (R84), taken when the carry starts. -/
  aim : Option Nat
  deriving DecidableEq, Repr

/-- A surface (R71 to R73, R80). -/
structure Surface where
  width : Nat
  height : Nat
  format : Nat
  pitch : Nat
  lines : Nat
  stripes : Nat
  apart : Nat
  heat : Nat
  fixed : Bool
  duplex : Bool
  /-- PC_MASK; 0 for no pin. -/
  mask : Nat
  lost : Nat
  /-- Pseudo-channel of each stripe. -/
  place : List Nat
  /-- Pseudo-channel of each stripe's twin; empty unless DUPLEX. -/
  twins : List Nat
  deriving DecidableEq, Repr

/-- States of a pseudo-channel (R90). -/
inductive PcState where
  | active
  | draining
  | retired
  | failed
  deriving DecidableEq, Repr

def PcState.code : PcState → Nat
  | .active => 0
  | .draining => 1
  | .retired => 2
  | .failed => 3

/-- One pseudo-channel (R67, R84, R89, R90). -/
structure Pc where
  state : PcState
  /-- Scrubbed free stripes for data. -/
  free : Nat
  /-- Freed stripes waiting to be zeroed (R75). -/
  scrub : Nat
  /-- Row-remap table: the rows spared, latest first; the k-th from the end lies in spare row k (R88, R89). -/
  spared : List Nat
  /-- Corrected errors kept for the row window: device time, row, bit position. -/
  ces : List (Nat × Nat × Nat)
  /-- Device times of the corrected errors kept for the hour of pseudo-channel wear. -/
  ceTimes : List Nat
  /-- Uncorrectable errors kept for the fault window: device time, row. -/
  ues : List (Nat × Nat)
  /-- The PHY has lost training and retraining runs. -/
  lostTraining : Bool
  /-- Bytes counted in the heat window in progress. -/
  bytes : Nat
  /-- Load of the last heat window that ended, in bytes. -/
  load : Nat
  /-- Projected load since then, in bytes (R84). -/
  proj : Int
  /-- A refresh precedes the next grant (R169). -/
  refresh : Bool
  deriving DecidableEq, Repr

def Pc.reset : Pc := ⟨.active, 0, 0, [], [], [], [], false, 0, 0, 0, false⟩

/-- The surface store beyond its registers and bytes (R66 to R94). -/
structure Store where
  /-- HBM3E training and zeroing have ended (R70). -/
  trained : Bool
  surfaces : KMap (Option Surface)
  /-- OWNER_Q and OWNER_SEQ, and whether the job allocated (true) or freed it (R73, R76). -/
  owner : KMap (Option (Nat × BitVec 16 × Bool))
  pcs : KMap Pc
  /-- Free stripes of the carry landing area, over the device. -/
  landing : Nat
  /-- Free stripes of the retirement headroom. -/
  headroom : Nat
  /-- The headroom has been used (R90). -/
  headroomUsed : Bool
  /-- Carries, those in progress first in order of start. -/
  carries : List Carry
  /-- Heat count of a stripe copy in the window, by (handle * 65,536 + stripe) * 2 + twin. -/
  heats : KMap Nat
  /-- SSP_BAL_CTRL as sampled at the start of the window (R93). -/
  balCtrl : Word
  /-- The stacks are in self-refresh (R413). -/
  selfRefresh : Bool
  /-- Bits changed in ingest beads of lines whose write is in progress: handle and line, bead, bits (R26, R78). -/
  ingest : List ((Nat × Nat) × Nat × BitVec 137)
  deriving DecidableEq, Repr

def Store.reset : Store :=
  ⟨false, [], [], [], 0, 0, false, [], [], 0x400A0301, false, []⟩

/-- The safe state of one head (R238 to R241). -/
structure Safe where
  /-- Level of the force line when last evaluated (R379). -/
  line : Bool
  active : Bool
  /-- MODE_IN_FORCE. -/
  mode : Nat
  /-- FRAME_IN_FORCE. -/
  frame : Nat
  /-- A release is accepted and waits for line 0. -/
  releasing : Bool
  /-- The source whose latch first raised the line, 0x1FF for a FORCE write (R381). -/
  cause : Nat
  /-- The line rose while OUT_EN.EN was 0, and the entry waits for EN (R242, R390). -/
  held : Bool
  deriving DecidableEq, Repr

def Safe.reset : Safe := ⟨false, false, 0, 0, false, 0, false⟩

/-- EFF_STATE of a head (R243). -/
inductive HeadState where
  | dark
  | starting
  | running
  | gap
  | resetting
  deriving DecidableEq, Repr

def HeadState.code : HeadState → Nat
  | .dark => 0
  | .starting => 1
  | .running => 2
  | .gap => 3
  | .resetting => 4

/-- A CAPTURE job in progress on a head (R237). -/
structure Capture where
  queue : Nat
  handle : Nat
  ring : Nat
  /-- Frames still to signal. -/
  left : Nat
  /-- The checks at the first frame start have been made. -/
  started : Bool
  deriving DecidableEq, Repr

/-- The write-back of a head (R232 to R237). -/
structure Wb where
  /-- WB_CTRL has been written and waits for the next frame start. -/
  recheck : Bool
  run : Bool
  /-- First handle and ring of the ring in use. -/
  handle : Nat
  ring : Nat
  /-- Handle last chosen; none before the first frame. -/
  last : Option Nat
  /-- Handle being written, and the frame written into it. -/
  cur : Option Nat
  frame : Nat
  /-- Lines of this frame of which every bead has been written. -/
  done : List Nat
  /-- Lines counted in WB_DROP: frame and line. -/
  dropped : List (Nat × Nat)
  /-- Lines of this frame counted in WB_VOID. -/
  voided : List Nat
  capture : Option Capture
  deriving DecidableEq, Repr

def Wb.reset : Wb := ⟨false, false, 0, 0, none, none, 0, [], [], [], none⟩

/-- A composed result line of a head: RGBA binary16 per pixel, none for a VOID pixel. -/
structure ResLine where
  /-- Group frame index the line belongs to. -/
  frame : Nat
  y : Nat
  px : List (Option (BitVec 64))
  /-- Logical tile it comes from. -/
  tile : Nat
  deriving DecidableEq, Repr

/-- A composed line on its way to the write-back branch: beads that have arrived, and whether some were lost (R234, R235). -/
structure WbLine where
  line : ResLine
  got : Nat
  lost : Bool
  deriving DecidableEq, Repr

/-- One head: timing generator, elastic buffer and what feeds them (R35, R218 to R223). -/
structure Head where
  state : HeadState
  /-- State the deck in force asks for (REQ_STATE). -/
  req : HeadState
  /-- Group frame index of the frame being scanned out. -/
  frame : Nat
  /-- Line 0 of that frame has started and its end has not been reached. -/
  scanning : Bool
  /-- Next line to fall due. -/
  line : Nat
  /-- The next line 0 is the first since the timing generator started. -/
  first : Bool
  /-- Elastic buffer: lines of codes, none for a pixel that has not arrived. -/
  ebuf : List ResLine
  /-- Composed lines on their way to the output converter. -/
  results : List ResLine
  /-- Composed lines on their way to the write-back branch. -/
  wbq : List WbLine
  wb : Wb
  /-- OUT_EN.EN as taken at the last line 0 (R219). -/
  emits : Bool
  /-- Offset from the grid in ns (R302). -/
  offset : Rat
  adrift : Bool
  /-- The head's output divider waits to be loaded in a gap (R206). -/
  divWait : Bool
  /-- The gap is caused by a pixel PLL setting (R206 step 3). -/
  pllWait : Bool
  /-- A disruptive commit or removal waits for the end of frame (R206 step 2). -/
  gapDue : Bool
  /-- Last frame the head composes with the decks it leaves, while `gapDue`. -/
  gapAt : Nat
  /-- Line `line` has fallen due and its period runs. -/
  due : Bool
  /-- Oscillator time at which the output divider was last set to phase zero (R298). -/
  divZero : Nat
  /-- The group whose frame `frame` is: the head finishes it with that group's decks, whatever group it is in by then (R199, R209). -/
  group : Option Nat
  /-- The head starts out of a gap, which ends with its first line 0 (R206 step 5). -/
  inGap : Bool
  deriving DecidableEq, Repr

def Head.reset : Head :=
  ⟨.dark, .dark, 0, false, 0, true, [], [], [], Wb.reset, false, 0, false, false, false, false, 0, false, 0, none, false⟩

/-- A DisplayPort port beyond its registers (R226, R229). -/
structure Dp where
  hpd : Bool
  /-- TRAINING has been entered before. -/
  trainedOnce : Bool
  /-- A configuration is trained. -/
  trained : Bool
  rate : Nat
  lanes : Nat
  /-- Source head in use (R224). -/
  src : Option Nat
  /-- The new source takes over at its next line 0. -/
  srcWait : Bool
  /-- AUX transaction running: type, length, address. -/
  aux : Option (Nat × Nat × Nat)
  defers : Nat
  deriving DecidableEq, Repr

def Dp.reset : Dp := ⟨false, false, false, 0, 0, none, false, none, 0⟩

/-- A commit holding its group's slot (R192 to R197). -/
structure Commit where
  tag : Nat
  /-- Queue of the COMMIT job that made it. -/
  job : Option Nat
  /-- Made by a privileged master (R195). -/
  priv : Bool
  /-- 1 PENDING, 2 PLANNED, 3 HELD (R213). -/
  state : Nat
  cancelled : Bool
  /-- A frame boundary has passed since the cancel, with the plan still running (R195). -/
  missed : Bool
  held : Nat
  /-- HOLD_LIMIT sampled at PLANNED (R196). -/
  limit : Nat
  deriving DecidableEq, Repr

/-- Units and demands of a table (R154, R155, R158, R160, R164). Ratios in units of 2^-16 (R157). -/
structure Plan where
  tiles : List Nat
  scalers : List Nat
  fetch : Nat
  layer : Nat
  mem : Nat
  /-- Active pixels per frame divided by the frame period, in Gpixel/s, exact. -/
  pix : Frac
  /-- Steps, END included. -/
  steps : Nat
  /-- Distinct entry addresses named. -/
  lsets : Nat
  deriving DecidableEq, Repr

def Plan.empty : Plan := ⟨[], [], 0, 0, 0, ⟨0, 1⟩, 0, 0⟩

/-- What the planner has decided for the commit it works on (R159, R161). -/
structure PlanResult where
  group : Nat
  /-- 0 admitted, or a code of R159. -/
  reason : Nat
  head : Nat
  band : Option Nat
  desc : Nat
  need : Nat
  plan : Plan
  /-- Words it writes to the pending bank, by space key. -/
  words : List (Nat × Word)
  deriving DecidableEq, Repr

/-- The decks of frame f while heads still finish it after B_f (R199). -/
structure OldDeck where
  /-- The last frame composed with it. -/
  frame : Nat
  unit : KMap Word
  live : KMap Word
  /-- Handle of each descriptor (LAYER_SRC word 0) in that frame. -/
  src : KMap Word
  deriving DecidableEq, Repr

/-- A stored line held in the run-ahead store, or requested for it (R176, R177). -/
structure RaLine where
  desc : Nat
  handle : Nat
  /-- Stored line of the surface. -/
  line : Nat
  /-- Beads of the line, and those that have arrived in the store. -/
  beads : Nat
  got : Nat
  /-- The line as the store holds it, from its first bead on (R79). -/
  data : List Byte
  /-- A bead of it is VOID. -/
  void : Bool
  /-- Memory words granted, by stripe (R169). -/
  words : KMap Nat
  /-- Class S0, deadline of R170 and device time of the request (R168, R177). -/
  s0 : Bool
  deadline : Int
  at_ : Int
  /-- Place in the order of requests of the planned table. -/
  pos : Nat
  /-- RA is still set: the commit has not been applied (R178). -/
  tag : Bool
  /-- Number of the request, and the frame its line is for. -/
  id : Nat
  frame : Nat
  /-- Bits changed in its beads on their rod, by bead (R26). -/
  flips : List (Nat × BitVec 137)
  deriving DecidableEq, Repr

/-- A sync group (R144 to R151, R192 to R205, R290). -/
structure Group where
  commit : Option Commit
  /-- Queue, sequence number and final state (0 in flight) of the last COMMIT job that took the slot (R193). -/
  lastJob : Option (Nat × BitVec 16 × Nat)
  /-- Queues whose COMMIT jobs wait, in order (R193). -/
  waiters : List Nat
  live : Plan
  planned : Option Plan
  /-- BANK of TABLE_STAT. -/
  bank : Bool
  /-- Index f of the frame whose boundary B_f is next. -/
  frame : Nat
  /-- Next step the sequencer reads, and the frame it reads for. -/
  pos : Nat
  seqFrame : Nat
  /-- The pass of seqFrame has met END. -/
  passDone : Bool
  /-- Steps of the pass skipped for heads in a gap; they are read again once step 3 of the head's gap is done (R206, R208). -/
  skipped : List Nat
  /-- Decks kept for frames that heads still finish, the newest first (R199). -/
  olds : List OldDeck
  /-- The frame start of `frame` has been reached; device time of the frame start last reached. -/
  started : Bool
  tf : Rat
  /-- Run-ahead requests made for the planned frame, in order. -/
  ra : List RaLine
  /-- A request was abandoned or served with low slack in the present tick (R184). -/
  slackHit : Bool
  /-- O_g: grid offset in ns (R290, R455). -/
  grid : Rat
  /-- The grid offset has been set since the pixel PLL settings last changed. -/
  gridSet : Bool
  /-- SRC = REFIN: none until O_g has been taken from an edge, then the successive edges that differ from the grid (R292). -/
  refEdges : Option Nat
  deriving DecidableEq, Repr

def Group.reset : Group :=
  ⟨none, none, [], Plan.empty, none, false, 0, 0, 0, false, [], [], false, 0, [], false, 0, false, none⟩

/-- A BAND step handed to a tile (R147, R149). -/
structure Step where
  group : Nat
  frame : Nat
  index : Nat
  head : Nat
  y0 : Nat
  lines : Nat
  /-- Its layer-set entries (R148). -/
  entries : List Word
  deriving DecidableEq, Repr

/-- One pixel sample of a layer line: RGBA binary16; none for VOID. -/
abbrev LayerPx := Option (BitVec 64)

/-- A layer line as it reaches a tile: samples over the entry's clipped columns; `low`: served with slack below SLACK
(R172). -/
structure LayLine where
  y : Nat
  px : List LayerPx
  low : Bool
  deriving DecidableEq, Repr

/-- One entry of a running step at its tile: the lines delivered and the ladder state of R181. -/
structure Entry where
  /-- Layer-set word. -/
  word : Word
  /-- Layer lines that have arrived and are not composed yet. -/
  got : List LayLine
  repRun : Nat
  fillRun : Nat
  prevFill : Bool
  /-- Rung chosen for the entry's present line, 0 none. -/
  rung : Nat
  /-- Samples used on the entry's previous line, for rung 1. -/
  prev : List LayerPx
  /-- Bits changed in beads of lines that have not arrived whole: line, pixel pair, bits (R26). -/
  flips : List (Nat × Nat × BitVec 137)
  deriving DecidableEq, Repr

/-- A logical composition tile (R149). -/
structure Tile where
  /-- Steps queued, at most four. -/
  queue : List Step
  run : Option Step
  /-- Next line of the running step to compose. -/
  y : Nat
  entries : List Entry
  /-- Metered unit that composes the running step. -/
  unit : Nat
  /-- Table words that an injected error made uncorrectable when the step read them (R394). -/
  bad : List Nat
  deriving DecidableEq, Repr

def Tile.reset : Tile := ⟨[], none, 0, [], 0, []⟩

/-- A request for a stored line (R170). -/
structure LineReq where
  id : Nat
  handle : Nat
  line : Nat
  /-- First destination line that reads it. -/
  v : Nat
  deadline : Int
  /-- Device time of the request. -/
  at_ : Int
  s0 : Bool
  /-- Some of its beads are VOID. -/
  void : Bool
  /-- Memory words granted, by stripe (R169). -/
  words : KMap Nat
  /-- The line as the run-ahead store held it when the request was made (R178). -/
  held : Option (List Byte)
  /-- Bits changed in its beads on their rod, by bead (R26). -/
  flips : List (Nat × BitVec 137)
  deriving DecidableEq, Repr

/-- A stored line at a scaler: its payload when it can be used (R125). -/
structure Stored where
  line : Nat
  /-- Payload; none when the line is late or not GOOD. -/
  data : Option (List Byte)
  /-- Served with slack below SLACK (R172). -/
  low : Bool
  deriving DecidableEq, Repr

/-- An entry of a step being served by a scaler (R124, R125, R148). -/
structure ScaleJob where
  tile : Nat
  /-- Entry number in the step. -/
  entry : Nat
  step : Step
  desc : Nat
  handle : Nat
  /-- Metered unit of the scaler that serves it. -/
  unit : Nat
  /-- Clipped columns [x0, x1) of the entry's strip. -/
  x0 : Nat
  x1 : Nat
  /-- Stored lines still to request, with the first destination line that reads each. -/
  needs : List (Nat × Nat)
  reqs : List LineReq
  stored : List Stored
  /-- First destination line of the band, next one to deliver, and the line after the last. -/
  vStart : Nat
  v : Nat
  vEnd : Nat
  /-- Stored lines whose horizontal results the intermediate store has had (R133). -/
  hdone : List Nat
  deriving DecidableEq, Repr

/-- A logical scaler (R123 to R125). -/
structure Scaler where
  jobs : List ScaleJob
  deriving DecidableEq, Repr

def Scaler.reset : Scaler := ⟨[]⟩

/-- One weighted class (R173, R174). -/
structure WClass where
  credit : Int
  /-- Beads charged in the present tick. -/
  s : Nat
  /-- A request was ready with credit - s below 0 in the present tick (R183). -/
  held : Bool
  /-- SURPLUS in force since the last refill (R174). -/
  surplus : Bool
  deriving DecidableEq, Repr

/-- A logical rod (R26): the line whose beads it carries, the next bead of it, the tags of the bead last passed on, and when beads failed
parity in the last 1 ms (R406). -/
structure Rod where
  line : List Nat
  next : Nat
  st : Bool
  ra : Bool
  eol : Bool
  void : Bool
  errs : List Nat
  deriving DecidableEq, Repr

def Rod.reset : Rod := ⟨[], 0, false, false, false, false, []⟩

/-- FSH beyond its registers (R168 to R186). -/
structure Fsh where
  classes : KMap WClass
  /-- Beads counted below 4,096 toward the FSH_PERF counters S0, S1, S2, W, RA. -/
  perf : KMap Nat
  /-- Number of the next line request. -/
  nextReq : Nat
  /-- The run-ahead store has held more than FSH_RA_WM in the present tick (R184). -/
  raHigh : Bool
  deriving DecidableEq, Repr

def WClass.reset : WClass := ⟨0, 0, false, true⟩

def Fsh.reset : Fsh := ⟨[], [], 0, false⟩

/-- A frame waiting at a media port, destination MAC through FCS (R263). -/
structure TxFrame where
  bytes : List Byte
  /-- Transmit stream it belongs to, and the head whose pixels it carries. -/
  stream : Option Nat
  head : Option Nat
  deriving DecidableEq, Repr

/-- The data set of a received Announce, as the best master clock algorithm compares it (R267). -/
structure Announce where
  prio1 : Nat
  clockClass : Nat
  accuracy : Nat
  variance : Nat
  prio2 : Nat
  gm : Nat
  steps : Nat
  /-- Sender port identity. -/
  sender : Nat
  deriving DecidableEq, Repr

/-- The PTP instance of a port (R267 to R269). -/
structure Ptp where
  /-- Port state numbered as IEEE 1588. -/
  state : Nat
  /-- Best Announce heard within its timeout. -/
  best : Option Announce
  /-- Two-step Sync awaiting its Follow_Up: sequence, receive time in device time, correction, receive time of the oscillator. -/
  sync : Option (Nat × Int × Int × Nat)
  /-- The last complete Sync: master time with corrections, and receive time of the oscillator (R280). -/
  lastSync : Option (Int × Nat)
  /-- The master's frequency measured from it lies within 100 ppm of XO_IN (R280). -/
  rateOk : Bool
  /-- The last complete Sync: master time plus corrections less receive time; the path delay is not in it. -/
  offset : Option Int
  /-- Delay_Req sent: sequence, send time. -/
  delayReq : Option (Nat × Int)
  /-- meanPathDelay. -/
  delay : Int
  syncSeq : Nat
  annSeq : Nat
  delaySeq : Nat
  /-- Senders heard once, with the oscillator time of their Announce (foreign masters of IEEE 1588). -/
  heard : List (Nat × Nat)
  deriving DecidableEq, Repr

def Ptp.reset : Ptp := ⟨0, none, none, none, false, none, none, 0, 0, 0, 0, []⟩

/-- A gate-list application that waits for its instant (R266). -/
structure GclPend where
  len : Nat
  base : Nat
  /-- EN written with the APPLY. -/
  en : Bool
  deriving DecidableEq, Repr

/-- A media port beyond its registers (R248, R263 to R271). -/
structure Port where
  link : Bool
  resetting : Bool
  /-- Queue of each traffic class, oldest first. -/
  queues : KMap (List TxFrame)
  /-- Class of the frame on the wire, and whether it is a surplus frame. -/
  wire : Option (Nat × Bool)
  /-- Bits of the frame on the wire, and the class's idle slope when it started. -/
  wireBits : Nat
  /-- Signed credit in bits of TC0 to TC5, as it stood at the last change of condition. -/
  credit : KMap Int
  /-- Device time of that change. -/
  changed : KMap Nat
  /-- SURPLUS, idle slope and HI_CREDIT in force since that change. -/
  surplus : KMap Bool
  slope : KMap Nat
  hiCredit : KMap Nat
  /-- Operative gate list: in use, length, base, entry in force. -/
  operEn : Bool
  operLen : Nat
  operBase : Nat
  entry : Nat
  pend : Option GclPend
  ptp : Ptp
  /-- Most bytes TC6 has held in the present microsecond. -/
  tc6Max : Nat
  deriving DecidableEq, Repr

def Port.reset : Port :=
  ⟨false, false, [], none, 0, [], [], [], [], [], false, 0, 0, 0, none, Ptp.reset, 0⟩

/-- An assembly slot: a surface line and the samples placed, in the line's order (R260). -/
structure Slot where
  line : Nat
  samples : List (Option Nat)
  deriving DecidableEq, Repr

/-- An open frame of a receive stream (R261). -/
structure RxFrame where
  ts : Word
  /-- Handle chosen; none when the frame is skipped. -/
  handle : Option Nat
  /-- Its close timer runs. -/
  closing : Bool
  done : List Nat
  slots : List Slot
  /-- Lines closed as lost when their slot was taken. -/
  lost : List Nat
  deriving DecidableEq, Repr

/-- A receive stream (R257 to R261). -/
structure RxStream where
  /-- STATE of STATUS: 0 OFF, 1 WAIT, 2 RUN, 3 ERR. -/
  state : Nat
  err : Nat
  /-- Highest extended sequence number accepted (R259). -/
  q : Option Nat
  /-- Numbers accepted, newest first, within the window of R259. -/
  seen : List Nat
  lastA : Option Nat
  lastB : Option Nat
  liveA : Bool
  liveB : Bool
  /-- Policer tokens of each path in 1/8000 byte, and the device time they were counted (R258). -/
  tokA : Nat
  tokB : Nat
  tokTimeA : Nat
  tokTimeB : Nat
  /-- Open frames, oldest first. -/
  frames : List RxFrame
  /-- Timestamps of frames already closed, newest first. -/
  closed : List Word
  /-- Handle last chosen. -/
  last : Option Nat
  /-- Bytes and slots reserved in the assembly store at enable (R260). -/
  reserved : Nat
  slots : Nat
  deriving DecidableEq, Repr

def RxStream.reset : RxStream :=
  ⟨0, 0, none, [], none, none, false, false, 0, 0, 0, 0, [], [], none, 0, 0⟩

/-- A transmit stream (R252 to R256). -/
structure TxStream where
  /-- Words 0 to 6 in force since the last line 0. -/
  cfg : List Word
  /-- STATE of STATUS. -/
  state : Nat
  err : Nat
  /-- The frame in progress is sent. -/
  sending : Bool
  /-- Next 32-bit sequence number. -/
  seq : Nat
  ts : Word
  deriving DecidableEq, Repr

def TxStream.reset : TxStream := ⟨[], 0, 0, false, 0, 0⟩

/-- A reference input (R279, R280, R292). -/
structure RefIn where
  /-- Oscillator time of the last active edge, and its device time. -/
  last : Option Nat
  at_ : Int
  /-- The intervals since have been in range, so the conditions to qualify hold. -/
  good : Bool
  /-- 1PPS: device time of the last edge modulo 1 s, reduced, in ns. 10 MHz and FRAME: phase gained on the input since it was
  selected, in ns, for FRAME in 1/PER_DEN ns (R283). -/
  delta : Int
  deriving DecidableEq, Repr

/-- A pixel PLL as a group uses it (R293 to R297). -/
structure Pll where
  phys : Nat
  /-- PLL field of TRS_Gn_STAT: 0 OFF, 1 SEARCH, 2 LOCKED, 3 FAIL. -/
  state : Nat
  band : Nat
  /-- Bands tried in this search. -/
  tried : List Nat
  /-- The search in progress or to come is a re-lock. -/
  onSpare : Bool
  /-- Oscillator time at which the post-divider of P was last set to phase zero (R298). -/
  zeroAt : Nat
  /-- Tuning code that the present try has been set to (R295). -/
  code : Nat
  deriving DecidableEq, Repr

/-- A record of the holdover model: days in 1/8640 and the oscillator time, y in 1/65,536 ppb, temperature in 1/256 degree when valid (R285). -/
structure HoRec where
  t : Nat
  up : Nat
  y : Int
  temp : Option Int
  deriving DecidableEq, Repr

/-- The timebase (R277 to R301). -/
structure Trs where
  /-- STATE of R282: 0 FREE_RUN, 1 ACQUIRING, 2 LOCKED, 3 HOLDOVER, 4 LOST. -/
  state : Nat
  /-- The state left to enter ACQUIRING. -/
  prev : Nat
  sel : Option Nat
  /-- Candidates qualified. -/
  qual : List Nat
  /-- Frequency correction y in 1/65,536 ppb. -/
  y : Int
  /-- Frequency state of the second-order loop, in 1/65,536 ppb, and the oscillator time of its last update (R282). -/
  loopF : Rat
  loopAt : Nat
  /-- Build-out B in ns. -/
  b : Int
  /-- |B| above 1 us has been reported since the last measurement. -/
  bOver : Bool
  /-- Phase error e in ns. -/
  e : Int
  /-- An entry into ACQUIRING while STEP_NOW is pending steps (R283). -/
  stepNow : Bool
  ref0 : RefIn
  ref1 : RefIn
  todLo : Word
  /-- Seconds armed to be set at the next 1PPS edge (R279). -/
  tod : Option Nat
  /-- Since the last 10 s of learning ended (R285): y times the oscillator's ns summed, and its start; temperatures and their number. -/
  ySum : Int
  yFrom : Nat
  yAt : Nat
  tSum : Int
  tNum : Nat
  /-- Seconds learned, and those with a valid temperature. -/
  learned : Nat
  learnedT : Nat
  recs : List HoRec
  /-- Model: a per day, c1, c2 in 1/65,536 ppb; T0 in 1/256 degree. -/
  age : Int
  c1 : Int
  c2 : Int
  t0 : Int
  /-- At entry into HOLDOVER: device time, mean y in 1/65,536 ppb, temperature. -/
  hoAt : Nat
  hoY : Int
  hoT : Int
  /-- y as it stood when LOST was entered (R282). -/
  lostY : Int
  /-- Last valid temperature, 1/256 degree. -/
  temp : Option Int
  frozen : Bool
  /-- Good conversions in succession since a fault. -/
  goodRun : Nat
  /-- Oscillator time of the last SYNC_IN edge. -/
  syncAt : Option Nat
  /-- BSL receiver. -/
  bslLink : Bool
  bslFirst : Bool
  bslRef : Nat
  /-- Messages missing or invalid in succession. -/
  bslBad : Nat
  /-- Messages counted, as invalid or as missing, since the last one with a matching CRC and TYPE. -/
  bslSkip : Nat
  /-- Sender state and Δ of the last valid message; its group offsets. -/
  bslState : Nat
  bslDelta : Int
  bslOffsets : List Int
  /-- SEQ of the next message sent. -/
  bslSeq : Nat
  /-- BSL_OUT drives its balls (R299, R438). -/
  bslDriven : Bool
  plls : KMap Pll
  /-- The spare PLL is in use, by this group (R295, R297). -/
  spareBy : Option Nat
  /-- XO_IN has stopped (R453). -/
  xoStopped : Bool
  deriving DecidableEq, Repr

def RefIn.reset : RefIn := ⟨none, 0, false, 0⟩

def Trs.reset : Trs where
  state := 0
  prev := 0
  sel := none
  qual := []
  y := 0
  loopF := 0
  loopAt := 0
  b := 0
  bOver := false
  e := 0
  stepNow := false
  ref0 := RefIn.reset
  ref1 := RefIn.reset
  todLo := 0
  tod := none
  ySum := 0
  yFrom := 0
  yAt := 0
  tSum := 0
  tNum := 0
  learned := 0
  learnedT := 0
  recs := []
  age := 0
  c1 := 0
  c2 := 0
  t0 := 0
  hoAt := 0
  hoY := 0
  hoT := 0
  lostY := 0
  temp := none
  frozen := false
  goodRun := 0
  syncAt := none
  bslLink := false
  bslFirst := false
  bslRef := 0
  bslBad := 0
  bslSkip := 0
  bslState := 0
  bslDelta := 0
  bslOffsets := []
  bslSeq := 0
  bslDriven := false
  plls := []
  spareBy := none
  xoStopped := false

/-- The PLL of group `g` before any search: physical PLL g, off. -/
def Pll.init (g : Nat) : Pll := ⟨g, 0, 0, [], false, 0, 128⟩


/-- One metered unit (R400 to R403, R414). -/
structure Metered where
  /-- REQ_STATE and EFF_STATE, coded as R414. -/
  req : Nat
  eff : Nat
  /-- Wear condition: 0 NORMAL, 1 WARN, 2 WORN. -/
  cond : Nat
  /-- Consecutive counted windows with DRIFT below WARN. -/
  quiet : Nat
  periodMax : Nat
  period : Nat
  ratio : Nat
  drift : Int
  overs : Nat
  windows : Nat
  /-- Of a scaler: when its bank copies gave uncorrectable words in the last 1 s (R406). -/
  copyUes : List Nat
  deriving DecidableEq, Repr

/-- Unit `u` at reset: the identity mapping of rods and tiles and the mapping of R123 for scalers are in force, nothing
works yet. -/
def Metered.init (u : Nat) : Metered :=
  let spare := (400 ≤ u ∧ u < 416) ∨ (448 ≤ u ∧ u < 450) ∨ (450 ≤ u ∧ u < 538 ∧ 20 ≤ (u - 450) % 22)
  let st := if spare then 5 else 1
  ⟨st, st, 0, 0, 0, 0, 0, 0, 0, 0, []⟩

/-- A carry of a rod, tile or scaler (R406 to R410). -/
structure UnitCarry where
  /-- Metered number of the unit carried out. -/
  unit : Nat
  /-- Metered number of the spare; none while the trigger waits. -/
  spare : Option Nat
  /-- Logical number carried. -/
  logical : Nat
  /-- The group whose steps before `frame` finish on the old unit (R407 step 3). -/
  group : Option Nat
  /-- 0 WEAR, 1 FAULT, 2 SOFTWARE. -/
  reason : Nat
  /-- The spare is ready (step 2); for a fault carry, the old unit's drain has ended (R409). -/
  ready : Bool
  /-- The mapping has switched (step 3). -/
  switched : Bool
  /-- First frame of the serving group whose steps go to the spare. -/
  frame : Nat
  /-- Device time of step 1. -/
  at_ : Int
  deriving DecidableEq, Repr

/-- Wear, spares, voltage and temperature beyond their registers (R400 to R421). -/
structure Health where
  units : KMap Metered
  /-- Metered unit on which each logical rod and tile runs; scalers are in SCA_MAPnn. -/
  rodMap : KMap Nat
  tileMap : KMap Nat
  /-- Carry in progress of rods, tiles and scalers, by class. -/
  carry : KMap (Option UnitCarry)
  /-- Triggers that wait, by class, in order of detection (R410). -/
  waiting : KMap (List UnitCarry)
  /-- Lost logical tiles, and scalers (R456). -/
  lostTiles : List Nat
  lostScalers : List Nat
  /-- Lost logical rods. -/
  lostRods : List Nat
  /-- AVS target in mV. -/
  target : Nat
  /-- Consecutive updates whose readback lay more than 25 mV off. -/
  offMs : Nat
  busErr : Bool
  /-- Thermal level and the faulty die sensors (R418, R419). -/
  level : Nat
  faulty : List Nat
  /-- T_die: the hottest valid die sensor at the last update that had one, in 1/256 °C (R419). -/
  die : Int
  deriving DecidableEq, Repr

/-- Metered unit of logical rod `l` at reset: logical rods 100 d to 100 d + 99 of domain d on physical rods 0 to 399. -/
def rodMapReset (l : Nat) : Nat := l

/-- Metered unit of logical tile `t` at reset. -/
def tileMapReset (t : Nat) : Nat := 416 + t

def Health.reset : Health where
  units := []
  rodMap := []
  tileMap := []
  carry := []
  waiting := []
  lostTiles := []
  lostScalers := []
  lostRods := []
  target := 0
  offMs := 0
  busErr := false
  level := 0
  faulty := []
  die := 0

/-- The signature of one tally region in the frame in progress (R384). -/
structure Sign where
  /-- Running CRC register. -/
  crc : Nat
  /-- Rows signed. -/
  rows : Nat
  /-- The frame has been compared. -/
  done : Bool
  deriving DecidableEq, Repr

def Sign.reset : Sign := ⟨0xFFFFFFFF, 0, false⟩

/-- Main stream attributes of a DisplayPort stream (R214, R228): the pixel rate in Hz; active and total sizes, sync start and width,
and whether sync is active high, across the line and down the frame; encoding and component depth. -/
structure StreamAttr where
  rate : Rat
  hActive : Nat
  hTotal : Nat
  hSyncStart : Nat
  hSyncWidth : Nat
  hHigh : Bool
  vActive : Nat
  vTotal : Nat
  vSyncStart : Nat
  vSyncWidth : Nat
  vHigh : Bool
  enc : Nat
  depth : Nat
  deriving DecidableEq, Repr

/-- What leaves the device at its pins and links. -/
inductive Out where
  /-- A read of the register map answered to a master. -/
  | read (m : Master) (w : Word)
  /-- A bus error answered to a master (R354). -/
  | busError (m : Master)
  /-- A write by PCIe function `k` into host memory: address and bytes. -/
  | hostWrite (k : Nat) (addr : Nat) (data : List Byte)
  /-- A read request of PCIe function `k` to host memory: address and bytes asked for. -/
  | hostRead (k : Nat) (addr : Nat) (len : Nat)
  /-- Unsupported Request answered to a read of more than two words (R310), or of a function without Memory Space Enable. -/
  | unsupported (m : Master)
  /-- The first 16 words of a function's configuration space and its MSI-X capability, as configuration requests read them (R44, R308). -/
  | config (k : Nat) (header : List Word) (msix : List Word)
  /-- A read of register `reg` of the I2C device at `addr` (R288). -/
  | i2cRead (addr reg : Nat)
  /-- MSI-X message of vector `v` of function `k`. -/
  | msix (k : Nat) (v : Nat)
  /-- Bytes returned to an aperture read of function `k`, and whether the completion is poisoned; none for Unsupported
  Request (R313). -/
  | aperture (k : Nat) (data : List Byte) (poisoned : Bool)
  /-- An Ethernet frame leaving a media port, destination MAC through FCS. -/
  | frame (p : Nat) (bytes : List Byte)
  /-- A command frame on the AUX of a DisplayPort port: type, address, length, write data. -/
  | aux (d : Nat) (typ : Nat) (addr : Nat) (len : Nat) (data : List Byte)
  /-- A line leaving a head: line number and its pixels, red, green and blue codes of 16 bits each. -/
  | line (h : Nat) (y : Nat) (px : List (BitVec 48))
  /-- A line cut by a jump or a stop at this line. -/
  | cut (h : Nat) (y : Nat)
  /-- The main stream attributes that DisplayPort port `d` sends (R214, R228). -/
  | mainStream (d : Nat) (attr : StreamAttr)
  /-- The VSC SDP of a DisplayPort port: ENC, DEPTH and COLORIMETRY (R228). -/
  | vscSdp (d : Nat) (enc : Nat) (depth : Nat) (colorimetry : Nat)
  /-- The HDR metadata SDP of a DisplayPort port: its 28 bytes (R228). -/
  | hdrSdp (d : Nat) (payload : List Byte)
  /-- Line `y` as the encoder of DisplayPort port `d` sends it (R217). -/
  | portLine (d : Nat) (y : Nat) (samples : List Nat)
  /-- A message on BSL_OUT. -/
  | bsl (msg : List Byte)
  /-- The low pulse of 10 us on XSPI_RESET_N (R44). -/
  | xspiReset
  /-- An erase of a flash copy: the address of its page 0, which is erased first. -/
  | flashErase (addr : Nat)
  /-- A page program of flash. -/
  | flashProgram (addr : Nat) (data : List Byte)
  /-- An AVSBus voltage command in mV. -/
  | avs (mv : Nat)
  /-- A pulse on SYNC_OUT. -/
  | syncOut
  deriving DecidableEq, Repr

/-- The device. -/
structure State where
  variant : Config.Variant
  /-- PORST_N is high. -/
  powered : Bool
  /-- The management clock runs at 200 MHz (R44). -/
  mgmt : Bool
  /-- Thermal shutdown (R420). -/
  dead : Bool
  /-- The register mirror by byte offset: what a read of a decked register returns as pending (R188, R352). -/
  regs : KMap Word
  /-- The value in force of registers that a unit reads (R189): the live deck of decked settings. -/
  unit : KMap Word
  /-- The pending deck of decked registers: what their writes have put into it as they took effect (R189, R353). -/
  deck : KMap Word
  /-- Words of the indirect spaces; the pending copy of a decked space (R428). -/
  spaces : KMap Word
  /-- The live copy of the decked spaces. -/
  live : KMap Word
  /-- Words of live decks, and of storage without decks, that read as uncorrectable until they are written. -/
  failing : List Nat
  /-- Words of the pending copies of decked spaces that read as uncorrectable until they are written. -/
  failingPend : List Nat
  /-- Words of `failing` whose pending copy has been written since: the next commit that moves them makes them whole. -/
  mended : List Nat
  lmp : MState
  pf0 : MState
  pf1 : MState
  col : Collector
  queues : KMap Queue
  f0 : Func
  f1 : Func
  ldr : Ldr
  store : Store
  /-- Surface bytes at handle * 2^32 + offset; an unlisted byte reads as 0. -/
  hbm : KMap Byte
  safe : KMap Safe
  heads : KMap Head
  dps : KMap Dp
  groups : KMap Group
  /-- Groups whose commits are PENDING, in order of acceptance (R152). -/
  planQ : List Nat
  /-- The plan in progress. -/
  planning : Option PlanResult
  tiles : KMap Tile
  scalers : KMap Scaler
  fsh : Fsh
  rods : KMap Rod
  signs : KMap Sign
  ports : KMap Port
  rx : KMap RxStream
  tx : KMap TxStream
  trs : Trs
  health : Health
  /-- What has left the device, the newest first. -/
  out : List Out
  /-- Device time in ns (R277), and its fraction in 1/(65,536 * 10^9) ns. -/
  time : Int
  frac : Int
  /-- Oscillator time since PORST_N rose, in ns. -/
  up : Nat
  /-- Fresh values used: the argument of the next free value. -/
  fresh : Nat
  /-- Commands that wait, first in, first out. -/
  pending : List Instr
  deriving DecidableEq, Repr

/-- The device while PORST_N is low: every register at its reset value, nothing in memory, no command waiting. -/
def State.reset : State where
  variant := .h96c
  powered := false
  mgmt := false
  dead := false
  regs := []
  unit := []
  deck := []
  spaces := []
  live := []
  failing := []
  failingPend := []
  mended := []
  lmp := MState.reset
  pf0 := MState.reset
  pf1 := MState.reset
  col := Collector.reset
  queues := []
  f0 := Func.reset
  f1 := Func.reset
  ldr := Ldr.init
  store := Store.reset
  hbm := []
  safe := []
  heads := []
  dps := []
  groups := []
  planQ := []
  planning := none
  tiles := []
  scalers := []
  fsh := Fsh.reset
  rods := []
  signs := []
  ports := []
  rx := []
  tx := []
  trs := Trs.reset
  health := Health.reset
  out := []
  time := 0
  frac := 0
  up := 0
  fresh := 0
  pending := []

end Sys2Proof.Machine
end

