-- ==== Sys2Proof/WellFormed.lean ====
section
/-!
DEFINITION. Operands written in the device's own form: a header page is 256 bytes, a queue entry 64, a register offset is a word's. The
check is for whoever writes commands down: every command has its effect on any operands, and the meaning of one whose operands fail the
check says how the device meets them (a frame of 63 bytes is counted, a read that brings other bytes than asked for has failed).
-/
namespace Sys2Proof

/-- A host read that ends well brings `n` bytes. -/
def HostRead.brings (n : Nat) : HostRead → Bool
  | .ok data => data.length == n
  | .error => true

/-- A link configuration that exists (R225): rate code at most 6, lane code at most 2. -/
def DpConfig.exists_ (c : DpConfig) : Bool := decide (c.rate ≤ 6) && decide (c.lanes ≤ 2)

/-- Whether the operands of a command stand in the device's own form. -/
def Instr.wf : Instr → Bool
  | .ldrHeadersRead _ _ a b => a.length == 256 && b.length == 256
  | .queueEntryRead _ host _ _ => host.brings 64
  | .prodIndexRead _ host => host.brings 4
  | .dpTrainingDone _ sink trains => sink.all DpConfig.exists_ && trains.all sink.contains
  | .ethRxFrame _ frame _ => frame.isEmpty || decide (64 ≤ frame.length)
  | .bslMessageRx msg => msg.length == 52
  | .apertureRead _ _ len => decide (1 ≤ len)
  | .apertureWrite _ _ data => !data.isEmpty
  | .registerWrite _ off _ _ => off.toNat % 4 == 0
  | .rcRegisterRead m off dws _ => off.toNat % 4 == 0 && (if m = .lmp then dws == 1 else decide (1 ≤ dws))
  | .fshRefillTick pending peak => pending.length == 4 && peak.length == 4
  | .tempConversionEnd (.samples vs) => vs.length == 64
  | .thermalUpdate t => t.die.length == 16 && (t.hbm.length == 4 || t.hbm.isEmpty) && decide (t.board.length ≤ 4)
  | _ => true

end Sys2Proof
end

