-- ==== Sys2Proof/Machine/Ops.lean ====
section
/-!
DEFINITION. The named operations over the state: registers, indirect words, the per-instance parts of the state, what
leaves the device, and fresh values. Every meaning goes through these.
-/
namespace Sys2Proof.Machine

/-- What a read of the mirror finds at byte offset `o` (R352). -/
def State.rd (s : State) (o : Nat) : Word := kget regReset s.regs o

/-- Set the mirror word at byte offset `o`. -/
def State.wr (s : State) (o : Nat) (v : Word) : State := { s with regs := kset regReset s.regs o v }

/-- The value of register `o` that the units use (R189). -/
def State.cfg (s : State) (o : Nat) : Word := kget regReset s.unit o

/-- Put a register value in force. A change of covered bits is a change during the configuration-CRC pass in progress (R365). -/
def State.setCfg (s : State) (o : Nat) (v : Word) : State :=
  { s with unit := kset regReset s.unit o v,
           col := { s.col with changed := s.col.changed || decide ((s.cfg o ^^^ v) &&& crcMask o ≠ 0#32) } }

/-- A decked register in the pending deck (R189): what the next commit moves. -/
def State.dk (s : State) (o : Nat) : Word := kget regReset s.deck o

/-- Put a value into the pending deck. -/
def State.setDk (s : State) (o : Nat) (v : Word) : State := { s with deck := kset regReset s.deck o v }

/-- A word of an indirect space, pending copy when the space is decked. -/
def State.sp (s : State) (k : Nat) : Word := kget spaceReset s.spaces k

/-- Set a word of an indirect space. -/
def State.setSp (s : State) (k : Nat) (v : Word) : State := { s with spaces := kset spaceReset s.spaces k v }

/-- A live word of a decked space (R188). -/
def State.lv (s : State) (k : Nat) : Word := kget spaceReset s.live k

/-- Set a live word. -/
def State.setLv (s : State) (k : Nat) (v : Word) : State := { s with live := kset spaceReset s.live k v }

/-- The word of space `code` at `addr`. -/
def State.spw (s : State) (code addr : Nat) : Word := s.sp (skey code addr)

/-- The live word of space `code` at `addr`. -/
def State.lvw (s : State) (code addr : Nat) : Word := s.lv (skey code addr)

/-- A word of a live deck, or of storage without decks, fails until it is next written (R119, R386). -/
def State.fail (s : State) (code addr : Nat) : State :=
  { s with failing := skey code addr :: s.failing.filter (· ≠ skey code addr), mended := s.mended.filter (· ≠ skey code addr) }

/-- A word of a pending copy fails until it is next written. -/
def State.failPend (s : State) (code addr : Nat) : State :=
  { s with failingPend := skey code addr :: s.failingPend.filter (· ≠ skey code addr) }

/-- A word that has been written reads clean again. -/
def State.clean (s : State) (code addr : Nat) : State := { s with failing := s.failing.filter (· ≠ skey code addr) }

/-- A pending word at key `k` has been written: it reads clean again, and so will the live one once a commit has moved it. -/
def State.cleanPend (s : State) (k : Nat) : State :=
  { s with failingPend := s.failingPend.filter (· ≠ k), mended := if s.failing.contains k then k :: s.mended.filter (· ≠ k) else s.mended }

def State.setSpw (s : State) (code addr : Nat) (v : Word) : State := s.setSp (skey code addr) v

def State.master (s : State) : Master → MState
  | .lmp => s.lmp
  | .pf0 => s.pf0
  | .pf1 => s.pf1

def State.setMaster (s : State) (m : Master) (x : MState) : State :=
  match m with
  | .lmp => { s with lmp := x }
  | .pf0 => { s with pf0 := x }
  | .pf1 => { s with pf1 := x }

def State.func (s : State) (k : Nat) : Func := if k = 0 then s.f0 else s.f1

def State.setFunc (s : State) (k : Nat) (x : Func) : State := if k = 0 then { s with f0 := x } else { s with f1 := x }

def State.queue (s : State) (q : Nat) : Queue := kget (fun _ => Queue.reset) s.queues q
def State.setQueue (s : State) (q : Nat) (x : Queue) : State :=
  { s with queues := kset (fun _ => Queue.reset) s.queues q x }
def State.safeOf (s : State) (h : Nat) : Safe := kget (fun _ => Safe.reset) s.safe h
def State.setSafe (s : State) (h : Nat) (x : Safe) : State :=
  { s with safe := kset (fun _ => Safe.reset) s.safe h x }
def State.head (s : State) (h : Nat) : Head := kget (fun _ => Head.reset) s.heads h
def State.setHead (s : State) (h : Nat) (x : Head) : State :=
  { s with heads := kset (fun _ => Head.reset) s.heads h x }
def State.dp (s : State) (d : Nat) : Dp := kget (fun _ => Dp.reset) s.dps d
def State.setDp (s : State) (d : Nat) (x : Dp) : State := { s with dps := kset (fun _ => Dp.reset) s.dps d x }
def State.group (s : State) (g : Nat) : Group := kget (fun _ => Group.reset) s.groups g
def State.setGroup (s : State) (g : Nat) (x : Group) : State :=
  { s with groups := kset (fun _ => Group.reset) s.groups g x }
def State.tile (s : State) (t : Nat) : Tile := kget (fun _ => Tile.reset) s.tiles t
def State.setTile (s : State) (t : Nat) (x : Tile) : State :=
  { s with tiles := kset (fun _ => Tile.reset) s.tiles t x }
def State.scaler (s : State) (l : Nat) : Scaler := kget (fun _ => Scaler.reset) s.scalers l
def State.setScaler (s : State) (l : Nat) (x : Scaler) : State :=
  { s with scalers := kset (fun _ => Scaler.reset) s.scalers l x }
def State.rod (s : State) (r : Nat) : Rod := kget (fun _ => Rod.reset) s.rods r
def State.setRod (s : State) (r : Nat) (x : Rod) : State := { s with rods := kset (fun _ => Rod.reset) s.rods r x }
def State.sign (s : State) (r : Nat) : Sign := kget (fun _ => Sign.reset) s.signs r
def State.setSign (s : State) (r : Nat) (x : Sign) : State :=
  { s with signs := kset (fun _ => Sign.reset) s.signs r x }
def State.port (s : State) (p : Nat) : Port := kget (fun _ => Port.reset) s.ports p
def State.setPort (s : State) (p : Nat) (x : Port) : State :=
  { s with ports := kset (fun _ => Port.reset) s.ports p x }
/-- Queue of a traffic class of a port. -/
def Port.queue (pt : Port) (k : Nat) : List TxFrame := kget (fun _ => []) pt.queues k
def Port.setQueue (pt : Port) (k : Nat) (x : List TxFrame) : Port := { pt with queues := kset (fun _ => []) pt.queues k x }
/-- Drop the queued frames that do not pass a test. -/
def Port.keep (pt : Port) (f : TxFrame → Bool) : Port :=
  (List.range 8).foldl (fun pt k => pt.setQueue k ((pt.queue k).filter f)) pt
def State.rxs (s : State) (i : Nat) : RxStream := kget (fun _ => RxStream.reset) s.rx i
def State.setRxs (s : State) (i : Nat) (x : RxStream) : State :=
  { s with rx := kset (fun _ => RxStream.reset) s.rx i x }
def State.txs (s : State) (i : Nat) : TxStream := kget (fun _ => TxStream.reset) s.tx i
def State.setTxs (s : State) (i : Nat) (x : TxStream) : State :=
  { s with tx := kset (fun _ => TxStream.reset) s.tx i x }
def State.pll (s : State) (g : Nat) : Pll := kget Pll.init s.trs.plls g
def State.setPll (s : State) (g : Nat) (x : Pll) : State :=
  { s with trs := { s.trs with plls := kset Pll.init s.trs.plls g x } }
def State.metered (s : State) (u : Nat) : Metered := kget Metered.init s.health.units u
def State.setMetered (s : State) (u : Nat) (x : Metered) : State :=
  { s with health := { s.health with units := kset Metered.init s.health.units u x } }
def State.pc (s : State) (p : Nat) : Pc := kget (fun _ => Pc.reset) s.store.pcs p
def State.setPc (s : State) (p : Nat) (x : Pc) : State :=
  { s with store := { s.store with pcs := kset (fun _ => Pc.reset) s.store.pcs p x } }
def State.surface (s : State) (h : Nat) : Option Surface := kget (fun _ => none) s.store.surfaces h
def State.setSurface (s : State) (h : Nat) (x : Option Surface) : State :=
  { s with store := { s.store with surfaces := kset (fun _ => none) s.store.surfaces h x } }
def State.src (s : State) (i : Nat) : SrcSt := kget (fun _ => SrcSt.reset) s.col.src i
def State.setSrc (s : State) (i : Nat) (x : SrcSt) : State :=
  { s with col := { s.col with src := kset (fun _ => SrcSt.reset) s.col.src i x } }
def State.wclass (s : State) (c : Nat) : WClass := kget (fun _ => WClass.reset) s.fsh.classes c
def State.setWclass (s : State) (c : Nat) (x : WClass) : State :=
  { s with fsh := { s.fsh with classes := kset (fun _ => WClass.reset) s.fsh.classes c x } }

/-- The parts of the state that a command may leave whole. What every command may change belongs to no part: the register mirror, the
words of the indirect spaces, the collector with the safe states it forces, the records and messages to the host, the transmit side of
the ports, what has left the device, and the count of free values. -/
inductive Part where
  /-- Management clock and thermal shutdown. -/
  | power
  /-- Surface memory and its placement. -/
  | store
  /-- Register values in force, and the live decks. -/
  | force
  | loader
  /-- What the three masters have queued, and their windows. -/
  | masters
  | queues
  /-- Heads and DisplayPort ports. -/
  | outputs
  /-- Groups, plans, tiles, scalers, memory scheduling, tally signatures. -/
  | compose
  | receive
  | timing
  | health
  deriving DecidableEq, Repr

/-- Every part but the power: what a register write may change through the unit it reaches. -/
def Part.device : List Part := [.store, .force, .loader, .masters, .queues, .outputs, .compose, .receive, .timing, .health]

/-- What no command but those of PORST_N changes: the part, the level of PORST_N, the queue of commands, the oscillator's time. -/
def hold (s t : State) : State :=
  { t with variant := s.variant, powered := s.powered, pending := s.pending, frac := s.frac, up := s.up }

/-- The state `t`, but for the parts outside `ps`, which stay as in `s`. -/
def keeping (ps : List Part) (s t : State) : State :=
  let may (p : Part) : Bool := ps.contains p
  { t with mgmt := if may .power then t.mgmt else s.mgmt, dead := if may .power then t.dead else s.dead,
           hbm := if may .store then t.hbm else s.hbm, store := if may .store then t.store else s.store,
           unit := if may .force then t.unit else s.unit, live := if may .force then t.live else s.live,
           ldr := if may .loader then t.ldr else s.ldr,
           lmp := if may .masters then t.lmp else s.lmp, pf0 := if may .masters then t.pf0 else s.pf0,
           pf1 := if may .masters then t.pf1 else s.pf1,
           queues := if may .queues then t.queues else s.queues,
           heads := if may .outputs then t.heads else s.heads, dps := if may .outputs then t.dps else s.dps,
           groups := if may .compose then t.groups else s.groups, planQ := if may .compose then t.planQ else s.planQ,
           planning := if may .compose then t.planning else s.planning, tiles := if may .compose then t.tiles else s.tiles,
           scalers := if may .compose then t.scalers else s.scalers, fsh := if may .compose then t.fsh else s.fsh,
           rods := if may .compose then t.rods else s.rods,
           signs := if may .compose then t.signs else s.signs,
           rx := if may .receive then t.rx else s.rx,
           trs := if may .timing then t.trs else s.trs, time := if may .timing then t.time else s.time,
           health := if may .health then t.health else s.health }

/-- A command of a device that runs: PORST_N is high (R436) and no thermal shutdown has taken place (R420); otherwise the
command finds nothing that could act, and the state stays. -/
def run (s : State) (f : State → State) : Host.Outcome State Fault Refusal :=
  if s.powered ∧ ¬ s.dead then .next (hold s (f s)) else .next s

/-- A command that can change the parts `ps` only. -/
def runOn (ps : List Part) (s : State) (f : State → State) : Host.Outcome State Fault Refusal := run s (fun s => keeping ps s (f s))

/-- A command that the mirror answers even after a thermal shutdown (R420 step 4). -/
def runMirror (s : State) (f : State → State) : Host.Outcome State Fault Refusal :=
  if s.powered then .next (hold s (f s)) else .next s

/-- What a step answers. -/
abbrev Answer := Host.Outcome State Fault Refusal

/-- Exactly `n` bytes: the first `n`, zeros behind the last. -/
def sized (n : Nat) (bs : List Byte) : List Byte := (bs ++ List.replicate n 0#8).take n

/-- A host read that ends well brings `n` bytes; one that brings another number has failed. -/
def hostExactly (n : Nat) : HostRead → HostRead
  | .ok data => if data.length = n then .ok data else .error
  | .error => .error

/-- The word that a register offset lies in: a word access has no lower bits (R345). -/
def wordOffset (off : BitVec 24) : Nat := off.toNat / 4 * 4

/-- Instants within `span` ns before now, of a list of instants of the oscillator, and now. -/
def State.within (s : State) (span : Nat) (ts : List Nat) : List Nat := s.up :: ts.filter (fun t => decide (s.up < t + span))

/-- Something leaves the device. -/
def State.emit (s : State) (o : Out) : State := { s with out := o :: s.out }

/-- A number no free value has been drawn with. -/
def State.bumpFresh (s : State) : State := { s with fresh := s.fresh + 1 }

/-- Bit `i` of the next free values. -/
def State.freeBit (s : State) (i : Nat) : Bool := (Config.freeWord (s.fresh + i / 32)).getLsbD (i % 32)

/-- Free values for `n` bits have been drawn. -/
def State.drawn (s : State) (n : Nat) : State := { s with fresh := s.fresh + (n + 31) / 32 }

/-- Count in a 32-bit saturating counter register. -/
def State.bump (s : State) (o : Nat) (n : Nat) : State := s.wr o (satAdd32 (s.rd o) n)

/-- Set bit `i` of a register in the mirror. -/
def State.setFlag (s : State) (o i : Nat) : State := s.wr o (setBit (s.rd o) i true)

/-- Replace bits `hi` to `lo` of a register in the mirror. -/
def State.wrBits (s : State) (o hi lo v : Nat) : State := s.wr o (setBits (s.rd o) hi lo v)

/-- Device time as the 64-bit count of R277. -/
def State.time64 (s : State) : Nat := (s.time % 18446744073709551616).toNat

/-- Key of byte `off` of surface `h`. -/
def skeyByte (h off : Nat) : Nat := h * 4294967296 + off

/-- Byte `off` of surface `h`. -/
def State.byte (s : State) (h off : Nat) : Byte := kget (fun _ => 0#8) s.hbm (skeyByte h off)

/-- `n` bytes of surface `h` from `off`. -/
def State.bytes (s : State) (h off n : Nat) : List Byte := kgets (fun _ => 0#8) s.hbm (skeyByte h off) n

/-- Write bytes into surface `h` from `off`. -/
def State.setBytes (s : State) (h off : Nat) (bs : List Byte) : State :=
  { s with hbm := kputs (fun _ => 0#8) s.hbm (skeyByte h off) bs }

/-- Drop the bytes [lo, hi) of surface `h`: they read as 0. -/
def State.zeroBytes (s : State) (h lo hi : Nat) : State :=
  { s with hbm := kclear s.hbm (skeyByte h lo) (skeyByte h hi) }

/-- Do `f` for each element of a list. -/
def forEach {α : Type} (xs : List α) (s : State) (f : State → α → State) : State := xs.foldl f s

/-- Do `f` when the condition holds. -/
def State.when (s : State) (c : Bool) (f : State → State) : State := if c then f s else s

end Sys2Proof.Machine
end

