-- ==== Sys2Proof/Machine/Clock.lean ====
section
/-!
DEFINITION. The passing of time (R277): what a step does when no command waits.
-/
namespace Sys2Proof.Machine

/-- Parts of a nanosecond in which the fraction of device time is kept: 65,536 * 10^9, so that a frequency correction in
1/65,536 ppb acts exactly. -/
def timeParts : Int := 65536000000000

/-- One period of the management clock, 5 ns, passes. Device time runs at 1 + y of the oscillator (R277, R282); with XO_IN
stopped it stands (R453). DESIGN CHOICE. -/
def tick (s : State) : State :=
  if s.powered ∧ ¬ s.trs.xoStopped then
    let total := s.frac + 5 * (timeParts + s.trs.y)
    { s with time := s.time + total / timeParts, frac := total % timeParts, up := s.up + 5 }
  else s

end Sys2Proof.Machine
end

