-- ==== Sys2Proof/Machine/Flags.lean ====
section
/-!
DEFINITION. Flag and counter computations that several blocks share: watermark notices, the summary word, requested and
effective state words, the credits of media classes, and what a DisplayPort port sends on AUX.
-/
namespace Sys2Proof.Machine

/-- Whether NOW of a notice register is set, in the layout of FSH_Gn_WM_SLACK (R186). -/
def State.noticeNow (s : State) (o : Nat) : Bool := bit (s.rd o) 8

/-- The word of a notice register after its level becomes `now`: [31:16] COUNT saturating, [8] NOW, [7] SEEN; a rise sets
SEEN and counts (R184, R186). -/
def noticeWord (w : Word) (now : Bool) : Word :=
  if now ∧ ¬ bit w 8 then satField (setBit (setBit w 8 true) 7 true) 31 16 1 else setBit w 8 now

/-- Bit of IHM_FC_SUMMARY of a source (R371). -/
def summaryBit (src : Nat) : Nat :=
  if src < 8 then 0 else if src < 24 then 1 else if src < 40 then 2 else if src < 56 then 3 else if src < 72 then 4
  else if src < 104 then 5 else if src < 200 then 6 else if src < 264 then 7 else if src < 280 then 8
  else if src < 304 then 9 else 10

/-- IHM_FC_SUMMARY from the latched levels (R371, R374). -/
def State.fcSummary (s : State) : Word :=
  let set := s.col.src.filter (fun e => 2 ≤ e.2.level)
  let blocks := set.foldl (fun w e => setBit w (summaryBit e.1) true) 0#32
  let self := decide (1 ≤ (s.src 308).level)
  let w := setBit blocks 30 self
  setBit w 31 (w != 0#32)

/-- IHM_FC_SRCn: which sources 32n to 32n + 31 are latched at any level (R398). -/
def State.fcSrcn (s : State) (n : Nat) : Word :=
  (List.range 32).foldl (fun w i => setBit w i (decide (1 ≤ (s.src (32 * n + i)).level))) 0#32

/-- Word of FC_STATE for a source (R398). -/
def State.fcState (s : State) (i : Nat) : Word :=
  let x := s.src i
  word (x.level * 1073741824 + (if x.inj then 536870912 else 0) + (if x.win then 268435456 else 0)
    + x.count % 256 * 65536 + x.raises)

/-- FAULT_N, true for high (R374). -/
def State.faultN (s : State) : Bool := s.powered && !(bit s.fcSummary 31)

/-- LMP_INT_N, true for high (R341). -/
def State.lmpIntN (s : State) : Bool :=
  !((s.rd R.HWQ_BOARD_DONE &&& s.cfg R.HWQ_LMP_INT_EN &&& 0xFFFF#32) != 0#32
    || (bit (s.cfg R.HWQ_LMP_INT_EN) 16 && bit s.fcSummary 31))

/-- Select bits of a head mask. -/
def headsOf (w : Word) : List Nat := (List.range 32).filter (fun h => bit w h)

/-- Live heads of a group (R144). -/
def State.groupHeads (s : State) (g : Nat) : List Nat := headsOf (s.cfg (R.SEQ_Gn_HEADS g))

/-- The group whose live SEQ_Gn_HEADS names a head. -/
def State.groupOf (s : State) (h : Nat) : Option Nat :=
  (List.range 8).find? (fun g => bit (s.cfg (R.SEQ_Gn_HEADS g)) h)

-- Credits (R265).

/-- Idle slope in Mbit/s and HI_CREDIT in bits of a class, as its registers hold them now. -/
def slopeReg (s : State) (p k : Nat) : Nat := min 100000 (bits (s.cfg (R.NMP_Pnn_TCk_SHAPE p k)) 16 0)
def hiCreditReg (s : State) (p k : Nat) : Nat := 8 * bits (s.cfg (R.NMP_Pnn_TCk_LIMIT p k)) 15 0
def Port.creditOf (pt : Port) (k : Nat) : Int := kget (fun _ => 0) pt.credit k
/-- Values in force since the last change of condition of a class. -/
def Port.slopeOf (pt : Port) (k : Nat) : Nat := kget (fun _ => 1000) pt.slope k
def Port.hiOf (pt : Port) (k : Nat) : Nat := kget (fun _ => 131072) pt.hiCredit k
def Port.surplusOf (pt : Port) (k : Nat) : Bool := kget (fun _ => true) pt.surplus k
def Port.changedAt (pt : Port) (k : Nat) : Nat := kget (fun _ => 0) pt.changed k

/-- Whether class `k` is on the wire. -/
def Port.onWire (pt : Port) (k : Nat) : Bool := (pt.wire.map (·.1)) == some k

/-- Credit of class `k` after the time since its last change, by the condition it has been in. -/
def creditNow (s : State) (p k : Nat) : Int :=
  let pt := s.port p
  let c := pt.creditOf k
  let gain : Int := (pt.slopeOf k * (s.time64 - pt.changedAt k) : Nat)
  if pt.onWire k then c
  else if (pt.queue k).isEmpty then
    (if c < 0 then min ((1000 * c + gain).tdiv 1000) 0 else 0)
  else min ((1000 * c + gain).tdiv 1000) (max c (pt.hiOf k))

/-- A change of condition of weighted class `k`: its credit is brought up to now and shown, and the shaper registers take
effect. -/
def creditChange (s : State) (p k : Nat) (c : Int) : State :=
  if 6 ≤ k then s
  else
    let pt := s.port p
    (s.setPort p { pt with credit := kset (fun _ => 0) pt.credit k c, changed := kset (fun _ => 0) pt.changed k s.time64,
                           slope := kset (fun _ => 1000) pt.slope k (slopeReg s p k),
                           hiCredit := kset (fun _ => 131072) pt.hiCredit k (hiCreditReg s p k),
                           surplus := kset (fun _ => true) pt.surplus k (bit (s.cfg (R.NMP_Pnn_TCk_SHAPE p k)) 31) }).wr
      (R.NMP_Pnn_TCk_CREDIT p k) (wordOfInt c)

-- Link states (R226).
namespace Link
def OFF : Nat := 0
def NO_SINK : Nat := 1
def TRAINING : Nat := 2
def ACTIVE : Nat := 3
def IDLE : Nat := 4
def OVERRATE : Nat := 5
def FAILED : Nat := 6
def SAFE_OFF : Nat := 7
end Link

/-- LINK of OWB_Ddd_STAT. -/
def dpLink (s : State) (d : Nat) : Nat := bits (s.rd (R.OWB_Ddd_STAT d)) 31 29

/-- Bytes in AUX_DATA0 to 3. -/
def auxBytes (s : State) (d n : Nat) : List Byte :=
  (List.range n).map (fun k => BitVec.ofNat 8 (bits (s.rd (R.OWB_Ddd_AUX_DATAn d (k / 4))) (8 * (k % 4) + 7) (8 * (k % 4))))

/-- Send the command frame of the transaction that runs, unless training uses AUX. -/
def auxSend (s : State) (d : Nat) : State :=
  match (s.dp d).aux with
  | some (typ, len, addr) =>
    if dpLink s d = Link.TRAINING then s
    else s.emit (.aux d typ addr (len + 1) (if typ % 2 = 1 then auxBytes s d (len + 1) else []))
  | none => s

end Sys2Proof.Machine
end

