-- ==== Sys2Proof/Machine/Events.lean ====
section
/-!
DEFINITION. Raising an event source (R373): counting, event records, judgement, latching, history, force lines and the
entry into the safe state; part faults and double faults; armed injections; MSI-X.
-/
namespace Sys2Proof.Machine

/-- Whether function `k` may write host memory: Bus Master Enable (R325, R340). -/
def State.busMaster (s : State) (k : Nat) : Bool := (s.func k).cfg.busMaster

/-- Whether the accesses of a master reach the device: a function's do with its Memory Space Enable set (R8, R308). -/
def State.reaches (s : State) : Master → Bool
  | .lmp => true
  | .pf0 => (s.func 0).cfg.memory
  | .pf1 => (s.func 1).cfg.memory

/-- Whether a vector may send: not masked in the table, nor by the Function Mask (R342). -/
def Func.sends (f : Func) (v : Nat) : Bool := f.unmasked.contains v && !f.cfg.functionMask

/-- Send a message on vector `v` of function `k`, or mark it pending while masked (R342). PRESUMED (PCIe Base 5.0): none falls due while
MSI-X Enable or Bus Master Enable is clear. -/
def sendMsix (s : State) (k v : Nat) : State :=
  let f := s.func k
  if ¬ (f.cfg.msix ∧ f.cfg.busMaster) then s
  else if f.sends v then s.emit (.msix k v)
  else if f.pba.contains v then s else s.setFunc k { f with pba := v :: f.pba }

/-- The event ring of function `k` works: EN = 1 with a ring size and a base that R339 allows. DESIGN CHOICE: R339 states nothing of another
size or base with EN = 1; no record is posted then, and the register reads as written (R355). -/
def evrOn (s : State) (k : Nat) : Bool :=
  let c := s.cfg (R.HWQ_Fk_EVR_CFG k)
  bit c 31 && decide (8 ≤ bits c 4 0 ∧ bits c 4 0 ≤ 16 ∧ bits (s.cfg (R.HWQ_Fk_EVR_BASE_LO k)) 11 0 = 0)

/-- Ring size in records of the event ring of function `k` (R339). -/
def evrSize (s : State) (k : Nat) : Nat := 2 ^ bits (s.cfg (R.HWQ_Fk_EVR_CFG k)) 4 0

/-- Records in the ring: (EVR_PROD − EVR_CONS) mod 2^32 (R340). -/
def evrFill (s : State) (k : Nat) : Nat :=
  (s.rd (R.HWQ_Fk_EVR_PROD k) - s.cfg (R.HWQ_Fk_EVR_CONS k)).toNat

/-- Host address of the next record. -/
def evrAddr (s : State) (k : Nat) : Nat :=
  (s.cfg (R.HWQ_Fk_EVR_BASE_HI k)).toNat * 4294967296 + (s.cfg (R.HWQ_Fk_EVR_BASE_LO k)).toNat
    + 32 * ((s.rd (R.HWQ_Fk_EVR_PROD k)).toNat % evrSize s k)

/-- Write one record; the caller has found room. PHASE changes at every wrap (R339). -/
def writeRecord (s : State) (k : Nat) (head : List Byte) (body : List Byte) : State :=
  let f := s.func k
  let phase : Byte := if f.phase then 0x80#8 else 0#8
  let s1 := s.emit (.hostWrite k (evrAddr s k) (head ++ [phase] ++ body))
  let prod := s.rd (R.HWQ_Fk_EVR_PROD k) + 1#32
  let wrap := decide (prod.toNat % evrSize s k = 0)
  (s1.wr (R.HWQ_Fk_EVR_PROD k) prod).setFunc k { f with phase := if wrap then !f.phase else f.phase }

/-- A record more is lost (R340). -/
def loseRecord (s : State) (k : Nat) : State :=
  let f := s.func k
  (s.setFunc k { f with lost := f.lost + 1 }).bump (R.HWQ_Fk_EVR_LOST k) 1

/-- After posting records: the message of the ring, no sooner than HOLDOFF after the previous one (R342). -/
def evrMessage (s : State) (k : Nat) : State :=
  let cfg := s.cfg (R.HWQ_Fk_EVR_CFG k)
  if ¬ bit cfg 23 then s
  else
    let f := s.func k
    if f.holdoff then s.setFunc k { f with covered := true }
    else sendMsix (s.setFunc k { f with covered := false, holdoff := decide (bits cfg 15 8 ≠ 0) }) k (bits cfg 22 16)

/-- Whether one more record fits (R340). -/
def evrRoom (s : State) (k : Nat) : Bool := decide (evrFill s k + 1 < evrSize s k)

/-- The record that reports losses, with KIND 2 and the number lost (R340). DESIGN CHOICE: its source field is 0. -/
def flushLost (s : State) (k : Nat) : State :=
  let f := s.func k
  if f.lost = 0 ∨ ¬ evrRoom s k then s
  else
    let s1 := writeRecord s k [0#8, 0#8, 2#8] (leBytes 4 (min f.lost 0xFFFFFFFF) ++ List.replicate 24 0#8)
    s1.setFunc k { s1.func k with lost := 0 }

/-- Post one record of 32 bytes without its PHASE; true when the ring was full (R339, R340). -/
def postRecord (s : State) (k : Nat) (head body : List Byte) : State × Bool :=
  if ¬ (evrOn s k ∧ s.busMaster k) then (loseRecord s k, false)
  else
    let s1 := flushLost s k
    if (s1.func k).lost = 0 ∧ evrRoom s1 k then (evrMessage (writeRecord s1 k head body) k, false)
    else (loseRecord s1 k, true)

/-- Whether the mask of function `k` selects a source (R339). -/
def evSelected (s : State) (k src : Nat) : Bool := bit (s.cfg (R.HWQ_Fk_EVMASKn k (src / 32))) (src % 32)

/-- Body of a source's event record (R339). -/
def srcBody (s : State) (detail : Nat) : List Byte :=
  leBytes 4 detail ++ leBytes 8 s.time64 ++ List.replicate 16 0#8

/-- Post a source's record to every function that selects it; true when a record was lost to a full ring. -/
def postSource (s : State) (src detail : Nat) : State × Bool :=
  let one (a : State × Bool) (k : Nat) : State × Bool :=
    if evSelected a.1 k src then
      let r := postRecord a.1 k (leBytes 2 src ++ [0#8]) (srcBody a.1 detail)
      (r.1, a.2 || r.2)
    else a
  one (one (s, false) 0) 1

/-- Write a history record (R381, R382). -/
def history (s : State) (q : Nat) (w0 w1 : Word) : State :=
  let stat := s.rd (R.IHM_HISTq_STAT q)
  let slot := bits stat 3 0
  let fill := bits stat 12 8
  let at_ := 64 * q + 4 * slot
  let s1 := (((s.setSpw Space.FC_HIST at_ w0).setSpw Space.FC_HIST (at_ + 1) w1).setSpw Space.FC_HIST (at_ + 2)
    (word s.time64)).setSpw Space.FC_HIST (at_ + 3) (word (s.time64 / 4294967296))
  let stat1 := setBits stat 3 0 ((slot + 1) % 16)
  s1.wr (R.IHM_HISTq_STAT q) (if 16 ≤ fill then satField stat1 31 16 1 else setBits stat1 12 8 (fill + 1))

/-- Affected heads of a SAFE raise (R378); `own` are those of source 304's regions. -/
def affected (s : State) (src : Nat) (own : Word) : Word :=
  let w := s.spw Space.FC_SRC src
  if src = 308 then 0xFFFFFFFF#32
  else match bits w 17 16 with
    | 1 => 0xFFFFFFFF#32
    | 2 => s.cfg (R.IHM_SCOPE_MASKn (bits w 13 12))
    | _ =>
      if 104 ≤ src ∧ src < 200 then setBit 0#32 ((src - 104) / 3) true
      else if 8 ≤ src ∧ src < 24 then s.cfg (R.SEQ_Gn_HEADS ((src - 8) / 2))
      else if 40 ≤ src ∧ src < 48 then s.cfg (R.SEQ_Gn_HEADS (src - 40))
      else if src = 304 then own
      else 0xFFFFFFFF#32

/-- Severity of a source as its control word has it (R375): source 308 is SAFE, fixed; for source 307 SAFE acts as
DEGRADE. -/
def severity (s : State) (src : Nat) : Nat :=
  let sev := bits (s.spw Space.FC_SRC src) 1 0
  if src = 308 then 3 else if src = 307 ∧ sev = 3 then 2 else sev

/-- N of a source: events that complete a count; 0 acts as 1 (R375). -/
def countN (s : State) (src : Nat) : Nat := max 1 (bits (s.spw Space.FC_SRC src) 31 24)

/-- Counting mode (R377): SEV = SAFE and CNT_EN = 1 outside RUN. DEDUCED: not source 308, whose severity is fixed and
whose evaluation R389 skips. -/
def counting (s : State) (src : Nat) : Bool :=
  decide (severity s src = 3) && bit (s.spw Space.FC_SRC src) 19 && decide (s.col.phase ≠ 1) && decide (src ≠ 308)

/-- Level at which a raise is judged, and the source after its window moved (R375, R377). -/
def judge (s : State) (src : Nat) (x : SrcSt) : Nat × SrcSt :=
  if counting s src then
    let c := (if x.win then x.count else 0) + 1
    if c = countN s src then (3, { x with win := false, count := 0 })
    else (2, { x with win := true, count := c })
  else (severity s src, x)

/-- Numbers of the collector words that hold the latch and the counting window of a source (R391). DESIGN CHOICE: words 0 to 319 are
FC_SRC, 320 to 323 IHM_SCOPE_MASKn, 324 IHM_PHASE, 512 on the latches, 1024 on the windows. -/
def latchWords (src : Nat) : List Nat := [512 + src, 1024 + src]

/-- Words of the collector are written anew: they pass parity again (R391). -/
def rewritten (s : State) (ws : List Nat) : State :=
  if s.col.bad.isEmpty then s else { s with col := { s.col with bad := s.col.bad.filter (fun w => !ws.contains w) } }

/-- Count and latch a raise (R373, R376, R378). -/
def latch (s : State) (src : Nat) (inj : Bool) (own : Word) : State :=
  let x := s.src src
  let x1 := { x with raises := min 65535 (x.raises + 1), inj := inj }
  let (lv, x2) := judge s src x1
  let heads := if lv = 3 then x2.heads ||| affected s src own else x2.heads
  (rewritten s (latchWords src)).setSrc src { x2 with level := max x2.level lv, heads := heads }

/-- Level of the force line of head `h` (R379). -/
def forceLine (s : State) (h : Nat) : Bool :=
  decide (1 ≤ (s.src 308).level) || s.col.src.any (fun e => decide (e.2.level = 3) && bit e.2.heads h)
    || bit (s.cfg (R.OWB_Hnn_SAFE_CTRL h)) 11

/-- The force line of head `h` rises, if a latch of source `src` has raised it: `src` is its cause, and a release that waits is withdrawn
(R241, R381). -/
def noteRise (src : Nat) (s : State) (h : Nat) : State :=
  let x := s.safeOf h
  if forceLine s h && !x.line then
    let s1 := s.setSafe h { x with line := true, cause := src, releasing := false }
    if x.active && x.releasing then s1.setFlag (R.OWB_Hnn_SAFE_STAT h) 27 else s1
  else s

/-- A raise of a source is latched, and the force lines that it raises are high. -/
def latchLines (s : State) (src : Nat) (inj : Bool) (own : Word) : State :=
  forEach (List.range 32) (latch s src inj own) (noteRise src)

/-- A raise, the collector's own parity apart: counted, posted, judged. A record lost to a full ring raises HWQ_EVR_OVERFLOW, whose own lost
record raises nothing more (DESIGN CHOICE). -/
def raiseCounted (s : State) (src detail : Nat) (inj : Bool) (own : Word) : State :=
  let (s1, full) := postSource s src detail
  let s2 := latchLines s1 src inj own
  if full then latchLines (postSource s2 286 0).1 286 false 0#32 else s2

/-- The collector finds a fault in itself (R391): the seen bit, the count, and source 308. -/
def selfFound (s : State) (b : Nat) : State :=
  raiseCounted (s.wr R.IHM_FC_SELF (satField (setBit (s.rd R.IHM_FC_SELF) b true) 31 24 1)) 308 0 false 0#32

/-- A use of collector words finds those that fail parity (R391). -/
def useWords (s : State) (ws : List Nat) : State :=
  forEach (ws.filter s.col.bad.contains) s (fun s w => selfFound (s.wrBits R.IHM_FC_SELF 23 12 w) 0)

/-- Collector words that the judgement of a raise uses: control word, phase, latch, window, and the scope mask named (R375, R377, R378). -/
def judgeWords (s : State) (src : Nat) : List Nat :=
  let w := s.spw Space.FC_SRC src
  [src, 324] ++ latchWords src ++ (if bits w 17 16 = 2 then [320 + bits w 13 12] else [])

/-- A raise up to its latch and the force lines (R373, R391). DESIGN CHOICE: the words that judge source 308 itself are not checked again
while a fault of the collector is reported. -/
def raiseCore (s : State) (src detail : Nat) (inj : Bool) (own : Word) : State :=
  raiseCounted (if src = 308 then s else useWords s (judgeWords s src)) src detail inj own

/-- Word 0 of a record of history queue 2 (R381). -/
def safeRecord (entry force self : Bool) (h mode frame cause : Nat) : Word :=
  word ((if entry then 2147483648 else 0) + (if force then 1073741824 else 0) + (if self then 536870912 else 0)
    + h * 16777216 + mode * 4194304 + frame * 524288 + cause)

/-- Report a safe-state entry or release: source 307 with its record (R372, R381, R390). -/
def reportSafe (s : State) (w0 w1 : Word) : State := raiseCore (history s 2 w0 w1) 307 0 false 0#32

/-- Word of NMP_TXC of stream `st` (R275). -/
def txcKey (st w : Nat) : Nat := skey Space.NMP_TXC (8 * st + w)

/-- HEAD and PORT of a transmit stream's settings in force (R275). -/
def TxStream.head (t : TxStream) : Nat := bits (t.cfg.getD 0 0#32) 26 22
def TxStream.port (t : TxStream) : Nat := bits (t.cfg.getD 0 0#32) 3 0

/-- The frame in progress of a transmit stream is cut (R256, R270): counted in CUT, event of the port. -/
def cutStream (s : State) (st : Nat) : State :=
  let t := s.txs st
  if t.sending then
    raiseCore ((s.setTxs st { t with sending := false }).setSp (txcKey st 3) (satAdd32 (s.sp (txcKey st 3)) 1))
      (202 + 4 * t.port) 0 false 0#32
  else s

/-- Drop the frames queued on a media port that do not pass a test. A weighted class that this empties changes its condition (R265). -/
def dropFrames (s : State) (p : Nat) (f : TxFrame → Bool) : State :=
  let left (k : Nat) : Bool := ((s.port p).queue k).any f
  let s1 := forEach ((List.range 6).filter (fun k => !((s.port p).queue k).isEmpty && !left k && !(s.port p).onWire k)) s
    (fun s k => creditChange s p k (min (creditNow s p k) 0))
  s1.setPort p ((s1.port p).keep f)

/-- A DisplayPort port that trains or works enters SAFE_OFF; a transaction that waited for the training is sent on AUX (R226, R229). -/
def dpSafeOff (s : State) (d : Nat) : State :=
  let s1 := s.wrBits (R.OWB_Ddd_STAT d) 31 29 Link.SAFE_OFF
  if dpLink s d = Link.TRAINING then auxSend s1 d else s1

/-- Whether safe states act on what a head feeds: OUT_EN.EN was 1 at its last line 0, and it is not dark (R219, R220). -/
def headOut (s : State) (h : Nat) : Bool := (s.head h).emits && decide ((s.head h).state ≠ .dark)

/-- Ports and streams fed by a head that enters PORT_OFF (R238, R256): the DisplayPort ports enter SAFE_OFF, packets of the head queued on any
media port are discarded, and the frame cut is counted in CUT. -/
def portOff (s : State) (h : Nat) : State :=
  let s1 := forEach (List.range 16) s (fun s d => if (s.dp d).src = some h ∧ dpLink s d ≠ Link.OFF ∧ headOut s h then dpSafeOff s d else s)
  let s2 := forEach (List.range 16) s1 (fun s p => dropFrames s p (fun f => decide (f.head ≠ some h)))
  forEach (List.range 64) s2 (fun s st =>
    let t := s.txs st
    if t.sending ∧ t.head = h then cutStream s st else s)

/-- Enter the safe state of head `h` (R240): MODE and FRAME in force are latched, ENTRIES counts, and the entry is
reported. `w1` is the latency of R390. -/
def enterSafe (s : State) (h : Nat) (force : Bool) (cause : Nat) (w1 : Word) : State :=
  let c := s.cfg (R.OWB_Hnn_SAFE_CTRL h)
  let mode := bits c 9 8
  let frame := bits c 2 0
  let s1 := s.setSafe h { s.safeOf h with active := true, mode := mode, frame := frame, releasing := false, held := false }
  let s2 := s1.wr (R.OWB_Hnn_SAFE_STAT h) (satField (s1.rd (R.OWB_Hnn_SAFE_STAT h)) 15 0 1)
  let s3 := if mode = 3 then portOff s2 h else s2
  reportSafe s3 (safeRecord true force (decide (cause = 308)) h mode frame cause) w1

/-- Whether head `h` may be forced: SAFE_EN = 1 and OUT_EN.EN = 1 in force (R16, R240, R242). -/
def forcible (s : State) (h : Nat) : Bool := bit (s.cfg (R.OWB_Hnn_SAFE_CTRL h)) 10 && (s.head h).emits

/-- The force line of head `h` follows its causes after a change whose cause is `cause` (R240, R241). -/
def noteLine (cause : Nat) (s : State) (h : Nat) : State :=
  let s1 := noteRise cause s h
  if forceLine s h then s1 else s1.setSafe h { s1.safeOf h with line := false }

/-- A head whose force line is high enters its safe state (R240). A line that is high while the head has SAFE_EN = 1 and OUT_EN.EN = 0 is
latched until EN returns, though its cause may clear before (R242, R390). -/
def enterForced (s : State) (h : Nat) : State :=
  let x := s.safeOf h
  if !x.line || x.active then s
  else if forcible s h then
    let w1 := if x.cause = 0x1FF then 0#32 else word (min 1000 (Config.safeLatency s.fresh).toNat)
    enterSafe s.bumpFresh h (decide (x.cause = 0x1FF)) x.cause w1
  else if bit (s.cfg (R.OWB_Hnn_SAFE_CTRL h)) 10 then s.setSafe h { x with held := true }
  else s

/-- Heads whose force lines are high enter their safe states, with those whose lines an entry itself raises: `fuel` bounds the rounds, of
which each brings in one head at least. -/
def settleForce : Nat → State → State
  | 0, s => s
  | fuel + 1, s =>
    let t := forEach (List.range 32) s enterForced
    if (List.range 32).any (fun h => (t.safeOf h).line && !(t.safeOf h).active && forcible t h) then settleForce fuel t else t

/-- One head's force line is evaluated after a change whose cause is `cause`. -/
def updateForce1 (cause : Nat) (s : State) (h : Nat) : State := enterForced (noteLine cause s h) h

/-- Every head's force line is evaluated after a change whose cause is `cause`. -/
def updateForce (s : State) (cause : Nat) : State := settleForce 32 (forEach (List.range 32) s (noteLine cause))

/-- What a raise outside a raise's own evaluation, such as that of a cut frame, does to the heads it forces (R376, R389). -/
def withForce (f : State → State) (s : State) : State := settleForce 32 (f s)

/-- A raise of a source with everything that follows from it (R373): it reaches no part of the device beyond the collector, the
records to the host, the safe states, and what a port that goes off discards. -/
def raiseFull (s : State) (src detail : Nat) (inj : Bool) (own : Word) : State :=
  keeping [] s (withForce (fun s => raiseCore s src detail inj own) s)

/-- A use of collector words outside a raise finds those that fail parity, and the heads that this forces enter their safe states (R391). -/
def wordsUsed (s : State) (ws : List Nat) : State :=
  if ws.any s.col.bad.contains then keeping [] s (withForce (fun s => useWords s ws) s) else s

/-- One raise of a source. -/
def raise (s : State) (src : Nat) : State := raiseFull s src 0 false 0#32

/-- A raise whose record names a queue (R339). -/
def raiseQ (s : State) (src q : Nat) : State := raiseFull s src q false 0#32

/-- A raise that an injected error caused when `inj` (R395). -/
def raiseInj (s : State) (src : Nat) (inj : Bool) : State := raiseFull s src 0 inj 0#32

/-- `n` raises of a source. -/
def raiseN (s : State) (src : Nat) : Nat → State
  | 0 => s
  | n + 1 => raiseN (raise s src) src n

/-- Drop the latch of a source, its heads and its window (R380). -/
def clearSource (s : State) (src : Nat) : State :=
  let x := s.src src
  (rewritten s (latchWords src)).setSrc src { x with level := 0, heads := 0#32, win := false, count := 0 }

/-- Set the level of a notice and raise its event on a rise (R184, R186). -/
def setNotice (s : State) (o src : Nat) (now : Bool) : State :=
  let rise := now && !s.noticeNow o
  let s1 := s.wr o (noticeWord (s.rd o) now)
  if rise then raise s1 src else s1

/-- A part fault is found (R12, R392): a second one before the first is answered is a double fault. -/
def partFault (s : State) (src part : Nat) : State :=
  let s1 := { s with col := { s.col with faults := s.col.faults ++ [⟨src, part⟩] } }
  match s.col.faults with
  | [] => s1
  | f :: _ => raise (s1.wr R.IHM_DF_LOG (word (f.src * 65536 + src))) 309

/-- Whether a part fault is unanswered (R12). -/
def State.faultOpen (s : State) : Bool := !s.col.faults.isEmpty

/-- The answer to a part fault has completed (R392). -/
def faultAnswered (s : State) (src part : Nat) : State :=
  { s with col := { s.col with faults := s.col.faults.filter (fun f => !(f.src == src && f.part == part)) } }

/-- One check by a checker that can be injected: whether this one is, and the state after it (R394, R395). -/
def injectCheck (s : State) (target unit : Nat) : Bool × State :=
  match s.col.inj with
  | none => (false, s)
  | some i =>
    if i.target = target ∧ i.unit = unit then
      let left := i.left - 1
      let st := satField (setBits (s.rd R.IHM_INJ_STAT) 23 20 left) 15 0 1
      if left = 0 then
        let s1 := { s with col := { s.col with inj := none } }
        (true, raise (s1.wr R.IHM_INJ_STAT (setBit (setBit st 31 false) 30 true)) 310)
      else
        (true, { s with col := { s.col with inj := some { i with left := left } } }.wr R.IHM_INJ_STAT st)
    else (false, s)

end Sys2Proof.Machine
end

