-- ==== Sys2Proof/Machine/Operands.lean ====
section
/-!
DEFINITION. The operand forms the spec gives: completion codes (R331), queue entries (R321, R323), placement records
(R80), surface formats (R72), layer descriptors are in `Layers`.
-/
namespace Sys2Proof.Machine

-- Completion codes (R331).
namespace Code
def OK : Nat := 0x00
def OK_SUBST : Nat := 0x01
def APPLIED : Nat := 0x10
def EXPIRED : Nat := 0x11
def REFUSED : Nat := 0x12
def DETACHED : Nat := 0x13
def ORPHAN : Nat := 0x20
def BAD_TYPE : Nat := 0x21
def BAD_CHAIN : Nat := 0x22
def BAD_FIELD : Nat := 0x23
def BAD_QUEUE : Nat := 0x24
def PRIV_DENIED : Nat := 0x25
def NOT_RELEASED : Nat := 0x26
def BAD_FORMAT : Nat := 0x30
def BAD_SIZE : Nat := 0x31
def BAD_PIN : Nat := 0x32
def HANDLE_IN_USE : Nat := 0x33
def NO_SPACE : Nat := 0x34
def HANDLE_FREE : Nat := 0x35
def IN_USE : Nat := 0x36
def BAD_HANDLE : Nat := 0x37
def RANGE : Nat := 0x38
def MISMATCH : Nat := 0x39
def BUSY : Nat := 0x3A
def HEAD_DARK : Nat := 0x3B
def BAD_LAYER : Nat := 0x3C
def BAD_WRITE : Nat := 0x3D
def CUT : Nat := 0x40
def NO_BUS : Nat := 0x41
def HOST_READ_ERR : Nat := 0x42
def VOID_READ : Nat := 0x43
def DOUBLE_FAULT : Nat := 0x44
def STATE_LOST : Nat := 0x45
end Code

/-- Whether a code completes with ERR = 1 (R329). -/
def codeErr (c : Nat) : Bool := !(c == Code.OK || c == Code.OK_SUBST || c == Code.APPLIED)

/-- Format codes of R72. -/
def formatKnown (f : Nat) : Bool := [0x01, 0x02, 0x03, 0x04, 0x08, 0x09, 0x0A, 0x0B, 0x10].contains f

/-- Payload bytes of a line of width `w` (R72). -/
def payloadLen (f w : Nat) : Nat :=
  if f = 0x04 then 8 * w
  else if f = 0x08 then 4 * ceilDiv (2 * w) 3
  else if f = 0x09 ∨ f = 0x10 then w
  else if f = 0x0A then 2 * w
  else 4 * w

/-- Semi-planar formats (R72). -/
def semiPlanar (f : Nat) : Bool := f == 0x09 || f == 0x0A

/-- Lines of a surface of height `h` (R72). -/
def linesOf (f h : Nat) : Nat := if semiPlanar f then h + h / 2 else h

/-- Pitch of a payload (R72). -/
def pitchOf (p : Nat) : Nat := 16 * ceilDiv (p + 4) 16

/-- Bytes of a stripe (R71, R74). -/
def stripeBytes : Nat := 65536

/-- Payload bytes per line of a surface. -/
def Surface.payload (x : Surface) : Nat := payloadLen x.format x.width

/-- Size of R71: 1 to 16,384, even where the format asks. -/
def sizeOk (f w h : Nat) : Bool :=
  decide (1 ≤ w ∧ w ≤ 16384 ∧ 1 ≤ h ∧ h ≤ 16384) && !((f == 0x08 || semiPlanar f) && w % 2 == 1)
    && !(semiPlanar f && h % 2 == 1)

/-- A placement record (R80). -/
structure PinRec where
  mask : Nat
  apart : Nat
  fixed : Bool
  duplex : Bool
  heat : Nat
  /-- Reserved bits and bytes are zero and HEAT is not 3. -/
  clean : Bool
  deriving DecidableEq, Repr

/-- Read the 32 bytes of a placement record. -/
def pinRec (bs : List Byte) : PinRec :=
  let fl := byteAt bs 18
  { mask := le bs 0 16, apart := le bs 16 2, fixed := fl.testBit 0, duplex := fl.testBit 1, heat := byteAt bs 19,
    clean := decide (fl < 4) && decide (byteAt bs 19 < 3) && allZero (slice bs 20 12) }

/-- A pin mask permits a pseudo-channel; an all-zero mask permits every one (R80). -/
def permits (mask p : Nat) : Bool := mask == 0 || mask.testBit p

/-- Stack of a pseudo-channel (R67). -/
def stackOf (p : Nat) : Nat := p / 32

/-- Position of a pseudo-channel in the rotation order (R81). -/
def rotPos (p : Nat) : Nat := 4 * (p % 32) + p / 32

/-- The rotation order (R81). -/
def rotPc (j : Nat) : Nat := (j % 4) * 32 + j % 128 / 4

-- Fields of an entry (R321).
def entryType (e : List Byte) : Nat := byteAt e 0
def entryFirst (e : List Byte) : Bool := (byteAt e 1).testBit 0
def entryLast (e : List Byte) : Bool := (byteAt e 1).testBit 1
def entryEvent (e : List Byte) : Bool := (byteAt e 1).testBit 2

/-- Rotate a list left. -/
def rotate {α : Type} (xs : List α) (n : Nat) : List α := xs.drop n ++ xs.take n

end Sys2Proof.Machine
end

