-- ==== Sys2Proof/Machine/Completion.lean ====
section
/-!
DEFINITION. Privilege of masters and refused writes (R314, R346 to R348), the work queues' rings, and the completion of a
job (R321, R329, R330).
-/
namespace Sys2Proof.Machine

/-- The device is released (R58). -/
def State.released (s : State) : Bool := decide (s.ldr.state = .released)

/-- WAIT_HOST or NO_IMAGE (R61). -/
def State.hostStates (s : State) : Bool := decide (s.ldr.state = .waitHost ∨ s.ldr.state = .noImage)

/-- Whether a master is privileged now (R62, R346). -/
def State.priv (s : State) : Master → Bool
  | .lmp => true
  | .pf0 => s.hostStates || (s.released && !s.ldr.sealed)
  | .pf1 => false

/-- Code of a master in HWQ_PRIV_DENY (R348). -/
def masterCode : Master → Nat
  | .lmp => 0
  | .pf0 => 1
  | .pf1 => 2

/-- A write refused for privilege (R347, R348): `log` is HWQ_PRIV_DENY_LOG. -/
def denyPriv (s : State) (m : Master) (job : Bool) (log : Word) : State :=
  let w := satField (s.rd R.HWQ_PRIV_DENY) 31 16 1
  raise ((s.wr R.HWQ_PRIV_DENY (setBits w 2 0 ((if job then 4 else 0) + masterCode m))).wr R.HWQ_PRIV_DENY_LOG log) 280

/-- A write refused under the ownership rule (R314). -/
def denyOwner (s : State) : State := raise (s.bump R.HWQ_OWN_DENY 1) 281

/-- HWQ_PRIV_DENY_LOG of a register offset, and of a word of an indirect space. -/
def logOfReg (o : Nat) : Word := word o
def logOfSpace (code a : Nat) : Word := word (2147483648 + code * 16777216 + a)

-- Queues and their rings (R314, R315).

/-- Whether queue `q` is a board queue. -/
def boardQueue (q : Nat) : Bool := decide (q < 16)

/-- Owner field of memory queue `q` in HWQ_QMAPn: the function, none without one. -/
def queueOwner (s : State) (q : Nat) : Option Nat :=
  if q < 16 then none
  else match bits (s.cfg (R.HWQ_QMAP0 + 4 * ((q - 16) / 16))) (2 * (q % 16) + 1) (2 * (q % 16)) with
    | 1 => some 0
    | 2 => some 1
    | _ => none

/-- The PCIe function as a master. -/
def funcMaster (k : Nat) : Master := if k = 0 then .pf0 else .pf1

/-- Entries of the ring. -/
def ringSize (s : State) (q : Nat) : Nat := 2 ^ bits (s.cfg (R.HWQ_Qnn_CFG q)) 4 0

/-- A host address from its two registers. -/
def hostAddr (lo hi : Word) : Nat := hi.toNat * 4294967296 + lo.toNat

/-- Host address of slot of index `i` of a memory queue; first QRING word of that slot of a board queue. -/
def slotAddr (s : State) (q : Nat) (i : Word) : Nat :=
  let slot := i.toNat % ringSize s q
  if boardQueue q then 16 * (bits (s.cfg (R.HWQ_Qnn_BASE_LO q)) 13 0 + slot)
  else hostAddr (s.cfg (R.HWQ_Qnn_BASE_LO q)) (s.cfg (R.HWQ_Qnn_BASE_HI q)) + 64 * slot

/-- The 64 bytes of an entry of QRING from its first word. -/
def qringEntry (s : State) (a : Nat) : List Byte :=
  (List.range 16).flatMap (fun w => leBytes 4 (s.spw Space.QRING (a + w)).toNat)

/-- A write of a queue's owner into host memory; without Bus Master Enable the access fails (R344). DESIGN CHOICE: what it would have written
is lost. -/
def queueWrite (s : State) (q k addr : Nat) (data : List Byte) : State :=
  if s.busMaster k then s.emit (.hostWrite k addr data) else s.setFlag (R.HWQ_Qnn_STAT q) 4

/-- Write bytes into a slot from byte `off` (a multiple of 4): host memory, or QRING words. -/
def writeSlot (s : State) (q : Nat) (i : Word) (off : Nat) (data : List Byte) : State :=
  let a := slotAddr s q i
  if boardQueue q then
    forEach (List.range (data.length / 4)) s (fun s w => s.setSpw Space.QRING (a + off / 4 + w) (word (le data (4 * w) 4)))
  else match queueOwner s q with
    | some k => queueWrite s q k (a + off) data
    | none => s

/-- Bytes 8 to 15 of the index record of a memory queue (R316). -/
def writeIndex (s : State) (q : Nat) : State :=
  match queueOwner s q with
  | none => s
  | some k =>
    queueWrite s q k (hostAddr (s.cfg (R.HWQ_Qnn_IDX_LO q)) (s.cfg (R.HWQ_Qnn_IDX_HI q)) + 8)
      (leBytes 4 (s.rd (R.HWQ_Qnn_CONS q)).toNat ++ leBytes 4 (s.queue q).done.toNat)

/-- Bead 0 of a completed entry (R321, R329). -/
def completionBead (first : List Byte) (code : Nat) (rerun : Bool) (seq : Nat) (entries time : Nat) : List Byte :=
  slice first 0 2 ++ [BitVec.ofNat 8 code,
    BitVec.ofNat 8 (128 + (if codeErr code then 64 else 0) + (if rerun then 32 else 0))]
    ++ leBytes 2 seq ++ leBytes 2 entries ++ leBytes 8 time

/-- Clear IRQ_EN of the event ring of function `k` while `f` runs: a reset sends no message (R333). -/
def withoutMessage (s : State) (k : Nat) (quiet : Bool) (f : State → State × Bool) : State × Bool :=
  let o := R.HWQ_Fk_EVR_CFG k
  let v := s.cfg o
  let r := f (if quiet then s.setCfg o (setBit v 23 false) else s)
  (r.1.setCfg o v, r.2)

/-- The completion record in the event ring of the owner (R339), or HWQ_BOARD_DONE (R330). -/
def completionEvent (s : State) (q : Nat) (first : List Byte) (code seq : Nat) (quiet : Bool) : State :=
  if boardQueue q then s.setFlag R.HWQ_BOARD_DONE q
  else match queueOwner s q with
    | none => s
    | some k =>
      let r := withoutMessage s k quiet (fun s => postRecord s k [0xFF#8, 0xFF#8, 1#8]
        ([BitVec.ofNat 8 q, BitVec.ofNat 8 code] ++ leBytes 2 seq ++ leBytes 8 s.time64 ++ slice first 4 4
          ++ List.replicate 12 0#8))
      if r.2 then raise r.1 286 else r.1

/-- Write a completion in the order of R330. `quiet` leaves out the MSI-X message, as a reset does (R333). -/
def writeCompletion (s : State) (q : Nat) (index : Word) (first : List Byte) (code seq entries : Nat) (rerun event quiet : Bool) :
    State :=
  let x := s.queue q
  let s1 := (writeSlot s q index 0 (completionBead first code rerun seq entries s.time64)).setQueue q
    { x with done := x.done + 1#32 }
  let s2 := writeIndex s1 q
  let s3 := if event then completionEvent s2 q first code seq quiet else s2
  let cfg := s.cfg (R.HWQ_Qnn_CFG q)
  let s4 := if bit cfg 23 ∧ ¬ quiet then
      match queueOwner s3 q with
      | some k => sendMsix s3 k (bits cfg 22 16)
      | none => s3
    else s3
  if codeErr code then raiseQ s4 283 q else s4

/-- HALTED of a queue (R337). -/
def halted (s : State) (q : Nat) : Bool := bit (s.rd (R.HWQ_Qnn_STAT q)) 31

/-- Whether a queue reads: enabled, not halted, not stopped by a reset (R318, R333, R337). -/
def queueRuns (s : State) (q : Nat) : Bool :=
  bit (s.cfg (R.HWQ_Qnn_CFG q)) 31 && !halted s q && !(s.queue q).stopping

/-- Whether a queue waits for entries: it runs, and has no job or one whose chain is still read (R318, R322). -/
def queueFetches (s : State) (q : Nat) : Bool :=
  queueRuns s q && match (s.queue q).job with
    | none => true
    | some j => decide (j.phase = .chain)

/-- Index of the entry a queue reads next: that of its job's chain, behind CONS while a job run again reads it anew (R322, R335). -/
def nextEntry (s : State) (q : Nat) : Word :=
  match (s.queue q).job with
  | none => s.rd (R.HWQ_Qnn_CONS q)
  | some j => j.index + word j.read

/-- Whether that entry has been passed before. -/
def rereads (s : State) (q : Nat) : Bool :=
  match (s.queue q).job with
  | none => false
  | some j => decide (j.read < j.entries.length)

/-- Idle at the known producer index with the pending flag set, the device clears the flag and starts to read the index
(R318). -/
def pollQueue (s : State) (q : Nat) : State :=
  let x := s.queue q
  if queueFetches s q ∧ ¬ rereads s q ∧ s.rd (R.HWQ_Qnn_CONS q) = x.prod ∧ ¬ x.reading ∧ x.bell then
    s.setQueue q { x with bell := false, reading := true }
  else s

/-- Complete the job in progress on a queue, its last act (R336). On a queue that a reset has stopped, no message leaves (R333). -/
def finishJob (s : State) (q code : Nat) (quiet : Bool) : State :=
  let x := s.queue q
  let quiet := quiet || x.stopping
  match x.job with
  | none => s
  | some j =>
    let first := j.entries.headD []
    keeping [.force, .queues] s (pollQueue (writeCompletion (s.setQueue q { x with job := none, last := j.seq, lastB := j.seq }) q j.index first code
      j.seq.toNat j.entries.length j.rerun (entryEvent first) quiet) q)

/-- Complete the job in progress, its queue's message included. -/
def completeJob (s : State) (q code : Nat) : State := finishJob s q code false

/-- The job in progress on a queue when it is of a type and in a phase. -/
def State.jobIn (s : State) (q typ : Nat) (p : JobPhase) : Option Job :=
  match (s.queue q).job with
  | some j => if j.typ = typ ∧ j.phase = p then some j else none
  | none => none

/-- Change the job in progress of a queue. -/
def State.setJob (s : State) (q : Nat) (j : Job) : State := s.setQueue q { s.queue q with job := some j }

-- Job types (R323).
namespace Typ
def COMMIT : Nat := 0x01
def SURFACE_ALLOC : Nat := 0x02
def SURFACE_FREE : Nat := 0x03
def SURFACE_UPLOAD : Nat := 0x04
def SURFACE_COPY : Nat := 0x05
def FILL : Nat := 0x06
def CAPTURE : Nat := 0x07
def OFFLINE_COMPOSE : Nat := 0x08
def TALLY_QUERY : Nat := 0x09
def PIN_HINT : Nat := 0x0A
end Typ

end Sys2Proof.Machine
end

