-- ==== Sys2Proof/Machine/Egress.lean ====
section
/-!
DEFINITION. Egress of the media ports (R248, R250, R263 to R267): Ethernet frames, traffic-class queues, credit-based shapers,
gate control lists, and the PTP messages a port sends.
-/
namespace Sys2Proof.Machine

-- Ports (R248).

/-- MODE of a port as it acts: 5 to 7 act as 0. -/
def portMode (s : State) (p : Nat) : Nat := let m := bits (s.cfg (R.NMP_Pnn_CTRL p)) 2 0; if 4 < m then 0 else m

/-- MAC rate of a mode in Mbit/s; 0 for a port that is off. -/
def modeRate : Nat → Nat
  | 1 | 2 => 100000
  | 3 | 4 => 50000
  | _ => 0
def macRate (s : State) (p : Nat) : Nat := modeRate (portMode s p)

/-- MAC address bytes in wire order (R273). -/
def macOf (lo hi : Word) : List Byte := beBytes 2 (bits hi 15 0) ++ beBytes 4 lo.toNat
def portMac (s : State) (p : Nat) : List Byte := macOf (s.cfg (R.NMP_Pnn_MAC_LO p)) (s.cfg (R.NMP_Pnn_MAC_HI p))
def portIp (s : State) (p : Nat) : Nat := (s.cfg (R.NMP_Pnn_IPV4 p)).toNat

/-- Class of ARP and IGMP frames: 6 and 7 act as 5 (R274). -/
def ctrlTc (s : State) (p : Nat) : Nat := min 5 (bits (s.cfg (R.NMP_Pnn_CTRL p)) 10 8)

-- Frames.

/-- An Ethernet frame of a port, destination MAC through FCS: tagged under R248, padded to 64 bytes. -/
def ethFrame (s : State) (p tc : Nat) (dst : List Byte) (typ : Nat) (body : List Byte) : List Byte :=
  let v := s.cfg (R.NMP_Pnn_VLAN p)
  let tag := if bit v 16 then beBytes 2 0x8100 ++ beBytes 2 (tc * 8192 + bits v 11 0) else []
  let f := dst ++ portMac s p ++ tag ++ beBytes 2 typ ++ body
  let f := f ++ List.replicate (60 - f.length) 0#8
  f ++ leBytes 4 (crcEth f)

/-- Internet checksum over 16-bit words (RFC 1071). -/
def foldSum (n : Nat) : Nat := let m := n / 65536 + n % 65536; m / 65536 + m % 65536
def words16 : List Byte → Nat
  | [] => 0
  | [a] => a.toNat * 256
  | a :: b :: rest => a.toNat * 256 + b.toNat + words16 rest
def inetSum (bs : List Byte) : Nat := 65535 - foldSum (foldSum (words16 bs))

/-- Destination MAC of a multicast IPv4 address (RFC 1112). -/
def multicastMac (ip : Nat) : List Byte := [0x01#8, 0x00#8, 0x5E#8] ++ beBytes 3 (ip % 8388608)
def isMulticast (ip : Nat) : Bool := decide (224 ≤ ip / 16777216 ∧ ip / 16777216 < 240)

/-- An IPv4 packet; Don't Fragment set, identification 0 (DESIGN CHOICE: no fragment refers to it). -/
def ipv4 (src dst dscp ttl proto : Nat) (options body : List Byte) : List Byte :=
  let ihl := 5 + options.length / 4
  let head (sum : Nat) : List Byte :=
    [BitVec.ofNat 8 (64 + ihl), BitVec.ofNat 8 (dscp * 4)] ++ beBytes 2 (4 * ihl + body.length) ++ [0#8, 0#8, 0x40#8, 0#8,
      BitVec.ofNat 8 ttl, BitVec.ofNat 8 proto] ++ beBytes 2 sum ++ beBytes 4 src ++ beBytes 4 dst ++ options
  head (inetSum (head 0)) ++ body

/-- A UDP datagram with checksum 0 (R253). -/
def udp (src dst : Nat) (body : List Byte) : List Byte :=
  beBytes 2 src ++ beBytes 2 dst ++ beBytes 2 (8 + body.length) ++ [0#8, 0#8] ++ body

-- Queues (R263).

/-- Capacity of a class's queue in bytes. -/
def queueCap (k : Nat) : Nat := if k = 7 then 32768 else if k = 6 then 1048576 else 65536

/-- Bytes a queue holds. -/
def queueBytes (xs : List TxFrame) : Nat := (xs.map (fun f => f.bytes.length)).sum

/-- A frame of class `k` is discarded at egress: counted for its class and its stream (R263, R271). -/
def txDrop (s : State) (p k : Nat) (st : Option Nat) : State :=
  let s1 := (s.bump (R.NMP_Pnn_TX_DROPc p k) 1).setFlag (R.NMP_Pnn_EVT p) 0
  match st with
  | some t => s1.setSp (txcKey t 2) (satAdd32 (s1.sp (txcKey t 2)) 1)
  | none => s1

/-- Hand a frame to the queue of class `k` of a port (R263, R271). -/
def enqueue (s : State) (p k : Nat) (bytes : List Byte) (st : Option Nat) : State :=
  let pt := s.port p
  if ¬ pt.link ∨ pt.resetting then txDrop s p k st
  else if queueCap k < queueBytes (pt.queue k) + bytes.length then raise (txDrop s p k st) (202 + 4 * p)
  else
    let s1 := if (pt.queue k).isEmpty ∧ ¬ pt.onWire k then creditChange s p k (creditNow s p k) else s
    let pt := s1.port p
    let q := pt.queue k ++ [⟨bytes, st, st.map (fun t => (s.txs t).head)⟩]
    s1.setPort p { pt.setQueue k q with tc6Max := if k = 6 then max pt.tc6Max (queueBytes q) else pt.tc6Max }

-- Gate lists (R266).

/-- Word of entry `e` of the pending list, and of the operative list, of a port (R275). -/
def gclPend (s : State) (p e : Nat) : Word := s.spw Space.NMP_GCL (512 * p + e)
def gclOper (s : State) (p e : Nat) : Word := s.spw Space.NMP_GCL (512 * p + 256 + e)

/-- Interval of an entry as it acts. -/
def gclInterval (w : Word) : Nat := max 100 (bits w 23 0)

/-- Operative cycle time. -/
def gclCycle (s : State) (p : Nat) : Nat := ((List.range (s.port p).operLen).map (fun e => gclInterval (gclOper s p e))).sum

/-- Whether an entry opens a class's gate: G7, G6, GW. -/
def gateOpen (w : Word) (k : Nat) : Bool := bit w (if k = 7 then 31 else if k = 6 then 30 else 29)

/-- Time from now to the end of the entry in force, by device time. -/
def entryLeft (s : State) (p : Nat) : Nat :=
  let pt := s.port p
  let c := gclCycle s p
  let pos := ((s.time - pt.operBase) % (max 1 c : Nat)).toNat
  let upTo := ((List.range (pt.entry + 1)).map (fun e => gclInterval (gclOper s p e))).sum
  if pos < upTo then min (upTo - pos) (gclInterval (gclOper s p pt.entry)) else gclInterval (gclOper s p pt.entry)

/-- Time, up to `need`, for which the gate of class `k` stays open from entry `e` on. -/
def gateSpan (s : State) (p k need : Nat) : Nat → Nat → Nat
  | 0, _ => need
  | fuel + 1, e =>
    let w := gclOper s p e
    let n := max 1 (s.port p).operLen
    if gateOpen w k then gclInterval w + gateSpan s p k (need - gclInterval w) fuel ((e + 1) % n) else 0

/-- Whether a frame of class `k` fits (R264). -/
def frameFits (s : State) (p k : Nat) (f : TxFrame) : Bool :=
  let pt := s.port p
  let r := macRate s p
  if ¬ pt.operEn ∨ pt.operLen = 0 then true
  else
    let w := gclOper s p pt.entry
    let need := ceilDiv ((f.bytes.length + 20) * 8 * 1000) r
    let left := entryLeft s p
    gateOpen w k && decide (need ≤ left + gateSpan s p k (need - left) 512 ((pt.entry + 1) % pt.operLen))

/-- The class that sends next, and whether as surplus (R264). -/
def nextClass (s : State) (p : Nat) : Option (Nat × Bool) :=
  let pt := s.port p
  let ready (k : Nat) : Bool := match pt.queue k with
    | [] => false
    | f :: _ => frameFits s p k f
  if ready 7 then some (7, false)
  else if ready 6 then some (6, false)
  else match [5, 4, 3, 2, 1, 0].find? (fun k => ready k && decide (0 ≤ creditNow s p k)) with
    | some k => some (k, false)
    | none => ([5, 4, 3, 2, 1, 0].find? (fun k => ready k && pt.surplusOf k)).map (fun k => (k, true))

-- PTP messages (R267, R269), in the layouts of IEEE 1588-2019. PRESUMED.

def ptpRole (s : State) (p : Nat) : Nat := bits (s.cfg (R.NMP_Pnn_PTP_CTRL p)) 31 30
def ptpDomain (s : State) (p : Nat) : Nat := bits (s.cfg (R.NMP_Pnn_PTP_CTRL p)) 23 16

/-- A signed field of NMP_Pnn_PTP_CTRL; values outside the range act as the reset value (R274). -/
def ptpLog (s : State) (p hi lo : Nat) (least most reset : Int) : Int :=
  let v := signed 4 (bits (s.cfg (R.NMP_Pnn_PTP_CTRL p)) hi lo)
  if least ≤ v ∧ v ≤ most then v else reset
def logSync (s : State) (p : Nat) : Int := ptpLog s p 15 12 (-7) (-1) (-3)
def logAnnounce (s : State) (p : Nat) : Int := ptpLog s p 11 8 (-3) 1 (-2)
def logDelayReq (s : State) (p : Nat) : Int := ptpLog s p 7 4 (-7) (-1) (-3)

/-- Clock identity of a port (R267). -/
def clockId (s : State) (p : Nat) : List Byte :=
  let m := portMac s p
  m.take 3 ++ [0xFF#8, 0xFE#8] ++ m.drop 3
def portIdentity (s : State) (p : Nat) : List Byte := clockId s p ++ [0#8, 1#8]

/-- A PTP timestamp: seconds in 6 bytes, nanoseconds in 4. -/
def ptpStamp (t : Int) : List Byte :=
  let n := (t % 18446744073709551616).toNat
  beBytes 6 (n / 1000000000) ++ beBytes 4 (n % 1000000000)

/-- A PTP message: header and body. -/
def ptpMessage (s : State) (p typ flags : Nat) (corr : Int) (seq ctl : Nat) (log : Int) (body : List Byte) : List Byte :=
  [BitVec.ofNat 8 typ, 0x12#8] ++ beBytes 2 (34 + body.length) ++ [BitVec.ofNat 8 (ptpDomain s p), 0#8] ++ beBytes 2 flags
    ++ beBytes 8 (corr % 18446744073709551616).toNat ++ [0#8, 0#8, 0#8, 0#8] ++ portIdentity s p ++ beBytes 2 seq
    ++ [BitVec.ofNat 8 ctl, BitVec.ofInt 8 log] ++ body

/-- Queue a PTP message: class 7, to 224.0.1.129, event port 319 or general port 320. -/
def ptpSend (s : State) (p : Nat) (event : Bool) (msg : List Byte) : State :=
  let port := if event then 319 else 320
  enqueue s p 7 (ethFrame s p 7 (multicastMac 0xE0000181) 0x0800
    (ipv4 (portIp s p) 0xE0000181 0 1 17 [] (udp port port msg))) none

/-- PTP message of a frame that leaves or arrives: its bytes after the UDP header when it is UDP to port 319 or 320. -/
def ptpPayload (frame : List Byte) : Option (List Byte) :=
  let off := if be frame 12 2 = 0x8100 then 18 else 14
  let ihl := 4 * (byteAt frame off % 16)
  if be frame (off - 2) 2 = 0x0800 ∧ byteAt frame (off + 9) = 17
      ∧ (be frame (off + ihl + 2) 2 = 319 ∨ be frame (off + ihl + 2) 2 = 320) then
    some (slice frame (off + ihl + 8) (be frame (off + ihl + 4) 2 - 8))
  else none

/-- BC_BLOCKED of a port (R269). -/
def bcBlocked (s : State) (p : Nat) : Bool := bit (s.rd (R.NMP_Pnn_PTP_STAT p)) 27

/-- The timestamp of a PTP frame is lost (R268, R276). -/
def stampError (s : State) (p : Nat) : State := raise (s.bump (R.NMP_Pnn_PTP_TS_ERR p) 1) (203 + 4 * p)

/-- A frame has left the port: a Sync is followed by its Follow_Up with the instant, a Delay_Req's instant is kept. One whose timestamp is
`lost` counts and goes no further (R268); a blocked master sends no Follow_Up (R269). -/
def ptpDeparted (s : State) (p : Nat) (frame : List Byte) (lost : Bool) : State :=
  match ptpPayload frame with
  | none => s
  | some m =>
    let typ := byteAt m 0 % 16
    let seq := be m 30 2
    if lost ∧ typ < 8 then stampError s p
    else if typ = 0 ∧ bcBlocked s p then s
    else if typ = 0 then
      ptpSend s p false (ptpMessage s p 8 0x0008 0 seq 2 (logSync s p) (ptpStamp s.time))
    else if typ = 1 then
      let pt := s.port p
      s.setPort p { pt with ptp := { pt.ptp with delayReq := some (seq, s.time) } }
    else s

-- Egress commands.

/-- The frame on the wire leaves it after `sent` bits at a MAC rate: its class's credit takes what they cost, rounded toward zero (R265). -/
def wireEnd (s : State) (p rate sent : Nat) : State :=
  let pt := s.port p
  match pt.wire with
  | none => s
  | some (k, surplus) =>
    let r : Int := (max 1 rate : Nat)
    let c := if surplus ∨ 6 ≤ k then pt.creditOf k
      else (pt.creditOf k * r - (sent : Int) * (r - (pt.slopeOf k : Int))).tdiv r
    creditChange (s.setPort p { pt with wire := none, wireBits := 0 }) p k c

/-- The frame on the wire has left whole. -/
def wireDone (s : State) (p : Nat) : State := wireEnd s p (macRate s p) (s.port p).wireBits

/-- The frame on the wire is cut: it costs the bits sent since it started. -/
def wireCut (s : State) (p rate : Nat) : State :=
  let pt := s.port p
  match pt.wire with
  | none => s
  | some (k, _) => wireEnd s p rate (min pt.wireBits ((s.time64 - pt.changedAt k) * rate / 1000))

/-- Start sending the head of class `k`; `lost`: should it be a PTP event message, its timestamp is. -/
def startFrame (s : State) (p k : Nat) (surplus lost : Bool) : State :=
  match (s.port p).queue k with
  | [] => s
  | f :: rest =>
    let s1 := creditChange s p k (creditNow s p k)
    let pt := s1.port p
    let s2 := s1.setPort p { pt.setQueue k rest with wire := some (k, surplus), wireBits := (f.bytes.length + 20) * 8 }
    ptpDeparted (s2.emit (.frame p f.bytes)) p f.bytes lost

/-- EGRESS_LINE_FREE (R264). -/
def execEgressLineFree (p : Fin 16) (stampLost : Bool) (s : State) : Host.Outcome State Fault Refusal :=
  runOn [] s (fun s =>
    let s1 := wireDone s p.val
    if ¬ (s1.port p.val).link ∨ (s1.port p.val).resetting then s1
    else match nextClass s1 p.val with
      | some (k, surplus) => startFrame s1 p.val k surplus stampLost
      | none => s1)

/-- TXQ_WM_INTERVAL_END: the watermark takes the level of the microsecond that ends (R263). -/
def execTxqWmIntervalEnd (p : Fin 16) (s : State) : Host.Outcome State Fault Refusal :=
  runOn [] s (fun s =>
    let pt := s.port p.val
    let now := decide (bits (s.cfg (R.NMP_Pnn_TXQ_WM p.val)) 20 0 < pt.tc6Max)
    setNotice (s.setPort p.val { pt with tc6Max := queueBytes (pt.queue 6) }) (R.NMP_Pnn_WM_TXQ p.val) (202 + 4 * p.val) now)

/-- GCL_STAT from the port's lists: OPER_EN, PENDING, ENTRY and OPER_LEN; ERR and EDIT_DENY stay. -/
def gclShow (s : State) (p : Nat) : State :=
  let pt := s.port p
  let w := s.rd (R.NMP_Pnn_GCL_STAT p)
  let w := setBit (setBit w 31 pt.operEn) 30 pt.pend.isSome
  s.wr (R.NMP_Pnn_GCL_STAT p) (setBits (setBits w 24 16 pt.entry) 8 0 pt.operLen)

/-- EDIT_DENY is set (R266). -/
def gclDeny (s : State) (p : Nat) : State := s.setFlag (R.NMP_Pnn_GCL_STAT p) 28

/-- A list length that APPLY takes (R266). -/
def gclLenOk (len : Nat) : Bool := decide (1 ≤ len ∧ len ≤ 256)

/-- GCL_CTRL as a write leaves it while an application is pending: LEN stays, and APPLY and LEN do nothing (R266). -/
def gclFixed (old v : Word) : Word := setBits (v &&& 0xA00001FF#32) 8 0 (bits old 8 0)

/-- Whether such a write asks for something that is ignored with EDIT_DENY. -/
def gclIgnored (old v : Word) : Bool := bit v 30 || decide (bits v 8 0 ≠ bits old 8 0)

/-- A privileged write of NMP_Pnn_GCL_CTRL takes effect (R266): CANCEL, APPLY, LEN and EN. What of it is ignored was decided as it was accepted
(R38). -/
def gclCtrlEffect (s : State) (p : Nat) (v : Word) : State :=
  let len := bits v 8 0
  let s2 := s.setCfg (R.NMP_Pnn_GCL_CTRL p) (v &&& 0x800001FF#32)
  let en (s : State) : State := s.setPort p { s.port p with operEn := bit v 31 }
  if bit v 29 then gclShow (en (s2.setPort p { s2.port p with pend := none })) p
  else if ¬ bit v 30 then gclShow (en s2) p
  else if ¬ gclLenOk len then gclShow ((en s2).setFlag (R.NMP_Pnn_GCL_STAT p) 29) p
  else
    let base := hostAddr (s2.cfg (R.NMP_Pnn_GCL_BASE_LO p)) (s2.cfg (R.NMP_Pnn_GCL_BASE_HI p))
    gclShow (s2.wr (R.NMP_Pnn_GCL_STAT p) (setBit (s2.rd (R.NMP_Pnn_GCL_STAT p)) 29 false)
      |>.setPort p { s2.port p with pend := some ⟨len, base, bit v 31⟩ }) p

/-- GCL_SWITCH: the pending list becomes operative (R266). -/
def execGclSwitch (p : Fin 16) (s : State) : Host.Outcome State Fault Refusal :=
  runOn [] s (fun s =>
    let pt := s.port p.val
    match pt.pend with
    | none => s
    | some x =>
      let s1 := forEach (List.range 256) s (fun s e =>
        s.setSpw Space.NMP_GCL (512 * p.val + 256 + e) (if e < x.len then gclPend s p.val e else 0#32))
      let s2 := s1.setPort p.val { pt with operEn := x.en, operLen := x.len, operBase := x.base, entry := 0, pend := none }
      gclShow (s2.wr (R.NMP_Pnn_GCL_CYCLE p.val) (word (gclCycle s2 p.val))) p.val)

/-- GCL_ENTRY_END: the next entry is in force; entry 0 begins each cycle (R266). -/
def execGclEntryEnd (p : Fin 16) (s : State) : Host.Outcome State Fault Refusal :=
  runOn [] s (fun s =>
    let pt := s.port p.val
    if pt.operLen = 0 then s
    else gclShow (s.setPort p.val { pt with entry := (pt.entry + 1) % pt.operLen }) p.val)

end Sys2Proof.Machine
end

