-- ==== Sys2Proof/Machine/Half.lean ====
section
/-!
DEFINITION. The binary16 arithmetic of R103, on bit patterns, exact in integers and rounded once. A calculation counts the
results that rule 3 replaces.
-/
namespace Sys2Proof.Machine

/-- A calculation that counts results replaced or clamped (R103 rule 3, R133, R134). -/
abbrev Calc := StateM Nat

/-- One result has been replaced. -/
def Calc.count : Calc PUnit := modify (· + 1)

/-- Sign of a binary16 pattern. -/
def hNeg (p : Nat) : Bool := p.testBit 15

/-- Magnitude of a finite pattern in units of 2^-24. -/
def hUnits (p : Nat) : Nat :=
  let m := p % 32768
  let e := m / 1024
  if e = 0 then m else (1024 + m % 1024) * 2 ^ (e - 1)

/-- Value of a finite pattern in units of 2^-24. -/
def hInt (p : Nat) : Int := if hNeg p then -(hUnits p : Int) else hUnits p

/-- Quotient rounded to nearest, ties to even. -/
def roundEven (n d : Nat) : Nat :=
  let q := n / d
  let r := n % d
  if d < 2 * r ∨ (2 * r = d ∧ q % 2 = 1) then q + 1 else q

/-- Pattern of the magnitude n/d in units of 2^-24, rounded to nearest even, unbounded above. -/
def hRoundMag (n d : Nat) : Nat :=
  let q := n / d
  let k := if q < 2048 then 0 else Nat.log2 q - 10
  k * 1024 + roundEven n (d * 2 ^ k)

/-- The largest finite pattern, 65,504. -/
def hMax : Nat := 0x7BFF

/-- 1.0. -/
def hOne : Nat := 0x3C00

/-- Round a signed magnitude n/d and apply rule 3 of R103. -/
def hRound (neg : Bool) (n d : Nat) : Calc Nat := do
  let m := hRoundMag n d
  let sign := if neg then 32768 else 0
  if hMax < m then
    Calc.count
    return sign + hMax
  else return sign + m

/-- Addition; an exact zero sum is +0 unless both operands are −0. -/
def hAdd (a b : Nat) : Calc Nat :=
  let v := hInt a + hInt b
  let neg := decide (v < 0) || (decide (v = 0) && hNeg a && hNeg b)
  hRound neg v.natAbs 1

/-- Negation of a pattern. -/
def hFlip (a : Nat) : Nat := if hNeg a then a - 32768 else a + 32768

/-- Subtraction. -/
def hSub (a b : Nat) : Calc Nat := hAdd a (hFlip b)

/-- Multiplication. -/
def hMul (a b : Nat) : Calc Nat := hRound (hNeg a != hNeg b) (hUnits a * hUnits b) 16777216

/-- RN of a non-negative rational n/d (R103 rule 5); the values the spec rounds lie below 65,504. -/
def hRN (n d : Nat) : Nat := hRoundMag (n * 16777216) d

/-- sat of R103 rule 4. -/
def hSat (p : Nat) : Nat :=
  let m := p % 32768
  if 0x7C00 < m then 0
  else if hNeg p then 0
  else if m = 0x7C00 then hMax
  else m

/-- NaN or infinite. -/
def hBad (p : Nat) : Bool := decide (0x7C00 ≤ p % 32768)

/-- Smaller of two non-negative patterns: they order as unsigned integers (R103). -/
def hMin (a b : Nat) : Nat := min a b

end Sys2Proof.Machine
end

