-- ==== Sys2Proof/Machine/Layers.lean ====
section
/-!
DEFINITION. Layers and composition arithmetic (04_layers_composition.md): descriptors, input conversion, keys, blending,
and the output conversion of a head.
-/
namespace Sys2Proof.Machine

/-- A layer descriptor (R98). -/
structure Desc where
  enable : Bool
  safety : Bool
  premul : Bool
  head : Nat
  z : Nat
  kind : Nat
  srcMode : Nat
  ring : Nat
  handle : Nat
  imtx : Nat
  imtxEn : Bool
  eotf : Nat
  eotfEn : Bool
  srcX : Nat
  srcY : Nat
  srcW : Nat
  srcH : Nat
  dstX : Int
  dstY : Int
  dstW : Nat
  dstH : Nat
  galpha : Nat
  hbank : Nat
  vbank : Nat
  edge : Nat
  csite : Nat
  fillCol : Nat
  fbCol : Nat
  skeySet : Nat
  dkeySet : Nat
  skeyEn : Bool
  dkeyEn : Bool
  /-- The zero fields are zero. -/
  clean : Bool
  deriving DecidableEq, Repr

/-- Read a descriptor from its eight words. -/
def descOf (w : Nat → Word) : Desc where
  enable := bit (w 0) 31
  safety := bit (w 0) 30
  premul := bit (w 0) 29
  head := bits (w 0) 28 24
  z := bits (w 0) 23 16
  kind := bits (w 0) 15 14
  srcMode := bits (w 0) 13 12
  ring := bits (w 0) 11 10
  handle := bits (w 1) 31 16
  imtx := bits (w 1) 15 12
  imtxEn := bit (w 1) 11
  eotf := bits (w 1) 10 8
  eotfEn := bit (w 1) 7
  srcX := bits (w 2) 15 0
  srcY := bits (w 2) 31 16
  srcW := bits (w 3) 15 0
  srcH := bits (w 3) 31 16
  dstX := signed 16 (bits (w 4) 15 0)
  dstY := signed 16 (bits (w 4) 31 16)
  dstW := bits (w 5) 15 0
  dstH := bits (w 5) 31 16
  galpha := bits (w 6) 31 16
  hbank := bits (w 6) 15 12
  vbank := bits (w 6) 11 8
  edge := bits (w 6) 7 6
  csite := bits (w 6) 5 4
  fillCol := bits (w 7) 31 24
  fbCol := bits (w 7) 23 16
  skeySet := bits (w 7) 15 10
  dkeySet := bits (w 7) 9 4
  skeyEn := bit (w 7) 3
  dkeyEn := bit (w 7) 2
  clean := decide (bits (w 0) 9 0 = 0 ∧ bits (w 1) 6 0 = 0 ∧ bits (w 6) 3 0 = 0 ∧ bits (w 7) 1 0 = 0)

/-- Descriptor `n` of the pending deck. -/
def State.descPending (s : State) (n : Nat) : Desc := descOf (fun i => s.spw Space.LAYER_DESC (8 * n + i))

/-- Descriptor `n` of the live deck. -/
def State.descLive (s : State) (n : Nat) : Desc := descOf (fun i => s.lvw Space.LAYER_DESC (8 * n + i))

/-- Whether a descriptor is an enabled SURFACE layer. -/
def Desc.shown (d : Desc) : Bool := d.enable && d.kind == 0

/-- The decks one frame is composed with (R199): registers in force and live words. -/
structure DeckView where
  unit : KMap Word
  live : KMap Word
  /-- Handle of each descriptor, LAYER_SRC word 0. -/
  src : KMap Word
  /-- Words that read as uncorrectable. -/
  bad : List Nat
  deriving DecidableEq, Repr

def DeckView.cfg (v : DeckView) (o : Nat) : Word := kget regReset v.unit o
def DeckView.lv (v : DeckView) (k : Nat) : Word := kget spaceReset v.live k
def DeckView.word (v : DeckView) (code a : Nat) : Word := v.lv (skey code a)
def DeckView.fails (v : DeckView) (code a : Nat) : Bool := v.bad.contains (skey code a)
def DeckView.desc (v : DeckView) (n : Nat) : Desc := descOf (fun i => v.word Space.LAYER_DESC (8 * n + i))
/-- The handle a SURFACE descriptor shows in the frame (R205). -/
def DeckView.handle (v : DeckView) (n : Nat) : Nat := bits (kget spaceReset v.src (skey Space.LAYER_SRC (2 * n))) 31 16

/-- The decks in force now. -/
def State.view (s : State) : DeckView := ⟨s.unit, s.live, s.spaces, s.failing⟩

/-- The decks frame `f` of group `g` is composed with: those kept for a frame that is not finished, else those in
force (R199). -/
def State.viewFor (s : State) (g f : Nat) : DeckView :=
  match (s.group g).olds.reverse.find? (fun o => decide (f ≤ o.frame)) with
  | some o => ⟨o.unit, o.live, o.src, s.failing⟩
  | none => s.view

/-- Base of the group tables in LAYER_DESC (R100). -/
def groupTables (g : Nat) : Nat := 0x8000 + 0x1000 * g

/-- Whether a word address of LAYER_DESC is reserved (R100). DESIGN CHOICE: words 0x080 to 0x0FF of a group's tables hold no set and are not
marked reserved; they are stored, and read back. -/
def layerDescReserved (a : Nat) : Bool := decide (0x8000 ≤ a) && decide (0x400 ≤ a % 0x1000)

/-- A pixel in binary16. -/
structure Px where
  r : Nat
  g : Nat
  b : Nat
  a : Nat
  deriving DecidableEq, Repr

/-- Four 16-bit channels in 64 bits (R126, R27). -/
def pack4 (x : Px) : BitVec 64 := BitVec.ofNat 64 (x.r % 65536 + x.g % 65536 * 65536 + x.b % 65536 * 4294967296
  + x.a % 65536 * 281474976710656)

def unpack4 (v : BitVec 64) : Px :=
  let n := v.toNat
  ⟨n % 65536, n / 65536 % 65536, n / 4294967296 % 65536, n / 281474976710656⟩

/-- Element `i` of three. -/
def sel3 (i a b c : Nat) : Nat := if i = 0 then a else if i = 1 then b else c

/-- Half word of a table word: even index low, odd index high. -/
def halfOf (w : Word) (i : Nat) : Nat := if i % 2 = 0 then bits w 15 0 else bits w 31 16

/-- Coefficient M[i][j] of an input matrix set (R100). -/
def imtxCoef (v : DeckView) (base i j : Nat) : Int :=
  let n := 3 * i + j
  signed 16 (halfOf (v.word Space.LAYER_DESC (base + n / 2)) n)

/-- PRE_j and POST_i of an input matrix set: half words 10 to 15 of the set (R100). -/
def imtxPre (v : DeckView) (base j : Nat) : Int :=
  let n := 10 + j
  (halfOf (v.word Space.LAYER_DESC (base + n / 2)) n : Nat)
def imtxPost (v : DeckView) (base i : Nat) : Int :=
  let n := 13 + i
  signed 16 (halfOf (v.word Space.LAYER_DESC (base + n / 2)) n)

/-- R104 for one output channel. -/
def imtxOut (v : DeckView) (base i c0 c1 c2 : Nat) : Nat :=
  let acc := imtxCoef v base i 0 * ((c0 : Int) - imtxPre v base 0) + imtxCoef v base i 1 * ((c1 : Int) - imtxPre v base 1)
    + imtxCoef v base i 2 * ((c2 : Int) - imtxPre v base 2)
  (min (max ((acc + 2048) / 4096 + imtxPost v base i) 0) 65535).toNat

/-- Word address of an EOTF entry (R100). -/
def eotfAddr (g t e : Nat) : Nat := 4096 * g + 512 * t + e / 2

/-- R105. -/
def eotfLookup (v : DeckView) (g t x : Nat) : Calc Nat := do
  let i := x / 64
  let j := min (i + 1) 1023
  let e0 := hSat (halfOf (v.word Space.LUT_EOTF (eotfAddr g t i)) i)
  let e1 := hSat (halfOf (v.word Space.LUT_EOTF (eotfAddr g t j)) j)
  let d ← hSub e1 e0
  let p ← hMul d (hRN (x % 64) 64)
  let l ← hAdd e0 p
  return hSat l

/-- A colour entry of a group: straight-alpha colour through sat (R100, R107). -/
def colourEntry (v : DeckView) (g c : Nat) : Px :=
  let w0 := v.word Space.LAYER_DESC (groupTables g + 0x200 + 2 * c)
  let w1 := v.word Space.LAYER_DESC (groupTables g + 0x200 + 2 * c + 1)
  ⟨hSat (bits w0 15 0), hSat (bits w0 31 16), hSat (bits w1 15 0), hMin (hSat (bits w1 31 16)) hOne⟩

/-- Match strength m of a key set; none when it is inactive (R108). -/
def keyMatch (v : DeckView) (g k v0 v1 v2 : Nat) : Option Nat :=
  let base := groupTables g + 0x100 + 4 * k
  let w3 := v.word Space.LAYER_DESC (base + 3)
  let used := (List.range 3).filter (fun j => bit w3 (16 + j))
  let dist (j : Nat) : Nat :=
    let w := v.word Space.LAYER_DESC (base + j)
    let x := sel3 j v0 v1 v2
    if x < bits w 15 0 then bits w 15 0 - x else if bits w 31 16 < x then x - bits w 31 16 else 0
  if used.isEmpty then none
  else
    let d := (used.map dist).foldl max 0
    let soft := bits w3 15 0
    some (if d = 0 then 256 else if soft ≤ d then 0 else 256 * (soft - d) / soft)

/-- Factor of a key (R109): `inverse` picks (256 − m)/256. -/
def keyFactor (m : Option Nat) (inverse : Bool) : Nat :=
  match m with
  | none => hOne
  | some m => hRN (if inverse then 256 - m else m) 256

/-- INVERT of a key set. -/
def keyInvert (v : DeckView) (g k : Nat) : Bool := bit (v.word Space.LAYER_DESC (groupTables g + 0x100 + 4 * k + 3)) 19

/-- Linear straight-alpha colour and source alpha of a layer sample (R104 to R107). -/
def inputConvert (v : DeckView) (g f : Nat) (d : Desc) (x : Px) : Calc Px := do
  if d.kind = 1 then return colourEntry v g d.fillCol
  else if f = 0x10 then
    let c := colourEntry v g d.fillCol
    let a ← hMul (hRN x.a 65535) c.a
    return { c with a := a }
  else if f = 0x04 then return ⟨hSat x.r, hSat x.g, hSat x.b, hMin (hSat x.a) hOne⟩
  else
    let base := groupTables g + 8 * d.imtx
    let code (i : Nat) : Nat := if d.imtxEn then imtxOut v base i x.r x.g x.b else sel3 i x.r x.g x.b
    let lin (i : Nat) : Calc Nat := if d.eotfEn then eotfLookup v g d.eotf (code i) else return hRN (code i) 65536
    let r ← lin 0
    let gg ← lin 1
    let b ← lin 2
    return ⟨r, gg, b, hRN x.a 65535⟩

/-- Source key factor of a sample (R107, R109). -/
def sourceKey (v : DeckView) (g f : Nat) (d : Desc) (x : Px) : Nat :=
  if d.kind = 1 ∨ f = 0x10 ∨ ¬ d.skeyEn then hOne
  else keyFactor (keyMatch v g d.skeySet x.r x.g x.b) (!keyInvert v g d.skeySet)

/-- Destination key factor (R109). -/
def destKey (v : DeckView) (g : Nat) (d : Desc) (D : Px) : Nat :=
  if ¬ d.dkeyEn then hOne
  else keyFactor (keyMatch v g d.dkeySet D.r D.g D.b) (keyInvert v g d.dkeySet)

/-- Composite a converted colour over D (R110, R111). -/
def blend (v : DeckView) (g : Nat) (d : Desc) (c : Px) (ks : Nat) (premul : Bool) (D : Px) : Calc Px := do
  let ga := hRN d.galpha 65535
  let f1 ← hMul ga ks
  let f ← hMul f1 (destKey v g d D)
  let a ← hMul c.a f
  let k := if premul then f else a
  let r ← hSub hOne a
  let ch (p q : Nat) : Calc Nat := do
    let pp ← hMul p k
    let qq ← hMul q r
    hAdd pp qq
  let rr ← ch c.r D.r
  let gg ← ch c.g D.g
  let bb ← ch c.b D.b
  let da ← hMul D.a r
  let aa ← hAdd a da
  return ⟨rr, gg, bb, aa⟩

/-- How a layer's samples on one line are composed (R112). -/
inductive Rung where
  /-- The samples that arrived, or those of the previous line. -/
  | samples
  | fallback
  | omit
  deriving DecidableEq, Repr

/-- Compose one layer at one pixel (R104 to R112). -/
def composeLayer (v : DeckView) (g f : Nat) (d : Desc) (rung : Rung) (x : Px) (D : Px) : Calc Px := do
  match rung with
  | .samples =>
    let c ← inputConvert v g f d x
    blend v g d c (sourceKey v g f d x) d.premul D
  | .fallback =>
    let c := colourEntry v g d.fbCol
    blend v g d { c with a := hOne } hOne false D
  | .omit => return D

/-- Background of a head as a starting value (R111). -/
def background (v : DeckView) (h : Nat) : Px :=
  let rg := v.cfg (R.CMP_Hnn_BG_RG h)
  let b := v.cfg (R.CMP_Hnn_BG_B h)
  ⟨hSat (bits rg 15 0), hSat (bits rg 31 16), hSat (bits b 15 0), hOne⟩

/-- Words a layer's samples use whatever the pixel: descriptor, matrix, keys, colours (R119). -/
def layerWords (g n f : Nat) (d : Desc) : List Nat :=
  let base := groupTables g
  let span (a k : Nat) := (List.range k).map (fun i => skey Space.LAYER_DESC (a + i))
  span (8 * n) 8
    ++ (if d.kind = 0 ∧ d.imtxEn ∧ f ≠ 0x04 ∧ f ≠ 0x10 then span (base + 8 * d.imtx) 8 else [])
    ++ (if d.kind = 0 ∧ d.skeyEn ∧ f ≠ 0x10 then span (base + 0x100 + 4 * d.skeySet) 4 else [])
    ++ (if d.dkeyEn then span (base + 0x100 + 4 * d.dkeySet) 4 else [])
    ++ (if d.kind = 1 ∨ f = 0x10 then span (base + 0x200 + 2 * d.fillCol) 2 else [])

/-- Whether a word that rung 2 composes with fails: its colour, or the destination key set (R112, R119). -/
def fallbackFails (v : DeckView) (g : Nat) (d : Desc) : Bool :=
  !v.bad.isEmpty && ((List.range 2).any (fun i => v.fails Space.LAYER_DESC (groupTables g + 0x200 + 2 * d.fbCol + i))
    || (d.dkeyEn && (List.range 4).any (fun i => v.fails Space.LAYER_DESC (groupTables g + 0x100 + 4 * d.dkeySet + i))))

/-- Whether a word of descriptor `n` itself fails: every rung but the omission uses it. -/
def descFails (v : DeckView) (n : Nat) : Bool := !v.bad.isEmpty && (List.range 8).any (fun i => v.fails Space.LAYER_DESC (8 * n + i))

/-- Whether a word that a layer's samples use fails (R119). -/
def layerFails (v : DeckView) (g n f : Nat) (d : Desc) : Bool :=
  !v.bad.isEmpty && (layerWords g n f d).any v.bad.contains

/-- Whether an EOTF word that one sample uses fails (R119). -/
def sampleFails (v : DeckView) (g f : Nat) (d : Desc) (x : Px) : Bool :=
  if v.bad.isEmpty ∨ d.kind = 1 ∨ f = 0x04 ∨ f = 0x10 ∨ ¬ d.eotfEn then false
  else
    let base := groupTables g + 8 * d.imtx
    (List.range 3).any (fun i =>
      let c := if d.imtxEn then imtxOut v base i x.r x.g x.b else sel3 i x.r x.g x.b
      v.fails Space.LUT_EOTF (eotfAddr g d.eotf (c / 64))
        || v.fails Space.LUT_EOTF (eotfAddr g d.eotf (min (c / 64 + 1) 1023)))

-- Output conversion.

/-- Word address of a 3D LUT node (R114). -/
def lut3dAddr (h ir ig ib : Nat) : Nat := 0x20000 * h + 2 * ((ib * 33 + ig) * 33 + ir)

/-- A node of the 3D LUT, through sat. -/
def lutNode (v : DeckView) (h ir ig ib : Nat) : Px :=
  let a := lut3dAddr h ir ig ib
  let w0 := v.word Space.LUT_3D a
  let w1 := v.word Space.LUT_3D (a + 1)
  ⟨hSat (bits w0 15 0), hSat (bits w0 31 16), hSat (bits w1 15 0), 0⟩

/-- Index and fraction of one axis (R114): exact. -/
def lutAxis (x : Nat) : Nat × Nat :=
  let g := 32 * hUnits (hMin x hOne)
  let i := min (g / 16777216) 31
  (i, hRoundMag (g - i * 16777216) 1)

/-- The corners p1, p2 as (dr, dg, db) and the weights in order (R114). -/
def lutCase (fr fg fb : Nat) : (Nat × Nat × Nat) × (Nat × Nat × Nat) × (Nat × Nat × Nat) :=
  if fg ≤ fr ∧ fb ≤ fg then ((1, 0, 0), (1, 1, 0), (fr, fg, fb))
  else if fb ≤ fr ∧ fg ≤ fb then ((1, 0, 0), (1, 0, 1), (fr, fb, fg))
  else if fr ≤ fb ∧ fg ≤ fr then ((0, 0, 1), (1, 0, 1), (fb, fr, fg))
  else if fr ≤ fg ∧ fb ≤ fr then ((0, 1, 0), (1, 1, 0), (fg, fr, fb))
  else if fb ≤ fg ∧ fr ≤ fb then ((0, 1, 0), (0, 1, 1), (fg, fb, fr))
  else ((0, 0, 1), (0, 1, 1), (fb, fg, fr))

/-- R114. -/
def lut3d (v : DeckView) (h : Nat) (x : Px) : Calc Px := do
  let (ir, fr) := lutAxis x.r
  let (ig, fg) := lutAxis x.g
  let (ib, fb) := lutAxis x.b
  let ((a1, b1, c1), (a2, b2, c2), (w1, w2, w3)) := lutCase fr fg fb
  let n0 := lutNode v h ir ig ib
  let p1 := lutNode v h (ir + a1) (ig + b1) (ib + c1)
  let p2 := lutNode v h (ir + a2) (ig + b2) (ib + c2)
  let p3 := lutNode v h (ir + 1) (ig + 1) (ib + 1)
  let ch (a b c d : Nat) : Calc Nat := do
    let d1 ← hSub b a
    let m1 ← hMul w1 d1
    let y1 ← hAdd a m1
    let d2 ← hSub c b
    let m2 ← hMul w2 d2
    let y2 ← hAdd y1 m2
    let d3 ← hSub d c
    let m3 ← hMul w3 d3
    let y3 ← hAdd y2 m3
    return hSat y3
  let r ← ch n0.r p1.r p2.r p3.r
  let g ← ch n0.g p1.g p2.g p3.g
  let b ← ch n0.b p1.b p2.b p3.b
  return ⟨r, g, b, 0⟩

/-- Nodes a pixel reads (R114), as word addresses. -/
def lutReads (h : Nat) (x : Px) : List Nat :=
  let (ir, fr) := lutAxis x.r
  let (ig, fg) := lutAxis x.g
  let (ib, fb) := lutAxis x.b
  let ((a1, b1, c1), (a2, b2, c2), _) := lutCase fr fg fb
  let nodes := [lut3dAddr h ir ig ib, lut3dAddr h (ir + a1) (ig + b1) (ib + c1),
    lut3dAddr h (ir + a2) (ig + b2) (ib + c2), lut3dAddr h (ir + 1) (ig + 1) (ib + 1)]
  nodes ++ nodes.map (· + 1)

/-- Output matrix coefficient; NaN and infinity are used as 0 (R115). -/
def omtx (v : DeckView) (h i j : Nat) : Nat :=
  let n := 3 * i + j
  let regs := [R.CMP_Hnn_OMTX0 h, R.CMP_Hnn_OMTX1 h, R.CMP_Hnn_OMTX2 h, R.CMP_Hnn_OMTX3 h, R.CMP_Hnn_OMTX4 h]
  let p := halfOf (v.cfg (regs.getD (n / 2) 0)) n
  if hBad p then 0 else p

/-- R115. -/
def outMatrix (v : DeckView) (h : Nat) (x : Px) : Calc Px := do
  let ch (i : Nat) : Calc Nat := do
    let a ← hMul (omtx v h i 0) x.r
    let b ← hMul (omtx v h i 1) x.g
    let c ← hMul (omtx v h i 2) x.b
    let ab ← hAdd a b
    let y ← hAdd ab c
    return hSat y
  let r ← ch 0
  let g ← ch 1
  let b ← ch 2
  return ⟨r, g, b, 0⟩

/-- Index of the OETF table for a channel (R116). -/
def oetfIndex (x : Nat) : Nat := min x 0x3FFF / 4

/-- R116 with OETF_EN = 1. -/
def oetfLookup (v : DeckView) (h x : Nat) : Nat :=
  let i := oetfIndex x
  let j := min (i + 1) 4095
  let e (k : Nat) : Int := (halfOf (v.word Space.LUT_OETF (2048 * h + k / 2)) k : Nat)
  let frac : Int := (min x 0x3FFF % 4 : Nat)
  (e i + ((e j - e i) * frac + 2) / 4).toNat

/-- R116 with OETF_EN = 0. -/
def oetfPlain (x : Nat) : Nat := (2 * 65535 * hUnits (hMin x hOne) + 16777216) / 33554432

/-- The dither matrix B of R117. -/
def ditherB (y x : Nat) : Nat := ([0, 8, 2, 10, 12, 4, 14, 6, 3, 11, 1, 9, 15, 7, 13, 5]).getD (4 * (y % 4) + x % 4) 0

/-- R117: mode 0 ROUND, 1 ORDERED, 2 TEMPORAL; 3 acts as ROUND. -/
def dither (mode n x y phi code : Nat) : Nat :=
  let sh := 16 - n
  let top := 2 ^ n - 1
  let t := if mode = 2 then (ditherB y x + 4 * phi) % 16 else ditherB y x
  if mode = 1 ∨ mode = 2 then min ((code + (2 * t + 1) * 2 ^ sh / 32) / 2 ^ sh) top
  else min ((code + 2 ^ sh / 2) / 2 ^ sh) top

/-- Three codes in 48 bits: red [15:0], green [31:16], blue [47:32] (R113). -/
def pack3 (r g b : Nat) : BitVec 48 := BitVec.ofNat 48 (r % 65536 + g % 65536 * 65536 + b % 65536 * 4294967296)

/-- OETF words that a channel reads (R116). -/
def oetfReads (h p : Nat) : List Nat := [2048 * h + oetfIndex p / 2, 2048 * h + min (oetfIndex p + 1) 4095 / 2]

/-- 3D LUT and OETF words that the conversion of a pixel reads, as space and address (R114, R116). -/
def convertReads (v : DeckView) (h : Nat) (D : Px) : List (Nat × Nat) :=
  let ctl := v.cfg (R.CMP_Hnn_OUT_CTRL h)
  let x0 : Px := ⟨hSat D.r, hSat D.g, hSat D.b, 0⟩
  let x2 : Calc Px := do
    let x1 ← if bit ctl 0 then lut3d v h x0 else pure x0
    if bit ctl 1 then outMatrix v h x1 else pure x1
  let x := (x2.run 0).1
  (if bit ctl 0 then (lutReads h x0).map (fun a => (Space.LUT_3D, a)) else [])
    ++ (if bit ctl 2 then ([x.r, x.g, x.b].flatMap (oetfReads h)).map (fun a => (Space.LUT_OETF, a)) else [])

/-- Output conversion of one pixel (R113): the codes, or none when a LUT or OETF word it uses fails (R119). -/
def outConvert (v : DeckView) (h n x y phi : Nat) (D : Px) : Calc (Option (BitVec 48)) := do
  let ctl := v.cfg (R.CMP_Hnn_OUT_CTRL h)
  let x0 : Px := ⟨hSat D.r, hSat D.g, hSat D.b, 0⟩
  let x1 ← if bit ctl 0 then lut3d v h x0 else pure x0
  let x2 ← if bit ctl 1 then outMatrix v h x1 else pure x1
  if !v.bad.isEmpty && (convertReads v h D).any (fun w => v.fails w.1 w.2) then return none
  else
    let code (p : Nat) : Nat := dither (bits ctl 5 4) n x y phi (if bit ctl 2 then oetfLookup v h p else oetfPlain p)
    return some (pack3 (code x2.r) (code x2.g) (code x2.b))

/-- Results of a calculation in tile or converter counted in CMP_SAT_CNT and raised (R120, R122). -/
def countSat (s : State) (n : Nat) : State := if n = 0 then s else raiseN (s.bump R.CMP_SAT_CNT n) 76 n

/-- Code of a table space in CMP_TABLE_UE_LOG (R120). -/
def tableLogCode (space : Nat) : Nat :=
  if space = Space.LAYER_DESC then 0 else if space = Space.LUT_EOTF then 1 else if space = Space.LUT_3D then 2 else 3

/-- A check of SRAM class `cls`, instance `inst`, by an armed SRAM injection (R394): what it makes the checker see. -/
def sramCheck (s : State) (cls inst : Nat) : Ecc × State :=
  let (ue, s1) := injectCheck s 6 (256 * cls + inst)
  if ue then (.ue, s1)
  else
    let (ce, s2) := injectCheck s1 5 (256 * cls + inst)
    if ce then (.ce 0, s2) else (.good, s2)

/-- The checks that a command's reads of the words `ws` of a class make: the words on which an armed injection acts, with what the checker sees.
An injection acts on 15 checks at most. -/
def sramReads (s : State) (cls inst : Nat) (ws : List (Nat × Nat)) : List Upset × State :=
  (ws.take 15).foldl (fun (a : List Upset × State) w =>
    let (e, s1) := sramCheck a.2 cls inst
    (if e = .good then a.1 else a.1 ++ [⟨w.1, w.2, e⟩], s1)) ([], s)

/-- Words that upsets make uncorrectable. -/
def brokenWords (us : List Upset) : List Nat := (us.filter (fun u => u.ecc == .ue)).map (fun u => skey u.space u.addr)

/-- A table word is found with an error, and the stored word stays as it is (R119); `inj` marks an injected error (R394, R395). -/
def tableReport (inj : Bool) (s : State) (u : Upset) : State :=
  match u.ecc with
  | .good => s
  | .ce _ => raiseInj (s.bump R.CMP_TABLE_CE_CNT 1) 74 inj
  | .ue => raiseInj ((s.bump R.CMP_TABLE_UE_CNT 1).wr R.CMP_TABLE_UE_LOG (word (tableLogCode u.space * 268435456 + u.addr))) 75 inj

/-- A word of a live table reads with an error while a CMP unit uses it: an uncorrectable one fails from then on (R119). -/
def tableUpset (s : State) (u : Upset) : State :=
  tableReport false (if u.ecc = .ue then s.fail u.space u.addr else s) u

/-- Table words a CMP unit meets with an error; `ws`: the words it reads, in the order in which an armed injection meets them, which the spec
leaves open (DESIGN CHOICE). The words that an injected error makes uncorrectable are so in these reads only (R394). -/
def tableUpsets (s : State) (us : List Upset) (ws : List (Nat × Nat)) : List Nat × State :=
  let (inj, s1) := sramReads s 0 0 ws
  (brokenWords inj, forEach us (forEach inj s1 (tableReport true)) tableUpset)

/-- A view in which more words read as uncorrectable. -/
def DeckView.withBad (v : DeckView) (bad : List Nat) : DeckView := { v with bad := bad ++ v.bad }

end Sys2Proof.Machine
end

