-- ==== Sys2Proof/Machine/Beads.lean ====
section
/-!
DEFINITION. Rods and beads (R23 to R28, R39, R126): what each logical rod is for, the fields of a bead and its checks, and lines as the
beads that carry them.
-/
namespace Sys2Proof.Machine

-- Rods (R23, R24).

/-- What a logical rod carries (R23). -/
inductive RodPurpose where
  /-- From the SSP memory ports to the fetch switch, then a scaler or HWQ. -/
  | fetch
  /-- From a scaler to the layer switch, then a tile. -/
  | layer
  /-- From a tile to the result switch, then an output converter. -/
  | result
  /-- From NMP receive and HWQ to the SSP write ports. -/
  | ingest
  deriving DecidableEq, Repr

/-- Logical rods of each spare domain, and those of each purpose in it (R24). -/
def rodsPerDomain : Nat := 100
def fetchRods : Nat := 48
def layerRods : Nat := 40
def resultRods : Nat := 8
def ingestRods : Nat := 4

/-- Purpose of a logical rod. DESIGN CHOICE: the spec numbers no logical rods. Rods 100 d to 100 d + 99 form domain d: first its fetch rods,
then its layer, result and ingest rods. -/
def rodPurpose (r : Nat) : RodPurpose :=
  let p := r % rodsPerDomain
  if p < fetchRods then .fetch
  else if p < fetchRods + layerRods then .layer
  else if p < fetchRods + layerRods + resultRods then .result
  else .ingest

/-- Logical rods of a purpose, in order. -/
def rodsFor (p : RodPurpose) : List Nat := (List.range 400).filter (fun r => decide (rodPurpose r = p))

/-- The logical scaler a layer rod comes from: two rods each, the scalers of a domain in order (R23). -/
def rodScaler (r : Nat) : Nat := 20 * (r / rodsPerDomain) + (r % rodsPerDomain - fetchRods) / 2

/-- The logical tile a result rod comes from: one rod each (R23). -/
def rodTile (r : Nat) : Nat := 8 * (r / rodsPerDomain) + (r % rodsPerDomain - fetchRods - layerRods)

/-- The layer rods of a logical scaler, and the result rod of a logical tile. -/
def scalerRods (l : Nat) : List Nat := let r := 100 * (l / 20) + fetchRods + 2 * (l % 20); [r, r + 1]
def tileRod (t : Nat) : Nat := 100 * (t / 8) + fetchRods + layerRods + t % 8

-- Beads (R25).

/-- The 137 bits of a bead. -/
abbrev Bead := BitVec 137

/-- The bit that makes `n` bits from `lo` even in number of ones. -/
def evenBit (v lo n : Nat) : Nat := ((List.range n).filter (fun i => v.testBit (lo + i))).length % 2

/-- A bead with its parity bits (R25). -/
def mkBead (data : BitVec 128) (st ra eol void : Bool) : Bead :=
  let d := data.toNat
  let tags := (if void then 1 else 0) + (if eol then 2 else 0) + (if ra then 4 else 0) + (if st then 8 else 0)
  let par := ((List.range 4).map (fun k => evenBit d (32 * k) 32 * 2 ^ k)).sum
  BitVec.ofNat 137 (d + tags * 2 ^ 128 + par * 2 ^ 132 + evenBit tags 0 4 * 2 ^ 136)

def beadData (b : Bead) : BitVec 128 := b.setWidth 128
def beadVoid (b : Bead) : Bool := b.getLsbD 128
def beadEol (b : Bead) : Bool := b.getLsbD 129
def beadRa (b : Bead) : Bool := b.getLsbD 130
def beadSt (b : Bead) : Bool := b.getLsbD 131

/-- The checks of PAR and CPAR that the receiver makes (R26). -/
def beadGood (b : Bead) : Bool :=
  let v := b.toNat
  (List.range 4).all (fun k => evenBit v (32 * k) 32 == (if v.testBit (132 + k) then 1 else 0))
    && evenBit v 128 4 == (if v.testBit 136 then 1 else 0)

/-- The VOID bead passed on for a bead: DATA is 0, RA, ST and EOL stay (R26, R39). -/
def voidOf (b : Bead) : Bead := mkBead 0 (beadSt b) (beadRa b) (beadEol b) true

/-- A bead as its receiver passes it on (R26). -/
def received (b : Bead) : Bead := if beadGood b then b else voidOf b

/-- The bits that make a bead VOID and leave its parity right. -/
def voidFlip : Bead := mkBead 0 false false false true

/-- A bead as the next receiver passes it on, with bits changed on the way; a sender that answers VOID has `voidFlip` change it. -/
def beadPass (b flip : Bead) : Bead := if flip = voidFlip then voidOf b else received (b ^^^ flip)

/-- Beads of a line as they are received, with the bits that changed on the way: by bead, counted from `first`, the latest change first. -/
def onRod (first : Nat) (flips : List (Nat × BitVec 137)) (bs : List Bead) : List Bead :=
  bs.zipIdx.map (fun e => (flips.filter (fun f => f.1 == first + e.2)).foldr (fun f b => beadPass b f.2) e.1)

/-- Beads of a run of pixels whose first has the column `x0`: the even column in the lower half, the next one in the upper (R27). A half
outside the run holds 64 zero bits (R27, R126); a bead with a pixel that is not there is VOID. -/
def pixelBeads (x0 : Nat) (px : List (Option (BitVec 64))) (st ra : Bool) : List Bead :=
  let n := if px = [] then 0 else (x0 + px.length - 1) / 2 + 1 - x0 / 2
  (List.range n).map (fun k =>
    let half (c : Nat) : Option (BitVec 64) := if c < x0 then some 0 else (px[c - x0]?).getD (some 0)
    let c := 2 * (x0 / 2 + k)
    match half c, half (c + 1) with
    | some lo, some hi => mkBead (hi ++ lo) st ra (k + 1 == n) false
    | _, _ => mkBead 0 st ra (k + 1 == n) true)

/-- The pixels [x0, x0 + n) that beads carry; the halves outside are discarded (R27, R126). -/
def beadPixels (x0 n : Nat) (bs : List Bead) : List (Option (BitVec 64)) :=
  (List.range n).map (fun i =>
    let c := x0 + i
    match bs[c / 2 - x0 / 2]? with
    | none => none
    | some b => if beadVoid b then none else some ((beadData b >>> (64 * (c % 2))).setWidth 64))

/-- A run of pixels after its way over a rod. -/
def carryPixels (x0 : Nat) (px : List (Option (BitVec 64))) (st : Bool) (flips : List (Nat × BitVec 137)) : List (Option (BitVec 64)) :=
  beadPixels x0 px.length (onRod (x0 / 2) flips (pixelBeads x0 px st false))

/-- Bytes of a stored line in beads of 16, the tail in the last (R28). -/
def storedBeads (bs : List Byte) (st ra : Bool) : List Bead :=
  let n := ceilDiv bs.length 16
  (List.range n).map (fun k => mkBead (BitVec.ofNat 128 (leNat ((bs.drop (16 * k)).take 16))) st ra (k + 1 == n) false)

/-- A stored line after its way over fetch rods; none when a bead of it is VOID (R28). -/
def carryLine (bs : List Byte) (st ra : Bool) (flips : List (Nat × BitVec 137)) : Option (List Byte) :=
  if flips = [] then some bs
  else
    let got := onRod 0 flips (storedBeads bs st ra)
    if got.any beadVoid then none else some ((got.flatMap (fun b => leBytes 16 (beadData b).toNat)).take bs.length)

-- Units behind logical numbers.

/-- Metered unit of a logical tile (R400, R404). -/
def tileUnit (s : State) (t : Nat) : Nat := kget tileMapReset s.health.tileMap t

/-- A metered unit that answers every request with VOID: powered down, draining, resetting, carried out or failed (R39, R41, R411). -/
def unitVoid (s : State) (u : Nat) : Bool := [0, 3, 4, 6, 7].contains (s.metered u).eff

/-- Metered unit of a logical rod (R400, R404). -/
def rodUnit (s : State) (r : Nat) : Nat := kget rodMapReset s.health.rodMap r

/-- Whether a logical rod answers with VOID beads only (R39, R456). -/
def rodVoid (s : State) (r : Nat) : Bool := unitVoid s (rodUnit s r) || s.health.lostRods.contains r

/-- Whether one bead or line that some rod of `rs` carries is VOID. Which of them carries it the spec leaves open: free bit `i`. -/
def rodsVoid (s : State) (rs : List Nat) (i : Nat) : Bool :=
  let n := (rs.filter (rodVoid s)).length
  decide (n ≠ 0) && (decide (n = rs.length) || s.freeBit i)

end Sys2Proof.Machine
end

