-- ==== Sys2Proof/Machine/Store.lean ====
section
/-!
DEFINITION. The surface store (03_surfaces_placement.md): lines and tails, placement, carries, pseudo-channel states,
errors, and the commands of the store.
-/
namespace Sys2Proof.Machine

-- Lines and tails.

/-- The value E of R77 for a line body. -/
def tailValue (h i : Nat) (body : List Byte) : Nat := crc32c (leBytes 2 h ++ leBytes 2 i ++ body)

/-- Complement of a 32-bit value. -/
def not32 (n : Nat) : Nat := n ^^^ 0xFFFFFFFF

/-- Class of a line that is read (R77); `void` when no data came back (R40, R76, R91). -/
inductive LineClass where
  | good
  | poison
  | unwritten
  | tailFail
  | void
  deriving DecidableEq, Repr

/-- Classify a body and its stored tail (R77). -/
def classify (h i : Nat) (body : List Byte) (t : Nat) : LineClass :=
  let e := tailValue h i body
  if t = e then .good else if t = not32 e then .poison else if t = 0 ∧ allZero body then .unwritten else .tailFail

/-- Body [0, pitch − 4) of line `i`. -/
def lineBody (s : State) (h : Nat) (x : Surface) (i : Nat) : List Byte := s.bytes h (i * x.pitch) (x.pitch - 4)

/-- Stored tail of line `i`, little-endian (R77). -/
def lineTail (s : State) (h : Nat) (x : Surface) (i : Nat) : Nat := leNat (s.bytes h (i * x.pitch + x.pitch - 4) 4)

/-- Class of line `i` as it stands. -/
def lineClass (s : State) (h : Nat) (x : Surface) (i : Nat) : LineClass :=
  classify h i (lineBody s h x i) (lineTail s h x i)

/-- Write a body with its tail, correct or poisoned (R78). -/
def writeBody (s : State) (h : Nat) (x : Surface) (i : Nat) (body : List Byte) (poison : Bool) : State :=
  let e := tailValue h i body
  s.setBytes h (i * x.pitch) (body ++ leBytes 4 (if poison then not32 e else e))

/-- A payload filled up with zero pad bytes to the body's length (R72). -/
def padBody (x : Surface) (payload : List Byte) : List Byte := slice payload 0 (x.pitch - 4)

/-- Write line `i` whole (R78): payload, zero pad, tail. -/
def writeLine (s : State) (h i : Nat) (payload : List Byte) (poison : Bool) : State :=
  match s.surface h with
  | none => s
  | some x => if i < x.lines then writeBody s h x i (padBody x (payload.take x.payload)) poison else s

/-- One part of a multi-part write (R78): `data` from byte `off` of the payload; the tail is poison until the last part. -/
def writePart (s : State) (h i off : Nat) (data : List Byte) (last : Bool) : State :=
  match s.surface h with
  | none => s
  | some x =>
    if i < x.lines then
      let old := lineBody s h x i
      let d := data.take (x.payload - off)
      writeBody s h x i (padBody x ((old.take off ++ d ++ old.drop (off + d.length)).take x.payload)) (!last)
    else s

/-- Poison line `i`: T = E XOR 0xFFFFFFFF over the bytes as they stand (R78). -/
def poisonLine (s : State) (h i : Nat) : State :=
  match s.surface h with
  | none => s
  | some x => if i < x.lines then writeBody s h x i (lineBody s h x i) true else s

/-- An ingest bead of a line arrives, with the bits that changed (R26): one that is VOID has nothing written for it and sets the line's tail to
poison, and the write in progress leaves it so (R40, R78). -/
def ingestFlip (s : State) (h i k : Nat) (flip : Bead) : State :=
  let s1 := if (beadGood flip && !beadVoid flip) then s else poisonLine s h i
  { s1 with store := { s1.store with ingest := ((h, i), k, flip) :: s1.store.ingest } }

/-- The write in progress of the lines that pass `p` ends: beads that have come for it count no more. -/
def ingestEnds (s : State) (p : Nat × Nat → Bool) : State :=
  { s with store := { s.store with ingest := s.store.ingest.filter (fun e => !p e.1) } }

/-- The next ingest bead of a line: beads come in the order they were sent (R26). -/
def nextIngest (s : State) (h i : Nat) : Nat :=
  ((s.store.ingest.filter (fun e => e.1 == (h, i))).map (fun e => e.2.1 + 1)).foldl max 0

/-- A line written whole over the ingest rods (R23, R29, R78), its beads as they were received. A rod that answers VOID only has nothing
written, and the line poisoned (R39, R40). -/
def ingestLine (s : State) (h i : Nat) (payload : List Byte) (poison : Bool) : State :=
  let flips := (s.store.ingest.filter (fun e => e.1 == (h, i))).map (·.2)
  if rodsVoid s (rodsFor .ingest) 0 then ingestEnds (poisonLine (s.drawn 1) h i) (· == (h, i))
  else if flips = [] then writeLine s h i payload poison
  else
    let old := ((s.surface h).map (fun x => lineBody s h x i)).getD []
    let got := onRod 0 flips (storedBeads payload false false)
    let bytes := (got.zipIdx.flatMap (fun e => if beadVoid e.1 then slice old (16 * e.2) 16 else leBytes 16 (beadData e.1).toNat)).take payload.length
    ingestEnds (writeLine s h i bytes (poison || got.any beadVoid)) (· == (h, i))

/-- A part-line write: read, merge, write with a new tail; a line that was not GOOD is written as POISON (R78).
Bytes beyond the payload are not the writer's: pad and tail stay the store's. -/
def mergeLine (s : State) (h i off : Nat) (data : List Byte) : State :=
  match s.surface h with
  | none => s
  | some x =>
    if i < x.lines then
      let old := lineBody s h x i
      let d := data.take (x.payload - off)
      let body := old.take off ++ d ++ old.drop (off + d.length)
      ingestEnds (writeBody s h x i body (decide (lineClass s h x i ≠ .good))) (· == (h, i))
    else s

/-- Whether a pseudo-channel can be read: ACTIVE or DRAINING, trained (R89, R90). -/
def readable (s : State) (p : Nat) : Bool :=
  let x := s.pc p
  decide (x.state = .active ∨ x.state = .draining) && !x.lostTraining

/-- Whether stripe `k` gives data: from its pseudo-channel, or from its twin when that is FAILED (R91). -/
def stripeReadable (s : State) (x : Surface) (k : Nat) : Bool :=
  let p := x.place.getD k 0
  readable s p || (x.duplex && decide ((s.pc p).state = .failed) && readable s (x.twins.getD k 0))

/-- First and last stripe that line `i` touches. -/
def lineStripes (x : Surface) (i : Nat) : Nat × Nat :=
  (i * x.pitch / stripeBytes, ((i + 1) * x.pitch - 1) / stripeBytes)

/-- Whether every stripe of line `i` gives data. -/
def lineReadable (s : State) (x : Surface) (i : Nat) : Bool :=
  let (a, b) := lineStripes x i
  (List.range (b + 1 - a)).all (fun k => stripeReadable s x (a + k))

/-- Count a checked line and raise its event (R77, R92, R94). -/
def countCheck (s : State) (h i : Nat) (c : LineClass) (inj : Bool) : State :=
  match c with
  | .good => s
  | .void => s
  | .poison => raiseInj (s.bump R.SSP_POISON_CNT 1) 27 inj
  | .unwritten => raiseInj (s.bump R.SSP_UNWRITTEN_CNT 1) 28 inj
  | .tailFail => raiseInj ((s.bump R.SSP_TAIL_FAIL_CNT 1).wr R.SSP_TAIL_LOG (word (h * 65536 + i))) 26 inj

/-- Check a line that has been fetched, body and tail (R28, R77): class, payload and the state with its counters. An armed TAIL injection
inverts bit 0 of the tail the check sees (R394). -/
def checkLine (s : State) (h i payload : Nat) (bytes : List Byte) : LineClass × List Byte × State :=
  let body := bytes.take (bytes.length - 4)
  let t := leNat (bytes.drop (bytes.length - 4))
  let (inj, s1) := injectCheck s 3 h
  let c := classify h i body (if inj then t ^^^ 1 else t)
  (c, body.take payload, countCheck s1 h i c inj)

/-- Line `i` as the memory gives it, body and tail; none when it gives none (R76, R91). -/
def memLine (s : State) (h i : Nat) : Option (List Byte) :=
  match s.surface h with
  | none => none
  | some x => if i < x.lines ∧ lineReadable s x i then some (s.bytes h (i * x.pitch) x.pitch) else none

/-- Payload bytes of a handle's lines. -/
def linePayload (s : State) (h : Nat) : Nat := ((s.surface h).map Surface.payload).getD 0

/-- A fetch of line `i` of handle `h` over the fetch rods, checked; `flips`: the bits that changed in its beads (R26, R28, R39). -/
def fetchLine (s : State) (h i : Nat) (flips : List (Nat × Bead)) : LineClass × List Byte × State :=
  if rodsVoid s (rodsFor .fetch) 0 then (.void, [], s.drawn 1)
  else match (memLine s h i).bind (fun b => carryLine b false false flips) with
    | none => (.void, [], s)
    | some bytes => checkLine s h i (linePayload s h) bytes

-- Placement.

/-- The places of one copy of a surface. -/
def Surface.copy (x : Surface) (twin : Bool) : List Nat := if twin then x.twins else x.place

/-- The metadata of R88 (stripe map, handle table, heat counts, row-remap tables) are placed as a DUPLEX surface under a number no handle
field can hold. -/
def metaHandle : Nat := 65536

/-- Whether pseudo-channel `p` may take a stripe of a surface with this mask: ACTIVE, permitted, a free stripe (R81). -/
def eligible (s : State) (mask p : Nat) : Bool :=
  decide ((s.pc p).state = .active) && permits mask p && decide (0 < (s.pc p).free)

/-- Pseudo-channels that hold stripes of a handle, in either copy. -/
def holders (s : State) (h : Nat) : List Nat :=
  match s.surface h with
  | none => []
  | some x => x.place ++ x.twins

/-- Take one scrubbed free stripe of a pseudo-channel. -/
def takeStripe (s : State) (p : Nat) : State := s.setPc p { s.pc p with free := (s.pc p).free - 1 }

/-- Follow the APART hint where that leaves a non-empty set (R81). -/
def keepApart (apart all : List Nat) : List Nat :=
  let away := all.filter (fun p => !apart.contains p)
  if away.isEmpty then all else away

/-- The eligible set of R81. DESIGN CHOICE: it is formed anew for each stripe and each twin, so channels that fill up during an
allocation can bring the holders of APART back in. -/
def eligibleSet (s : State) (mask : Nat) (apart : List Nat) : List Nat := keepApart apart ((List.range 128).filter (eligible s mask))

/-- Whether `p` comes before `q` as a start under a HEAT hint (R81). -/
def startBefore (s : State) (heat p q : Nat) : Bool :=
  let lp := (s.pc p).load
  let lq := (s.pc q).load
  let fp := (s.pc p).free
  let fq := (s.pc q).free
  let byFree := decide (fq < fp) || (decide (fp = fq) && decide (p < q))
  if heat = 2 then decide (lp < lq) || (decide (lp = lq) && byFree)
  else if heat = 1 then decide (lq < lp) || (decide (lp = lq) && byFree)
  else byFree

/-- The start of R81 among a set. -/
def startOf (s : State) (heat : Nat) : List Nat → Option Nat
  | [] => none
  | p :: ps =>
    match startOf s heat ps with
    | none => some p
    | some q => some (if startBefore s heat p q then p else q)

/-- First member of a set at or after a rotation position, wrapping round. -/
def nextInRotation (set : List Nat) (pos : Nat) : Option Nat :=
  ((List.range 128).map (fun d => rotPc ((pos + d) % 128))).find? (fun p => set.contains p)

/-- Place `n` more stripes and their twins from a rotation position (R81): the places, or none when some stripe or twin
finds no place. -/
def placeFrom (mask : Nat) (apart : List Nat) (duplex : Bool) :
    Nat → Nat → State → List Nat → List Nat → Option (List Nat × List Nat × State)
  | 0, _, s, ps, ts => some (ps.reverse, ts.reverse, s)
  | n + 1, pos, s, ps, ts =>
    match nextInRotation (eligibleSet s mask apart) pos with
    | none => none
    | some p =>
      let s1 := takeStripe s p
      if duplex then
        match nextInRotation ((eligibleSet s1 mask apart).filter (fun q => stackOf q != stackOf p)) (rotPos p + 1) with
        | none => none
        | some t => placeFrom mask apart duplex n (rotPos p + 1) (takeStripe s1 t) (p :: ps) (t :: ts)
      else placeFrom mask apart duplex n (rotPos p + 1) s1 (p :: ps) ts

/-- Place a whole surface (R81). -/
def placeSurface (s : State) (mask apart heat n : Nat) (duplex : Bool) : Option (List Nat × List Nat × State) :=
  let ap := if apart = 0 then [] else holders s apart
  match startOf s heat (eligibleSet s mask ap) with
  | none => none
  | some p => placeFrom mask ap duplex n (rotPos p) s [] []

/-- Where the other copy of a DUPLEX stripe lies, or will lie once its running carry ends. -/
def otherPlace (s : State) (h : Nat) (x : Surface) (k : Nat) (twin : Bool) : Option Nat :=
  if ¬ x.duplex then none
  else match s.store.carries.find? (fun c => c.handle == h && c.stripe == k && c.twin != twin && c.target.isSome) with
    | some c => c.target
    | none => (x.copy (!twin))[k]?

/-- Pseudo-channels that ranks 1 and 2 permit for one stripe copy (R81, R83): eligible, not where it lies, and outside the stack of its
other copy. -/
def permitted (s : State) (h : Nat) (x : Surface) (k : Nat) (twin : Bool) (src : Nat) : List Nat :=
  let other := otherPlace s h x k twin
  (List.range 128).filter (fun p => eligible s x.mask p && p != src && (match other with
    | none => true
    | some q => stackOf p != stackOf q))

/-- Pseudo-channels that hold stripes of the APART handle of a surface. -/
def apartOf (s : State) (x : Surface) : List Nat := if x.apart = 0 then [] else holders s x.apart

/-- The place R81 gives one stripe copy alone (R82, R90, R91): the primary goes to the start for the surface's HEAT, the twin to the first
after its primary in rotation order. Ranks 1 to 3 come before the APART hint, which is followed where it leaves a place (R83). -/
def placeOne (s : State) (h : Nat) (x : Surface) (k : Nat) (twin : Bool) (src : Nat) : Option Nat :=
  let set := keepApart (apartOf s x) (permitted s h x k twin src)
  match twin, otherPlace s h x k twin with
  | true, some q => nextInRotation set (rotPos q + 1)
  | _, _ => startOf s x.heat set

-- Stripe counts (R92).

/-- Pseudo-channels that have left ACTIVE. -/
def outCount (s : State) : Nat := ((List.range 128).filter (fun p => (s.pc p).state ≠ .active)).length

/-- SSP_CAPACITY (R90, R92). -/
def capacity (s : State) : Nat := s.variant.capacity - s.variant.stripesPerPc * (outCount s - 1)

/-- SSP_SCRUB_PENDING. -/
def scrubPending (s : State) : Nat := (s.store.pcs.map (fun e => e.2.scrub)).sum

/-- SSP_ALLOCATED: DUPLEX surfaces count twice. -/
def allocated (s : State) : Nat :=
  (s.store.surfaces.map (fun e => match e.2 with
    | none => 0
    | some x => if e.1 = metaHandle then 0 else if x.duplex then 2 * x.stripes else x.stripes)).sum

/-- SSP_FREE. -/
def freeStripes (s : State) : Nat := if s.store.trained then capacity s - allocated s - scrubPending s else 0

/-- SSP_PC_STATEn. -/
def pcStateWord (s : State) (n : Nat) : Word :=
  word (((List.range 16).map (fun k => (s.pc (16 * n + k)).state.code * 4 ^ k)).sum)

/-- ROWS_PCT: highest spare-row use in percent. -/
def rowsPct (s : State) : Nat :=
  (s.store.pcs.map (fun e => e.2.spared.length * 100 / s.variant.spareRows)).foldl max 0

/-- A stripe leaves its place: to the scrub queue of its pseudo-channel, unless that has failed (R75, R86, R91). -/
def releaseStripe (s : State) (p : Nat) : State :=
  let x := s.pc p
  if x.state = .active ∨ x.state = .draining then
    let s1 := s.setPc p { x with scrub := x.scrub + 1 }
    if scrubPending s1 = 65537 then raise s1 36 else s1
  else s

-- Carries.

/-- All stripe copies on a pseudo-channel: handle, stripe, twin. -/
def stripesOn (s : State) (p : Nat) : List (Nat × Nat × Bool) :=
  s.store.surfaces.flatMap (fun e => match e.2 with
    | none => []
    | some x =>
      let at_ (twin : Bool) := (x.copy twin).zipIdx.filterMap (fun q => if q.1 = p then some (e.1, q.2, twin) else none)
      at_ false ++ at_ true)

/-- Whether a pseudo-channel holds no stripe and no carry target. -/
def pcEmpty (s : State) (p : Nat) : Bool :=
  (stripesOn s p).isEmpty && !s.store.carries.any (fun c => c.target == some p)

/-- Pseudo-channels that are empty and no longer ACTIVE become RETIRED (R90); that answers the part fault of a failed
one (R392). -/
def checkRetired (s : State) : State :=
  forEach (List.range 128) s (fun s p =>
    let x := s.pc p
    if (x.state = .draining ∨ x.state = .failed) ∧ pcEmpty s p then
      faultAnswered (s.setPc p { x with state := .retired, free := 0, scrub := 0 }) 31 p
    else s)

/-- Report PLACEMENT_CONSTRAINED for a pseudo-channel (R83, R85). -/
def constrained (s : State) (p : Nat) : State :=
  raise (s.wr R.SSP_CONSTRAINED (setBits (setBit (s.rd R.SSP_CONSTRAINED) 7 true) 6 0 p)) 33

/-- Whether a stripe copy is waiting for or in a carry. -/
def inCarry (s : State) (h k : Nat) (twin : Bool) : Bool :=
  s.store.carries.any (fun c => c.handle == h && c.stripe == k && c.twin == twin)

/-- Carries in progress. -/
def carriesRunning (s : State) : Nat := (s.store.carries.filter (fun c => c.target.isSome)).length

def setCarries (s : State) (cs : List Carry) : State := { s with store := { s.store with carries := cs } }

/-- Whether a waiting carry is still wanted: its stripe exists, and still lies where it may not stay; no balance carry moves a FIXED surface
(R83, R84). -/
def carryWanted (s : State) (c : Carry) : Bool :=
  match s.surface c.handle with
  | none => false
  | some x =>
    match (x.copy c.twin)[c.stripe]? with
    | none => false
    | some p => match c.reason with
      | .balance => !x.fixed
      | .pin => !(permits x.mask p) || decide ((s.pc p).state ≠ .active)
      | _ => decide ((s.pc p).state ≠ .active)

/-- Pseudo-channel of a list with the highest load, lowest number on ties. -/
def highestLoad (load : Nat → Int) : List Nat → Option Nat
  | [] => none
  | p :: ps => match highestLoad load ps with
    | none => some p
    | some q => some (if load p < load q then q else p)

/-- Whether the landing area may give a target: never below 1,024 except to empty a pseudo-channel (R88, R90). -/
def landingOk (s : State) (r : CarryReason) : Bool :=
  match r with
  | .wear => true
  | .fail => true
  | _ => decide (1024 < s.store.landing - carriesRunning s)

/-- The target of a balance carry: lowest projected load permitted by ranks 1 to 4, so within the landing reserve and away from APART
(R83, R84). DESIGN CHOICE: the lowest number on ties. -/
def balanceTarget (s : State) (h : Nat) (x : Surface) (k : Nat) (twin : Bool) (src : Nat) : Option Nat :=
  let ap := apartOf s x
  if landingOk s .balance then
    highestLoad (fun p => -(s.pc p).proj) ((permitted s h x k twin src).filter (fun p => !ap.contains p))
  else none

/-- The target of a carry by the rule of its reason (R82, R84, R90, R91): a balance carry goes where the loop sent it, or by the loop's rule
anew once that place may not take it (R87). -/
def carryTarget (s : State) (c : Carry) (x : Surface) (src : Nat) : Option Nat :=
  match c.reason with
  | .balance =>
    match c.aim with
    | some t => if landingOk s .balance ∧ (permitted s c.handle x c.stripe c.twin src).contains t then some t
        else balanceTarget s c.handle x c.stripe c.twin src
    | none => balanceTarget s c.handle x c.stripe c.twin src
  | r => if landingOk s r then placeOne s c.handle x c.stripe c.twin src else none

/-- Start one waiting carry (R86 step 1): a target is taken, or the stripe stays and the device is constrained
(R83, R90). The carry given is not in the list any more. DESIGN CHOICE: one that finds no target is dropped, and not asked for again when
space or a channel becomes free. -/
def startCarry (s : State) (c : Carry) : State :=
  match s.surface c.handle with
  | none => s
  | some x =>
    let src := (x.copy c.twin).getD c.stripe 0
    match carryTarget s c x src with
    | some t =>
      let s1 := takeStripe s t
      let run := s1.store.carries.filter (fun c => c.target.isSome)
      let wait := s1.store.carries.filter (fun c => c.target.isNone)
      setCarries s1 (run ++ [{ c with target := some t, aim := none }] ++ wait)
    | none =>
      let s1 := constrained s src
      match c.reason with
      | .balance => s1
      | .pin => s1
      | _ => raise (s1.setFlag R.SSP_RESERVE_STAT 17) 35

/-- A carry that pauses: a balance carry from level THROTTLE on (R419). -/
def carryPaused (s : State) (c : Carry) : Bool := decide (c.reason = .balance) && decide (2 ≤ s.health.level)

/-- Start waiting carries while fewer than 64 run (R87); those that pause wait on. -/
def pumpCarries : Nat → State → State
  | 0, s => s
  | n + 1, s =>
    if 64 ≤ carriesRunning s then s
    else match s.store.carries.find? (fun c => c.target.isNone && !carryPaused s c) with
      | none => s
      | some c =>
        let s1 := setCarries s (s.store.carries.erase c)
        pumpCarries n (if carryWanted s1 c then startCarry s1 c else s1)

/-- Let every waiting carry that can start do so. -/
def pump (s : State) : State := pumpCarries s.store.carries.length s

/-- Order of the reasons of a carry: the one that may give way comes first (R83). -/
def CarryReason.order : CarryReason → Nat
  | .balance => 0
  | .pin => 1
  | _ => 2

/-- Ask for a carry of one stripe copy; a stripe is in at most one (R87). One that waits with a reason that gives way makes room (R83). -/
def askCarry (s : State) (h k : Nat) (twin : Bool) (r : CarryReason) : State :=
  let weaker (c : Carry) : Bool := c.handle == h && c.stripe == k && c.twin == twin && c.target.isNone && decide (c.reason.order < r.order)
  let s1 := setCarries s (s.store.carries.filter (fun c => !weaker c))
  if inCarry s1 h k twin then s1 else setCarries s1 (s1.store.carries ++ [⟨h, k, twin, r, none, none⟩])

/-- A pseudo-channel leaves ACTIVE (R90): the first takes its stripes out of the headroom, later ones lower the capacity and take landing
stripes. -/
def leaveActive (s : State) (p : Nat) (st : PcState) : State :=
  let x := s.pc p
  let s1 := s.setPc p { x with state := st }
  if x.state ≠ .active then s1
  else
    let n := (stripesOn s p).length
    if s.store.headroomUsed then { s1 with store := { s1.store with landing := s1.store.landing - n } }
    else raise { s1 with store := { s1.store with headroom := s1.store.headroom - n, headroomUsed := true } } 34

/-- A pseudo-channel enters DRAINING: each of its stripes is carried away (R89, R90). -/
def drainPc (s : State) (p : Nat) : State :=
  let s1 := raise (leaveActive s p .draining) 30
  let s2 := forEach (stripesOn s1 p) s1 (fun s e => askCarry s e.1 e.2.1 e.2.2 .wear)
  checkRetired (pump s2)

/-- Replace element `k` of a surface's copy. -/
def setPlace (x : Surface) (twin : Bool) (k p : Nat) : Surface :=
  if twin then { x with twins := setAt x.twins k p } else { x with place := setAt x.place k p }

/-- Lines of a surface that touch stripe `k`. -/
def stripeLines (x : Surface) (k : Nat) : List Nat :=
  let a := k * stripeBytes / x.pitch
  let b := min x.lines (((k + 1) * stripeBytes - 1) / x.pitch + 1)
  (List.range (b - a)).map (fun i => a + i)

/-- The contents of stripes are lost (R91 steps 3 and 4): they hold zeros; a line that straddles into a stripe that is
not lost is poisoned. -/
def loseContents (s : State) (h : Nat) (x : Surface) (ks : List Nat) : State :=
  let s1 := forEach ks s (fun s k => s.zeroBytes h (k * stripeBytes) ((k + 1) * stripeBytes))
  let ls := (ks.flatMap (stripeLines x)).eraseDups
  forEach ls s1 (fun s i =>
    let (a, b) := lineStripes x i
    if (List.range (b + 1 - a)).all (fun d => ks.contains (a + d)) then s else poisonLine s h i)

/-- One stripe of a failed pseudo-channel with no second copy is remapped as lost (R91). -/
def loseStripe (s : State) (h k p : Nat) : State :=
  match s.surface h with
  | none => s
  | some x =>
    let x1 := { x with lost := min 0xFFFFFFFF (x.lost + 1) }
    let s1 := (s.wr R.SSP_LOST_LOG (word (h * 65536 + k % 65536))).setSurface h (some x1)
    let s2 := match placeOne s1 h x1 k false p with
      | some t => (takeStripe s1 t).setSurface h (some (setPlace x1 false k t))
      | none => raise ((constrained s1 p).setFlag R.SSP_RESERVE_STAT 17) 35
    raise s2 32

/-- A pseudo-channel becomes FAILED (R89 to R91). DESIGN CHOICE: a DUPLEX stripe whose other copy lies on a FAILED channel too is not counted
as lost, and keeps its contents and its carry. -/
def failPc (s : State) (p : Nat) : State :=
  let s1 := leaveActive s p .failed
  let s2 := s1.setPc p { s1.pc p with lostTraining := false }
  let s3 := partFault (raise s2 31) 31 p
  -- R87: a carry whose source fails ends; one whose target fails starts again.
  let srcOf (c : Carry) : Option Nat := (s3.surface c.handle).bind (fun x => (x.copy c.twin)[c.stripe]?)
  let cs := s3.store.carries.filter (fun c => !(srcOf c == some p))
  let ended := s3.store.carries.filter (fun c => srcOf c == some p && c.target.isSome)
  let s4 := setCarries s3 ((cs.filter (fun c => c.target != some p)) ++
    ((cs.filter (fun c => c.target == some p)).map (fun c => { c with target := none, aim := none })))
  let s5 := forEach ended s4 (fun s c => match c.target with
    | some t => if t = p then s else releaseStripe s t
    | none => s)
  let on := stripesOn s5 p
  let s6 := forEach on s5 (fun s e =>
    match s.surface e.1 with
    | none => s
    | some x => if x.duplex then askCarry s e.1 e.2.1 e.2.2 .fail else s)
  let single := on.filter (fun e => match s5.surface e.1 with
    | none => false
    | some x => !x.duplex)
  let s7 := forEach single s6 (fun s e => loseStripe s e.1 e.2.1 p)
  let s8 := forEach (single.map (fun e => e.1)).eraseDups s7 (fun s h =>
    match s.surface h with
    | none => s
    | some x => loseContents s h x ((single.filter (fun e => e.1 == h)).map (fun e => e.2.1)))
  checkRetired (pump s8)

/-- Spare a row (R89): it is remapped to the next spare row of the pseudo-channel; past 75 % of them it wears out. -/
def spareRow (s : State) (p row : Nat) : State :=
  let x := s.pc p
  let spared := if x.spared.length < s.variant.spareRows then row :: x.spared else x.spared
  let s1 := raise (s.setPc p { x with spared := spared, ces := x.ces.filter (fun e => e.2.1 ≠ row) }) 29
  if 3 * s.variant.spareRows < 4 * spared.length ∧ (s1.pc p).state = .active then drainPc s1 p else s1

/-- Nanoseconds in a second, an hour, a day. -/
def nsPerS : Nat := 1000000000
def nsPerH : Nat := 3600000000000

/-- A corrected error (R68, R89): counted; outside injection it counts toward row and pseudo-channel wear. -/
def eccCorrected (s : State) (p row b : Nat) (inj : Bool) : State :=
  let s1 := raiseInj (s.bump R.SSP_CE_CNT 1) 24 inj
  if inj then s1
  else
    let now := s1.time64
    let x := s1.pc p
    let ces := (now, row, b) :: x.ces.filter (fun e => decide (now < e.1 + 24 * nsPerH))
    let times := now :: x.ceTimes.filter (fun e => decide (now < e + nsPerH))
    let s2 := s1.setPc p { x with ces := ces, ceTimes := times }
    let worn := ces.any (fun e => decide (e.2.1 = row ∧ e.2.2 ≠ b))
    let s3 := if worn then spareRow s2 p row else s2
    if 1000 < times.length ∧ (s3.pc p).state = .active then drainPc s3 p else s3

/-- Lines of a surface that hold a memory word, by its stripe and word number. -/
def wordLines (x : Surface) (stripe w : Nat) : List Nat :=
  let lo := stripe * stripeBytes + 32 * w
  let a := lo / x.pitch
  let b := (lo + 31) / x.pitch
  ((List.range (b + 1 - a)).map (fun i => a + i)).filter (fun i => i < x.lines)

/-- Requests in flight for lines that hold the word are answered with VOID beads (R91). -/
def voidRequests (s : State) (h : Nat) (ls : List Nat) : State :=
  forEach (List.range 80) (ahead s h ls) (fun s l =>
    let sc := s.scaler l
    if sc.jobs.any (fun j => j.reqs.any (fun r => r.handle == h && ls.contains r.line)) then
      s.setScaler l { sc with jobs := sc.jobs.map (fun j => { j with reqs := j.reqs.map (fun r =>
        if r.handle = h ∧ ls.contains r.line then { r with void := true } else r) }) }
    else s)
where
  ahead (s : State) (h : Nat) (ls : List Nat) : State :=
    forEach (List.range 8) s (fun s g =>
      let x := s.group g
      let hit (r : RaLine) : Bool := r.handle == h && ls.contains r.line
      if x.ra.any hit then s.setGroup g { x with ra := x.ra.map (fun r => if hit r then { r with void := true } else r) } else s)

/-- An uncorrectable word (R89, R91): served from the twin, or its lines are poisoned and its beads VOID. -/
def eccUncorrectable (s : State) (p : Nat) (site : WordSite) (inj : Bool) : State :=
  let s1 := raiseInj ((s.bump R.SSP_UE_CNT 1).wr R.SSP_UE_LOG (word (site.handle * 65536 + p))) 25 inj
  let s2 := match s1.surface site.handle with
    | none => s1
    | some x =>
      let other := (x.copy (!site.twin))[site.stripe]?
      let served := x.duplex && (match other with
        | some q => readable s1 q
        | none => false)
      if served then s1
      else
        let ls := wordLines x site.stripe site.word
        voidRequests (forEach ls s1 (fun s i => poisonLine s site.handle i)) site.handle ls
  if inj then s2
  else
    let now := s2.time64
    let x := s2.pc p
    let ues := (now, site.row) :: x.ues.filter (fun e => decide (now < e.1 + nsPerS))
    let s3 := spareRow (s2.setPc p { x with ues := ues }) p site.row
    let rows := ((ues.map (fun e => e.2)).eraseDups).length
    if 8 ≤ rows ∧ ((s3.pc p).state = .active ∨ (s3.pc p).state = .draining) then failPc s3 p else s3

/-- One memory word is read and checked (R68): what the checker finds, or what an armed injection makes of it (R394). -/
def readWord (s : State) (p : Nat) (site : WordSite) (ecc : Ecc) : State :=
  let (ue, s1) := injectCheck s 2 p
  if ue then eccUncorrectable s1 p site true
  else
    let (ce, s2) := injectCheck s1 1 p
    if ce then eccCorrected s2 p site.row 0 true
    else match ecc with
      | .good => s2
      | .ce b => eccCorrected s2 p site.row b false
      | .ue => eccUncorrectable s2 p site false

-- Allocation and freeing.

/-- Whether a pin mask is met without pseudo-channel `without` (R80, R93). -/
def pinMet (s : State) (mask : Nat) (without : Option Nat) : Bool :=
  if mask = 0 then true
  else
    let act := (List.range 128).filter (fun p =>
      mask.testBit p && decide ((s.pc p).state = .active) && decide (some p ≠ without))
    decide (2 ≤ act.length) && decide (2 ≤ (act.map stackOf).eraseDups.length)

/-- Whether a placement record is valid at allocation (R80). -/
def pinOk (s : State) (r : PinRec) : Bool := r.clean && pinMet s r.mask none

/-- Scrubbed free stripes inside a mask. -/
def freeInside (s : State) (mask : Nat) : Nat :=
  (((List.range 128).filter (fun p => eligible s mask p)).map (fun p => (s.pc p).free)).sum

def setOwner (s : State) (h q : Nat) (seq : BitVec 16) (alloc : Bool) : State :=
  { s with store := { s.store with owner := kset (fun _ => none) s.store.owner h (some (q, seq, alloc)) } }

def ownerOf (s : State) (h : Nat) : Option (Nat × BitVec 16 × Bool) := kget (fun _ => none) s.store.owner h

/-- The surface a SURFACE_ALLOC asks for, before it is placed. -/
def wantedSurface (w h f : Nat) (r : PinRec) : Surface :=
  let pitch := pitchOf (payloadLen f w)
  let n := linesOf f h
  { width := w, height := h, format := f, pitch := pitch, lines := n, stripes := ceilDiv (pitch * n) stripeBytes,
    apart := r.apart, heat := r.heat, fixed := r.fixed, duplex := r.duplex, mask := r.mask, lost := 0, place := [],
    twins := [] }

/-- Whether an allocated surface has the attributes asked for (R76). -/
def sameAttributes (x y : Surface) : Bool :=
  x.width == y.width && x.height == y.height && x.format == y.format && x.apart == y.apart && x.heat == y.heat
    && x.fixed == y.fixed && x.duplex == y.duplex && x.mask == y.mask

/-- SURFACE_ALLOC: outcome and state, the checks in the order of R74; a re-run finds its own allocation (R76). -/
def allocSurface (s : State) (h w ht f : Nat) (r : PinRec) (q : Nat) (seq : BitVec 16) (rerun : Bool) : Nat × State :=
  if ¬ formatKnown f then (Code.BAD_FORMAT, s)
  else if ¬ sizeOk f w ht then (Code.BAD_SIZE, s)
  else if ¬ pinOk s r then (Code.BAD_PIN, s)
  else
    let x := wantedSurface w ht f r
    match s.surface h with
    | some y =>
      if rerun ∧ ownerOf s h = some (q, seq, true) ∧ sameAttributes x y then (Code.OK, s) else (Code.HANDLE_IN_USE, s)
    | none =>
      if h = 0 then (Code.HANDLE_IN_USE, s)
      else
        let need := if x.duplex then 2 * x.stripes else x.stripes
        if freeInside s x.mask < need ∨ freeStripes s < need then (Code.NO_SPACE, s)
        else match placeSurface s x.mask x.apart x.heat x.stripes x.duplex with
          | none => (Code.NO_SPACE, s)
          | some (ps, ts, s1) =>
            (Code.OK, setOwner (s1.setSurface h (some { x with place := ps, twins := ts })) h q seq true)

/-- A surface goes: its stripes go to the scrub queue, its bytes read as 0, and writes of its lines in progress end (R75). DESIGN CHOICE: a
carry of one of its stripes that runs ends with it, uncounted, and its target goes to the scrub queue. -/
def dropSurface (s : State) (h : Nat) : State :=
  match s.surface h with
  | none => s
  | some x =>
    let mine := s.store.carries.filter (fun c => c.handle == h)
    let s1 := ingestEnds (setCarries s (s.store.carries.filter (fun c => c.handle != h))) (fun e => e.1 == h)
    let s2 := forEach mine s1 (fun s c => match c.target with
      | some t => releaseStripe s t
      | none => s)
    let s3 := forEach (x.place ++ x.twins) s2 releaseStripe
    let s4 := (s3.setSurface h none).zeroBytes h 0 4294967296
    checkRetired (pump s4)

-- Who names a handle (R75).

/-- Handles HANDLE to HANDLE + RING of an enabled SURFACE descriptor, else none; `rd` reads the deck. -/
def descriptorNames (rd : Nat → Word) (n h : Nat) : Bool :=
  let w0 := rd (skey Space.LAYER_DESC (8 * n))
  let base := bits (rd (skey Space.LAYER_DESC (8 * n + 1))) 31 16
  bit w0 31 && decide (bits w0 15 14 = 0) && decide (base ≤ h ∧ h ≤ base + bits w0 11 10)

/-- The descriptor of a chain entry of OFFLINE_COMPOSE names a handle: enabled, and of kind SURFACE (R75, R323). -/
def entryNames (d : List Byte) (h : Nat) : Bool :=
  (byteAt d 19).testBit 7 && decide (byteAt d 17 / 64 = 0) && decide (le d 22 2 = h)

/-- Handles a job's entries name. DESIGN CHOICE: not a handle that SURFACE_ALLOC or PIN_HINT names as APART only. -/
def jobNames (j : Job) (h : Nat) : Bool :=
  let e := j.entries.headD []
  let at16 := decide (le e 16 2 = h)
  match j.typ with
  | 2 => at16
  | 3 => at16
  | 4 => at16
  | 5 => at16 || decide (le e 18 2 = h)
  | 6 => at16
  | 7 => decide (le e 18 2 ≤ h ∧ h ≤ le e 18 2 + byteAt e 17)
  | 8 => at16 || (j.entries.drop 1).any (fun d => entryNames d h)
  | 10 => at16
  | _ => false

/-- Whether SURFACE_FREE of `h` by queue `q` finds the handle in use (R75). -/
def handleInUse (s : State) (h q : Nat) : Bool :=
  (List.range 4096).any (fun n => descriptorNames s.sp n h || descriptorNames s.lv n h)
    || (List.range 32).any (fun i =>
      let wb := (s.head i).wb
      let c := s.cfg (R.OWB_Hnn_WB_CTRL i)
      (wb.run && decide (wb.handle ≤ h ∧ h ≤ wb.handle + wb.ring))
        || (bit c 31 && decide (bits c 15 0 ≤ h ∧ h ≤ bits c 15 0 + bits c 17 16))
        || (match wb.capture with
          | some k => decide (k.handle ≤ h ∧ h ≤ k.handle + k.ring)
          | none => false))
    || s.queues.any (fun e => e.1 != q && (match e.2.job with
      | some j => jobNames j h
      | none => false))

/-- SURFACE_FREE: outcome and state (R75, R76). -/
def freeSurface (s : State) (h q : Nat) (seq : BitVec 16) (rerun : Bool) : Nat × State :=
  match s.surface h with
  | none => if rerun ∧ ownerOf s h = some (q, seq, false) then (Code.OK, s) else (Code.HANDLE_FREE, s)
  | some _ => if handleInUse s h q then (Code.IN_USE, s) else (Code.OK, setOwner (dropSurface s h) h q seq false)

/-- Whether the stripes of a surface fit under a new mask (R80). -/
def fitsMask (s : State) (x : Surface) (mask : Nat) : Bool :=
  let held := x.place ++ x.twins
  let inside := (held.filter (permits mask)).length
  decide (held.length ≤ inside + freeInside s mask)

/-- PIN_HINT at acceptance (R82): outcome, and whether carries remain. -/
def pinHintStart (s : State) (h : Nat) (r : PinRec) : Nat × State :=
  match s.surface h with
  | none => (Code.BAD_HANDLE, s)
  | some x =>
    if ¬ (pinOk s r ∧ r.duplex = x.duplex ∧ fitsMask s x r.mask) then (Code.BAD_PIN, s)
    else
      let x1 := { x with mask := r.mask, apart := r.apart, heat := r.heat, fixed := r.fixed }
      let s1 := s.setSurface h (some x1)
      let outside (twin : Bool) := (x1.copy twin).zipIdx.filterMap (fun e => if permits r.mask e.1 then none else some (e.2, twin))
      let s2 := forEach (outside false ++ outside true) s1 (fun s e => askCarry s h e.1 e.2 .pin)
      (Code.OK, pump s2)

/-- Whether carries that a PIN_HINT of this handle waits for remain: those it asked for, and those already on their way from or to a place
outside the mask (R82). -/
def pinCarriesLeft (s : State) (h : Nat) : Bool :=
  match s.surface h with
  | none => false
  | some x => s.store.carries.any (fun c => c.handle == h && (decide (c.reason = .pin)
      || !permits x.mask ((x.copy c.twin).getD c.stripe 0) || (match c.target with
        | some t => !permits x.mask t
        | none => false)))

-- Heat.

/-- Key of a stripe copy in the heat counts. -/
def heatKey (h k : Nat) (twin : Bool) : Nat := (h * 65536 + k) * 2 + (if twin then 1 else 0)

def heatOf (s : State) (h k : Nat) (twin : Bool) : Nat := kget (fun _ => 0) s.store.heats (heatKey h k twin)

/-- Where a heat count saturates. DESIGN CHOICE: R84 states no width; 32 bits. -/
def heatMax : Nat := 0xFFFFFFFF

/-- An access of 32 bytes counts in the load of its pseudo-channel and the heat of its stripe (R84). -/
def countHeat (s : State) (p : Nat) (site : WordSite) : State :=
  let x := s.pc p
  let s1 := s.setPc p { x with bytes := x.bytes + 32 }
  if site.handle = 0 then s1
  else
    let k := heatKey site.handle site.stripe site.twin
    { s1 with store := { s1.store with
        heats := kset (fun _ => 0) s1.store.heats k (min (kget (fun _ => 0) s1.store.heats k + 1) heatMax) } }

/-- Bytes that 259.07 Gbit/s carries in the heat window of SSP_BAL_CTRL (R84, R93). -/
def windowCapacity (ctrl : Word) : Nat := 4047968750 * 2 ^ min 7 (bits ctrl 11 8)

/-- BAL_THRESH; values outside 1 to 50 act as 10 (R93). -/
def balThresh (ctrl : Word) : Nat := let t := bits ctrl 23 16; if 1 ≤ t ∧ t ≤ 50 then t else 10

/-- The hotter of two stripe candidates with heat; on ties the lower stripe index (R84), then the first: lower handle, primary. -/
def hotter (a b : (Nat × Nat × Bool) × Nat) : (Nat × Nat × Bool) × Nat :=
  if a.2 < b.2 ∨ (a.2 = b.2 ∧ b.1.2.1 < a.1.2.1) then b else a

/-- Hottest of a list of stripe copies. -/
def hottest (s : State) (xs : List (Nat × Nat × Bool)) : Option (Nat × Nat × Bool) :=
  match xs.map (fun e => (e, heatOf s e.1 e.2.1 e.2.2)) with
  | [] => none
  | a :: as => some (as.foldl hotter a).1

/-- The stripe to move from a hot pseudo-channel (R84): never FIXED or in a carry; COLD only when nothing else is
there. -/
def stripeToMove (s : State) (p : Nat) : Option (Nat × Nat × Bool) :=
  let ok := (stripesOn s p).filter (fun e => match s.surface e.1 with
    | none => false
    | some x => !x.fixed && !inCarry s e.1 e.2.1 e.2.2)
  let warm := ok.filter (fun e => match s.surface e.1 with
    | none => false
    | some x => x.heat != 1)
  match hottest s warm with
  | some e => some e
  | none => hottest s ok

/-- Move `heat` bytes of projected load from one pseudo-channel to another (R84). -/
def shiftLoad (s : State) (a b : Nat) (heat : Int) : State :=
  let s1 := s.setPc a { s.pc a with proj := (s.pc a).proj - heat }
  s1.setPc b { s1.pc b with proj := (s1.pc b).proj + heat }

/-- The window's loop ends constrained (R85). -/
def endConstrained (s : State) (p : Nat) : State := constrained (s.wr R.SSP_CONSTRAINED (setBit (s.rd R.SSP_CONSTRAINED) 8 true)) p

/-- The balance loop of R84 with `n` moves left. A move beyond the 64 carries of R87 waits with its target. -/
def balanceLoop (ctrl : Word) : Nat → State → State
  | 0, s => s
  | n + 1, s =>
    let act := (List.range 128).filter (fun p => (s.pc p).state = .active)
    let load (p : Nat) : Int := (s.pc p).proj
    -- The moves shift load between ACTIVE channels, so the mean is that of the window.
    let total := (act.map load).sum
    let cnt : Int := act.length
    let cap : Int := windowCapacity ctrl
    let th : Int := balThresh ctrl
    match highestLoad load act with
    | none => s
    | some hot =>
      if 100 * (load hot * cnt - total) ≤ th * cap * cnt then s
      else match stripeToMove s hot with
        | none => endConstrained s hot
        | some e =>
          match s.surface e.1 with
          | none => s
          | some x =>
            match balanceTarget s e.1 x e.2.1 e.2.2 hot with
            | none => endConstrained s hot
            | some t =>
              let heat : Int := 32 * heatOf s e.1 e.2.1 e.2.2
              if th * cap * cnt < 200 * ((load t + heat) * cnt - total) then s
              else
                let s1 := setCarries s (s.store.carries ++ [⟨e.1, e.2.1, e.2.2, .balance, none, some t⟩])
                balanceLoop ctrl n (shiftLoad (pump s1) hot t heat)

-- Commands of the store.

/-- The metadata of R88: 1,024 stripes in two copies. DESIGN CHOICE: on the last working pseudo-channel, and the last in another stack. -/
def metaSurface (s : State) : Option Surface :=
  let ok := ((List.range 128).filter (fun p => (s.pc p).state = .active)).reverse
  match ok with
  | [] => none
  | p :: _ =>
    match ok.find? (fun q => stackOf q != stackOf p) with
    | none => none
    | some q => some
        { width := 0, height := 0, format := 0, pitch := stripeBytes, lines := 0, stripes := 1024, apart := 0, heat := 0, fixed := true,
          duplex := true, mask := 0, lost := 0, place := List.replicate 1024 p, twins := List.replicate 1024 q }

/-- R70: HBM training ends. Failing pseudo-channels are RETIRED, holding nothing, each with the PHY's report (R94); every other stripe is
free. A channel that SSP_RETIRE_CMD has retired before stays so until PORST_N (R90). -/
def hbmTrainingEffect (s : State) (failed : List Nat) : State :=
  let s1 := { s with store := { s.store with trained := true, landing := s.variant.landing,
                                             headroom := s.variant.headroom } }
  let s2 := forEach (List.range 128) s1 (fun s p =>
    s.setPc p { s.pc p with free := if failed.contains p ∨ (s.pc p).state ≠ .active then 0 else s.variant.stripesPerPc })
  let s3 := forEach failed s2 (fun s p => raise (leaveActive s p .retired) 37)
  s3.setSurface metaHandle (metaSurface s3)

/-- STRIPE_SCRUB_DONE: the oldest freed stripe of a pseudo-channel is zeroed and returns to the free pool (R75). -/
def execStripeScrubDone (pc : Fin 128) (s : State) : Host.Outcome State Fault Refusal :=
  runOn [.store] s (fun s =>
    let x := s.pc pc
    if x.scrub = 0 then s
    else s.setPc pc { x with scrub := x.scrub - 1, free := if x.state = .active then x.free + 1 else x.free })

/-- PATROL_SCRUB_READ: the scrub reads one word; it counts in no heat (R68, R69, R84). Deferred in self-refresh and paused
at THROTTLE (R413, R419). -/
def patrolRead (s : State) (p : Nat) (site : WordSite) (ecc : Ecc) : State :=
  if s.store.selfRefresh ∨ 2 ≤ s.health.level ∨ ¬ readable s p then s else readWord s p site ecc

/-- The load of each pseudo-channel is that of the window that ends (R84). -/
def latchLoads (s : State) : State := forEach (List.range 128) s (fun s p => s.setPc p { s.pc p with load := (s.pc p).bytes, proj := (s.pc p).bytes, bytes := 0 })

/-- HEAT_WINDOW_END (R84, R85): loads are computed, the loop runs, SSP_BAL_CTRL takes effect for the next window (R93). -/
def heatWindowEnd (s : State) : State :=
  let ctrl := s.store.balCtrl
  let s1 := latchLoads s
  let s2 := s1.wr R.SSP_CONSTRAINED (setBit (s1.rd R.SSP_CONSTRAINED) 8 false)
  let run := bit ctrl 0 && decide (0 < bits ctrl 31 24) && decide (s.health.level < 2)
  let s3 := if run then balanceLoop ctrl (bits ctrl 31 24) s2 else s2
  let s4 := if bit (s3.rd R.SSP_CONSTRAINED) 8 then
      s3.wr R.SSP_CONSTRAINED (satField (s3.rd R.SSP_CONSTRAINED) 31 16 1) else s3
  { s4 with store := { s4.store with heats := [], balCtrl := s4.cfg R.SSP_BAL_CTRL } }

def execHeatWindowEnd (s : State) : Host.Outcome State Fault Refusal := runOn [.store] s heatWindowEnd

/-- Counter of a carry's reason (R92). -/
def carryCounter : CarryReason → Nat
  | .balance => R.SSP_CARRY_CNT_BAL
  | .pin => R.SSP_CARRY_CNT_PIN
  | _ => R.SSP_CARRY_CNT_WEAR

/-- A stripe that has landed on a channel that is no longer ACTIVE, or outside a pin mask set since, is carried on (R82, R90). -/
def carryOn (s : State) (c : Carry) (x : Surface) (t : Nat) : State :=
  if (s.pc t).state ≠ .active then askCarry s c.handle c.stripe c.twin .wear
  else if permits x.mask t then s
  else askCarry s c.handle c.stripe c.twin .pin

/-- A carry in progress has copied its stripe (R86 steps 4 and 5). DESIGN CHOICE: of those that run and do not pause, the one started first. -/
def carryCopyDone (s : State) : State :=
  match s.store.carries.find? (fun c => c.target.isSome && !carryPaused s c) with
  | none => s
  | some c =>
    let s1 := setCarries s (s.store.carries.erase c)
    match s1.surface c.handle, c.target with
    | some x, some t =>
      let src := (x.copy c.twin).getD c.stripe 0
      let s2 := s1.setSurface c.handle (some (setPlace x c.twin c.stripe t))
      let s3 := (releaseStripe s2 src).bump (carryCounter c.reason) 1
      pump (checkRetired (carryOn s3 c x t))
    | _, _ => s1

/-- PC_RETRAIN_TIMEOUT: retraining has not restored the pseudo-channel within 1 ms: FAILED (R89). -/
def retrainTimeout (s : State) (p : Nat) : State := if (s.pc p).lostTraining then failPc s p else s

/-- HBM_PC_TRAINING_LOST: the PHY reports lost training; retraining starts (R89, R94). -/
def execHbmPcTrainingLost (pc : Fin 128) (s : State) : Host.Outcome State Fault Refusal :=
  runOn [.store] s (fun s =>
    let x := s.pc pc
    if x.lostTraining ∨ ¬ (x.state = .active ∨ x.state = .draining) then s
    else raise (s.setPc pc { x with lostTraining := true }) 37)

/-- HBM_PC_RETRAIN_DONE: retraining has restored the pseudo-channel (R89). -/
def execHbmPcRetrainDone (pc : Fin 128) (s : State) : Host.Outcome State Fault Refusal :=
  runOn [.store] s (fun s => s.setPc pc { s.pc pc with lostTraining := false })

/-- HBM_REFRESH_DUE: a refresh precedes the next grant of the pseudo-channel (R169). -/
def execHbmRefreshDue (pc : Fin 128) (s : State) : Host.Outcome State Fault Refusal :=
  runOn [.store] s (fun s => s.setPc pc { s.pc pc with refresh := true })

/-- Effect of a write of SSP_RETIRE_CMD (R93). DESIGN CHOICE: a write with GO = 0 asks for nothing, so it is not counted as ignored. -/
def sspRetireEffect (s : State) (v : Word) : State :=
  if ¬ bit v 31 then s
  else
    let p := bits v 6 0
    let pins := s.store.surfaces.all (fun e => match e.2 with
      | none => true
      | some x => pinMet s x.mask (some p))
    if (s.pc p).state = .active ∧ pins then drainPc s p
    else s.wr R.SSP_RESERVE_STAT (satField (setBit (s.rd R.SSP_RESERVE_STAT) 18 true) 31 24 1)

-- Views of the store (R73, R92).

/-- Word of SURF_ATTR. -/
def surfAttrWord (s : State) (a : Nat) : Word :=
  let h := a / 8
  let w := a % 8
  if w = 6 then
    match ownerOf s h with
    | some (q, seq, _) => word (seq.toNat * 65536 + q)
    | none => 0#32
  else match s.surface h with
    | none => 0#32
    | some x =>
      if w = 0 then word (x.height * 65536 + x.width)
      else if w = 1 then
        word (x.apart * 65536 + x.heat * 16384 + (if x.mask = 0 then 0 else 8192) + (if x.fixed then 4096 else 0)
          + (if x.duplex then 2048 else 0) + 1024 + x.format)
      else if w = 2 then word x.pitch
      else if w = 3 then word x.lines
      else if w = 4 then word x.stripes
      else if w = 5 then word x.lost
      else 0#32

/-- Word of SURF_PLACE. -/
def surfPlaceWord (s : State) (a : Nat) : Word :=
  match s.surface (a / 4) with
  | none => 0#32
  | some x => (x.place ++ x.twins).foldl (fun v p => if p / 32 = a % 4 then setBit v (p % 32) true else v) 0#32

end Sys2Proof.Machine
end

