-- ==== Sys2Proof/Machine/Fences.lean ====
section
/-!
DEFINITION. Buffer fences (R200 to R202), and the choice of a buffer in a ring by a writer and by a LATEST layer (R205,
R233).
-/
namespace Sys2Proof.Machine

-- Writers of R200.
def writerIngest : Nat := 1
def writerWb : Nat := 2
def writerUpload : Nat := 3
def writerCopy : Nat := 4
def writerSoft : Nat := 5

/-- Fence words of a handle. -/
def fence0 (h : Nat) : Nat := skey Space.FENCE (2 * h)
def fence1 (h : Nat) : Nat := skey Space.FENCE (2 * h + 1)

/-- SIG and WRITING of a handle's fence. -/
def State.sig (s : State) (h : Nat) : Bool := bit (s.sp (fence0 h)) 31
def State.writing (s : State) (h : Nat) : Bool := bit (s.sp (fence0 h)) 30
def State.stamp (s : State) (h : Nat) : Word := s.sp (fence1 h)

/-- A fence word 0. -/
def fenceWord (sig writing : Bool) (writer : Nat) : Word :=
  word ((if sig then 2147483648 else 0) + (if writing then 1073741824 else 0) + writer * 65536)

-- The run-ahead store (R176 to R178, R203).

/-- Beads held in the run-ahead store. -/
def raBeads (s : State) : Nat := ((List.range 8).map (fun g => ((s.group g).ra.map (·.got)).sum)).sum

/-- FSH_RA_LEVEL and the level of FSH_WM_RA after the store has changed (R176, R184). -/
def raLevel (s : State) : State :=
  let n := raBeads s
  let s1 := s.wr R.FSH_RA_LEVEL (word (n * 16 / 1024 % 32768))
  { s1 with fsh := { s1.fsh with raHigh := s1.fsh.raHigh || decide (1024 * bits (s1.cfg R.FSH_RA_WM) 14 0 < 16 * n) } }

/-- Discard the run-ahead lines of group `g` that a test picks, and count their beads (R178). -/
def raDrop (s : State) (g : Nat) (p : RaLine → Bool) : State :=
  let x := s.group g
  let n := ((x.ra.filter p).map (·.got)).sum
  let s1 := raLevel (s.setGroup g { x with ra := x.ra.filter (fun l => !p l) })
  if n = 0 then s1 else raise (s1.bump R.FSH_RA_DISCARD n) 52

/-- Whether a descriptor is fenced in a commit (R202). -/
def fenced (s : State) (n : Nat) : Bool :=
  let d := s.descPending n
  let l := s.descLive n
  d.enable && d.kind == 0 && d.srcMode == 0 && (d.handle != l.handle || !l.enable)

/-- A fence leaves SIG = 1: run-ahead data of descriptors that wait for it is discarded (R203). -/
def raFenceDown (s : State) (h : Nat) : State :=
  forEach (List.range 8) s (fun s g =>
    if (s.group g).ra.any (fun l => l.tag && l.handle == h && fenced s l.desc) then
      raDrop s g (fun l => l.tag && l.handle == h && fenced s l.desc)
    else s)

/-- Change fence word 0. -/
def putFence (s : State) (h : Nat) (w : Word) : State :=
  let s1 := s.setSp (fence0 h) w
  if s.sig h ∧ ¬ bit w 31 then raFenceDown s1 h else s1

/-- The words of an unallocated handle read zero, and nothing changes them (R201). -/
def setFence (s : State) (h : Nat) (sig writing : Bool) (writer : Nat) : State :=
  if (s.surface h).isNone then s else putFence s h (fenceWord sig writing writer)

/-- Signal a fence: SEQ_FENCE_STAMP counts, and STAMP takes it (R200). -/
def signalFence (s : State) (h writer : Nat) : State :=
  if (s.surface h).isNone then s
  else
    let n := s.rd R.SEQ_FENCE_STAMP + 1#32
    ((s.wr R.SEQ_FENCE_STAMP n).setSp (fence0 h) (fenceWord true false writer)).setSp (fence1 h) n

/-- A writer starts: SIG 0, WRITING 1. -/
def startFence (s : State) (h writer : Nat) : State := setFence s h false true writer

/-- A writer ends without a whole picture: SIG 0, WRITING 0. -/
def dropFence (s : State) (h writer : Nat) : State := setFence s h false false writer

/-- The fence of a handle that is allocated or freed (R201). -/
def clearFence (s : State) (h : Nat) : State := (s.setSp (fence0 h) 0#32).setSp (fence1 h) 0#32

/-- Stamp a is newer than stamp b (R200). -/
def newer (a b : Word) : Bool := let d := (a - b).toNat; decide (1 ≤ d ∧ d < 2147483648)

/-- Handles of a ring. -/
def ringHandles (base ring : Nat) : List Nat := (List.range (ring + 1)).map (· + base)

/-- The order in which a writer tries its ring: after `last`, from the first handle when there is none (R233). -/
def ringOrder (base ring : Nat) (last : Option Nat) : List Nat :=
  let hs := ringHandles base ring
  match last with
  | none => hs
  | some l => if base ≤ l ∧ l ≤ base + ring then rotate hs (l - base + 1) else hs

/-- Whether a handle is shown now by a live descriptor of some group (R233): named in LAYER_SRC word 0, or by the HANDLE
of an enabled FIXED descriptor. -/
def shownNow (s : State) (h : Nat) : Bool :=
  (List.range 4096).any (fun n =>
    let d := s.descLive n
    d.enable && d.kind == 0 &&
      (bits (s.spw Space.LAYER_SRC (2 * n)) 31 16 == h || (d.srcMode == 0 && d.handle == h)))

/-- The handle of `cand` with the newest STAMP, the lowest on equal stamps (R205). -/
def newestOf (s : State) : List Nat → Option Nat
  | [] => none
  | h :: rest =>
    match newestOf s rest with
    | none => some h
    | some b => if newer (s.stamp b) (s.stamp h) then some b else some h

/-- LAYER_SRC words of a descriptor. -/
def srcKey (n w : Nat) : Nat := skey Space.LAYER_SRC (2 * n + w)

/-- Handle shown by a descriptor in the most recent frame (R205). -/
def State.shownHandle (s : State) (n : Nat) : Nat := bits (s.sp (srcKey n 0)) 31 16

/-- Choose what descriptor `n`, as `d` of the decks of the next frame, shows (R205). `before`: it was shown in the frame
that ends; `count`: STALE counts. -/
def selectBuffer (d : Desc) (before count : Bool) (s : State) (n : Nat) : State :=
  if ¬ d.enable ∨ d.kind ≠ 0 then s.setSp (srcKey n 0) 0#32
  else if d.srcMode ≠ 1 then s.setSp (srcKey n 0) (word (d.handle * 65536))
  else
    let cand := (ringHandles d.handle d.ring).filter s.sig
    let old := s.shownHandle n
    let shown := match newestOf s cand with
      | some h => h
      | none => if before then old else d.handle
    let s1 := s.setSp (srcKey n 0) (word (shown * 65536))
    if before ∧ shown = old ∧ count then s1.setSp (srcKey n 1) (satAdd32 (s1.sp (srcKey n 1)) 1) else s1

/-- Whether a descriptor of a deck is a LATEST SURFACE layer. -/
def Desc.latest (d : Desc) : Bool := d.enable && d.kind == 0 && d.srcMode == 1

/-- A fence word 0 written (R201): both bits or neither changes nothing. -/
def fenceWrite (s : State) (h : Nat) (v : Word) : State :=
  if bit v 31 ∧ ¬ bit v 30 then signalFence s h writerSoft
  else if bit v 30 ∧ ¬ bit v 31 then
    if (s.surface h).isNone then s else putFence s h (setBits (setBit (s.sp (fence0 h)) 31 false) 18 16 writerSoft)
  else s

end Sys2Proof.Machine
end

