-- ==== Sys2Proof/Machine/RxStream.lean ====
section
/-!
DEFINITION. Receive streams (R250, R251, R257 to R262): settings and their check, policers, the seamless merger, line assembly,
frames and their buffers, and the IGMP reports of their paths.
-/
namespace Sys2Proof.Machine

-- Settings and counters (R275).

/-- Word `w` of a receive stream's settings. -/
def rxWord (s : State) (st w : Nat) : Word := s.spw Space.NMP_RXS (16 * st + w)

def rxEn (s : State) (st : Nat) : Bool := bit (rxWord s st 0) 31
def rxPartial (s : State) (st : Nat) : Bool := bit (rxWord s st 0) 28
def rxFormat (s : State) (st : Nat) : Nat := bits (rxWord s st 0) 7 0
def rxRing (s : State) (st : Nat) : Nat := bits (rxWord s st 0) 11 10
def rxHandle (s : State) (st : Nat) : Nat := bits (rxWord s st 1) 31 16
/-- ASM_LINES as written; what it reserves is taken at enable. -/
def rxSlots (s : State) (st : Nat) : Nat := bits (rxWord s st 1) 10 0

/-- One path of a receive stream (R257). -/
structure RxPath where
  port : Nat
  dstUdp : Nat
  dst : Nat
  src : Nat
  rate : Nat
  burst : Nat
  deriving DecidableEq, Repr

/-- Path A, or path B. -/
def rxPath (s : State) (st : Nat) (b : Bool) : RxPath :=
  let w (i : Nat) : Word := rxWord s st ((if b then 8 else 3) + i)
  ⟨bits (w 0) 3 0, bits (w 0) 31 16, (w 1).toNat, (w 2).toNat, bits (w 3) 16 0, bits (w 4) 23 0⟩

/-- Whether a path is enabled, its stream with it. -/
def pathEn (s : State) (st : Nat) (b : Bool) : Bool := rxEn s st && bit (rxWord s st 0) (if b then 29 else 30)

/-- Counter word of a receive stream. -/
def rxcKey (st w : Nat) : Nat := skey Space.NMP_RXC (16 * st + w)
def rxCount (s : State) (st w n : Nat) : State := s.setSp (rxcKey st w) (satAdd32 (s.sp (rxcKey st w)) n)

/-- STATUS of a receive stream (R275). -/
def rxStatus (s : State) (st : Nat) : State :=
  let x := s.rxs st
  s.setSp (rxcKey st 14) (word (x.state * 268435456 + x.err * 16777216 + x.last.getD 0 % 65536 * 256
    + (if x.liveA then 2 else 0) + (if x.liveB then 1 else 0)))

/-- Event NMP_Pnn_RX of a stream (R276): at the port of path A, or of path B when A is not enabled. -/
def rxRaise (s : State) (st : Nat) : State :=
  raise s (201 + 4 * (rxPath s st (!bit (rxWord s st 0) 30)).port)

-- IGMP (R250). Message layouts of RFC 3376. PRESUMED.

/-- An IGMPv3 membership report with one record; `kind` is the record type. -/
def igmpReport (s : State) (p kind group : Nat) (sources : List Nat) : State :=
  let record := [BitVec.ofNat 8 kind, 0#8] ++ beBytes 2 sources.length ++ beBytes 4 group ++ sources.flatMap (beBytes 4)
  let msg (sum : Nat) : List Byte := [0x22#8, 0#8] ++ beBytes 2 sum ++ [0#8, 0#8, 0#8, 1#8] ++ record
  enqueue s p (ctrlTc s p) (ethFrame s p (ctrlTc s p) (multicastMac 0xE0000016) 0x0800
    (ipv4 (portIp s p) 0xE0000016 0 1 2 [0x94#8, 4#8, 0#8, 0#8] (msg (inetSum (msg 0))))) none

/-- A membership: port, group, source (0 any). -/
abbrev Member := Nat × Nat × Nat

/-- Memberships of a stream's enabled paths. -/
def rxMembers (s : State) (st : Nat) : List Member :=
  ([false, true].filter (pathEn s st)).filterMap (fun b =>
    let x := rxPath s st b
    if isMulticast x.dst then some (x.port, x.dst, x.src) else none)

/-- Memberships of a port: those of its receive paths, and 224.0.1.129 while its PTP role is not DISABLED. -/
def portMembers (s : State) (p : Nat) : List Member :=
  (((List.range 256).flatMap (rxMembers s)).filter (fun m => m.1 == p))
    ++ (if ptpRole s p = 0 then [] else [(p, 0xE0000181, 0)])

/-- Report a membership: INCLUDE of its source, or EXCLUDE of none; `change` at enable, else in answer to a query. -/
def igmpJoin (change : Bool) (s : State) (m : Member) : State :=
  let c := if change then 2 else 0
  if m.2.2 = 0 then igmpReport s m.1 (2 + c) m.2.1 [] else igmpReport s m.1 (1 + c) m.2.1 [m.2.2]

/-- Leave a membership: INCLUDE of no source. -/
def igmpLeave (s : State) (m : Member) : State := igmpReport s m.1 3 m.2.1 []

/-- An IGMP query for a group, 0 for every group, is answered (R250). -/
def igmpQuery (s : State) (p group : Nat) : State :=
  forEach ((portMembers s p).filter (fun m => group == 0 || m.2.1 == group)) s (igmpJoin false)

-- Samples on the wire and in a surface (R101, R251).

/-- Receive formats: bytes of a pixel group, its pixels across, bits of a sample. -/
def rxGroup (f : Nat) : Option (Nat × Nat × Nat) :=
  match f with
  | 0x08 => some (5, 2, 10)
  | 0x0B => some (15, 4, 10)
  | 0x01 => some (3, 1, 8)
  | 0x03 => some (15, 4, 10)
  | 0x04 => some (6, 1, 16)
  | 0x09 => some (6, 2, 8)
  | 0x0A => some (15, 4, 10)
  | _ => none

/-- Samples of `n` bits each, most significant bit first. -/
def unpackBits (n : Nat) (bs : List Byte) : List Nat :=
  let v := beNat bs
  let k := 8 * bs.length / n
  (List.range k).map (fun i => v / 2 ^ (n * (k - 1 - i)) % 2 ^ n)

/-- Samples a surface line of format `f` holds. -/
def lineSamples (f w : Nat) : Nat := if f = 0x08 then 2 * w else if semiPlanar f then w else 3 * w

/-- Where the samples of one pixel group at pixel `x` of row `y` go: surface line, first sample, samples in line order. The rows
of a 4:2:0 group are `y` and `y + 1` (ST 2110-20, PRESUMED). -/
def groupParts (f h x y : Nat) (sm : List Nat) : List (Nat × Nat × List Nat) :=
  let g (i : Nat) : Nat := sm.getD i 0
  match f with
  | 0x08 => [(y, 2 * x, sm)]
  | 0x0B => [(y, 3 * x, (List.range (sm.length / 3)).flatMap (fun k => [g (3 * k + 1), g (3 * k), g (3 * k + 2)]))]
  | 0x01 | 0x03 | 0x04 => [(y, 3 * x, sm)]
  | _ =>
    let n := sm.length / 6
    let pick (a b : Nat) : List Nat := (List.range n).flatMap (fun k => [g (6 * k + a), g (6 * k + b)])
    [(y, x, pick 0 1), (y + 1, x, pick 2 3), (h + y / 2, x, pick 4 5)]

/-- Payload of a line from its samples (R101, R251): alpha is opaque, ignored bits and unused fields are zero. -/
def samplesPayload (f w : Nat) (sm : List Nat) : List Byte :=
  let g (i : Nat) : Nat := sm.getD i 0
  match f with
  | 0x08 => (List.range (ceilDiv (2 * w) 3)).flatMap (fun k => leBytes 4 (g (3 * k) + g (3 * k + 1) * 1024 + g (3 * k + 2) * 1048576))
  | 0x0B => (List.range w).flatMap (fun k => leBytes 4 (g (3 * k) + g (3 * k + 1) * 1024 + g (3 * k + 2) * 1048576))
  | 0x01 => (List.range w).flatMap (fun k => leBytes 4 (g (3 * k) + g (3 * k + 1) * 256 + g (3 * k + 2) * 65536 + 0xFF000000))
  | 0x03 => (List.range w).flatMap (fun k => leBytes 4 (g (3 * k) + g (3 * k + 1) * 1024 + g (3 * k + 2) * 1048576 + 0xC0000000))
  | 0x04 => (List.range w).flatMap (fun k => leBytes 8 (g (3 * k) + g (3 * k + 1) * 65536 + g (3 * k + 2) * 4294967296 + 0x3C00000000000000))
  | 0x09 => (List.range w).flatMap (fun k => leBytes 1 (g k))
  | _ => (List.range w).flatMap (fun k => leBytes 2 (g k * 64))

-- Frames (R261).

def setRxFrames (s : State) (st : Nat) (fs : List RxFrame) : State := s.setRxs st { s.rxs st with frames := fs }

/-- Timestamps of frames already closed, with one more (R260). DEDUCED: one that lies more than half the range of timestamps behind the newest
is forgotten, as it may come again. -/
def closedWith (ts : Word) (closed : List Word) : List Word :=
  let top := closed.foldl (fun m t => if newer t m then t else m) ts
  (ts :: closed.filter (· != ts)).filter (fun t => t == top || newer top t)

/-- The frame with the older timestamp of those in a list. -/
def oldestFrame : List RxFrame → Option RxFrame
  | [] => none
  | f :: fs => some (fs.foldl (fun m g => if newer m.ts g.ts then g else m) f)

/-- Lines whose write does not complete are lost: SSP poisons them (R78, R261). -/
def loseLines (s : State) (h : Nat) (is : List Nat) : State :=
  ingestEnds (forEach is s (fun s i => poisonLine s h i)) (fun e => e.1 == h && is.contains e.2)

/-- A frame closes (R261): every line not complete is lost; its fence is left signalled, or unsignalled. `cut`: it ends early. -/
def closeRxFrame (s : State) (st : Nat) (f : RxFrame) (cut : Bool) : State :=
  let x := s.rxs st
  let s1 := s.setRxs st { x with frames := x.frames.filter (fun g => g.ts != f.ts), closed := closedWith f.ts x.closed }
  match f.handle with
  | none => s1
  | some h =>
    let n := ((s1.surface h).map (·.lines)).getD 0
    let missing := (List.range n).filter (fun i => !f.done.contains i && !f.lost.contains i)
    let s2 := rxCount (loseLines s1 h missing) st 3 missing.length
    if missing = [] ∧ f.lost = [] ∧ ¬ cut then rxCount (signalFence s2 h writerIngest) st 0 1
    else
      let s3 := if rxPartial s2 st then signalFence s2 h writerIngest else dropFence s2 h writerIngest
      rxRaise (rxCount s3 st 1 1) st

/-- Every open frame of a stream is cut (R261). -/
def cutRxFrames (s : State) (st : Nat) : State := forEach (s.rxs st).frames s (fun s f => closeRxFrame s st f true)

/-- Frames that a freed handle cuts (R261). -/
def cutRxHandle (s : State) (h : Nat) : State :=
  forEach (List.range 256) s (fun s st =>
    forEach ((s.rxs st).frames.filter (fun f => f.handle == some h)) s (fun s f => closeRxFrame s st f true))

/-- First three conditions on a ring handle: allocated, of the stream's format, of the size of the ring's first handle. -/
def ringFits (s : State) (st h : Nat) : Bool :=
  match s.surface h, s.surface (rxHandle s st) with
  | some x, some y => x.format == rxFormat s st && x.width == y.width && x.height == y.height
  | _, _ => false

/-- Tried handles up to the first that qualifies, and that one (R261). -/
def pickBuffer (s : State) (st : Nat) : List Nat → Nat × Option Nat
  | [] => (0, none)
  | h :: rest =>
    if ringFits s st h then
      if ¬ s.writing h ∧ ¬ shownNow s h then (0, some h) else pickBuffer s st rest
    else
      let r := pickBuffer s st rest
      (r.1 + 1, r.2)

/-- A frame opens (R261): its buffer is chosen, or it is skipped. -/
def openRxFrame (s : State) (st : Nat) (ts : Word) : State :=
  let s1 := match oldestFrame (s.rxs st).frames with
    | some a => if 2 ≤ (s.rxs st).frames.length then closeRxFrame s st a false else s
    | none => s
  let x := s1.rxs st
  let (bad, pick) := pickBuffer s1 st (ringOrder (rxHandle s1 st) (rxRing s1 st) x.last)
  let s2 := rxCount (s1.setRxs st { x with frames := x.frames ++ [⟨ts, pick, false, [], [], []⟩], last := (pick <|> x.last) }) st 13 bad
  match pick with
  | some h => rxStatus (startFence s2 h writerIngest) st
  | none => rxRaise (rxCount s2 st 2 1) st

-- Line assembly (R260).

/-- Open lines of a stream. -/
def openLines (x : RxStream) : Nat := (x.frames.map (fun f => f.slots.length)).sum

/-- The open line with the oldest frame and the lowest line number is closed as lost. -/
def stealSlot (s : State) (st : Nat) : State :=
  let x := s.rxs st
  match oldestFrame (x.frames.filter (fun f => !f.slots.isEmpty)) with
  | none => s
  | some f =>
    let i := (f.slots.map (·.line)).foldl min (((f.slots.head?).map (·.line)).getD 0)
    let f1 := { f with slots := f.slots.filter (fun t => t.line != i), lost := i :: f.lost }
    let s1 := setRxFrames s st (x.frames.map (fun g => if g.ts = f.ts then f1 else g))
    rxCount (match f.handle with
      | some h => loseLines s1 h [i]
      | none => s1) st 3 1

/-- Replace a frame of a stream. -/
def putRxFrame (s : State) (st : Nat) (f : RxFrame) : State :=
  setRxFrames s st ((s.rxs st).frames.map (fun g => if g.ts = f.ts then f else g))

def getRxFrame (s : State) (st : Nat) (ts : Word) : Option RxFrame := (s.rxs st).frames.find? (fun f => f.ts == ts)

/-- Put samples at a place of a list. -/
def overlay (xs : List (Option Nat)) (at_ : Nat) (vs : List Nat) : List (Option Nat) :=
  xs.zipIdx.map (fun p => if at_ ≤ p.2 ∧ p.2 < at_ + vs.length then some (vs.getD (p.2 - at_) 0) else p.1)

/-- The words of a complete line are read from the assembly store (R260, R394). DEDUCED: uncorrectable ones cannot be written, so their beads
are VOID and the line is poison (R40). -/
def asmRead (s : State) (asm : Ecc) : Bool × State :=
  let (e, s1) := sramCheck s 6 0
  (decide (e = .ue) || decide (asm = .ue), s1)

/-- Place samples of one line of a frame: the slot opens with the line's first packet, and a complete line is written. -/
def placePart (st h : Nat) (ts : Word) (x : Surface) (asm : Ecc) (s : State) (e : Nat × Nat × List Nat) : State :=
  match getRxFrame s st ts with
  | none => s
  | some f =>
    let i := e.1
    if f.done.contains i ∨ f.lost.contains i then s
    else
      let s1 := if f.slots.any (fun t => t.line == i) then s
        else
          let s1 := if openLines (s.rxs st) < (s.rxs st).slots then s else stealSlot s st
          match getRxFrame s1 st ts with
          | none => s1
          | some f => poisonLine (putRxFrame s1 st { f with slots := f.slots ++ [⟨i, List.replicate (lineSamples x.format x.width) none⟩] }) h i
      match getRxFrame s1 st ts with
      | none => s1
      | some f =>
        let slots := f.slots.map (fun t => if t.line = i then { t with samples := overlay t.samples e.2.1 e.2.2 } else t)
        match slots.find? (fun t => t.line == i) with
        | none => s1
        | some t =>
          if t.samples.all Option.isSome then
            let (bad, s2) := asmRead (putRxFrame s1 st { f with slots := slots.filter (fun t => t.line != i), done := i :: f.done }) asm
            ingestLine s2 h i (samplesPayload x.format x.width (t.samples.map (fun v => v.getD 0))) bad
          else putRxFrame s1 st { f with slots := slots }

/-- One sample row data header and its data. -/
structure Srd where
  len : Nat
  field : Bool
  row : Nat
  off : Nat
  deriving DecidableEq, Repr

/-- The SRD headers of a payload after the extended sequence number, at most three (ST 2110-20). -/
def srdsOf : Nat → List Byte → List Srd × List Byte
  | 0, bs => ([], bs)
  | fuel + 1, bs =>
    let r := be bs 2 2
    let o := be bs 4 2
    let d : Srd := ⟨be bs 0 2, decide (32768 ≤ r), r % 32768, o % 32768⟩
    if 32768 ≤ o then
      let t := srdsOf fuel (bs.drop 6)
      (d :: t.1, t.2)
    else ([d], bs.drop 6)

/-- A malformed SRD (R260): outside the surface, or not a whole number of pixel groups; interlaced rows are not supported. -/
def srdBad (f : Nat) (x : Surface) (g : Nat × Nat × Nat) (d : Srd) : Bool :=
  let n := d.len / g.1 * g.2.1
  d.field || decide (d.len = 0) || decide (d.len % g.1 ≠ 0) || decide (x.width < d.off + n) || decide (x.height ≤ d.row)
    || (semiPlanar f && d.row % 2 == 1)

/-- Place the pixel groups of an SRD. -/
def placeSrd (st h : Nat) (ts : Word) (x : Surface) (g : Nat × Nat × Nat) (asm : Ecc) (s : State) (d : Srd × List Byte) : State :=
  let groups := d.1.len / g.1
  let parts := (List.range groups).flatMap (fun k =>
    groupParts x.format x.height (d.1.off + k * g.2.1) d.1.row (unpackBits g.2.2 ((d.2.drop (k * g.1)).take g.1)))
  let lines := (parts.map (·.1)).eraseDups
  forEach lines s (fun s i =>
    match parts.find? (fun e => e.1 == i) with
    | some e => placePart st h ts x asm s (i, e.2.1, (parts.filter (fun e => e.1 == i)).flatMap (fun e => e.2.2))
    | none => s)

/-- Cut the data after the headers into the parts of its SRDs. -/
def splitSrds : List Srd → List Byte → List (Srd × List Byte)
  | [], _ => []
  | d :: ds, bs => (d, bs.take d.len) :: splitSrds ds (bs.drop d.len)

/-- An accepted packet starts the close timer of the frames with older timestamps (R261). -/
def startClosing (s : State) (st : Nat) (ts : Word) : State :=
  setRxFrames s st ((s.rxs st).frames.map (fun f => if newer ts f.ts then { f with closing := true } else f))

/-- A packet the merger has accepted (R260, R261): its frame opens, its groups are placed, its marker starts the close timer. -/
def rxPlace (s : State) (st : Nat) (ts : Word) (marker : Bool) (body : List Byte) (asm : Ecc) : State :=
  let x := s.rxs st
  if x.closed.contains ts ∧ (getRxFrame s st ts).isNone then rxCount s st 11 1
  else
    let s1 := startClosing (if (getRxFrame s st ts).isSome then s else openRxFrame s st ts) st ts
    match getRxFrame s1 st ts with
    | none => s1
    | some f =>
      let s2 := if marker then putRxFrame s1 st { f with closing := true } else s1
      match f.handle, rxGroup (rxFormat s2 st) with
      | some h, some g =>
        match s2.surface h with
        | none => s2
        | some sf =>
          let (ds, data) := srdsOf 3 body
          if ds.any (srdBad sf.format sf g) ∨ data.length < (ds.map (·.len)).sum then rxCount s2 st 12 1
          else forEach (splitSrds ds data) s2 (placeSrd st h ts sf g asm)
      | _, _ => s2

-- The merger and the policers (R258, R259).

/-- Sequence number a is newer than b. -/
def seqNewer (a b : Nat) : Bool := newer (word a) (word b)

/-- The merger takes a packet with sequence number `n` (R259). -/
def rxMerge (s : State) (st n : Nat) (ts : Word) (marker : Bool) (body : List Byte) (asm : Ecc) : State :=
  let x := s.rxs st
  let take (q : Nat) : State :=
    let near (m : Nat) : Bool := decide ((word (q + 4294967296 - m)).toNat < 32768)
    rxPlace (rxStatus (s.setRxs st { x with q := some q, seen := n :: x.seen.filter near, state := 2 }) st) st ts marker body asm
  match x.q with
  | none => take n
  | some q =>
    if x.seen.contains n then rxCount s st 10 1
    else if seqNewer n q then take n
    else if (word (q + 4294967296 - n)).toNat < 32768 then take q
    else rxCount s st 11 1

/-- Tokens of a path's policer now, in 1/8000 byte (R258). -/
def tokensNow (s : State) (p : RxPath) (tok at_ : Nat) : Nat := min (8000 * p.burst) (tok + p.rate * (s.time64 - at_))

/-- A path delivers a packet: liveness and its own sequence gaps (R259). -/
def pathArrival (s : State) (st : Nat) (b : Bool) (n : Nat) : State :=
  let x := s.rxs st
  let last := if b then x.lastB else x.lastA
  let gap := match last with
    | some l => if seqNewer n l then (word (n + 4294967296 - l)).toNat - 1 else 0
    | none => 0
  let now := match last with
    | some l => if seqNewer n l then n else l
    | none => n
  let was := if b then x.liveB else x.liveA
  let s1 := s.setRxs st (if b then { x with lastB := some now, liveB := true } else { x with lastA := some now, liveA := true })
  let s2 := rxCount (rxCount s1 st (if b then 5 else 4) 1) st (if b then 9 else 8) gap
  if was then s2 else rxRaise (rxStatus s2 st) st

/-- A packet of `len` frame bytes reaches a path's policer (R258), and the merger when it passes. `rtp` is the packet from its RTP
header on. -/
def rxPacket (s : State) (st : Nat) (b : Bool) (len : Nat) (rtp : List Byte) (asm : Ecc) : State :=
  let p := rxPath s st b
  let x := s.rxs st
  let tok := tokensNow s p (if b then x.tokB else x.tokA) (if b then x.tokTimeB else x.tokTimeA)
  let pass := p.rate == 0 || decide (8000 * len ≤ tok)
  let left := if p.rate = 0 then tok else if pass then tok - 8000 * len else tok
  let s1 := s.setRxs st (if b then { x with tokB := left, tokTimeB := s.time64 } else { x with tokA := left, tokTimeA := s.time64 })
  if ¬ pass then rxRaise ((rxCount s1 st (if b then 7 else 6) 1).setFlag (R.NMP_Pnn_EVT p.port) 1) st
  else
    let head := 12 + 4 * (byteAt rtp 0 % 16)
    let ext := if (byteAt rtp 0).testBit 4 then 4 + 4 * be rtp (head + 2) 2 else 0
    let body := rtp.drop (head + ext)
    let n := be body 0 2 * 65536 + be rtp 2 2
    rxMerge (pathArrival s1 st b n) st n (word (be rtp 4 4)) ((byteAt rtp 1).testBit 7) (body.drop 2) asm

/-- Whether a UDP packet matches a path (R257). -/
def pathMatches (s : State) (p src dst udp : Nat) (rtp : List Byte) (st : Nat) (b : Bool) : Bool :=
  let x := rxPath s st b
  pathEn s st b && ((s.rxs st).state == 1 || (s.rxs st).state == 2) && x.port == p && x.dst == dst && x.dstUdp == udp
    && (x.src == 0 || x.src == src) && decide (byteAt rtp 0 / 64 = 2) && decide (byteAt rtp 1 % 128 = bits (rxWord s st 0) 22 16)

-- Enable and disable (R257, R261).

/-- Two paths match the same packets. -/
def pathsMeet (a b : RxPath) : Bool :=
  a.port == b.port && a.dst == b.dst && a.dstUdp == b.dstUdp && (a.src == b.src || a.src == 0 || b.src == 0)

/-- Bytes a stream would reserve in the assembly store; none when they cannot be. -/
def rxReserve (s : State) (st : Nat) : Option Nat :=
  match s.surface (rxHandle s st) with
  | none => none
  | some x =>
    let n := rxSlots s st * x.pitch
    let others := (((List.range 256).filter (· ≠ st)).map (fun i => (s.rxs i).reserved)).sum
    if 1 ≤ rxSlots s st ∧ rxSlots s st ≤ 1024 ∧ others + n ≤ 67108864 then some n else none

/-- First failing check at enable, 0 for none (R257). -/
def rxCheck (s : State) (st : Nat) : Nat :=
  let en := [false, true].filter (pathEn s st)
  if (rxGroup (rxFormat s st)).isNone then 1
  else if en = [] ∨ (en.length = 2 ∧ pathsMeet (rxPath s st false) (rxPath s st true)) then 2
  else if en.any (fun b => portMode s (rxPath s st b).port == 0) then 3
  else if (rxReserve s st).isNone then 4
  else 0

/-- A stream is enabled (R257 to R260): its policers start full (DESIGN CHOICE). -/
def rxEnable (s : State) (st : Nat) : State :=
  let fresh : RxStream := { RxStream.reset with closed := [], tokA := 8000 * (rxPath s st false).burst, tokTimeA := s.time64,
                                                tokB := 8000 * (rxPath s st true).burst, tokTimeB := s.time64 }
  match rxCheck s st with
  | 0 => rxStatus (s.setRxs st { fresh with state := 1, reserved := (rxReserve s st).getD 0, slots := rxSlots s st }) st
  | c => rxRaise (rxStatus (s.setRxs st { fresh with state := 3, err := c }) st) st

/-- A stream is disabled: a frame in progress is cut. -/
def rxDisable (s : State) (st : Nat) : State := rxStatus ((cutRxFrames s st).setRxs st RxStream.reset) st

/-- Bits of a word of NMP_RXS. -/
def rxMask (w : Nat) : Word :=
  match w with
  | 0 => 0xF07F0CFF#32
  | 1 => 0xFFFF07FF#32
  | 2 => 0x0000FFFF#32
  | 3 | 8 => 0xFFFF000F#32
  | 4 | 5 | 9 | 10 => 0xFFFFFFFF#32
  | 6 | 11 => 0x0001FFFF#32
  | 7 | 12 => 0x00FFFFFF#32
  | _ => 0#32

/-- The tokens of a stream's policers up to now, at the rates in force so far (R258). -/
def settleTokens (s : State) (st : Nat) : State :=
  let x := s.rxs st
  s.setRxs st { x with tokA := tokensNow s (rxPath s st false) x.tokA x.tokTimeA, tokTimeA := s.time64,
                       tokB := tokensNow s (rxPath s st true) x.tokB x.tokTimeB, tokTimeB := s.time64 }

/-- A write of an NMP_RXS word takes effect (R250, R257): tokens grown so far stay (R258). -/
def rxConfigEffect (s : State) (a : Nat) (v : Word) : State :=
  let st := a / 16
  let s := settleTokens s st
  let before := rxMembers s st
  let was := rxEn s st
  let s1 := s.setSpw Space.NMP_RXS a (v &&& rxMask (a % 16))
  let s2 := if rxEn s1 st ∧ ¬ was then rxEnable s1 st else if was ∧ ¬ rxEn s1 st then rxDisable s1 st else s1
  let after := rxMembers s2 st
  forEach (after.filter (fun m => !before.contains m)) (forEach (before.filter (fun m => !after.contains m)) s2 igmpLeave)
    (igmpJoin true)

-- Timers.

/-- RX_FRAME_CLOSE: the close timer of a frame ends (R261). -/
def execRxFrameClose (st : Fin 256) (ts : Word) (s : State) : Host.Outcome State Fault Refusal :=
  runOn [.store, .compose, .receive] s (fun s => match getRxFrame s st ts with
    | some f => if f.closing then closeRxFrame s st f false else s
    | none => s)

/-- RX_STREAM_SILENCE: no packet for 100 ms, so CLOSE_US after the last one is past (R261). -/
def execRxStreamSilence (st : Fin 256) (s : State) : Host.Outcome State Fault Refusal :=
  runOn [.store, .compose, .receive] s (fun s => forEach (s.rxs st).frames s (fun s f => closeRxFrame s st f false))

/-- A path has delivered no packet for 10 ms (R259); a stream left with no live path forgets its sequence numbers, and its frames
are cut (R261). -/
def pathSilent (s : State) (st : Nat) (b : Bool) : State :=
  let x := s.rxs st
  if ¬ (if b then x.liveB else x.liveA) then s
  else
    let y := if b then { x with liveB := false } else { x with liveA := false }
    let s1 := rxRaise (rxStatus (s.setRxs st y) st) st
    if y.liveA ∨ y.liveB then s1
    else
      let s2 := cutRxFrames s1 st
      rxStatus (s2.setRxs st { s2.rxs st with q := none, seen := [], state := 1 }) st

def execRxPathLivenessTimeout (st : Fin 256) (pathB : Bool) (s : State) : Host.Outcome State Fault Refusal :=
  runOn [.store, .compose, .receive] s (fun s => pathSilent s st pathB)

/-- A write to a counter word of NMP_RXC or NMP_TXC sets it to zero; STATUS words and word 5 of NMP_TXC keep (R275). -/
def nmpClearEffect (s : State) (tx : Bool) (a : Nat) : State :=
  if tx then (if a % 8 < 4 then s.setSpw Space.NMP_TXC a 0#32 else s)
  else if a % 16 < 14 then s.setSpw Space.NMP_RXC a 0#32 else s

end Sys2Proof.Machine
end

