-- ==== Sys2Proof/Machine/Scale.lean ====
section
/-!
DEFINITION. Polyphase scaling (05_scaling.md): grids, phases, filters, the samples of a destination line, and the
coefficient banks.
-/
namespace Sys2Proof.Machine

/-- Formats with chroma subsampled horizontally, and vertically (R128). -/
def hSub2 (f : Nat) : Bool := f == 0x08 || f == 0x09 || f == 0x0A
def vSub2 (f : Nat) : Bool := f == 0x09 || f == 0x0A

/-- Formats without an alpha of their own (R102). -/
def noAlpha (f : Nat) : Bool := f == 0x08 || f == 0x09 || f == 0x0A || f == 0x0B

/-- One axis of one grid (R128 to R130). -/
structure Axis where
  /-- Source length S on the luma grid and destination length D. -/
  src : Nat
  dst : Nat
  /-- The grid is subsampled on this axis; interstitial siting. -/
  sub : Bool
  inter : Bool
  /-- First grid sample of the source rectangle, and samples of the whole surface on this grid. -/
  start : Nat
  full : Nat
  deriving DecidableEq, Repr

/-- Grid length of the source rectangle. -/
def Axis.len (a : Axis) : Nat := if a.sub then a.src / 2 else a.src

/-- num and den of R129. -/
def Axis.numDen (a : Axis) (u : Nat) : Int × Nat :=
  let p : Int := ((2 * u + 1) * a.src : Nat)
  if ¬ a.sub then (p - a.dst, 2 * a.dst)
  else if a.inter then (p - 2 * (a.dst : Int), 4 * a.dst)
  else (p - a.dst, 4 * a.dst)

/-- Index and phase of a destination coordinate (R129). -/
def Axis.index (a : Axis) (u : Nat) : Int × Nat :=
  let (num, den) := a.numDen u
  let i := num / (den : Int)
  let r := (num - i * den).toNat
  let ph := (64 * r + den / 2) / den
  if ph = 64 then (i + 1, 0) else (i, ph)

/-- Bypass (R130). -/
def Axis.bypass (a : Axis) : Bool :=
  if a.sub then a.inter && decide (a.src = 2 * a.dst) else decide (a.src = a.dst)

/-- Absolute grid position of index `n` under an EDGE mode; none for a ZERO sample (R132). -/
def Axis.at (a : Axis) (edge : Nat) (n : Int) : Option Nat :=
  let last : Int := (a.len : Int) - 1
  let clamp (x : Int) : Nat := (min (max x 0) last).toNat
  if edge = 3 then some (min (max ((a.start : Int) + n) 0) ((a.full : Int) - 1)).toNat
  else if edge = 2 then (if 0 ≤ n ∧ n ≤ last then some (a.start + n.toNat) else none)
  else if edge = 1 then
    some (a.start + clamp (if n < 0 then -n else if last < n then 2 * last - n else n))
  else some (a.start + clamp n)

/-- Horizontal axis of channel `ch` (0 to 2, 3 alpha) of a layer over its surface. -/
def hAxis (d : Desc) (x : Surface) (ch : Nat) : Axis :=
  let c := (ch == 1 || ch == 2) && hSub2 x.format
  ⟨d.srcW, d.dstW, c, d.csite.testBit 0, if c then d.srcX / 2 else d.srcX, if c then x.width / 2 else x.width⟩

/-- Vertical axis of channel `ch`. -/
def vAxis (d : Desc) (x : Surface) (ch : Nat) : Axis :=
  let c := (ch == 1 || ch == 2) && vSub2 x.format
  ⟨d.srcH, d.dstH, c, d.csite.testBit 1, if c then d.srcY / 2 else d.srcY, if c then x.height / 2 else x.height⟩

/-- Stored line that holds grid line `n` of channel `ch` (R72). -/
def storedLine (x : Surface) (ch n : Nat) : Nat :=
  if (ch == 1 || ch == 2) && vSub2 x.format then x.height + n else n

/-- 32-bit little-endian unit `i` of a payload. -/
def unit32 (bs : List Byte) (i : Nat) : Nat := leNat ((bs.drop (4 * i)).take 4)

/-- 10-bit field `k` of a 32-bit unit. -/
def field10 (w k : Nat) : Nat := w / 2 ^ (10 * k) % 1024

/-- Sample `n` of the sequence of format 0x08 (R101). -/
def sample422 (bs : List Byte) (n : Nat) : Nat := field10 (unit32 bs (n / 3)) (n % 3)

/-- Channel `ch` of grid column `c` of a payload, widened to 16 bits (R101, R102). -/
def unpackCh (f : Nat) (bs : List Byte) (ch c : Nat) : Nat :=
  if f = 0x01 then (if ch = 3 then byteAt bs (4 * c + 3) * 257 else byteAt bs (4 * c + ch) * 256)
  else if f = 0x02 then (if ch = 3 then byteAt bs (4 * c + 3) * 257 else byteAt bs (4 * c + 2 - ch) * 256)
  else if f = 0x03 then
    let w := unit32 bs c
    if ch = 3 then w / 1073741824 * 0x5555 else field10 w ch * 64
  else if f = 0x04 then byteAt bs (8 * c + 2 * ch) + 256 * byteAt bs (8 * c + 2 * ch + 1)
  else if f = 0x10 then (if ch = 3 then byteAt bs c * 257 else 0)
  else if ch = 3 then 0xFFFF
  else if f = 0x08 then sample422 bs (if ch = 0 then 2 * c + 1 else if ch = 1 then 4 * c else 4 * c + 2) * 64
  else if f = 0x09 then (if ch = 0 then byteAt bs c else byteAt bs (2 * c + (ch - 1))) * 256
  else if f = 0x0A then
    let o := if ch = 0 then 2 * c else 4 * c + 2 * (ch - 1)
    (byteAt bs o + 256 * byteAt bs (o + 1)) / 64 * 64
  else field10 (unit32 bs c) ch * 64

/-- Word address of a coefficient (R136). -/
def coefAddr (b ph k : Nat) : Nat := 256 * b + 4 * ph + k / 2

/-- coef_b[ph][k] (R136). -/
def coef (s : State) (b ph k : Nat) : Int :=
  let w := s.spw Space.COEF (coefAddr b ph k)
  signed 12 (if k % 2 = 0 then bits w 11 0 else bits w 27 16)

/-- Clamp an accumulated sum of integer codes (R133). -/
def clampCode (acc : Int) : Calc Nat := do
  let v := (acc + 512) / 1024
  if v < 0 ∨ 65535 < v then Calc.count
  return (min (max v 0) 65535).toNat

/-- RN(c / 1024): exact (R134). -/
def hCoef (c : Int) : Nat := (if c < 0 then 32768 else 0) + hRoundMag (c.natAbs * 16384) 1

/-- A binary16 sum of products, left to right (R134). -/
def hSum : List (Int × Nat) → Calc Nat
  | [] => return 0
  | (c, x) :: rest => do
    let p ← hMul (hCoef c) x
    go p rest
where go (acc : Nat) : List (Int × Nat) → Calc Nat
  | [] => return acc
  | (c, x) :: rest => do
    let p ← hMul (hCoef c) x
    let a ← hAdd acc p
    go a rest

/-- A filter over taps with their samples (R131, R133, R134). -/
def filterTaps (f : Nat) (taps : List (Int × Nat)) : Calc Nat :=
  if f = 0x04 then hSum taps else clampCode ((taps.map (fun t => t.1 * (t.2 : Int))).sum)

/-- Source sample of a grid position as it enters a filter: ZERO samples are 0; a missing alpha is opaque inside the
grid (R132, R134, R135). -/
def srcSample (f : Nat) (bs : List Byte) (ch : Nat) (c : Option Nat) : Nat :=
  match c with
  | none => 0
  | some c => let v := unpackCh f bs ch c; if f = 0x04 then hSat v else v

/-- Horizontal stage of one channel at destination column `u` of one stored line (R131). -/
def hStage (s : State) (d : Desc) (x : Surface) (ch : Nat) (raw : Bool) (bs : List Byte) (u : Nat) : Calc Nat :=
  let ax := hAxis d x ch
  let (i, ph) := ax.index u
  if ax.bypass then
    match ax.at d.edge i with
    | none => return 0
    | some c => return (if raw then unpackCh x.format bs ch c else srcSample x.format bs ch (some c))
  else filterTaps x.format ((List.range 8).map (fun k =>
    (coef s d.hbank ph k, srcSample x.format bs ch (ax.at d.edge (i - 3 + k)))))

/-- Whether a channel is not filtered, and its constant (R135). -/
def fixedChannel (d : Desc) (f ch : Nat) : Option Nat :=
  if f = 0x10 ∧ ch < 3 then some 0
  else if ch = 3 ∧ noAlpha f ∧ d.edge ≠ 2 then some 0xFFFF
  else none

/-- Vertical window of a channel at destination line `v`: taps with their grid lines (R131). In bypass one line. -/
def vWindow (d : Desc) (x : Surface) (ch v : Nat) : List (Option Nat) :=
  let ax := vAxis d x ch
  let (j, _) := ax.index v
  if ax.bypass then [ax.at d.edge j]
  else (List.range 6).map (fun (k : Nat) => ax.at d.edge (j - 2 + (k : Int)))

/-- A sum whose clamps and replacements have been counted where it was made. -/
def Calc.counted {α : Type} (c : Calc α) : Calc α := return (c.run 0).1

/-- One channel of one output sample from the stored lines `line` (R131 to R135). The horizontal sums have been counted with their line. A line
that is not there has been ruled out by the caller. -/
def scaleChannel (s : State) (d : Desc) (x : Surface) (line : Nat → List Byte) (ch u v : Nat) : Calc Nat :=
  match fixedChannel d x.format ch with
  | some c => return c
  | none =>
    let ay := vAxis d x ch
    let row (raw : Bool) (n : Option Nat) : Calc Nat :=
      match n with
      | none => return 0
      | some n => (hStage s d x ch raw (line (storedLine x ch n)) u).counted
    if ay.bypass then row true ((vWindow d x ch v).headD none)
    else do
      let (_, ph) := ay.index v
      let ts ← (vWindow d x ch v).mapM (row false)
      filterTaps x.format (ts.zipIdx.map (fun t => (coef s d.vbank ph (t.2 + 1), t.1)))

/-- One output sample (R126). -/
def scaleSample (s : State) (d : Desc) (x : Surface) (line : Nat → List Byte) (u v : Nat) : Calc (BitVec 64) := do
  let c0 ← scaleChannel s d x line 0 u v
  let c1 ← scaleChannel s d x line 1 u v
  let c2 ← scaleChannel s d x line 2 u v
  let a ← scaleChannel s d x line 3 u v
  return pack4 ⟨c0, c1, c2, a⟩

/-- Channels whose vertical windows decide the stored lines of a layer. -/
def lineChannels (f : Nat) : List Nat := if vSub2 f then [0, 1] else [0]

/-- Stored lines that destination line `v` reads, each once (R125, R131). -/
def linesFor (d : Desc) (x : Surface) (v : Nat) : List Nat :=
  ((lineChannels x.format).flatMap (fun ch => (vWindow d x ch v).filterMap (fun n => n.map (storedLine x ch)))).eraseDups

/-- Stored lines of destination lines [v0, v1) in the order first needed, with the first line that reads each. -/
def linesForRange (d : Desc) (x : Surface) (v0 v1 : Nat) : List (Nat × Nat) :=
  (List.range (v1 - v0)).foldl (fun acc i =>
    acc ++ ((linesFor d x (v0 + i)).filter (fun n => !acc.any (fun e => e.1 == n))).map (fun n => (n, v0 + i))) []

/-- Grid lines of a channel whose horizontal stage runs for destination line `v`: those of its window whose stored lines are not in `done`.
The stage runs once per source line (R124). -/
def hLines (d : Desc) (x : Surface) (ch v : Nat) (done : List Nat) : List Nat :=
  ((vWindow d x ch v).filterMap id).eraseDups.filter (fun n => !done.contains (storedLine x ch n))

/-- A destination line over head columns [x0, x1) (R124). `done`: stored lines whose horizontal results there are already. -/
def scaleLine (s : State) (d : Desc) (x : Surface) (line : Nat → List Byte) (x0 x1 v : Nat) (done : List Nat) : Calc (List (BitVec 64)) := do
  let cols := (List.range (x1 - x0)).map (fun i => (((x0 + i : Nat) : Int) - d.dstX).toNat)
  let chans := [0, 1, 2, 3].filter (fun ch => (fixedChannel d x.format ch).isNone)
  let _ ← (chans.flatMap (fun ch => (hLines d x ch v done).map (fun n => (ch, n)))).mapM (fun e =>
    cols.mapM (fun u => hStage s d x e.1 false (line (storedLine x e.1 e.2)) u))
  cols.mapM (fun u => scaleSample s d x line u v)

/-- Coefficient words a destination line would read: horizontal phases over its columns and the vertical phase. -/
def lineCoefs (d : Desc) (x : Surface) (x0 x1 v : Nat) : List Nat :=
  let chans := [0, 1, 2, 3].filter (fun ch => (fixedChannel d x.format ch).isNone)
  let h := chans.flatMap (fun ch =>
    let ax := hAxis d x ch
    if ax.bypass then [] else
      (List.range (x1 - x0)).flatMap (fun i =>
        let ph := (ax.index ((((x0 + i : Nat) : Int) - d.dstX).toNat)).2
        (List.range 4).map (fun k => 256 * d.hbank + 4 * ph + k)))
  let w := chans.flatMap (fun ch =>
    let ax := vAxis d x ch
    if ax.bypass then [] else (List.range 4).map (fun k => 256 * d.vbank + 4 * (ax.index v).2 + k))
  (h ++ w).eraseDups

/-- Physical scaler of a logical scaler (R123, R141). -/
def physScaler (s : State) (l : Nat) : Nat := bits (s.rd (R.SCA_MAPnn (l / 4))) (8 * (l % 4) + 6) (8 * (l % 4))

/-- Metered unit of a logical scaler (R400). -/
def scalerUnit (s : State) (l : Nat) : Nat := 450 + physScaler s l

/-- Key under which a physical scaler's copy of a bank word is remembered as failing (R138). -/
def coefKey (phys a : Nat) : Nat := (phys + 1) * 1099511627776 + skey Space.COEF a

/-- Whether a destination line would read a failing word of the scaler's copy (R138). -/
def coefFails (s : State) (phys : Nat) (d : Desc) (x : Surface) (x0 x1 v : Nat) : Bool :=
  s.failing.any (fun k => decide (1099511627776 ≤ k)) && (lineCoefs d x x0 x1 v).any (fun a => s.failing.contains (coefKey phys a))

/-- A bank word is found with an error at a physical scaler, and the copy's word stays as it is (R138); `inj` marks an injected error (R395). -/
def coefReport (phys : Nat) (inj : Bool) (s : State) (u : Upset) : State :=
  match u.ecc with
  | .good => s
  | .ce _ => raiseInj (s.bump R.SCA_COEF_CE_CNT 1) 57 inj
  | .ue =>
    let x := s.metered (450 + phys)
    let s1 := s.setMetered (450 + phys) { x with copyUes := s.within 1000000000 x.copyUes }
    raiseInj ((s1.bump R.SCA_COEF_UE_CNT 1).wr R.SCA_COEF_UE_LOG (word (phys * 65536 + u.addr))) 58 inj

/-- A bank word reads with an error: an uncorrectable one fails in this copy until the bank word is written (R138). -/
def coefUpset (phys : Nat) (s : State) (u : Upset) : State :=
  let k := coefKey phys u.addr
  coefReport phys false (if u.ecc = .ue then { s with failing := k :: s.failing.filter (· ≠ k) } else s) u

/-- Bank words a scaler meets with an error; `ws`: the words it reads, in the order in which an armed injection meets them (DESIGN CHOICE). The
words that an injected error makes uncorrectable are so in these reads only (R394). -/
def coefUpsets (s : State) (phys : Nat) (us : List Upset) (ws : List Nat) : List Nat × State :=
  let (inj, s1) := sramReads s 1 phys (ws.map (fun a => (Space.COEF, a)))
  ((inj.filter (fun u => u.ecc == .ue)).map (·.addr), forEach us (forEach inj s1 (coefReport phys true)) (coefUpset phys))

/-- Results clamped or replaced in a scaler (R133, R134, R143). -/
def countClip (s : State) (n : Nat) : State := if n = 0 then s else raiseN (s.bump R.SCA_CLIP_CNT n) 61 n

-- Coefficient banks (R136, R137).

/-- Whether an enabled descriptor names bank `b`, whatever its kind (R137). -/
def namesBank (d : Desc) (b : Nat) : Bool := d.enable && (d.hbank == b || d.vbank == b)

/-- Descriptor of a later entry of an OFFLINE_COMPOSE job: bytes 16 to 47 in the layout of R98 (R323). -/
def entryDesc (e : List Byte) : Desc := descOf (fun i => BitVec.ofNat 32 (le e (16 + 4 * i) 4))

/-- Whether a bank is in use (R137). -/
def bankInUse (s : State) (b : Nat) : Bool :=
  (List.range 4096).any (fun n => namesBank (s.descLive n) b || namesBank (s.descPending n) b)
    || s.queues.any (fun e => match e.2.job with
      | some j => j.typ == 8 && (j.entries.drop 1).any (fun e => let d := entryDesc e; d.hbank == b || d.vbank == b)
      | none => false)

/-- SCA_BANK_BUSY (R142). -/
def bankBusyWord (s : State) : Word :=
  word (((List.range 16).map (fun b => if bankInUse s b then 2 ^ b else 0)).sum)

/-- A coefficient write reaches the banks (R136 to R138): refused while the bank is in use. -/
def coefEffect (s : State) (a : Nat) (v : Word) : State :=
  let b := a / 256
  if bankInUse s b then
    let w := s.rd R.SCA_COEF_DENY
    raise (s.wr R.SCA_COEF_DENY (satField (setBits w 19 16 b) 15 0 1)) 59
  else
    let s1 := s.setSpw Space.COEF a (v &&& 0x0FFF0FFF#32)
    { s1 with failing := s1.failing.filter (fun k => !(decide (1099511627776 ≤ k) && k % 1099511627776 == skey Space.COEF a)) }

end Sys2Proof.Machine
end

