-- ==== Sys2Proof/Machine/Geometry.lean ====
section
/-!
DEFINITION. Head timing as exact rationals (R145, R214 to R217, R293, R296), the layers of a head over its active area
(R95, R96), and the cost of bands (R139, R158).
-/
namespace Sys2Proof.Machine

/-- Timing of a head as a deck gives it. -/
structure Geo where
  head : Nat
  /-- Active and total sizes. -/
  w : Nat
  h : Nat
  hTotal : Nat
  vTotal : Nat
  vPhase : Nat
  /-- Pixel rate in Hz, line period and frame period in ns. -/
  rate : Rat
  t : Rat
  frame : Rat
  deriving DecidableEq, Repr

/-- FREQ_NUM / FREQ_DEN in Hz (R293). -/
def groupFreq (rd : Nat → Word) (g : Nat) : Rat :=
  let lo := rd (R.TRS_Gn_FREQ_LO g)
  let hi := rd (R.TRS_Gn_FREQ_HI g)
  (lo.toNat + bits hi 15 0 * 4294967296 : Nat) / (max 1 (bits hi 31 16) : Nat)

/-- MODE and DEPTH of TRS_Gn_SSC as they act (R296). -/
def sscMode (rd : Nat → Word) (g : Nat) : Nat := let m := bits (rd (R.TRS_Gn_SSC g)) 31 30; if m = 3 then 0 else m
def sscDepth (rd : Nat → Word) (g : Nat) : Nat :=
  let d := bits (rd (R.TRS_Gn_SSC g)) 13 8
  if sscMode rd g = 1 then min 50 d else min 25 d

/-- RATE of TRS_Gn_SSC in kHz as it acts (R296). -/
def sscRate (rd : Nat → Word) (g : Nat) : Nat := let r := bits (rd (R.TRS_Gn_SSC g)) 5 0; if 30 ≤ r ∧ r ≤ 33 then r else 31

/-- Mean frequency from which F_g is computed (R296). -/
def meanFreq (rd : Nat → Word) (g : Nat) : Rat :=
  if sscMode rd g = 1 then groupFreq rd g * (1 - (sscDepth rd g : Rat) / 20000) else groupFreq rd g

/-- SRC of TRS_Gn_ALIGN; 5 to 7 act as 0 (R305). -/
def alignSrc (rd : Nat → Word) (g : Nat) : Nat := let x := bits (rd (R.TRS_Gn_ALIGN g)) 2 0; if 4 < x then 0 else x

/-- Timing of head `h` in group `g` (R215). -/
def geoOf (rd : Nat → Word) (g h : Nat) : Geo :=
  let h0 := rd (R.OWB_Hnn_HTIME0 h)
  let v0 := rd (R.OWB_Hnn_VTIME0 h)
  let dv := rd (R.OWB_Hnn_DIV h)
  let r := meanFreq rd g * (bits dv 15 0 : Rat) / (bits dv 31 16 : Rat)
  let t := (bits h0 31 16 : Rat) * 1000000000 / r
  { head := h, w := bits h0 15 0, h := bits v0 15 0, hTotal := bits h0 31 16, vTotal := bits v0 31 16,
    vPhase := bits (rd (R.OWB_Hnn_VPHASE h)) 15 0, rate := r, t := t, frame := (bits v0 31 16 : Rat) * t }

/-- A_h: from the group's frame start to the head's line 0 (R215). -/
def Geo.a (x : Geo) : Rat := x.vPhase * x.t

/-- L_h: lines the elastic buffer holds (R145). -/
def Geo.lines (x : Geo) : Nat := if x.w = 0 then 0 else 131072 / x.w

/-- TG_EN of a head in a deck. -/
def tgEn (rd : Nat → Word) (h : Nat) : Bool := bit (rd (R.OWB_Hnn_TG_CTRL h)) 31

/-- ENC of a head: 3 acts as 0; DEPTH (R217). -/
def encOf (rd : Nat → Word) (h : Nat) : Nat := let e := bits (rd (R.OWB_Hnn_TG_CTRL h)) 9 8; if e = 3 then 0 else e
def depthOf (rd : Nat → Word) (h : Nat) : Nat := bits (rd (R.OWB_Hnn_TG_CTRL h)) 4 0

/-- The limits of R216 and R217 for one head. -/
def timingOk (rd : Nat → Word) (g h : Nat) : Bool :=
  let x := geoOf rd g h
  let dv := rd (R.OWB_Hnn_DIV h)
  let h1 := rd (R.OWB_Hnn_HTIME1 h)
  let v1 := rd (R.OWB_Hnn_VTIME1 h)
  let n := depthOf rd h
  let e := encOf rd h
  decide (1 ≤ x.w ∧ x.w ≤ 16384 ∧ 1 ≤ x.h ∧ x.h ≤ 16384 ∧ x.w + 32 ≤ x.hTotal ∧ x.h + 2 ≤ x.vTotal)
    && decide (1 ≤ bits h1 30 16 ∧ bits h1 15 0 + bits h1 30 16 ≤ x.hTotal - x.w)
    && decide (1 ≤ bits v1 30 16 ∧ bits v1 15 0 + bits v1 30 16 ≤ x.vTotal - x.h)
    && decide (x.vPhase + x.h ≤ x.vTotal)
    && decide (1 ≤ bits dv 15 0 ∧ bits dv 15 0 ≤ bits dv 31 16)
    && decide (x.rate ≤ 4400000000)
    && decide (0 < x.frame ∧ x.frame ≤ (1001 : Rat) * 1000000000 / 24000 ∧ (1000000000 : Rat) ≤ 240 * x.frame)
    && [6, 8, 10, 12, 16].contains n && !(n == 6 && e != 0) && !(e == 2 && x.w % 2 == 1)

/-- A layer over the active area of its head: descriptor number, clipped columns [x0, x1) and lines [y0, y1). -/
structure LayerBox where
  n : Nat
  d : Desc
  surf : Option Surface
  x0 : Nat
  x1 : Nat
  y0 : Nat
  y1 : Nat
  deriving DecidableEq, Repr

/-- Clip a descriptor to an active area; none when nothing is left (R95). -/
def clipBox (d : Desc) (w h : Nat) : Option (Nat × Nat × Nat × Nat) :=
  let x0 := (max d.dstX 0).toNat
  let y0 := (max d.dstY 0).toNat
  let x1 := (max (min (d.dstX + d.dstW) w) 0).toNat
  let y1 := (max (min (d.dstY + d.dstH) h) 0).toNat
  if x0 < x1 ∧ y0 < y1 then some (x0, x1, y0, y1) else none

/-- Insert keeping an order; equal elements stay behind those already there. -/
def insertBy {α : Type} (lt : α → α → Bool) (x : α) : List α → List α
  | [] => [x]
  | y :: ys => if lt x y then x :: y :: ys else y :: insertBy lt x ys

/-- Stable sort by an order. -/
def sortBy {α : Type} (lt : α → α → Bool) (xs : List α) : List α := xs.foldl (fun acc x => insertBy lt x acc) []

/-- Descriptors of a deck that are enabled on head `h`, in the order of R96. -/
def headDescs (desc : Nat → Desc) (h : Nat) : List (Nat × Desc) :=
  sortBy (fun a b => decide (a.2.z < b.2.z))
    (((List.range 4096).map (fun n => (n, desc n))).filter (fun e => e.2.enable && e.2.head == h))

/-- Layers of a head that cover an active pixel, in the order of R96. -/
def layerBoxes (s : State) (descs : List (Nat × Desc)) (w h : Nat) : List LayerBox :=
  descs.filterMap (fun e => (clipBox e.2 w h).map (fun c =>
    ⟨e.1, e.2, if e.2.kind = 1 then none else s.surface e.2.handle, c.1, c.2.1, c.2.2.1, c.2.2.2⟩))

/-- Layers that cover a pixel. -/
def coverAt (ls : List LayerBox) (x y : Nat) : Nat :=
  (ls.filter (fun l => decide (l.x0 ≤ x ∧ x < l.x1 ∧ l.y0 ≤ y ∧ y < l.y1))).length

/-- Lines at which the cover of [y0, y1) can be greatest, and columns. -/
def coverRows (ls : List LayerBox) (y0 y1 : Nat) : List Nat :=
  (y0 :: (ls.map (·.y0)).filter (fun y => decide (y0 < y ∧ y < y1))).eraseDups
def coverCols (ls : List LayerBox) : List Nat := (ls.map (·.x0)).eraseDups

/-- Largest number of layers covering one pixel of lines [y0, y1) (R153, R158). -/
def coverMax (ls : List LayerBox) (y0 y1 : Nat) : Nat :=
  ((coverRows ls y0 y1).flatMap (fun y => (coverCols ls).map (fun x => coverAt ls x y))).foldl max 0

/-- A ratio rounded up to a multiple of 2^-16, in those units (R157). -/
def ceil16 (q : Rat) : Nat := (q * 65536).ceil.toNat

/-- Tile time of a band (R158). -/
def tauOf (b w l : Nat) : Rat := (b * ceilDiv w 2 * max 5 l : Nat) / 5 + 32

/-- Distinct stored lines the vertical windows of head lines [ya, yb) read (R139). -/
def srcLines (l : LayerBox) (x : Surface) (ya yb : Nat) : Nat :=
  countDistinct ((List.range (yb - ya)).flatMap (fun i => linesFor l.d x (((ya + i : Nat) : Int) - l.d.dstY).toNat))

/-- Luma columns the horizontal windows of head columns [xa, xb) read, each once (R139). -/
def srcCols (l : LayerBox) (x : Surface) (xa xb : Nat) : Nat :=
  let cols (ch : Nat) : List Nat :=
    let ax := hAxis l.d x ch
    (List.range (xb - xa)).flatMap (fun i =>
      let (j, _) := ax.index (((xa + i : Nat) : Int) - l.d.dstX).toNat
      if ax.bypass then (ax.at l.d.edge j).toList
      else (List.range 8).filterMap (fun (k : Nat) => ax.at l.d.edge (j - 3 + (k : Int))))
  let luma := cols 0
  let chroma := if hSub2 x.format then (cols 1).flatMap (fun m => [2 * m, 2 * m + 1]) else []
  countDistinct (luma ++ chroma)

/-- Scaler time T and n_src of one layer over head lines [ya, yb) and columns [xa, xb) (R139). -/
def scalerTime (l : LayerBox) (x : Surface) (ya yb xa xb : Nat) : Nat × Nat :=
  let b := yb - ya
  let wc := xb - xa
  let n := srcLines l x ya yb
  (max (b * ceilDiv wc 4) (n * max (ceilDiv wc 8) (ceilDiv (srcCols l x xa xb) 32)) + 32, n)

/-- A column strip of a SURFACE layer (R155): strip number when the layer is split. -/
structure Strip where
  box : LayerBox
  surf : Surface
  part : Option Nat
  x0 : Nat
  x1 : Nat
  /-- Load in units of 2^-16. -/
  load : Nat
  deriving DecidableEq, Repr

/-- Load of columns [xa, xb) of a layer over bands (first line, lines), in units of 2^-16 (R155, R157). -/
def stripLoad (l : LayerBox) (x : Surface) (t : Rat) (bands : List (Nat × Nat)) (xa xb : Nat) : Nat :=
  (bands.map (fun b =>
    let ya := max l.y0 b.1
    let yb := min l.y1 (b.1 + b.2)
    if ya < yb then ceil16 ((scalerTime l x ya yb xa xb).1 / (b.2 * t)) else 0)).foldl max 0

/-- Strip boundary (R155). -/
def stripMid (x0 x1 : Nat) : Nat := 2 * ((x0 + ceilDiv (x1 - x0) 2) / 2)

/-- The strips of one SURFACE layer (R155). -/
def stripsOf (l : LayerBox) (x : Surface) (t : Rat) (fill : Nat) (bands : List (Nat × Nat)) : List Strip :=
  let w := stripLoad l x t bands l.x0 l.x1
  let xm := stripMid l.x0 l.x1
  if (8192 < l.x1 - l.x0 ∨ fill < w) ∧ xm ≠ l.x0 ∧ xm ≠ l.x1 then
    [⟨l, x, some 0, l.x0, xm, stripLoad l x t bands l.x0 xm⟩, ⟨l, x, some 1, xm, l.x1, stripLoad l x t bands xm l.x1⟩]
  else [⟨l, x, none, l.x0, l.x1, w⟩]

/-- Strips of all SURFACE layers of a head, in layer order, left first. -/
def headStrips (ls : List LayerBox) (t : Rat) (fill : Nat) (bands : List (Nat × Nat)) : List Strip :=
  ls.flatMap (fun l => match l.surf with
    | none => []
    | some x => stripsOf l x t fill bands)

/-- Cost of a band (R158). -/
structure BandCost where
  y0 : Nat
  lines : Nat
  cover : Nat
  tau : Rat
  phi : Nat
  lam : Nat
  deriving DecidableEq, Repr

/-- Layer beads of one line over [xa, xb) (R158). -/
def lineBeads (xa xb : Nat) : Nat := (xb - 1) / 2 - xa / 2 + 1

/-- Cost of lines [y0, y0 + b) of a head of width `w`. -/
def bandCost (ls : List LayerBox) (strips : List Strip) (w y0 b : Nat) : BandCost :=
  let parts := strips.filterMap (fun p =>
    let ya := max p.box.y0 y0
    let yb := min p.box.y1 (y0 + b)
    if ya < yb then some ((scalerTime p.box p.surf ya yb p.x0 p.x1).2 * p.surf.pitch / 16, (yb - ya) * lineBeads p.x0 p.x1)
    else none)
  let l := coverMax ls y0 (y0 + b)
  ⟨y0, b, l, tauOf b w l, (parts.map (·.1)).sum, (parts.map (·.2)).sum⟩

/-- First greatest element by a measure, with its value; 0 and none on an empty list. -/
def peakOf {α : Type} (f : α → Nat) (xs : List α) : Nat × Option α :=
  xs.foldl (fun acc x => if acc.1 < f x then (f x, some x) else match acc.2 with
    | none => (f x, some x)
    | some _ => acc) (0, none)

end Sys2Proof.Machine
end

