-- ==== Sys2Proof/Machine/Planner.lean ====
section
/-!
DEFINITION. Reckoning tables and the planner (06_reckoning_tables.md): step and entry words, the checks of a commit in the
order of R159, planned tables, explicit tables, and what a plan reports.
-/
namespace Sys2Proof.Machine

-- Table words (R146 to R148).

/-- Most steps and layer-set entries of a table (R146). -/
def maxSteps : Nat := 16384
def maxEntries : Nat := 32768

/-- Word address of word `w` of step `i` of group `g`, and of entry `e` (R146). -/
def stepAddr (g i w : Nat) : Nat := 0x10000 * g + 4 * i + w
def entryAddr (g e : Nat) : Nat := 0x8000 * g + e

/-- A step as its words give it (R147). -/
structure TStep where
  op : Nat
  head : Nat
  tile : Nat
  lines : Nat
  y0 : Nat
  lset : Nat
  nent : Nat
  deriving DecidableEq, Repr

def tstepOf (w0 w1 : Word) : TStep :=
  ⟨bits w0 31 30, bits w0 29 25, bits w0 24 20, bits w0 19 14 + 1, bits w0 13 0, bits w1 31 16, bits w1 15 7⟩

/-- A layer-set entry as its word gives it (R148). -/
structure TEntry where
  split : Bool
  strip : Nat
  scaler : Nat
  desc : Nat
  deriving DecidableEq, Repr

def tentryOf (w : Word) : TEntry := ⟨bit w 28, bits w 27 27, bits w 26 20, bits w 11 0⟩

/-- Strip number of an entry of a split layer. -/
def TEntry.part (e : TEntry) : Option Nat := if e.split then some e.strip else none

/-- The four words of a BAND step (R147). -/
def stepWords (head tile y0 lines lset nent phi : Nat) (tau : Rat) : List Word :=
  [word (head * 33554432 + tile * 1048576 + (lines - 1) * 16384 + y0), word (lset * 65536 + nent * 128),
   word phi, word (min tau.ceil.toNat 0xFFFFF * 4096)]

/-- The word of an entry (R148). -/
def entryWord (desc scaler : Nat) (part : Option Nat) : Word :=
  match part with
  | none => word (scaler * 1048576 + desc)
  | some p => word (268435456 + p * 134217728 + scaler * 1048576 + desc)

-- Inputs of a plan (R152).

/-- SEQ_FILL as it acts, in units of 2^-16 (R153, R165). -/
def State.fill16 (s : State) : Nat :=
  let f := bits (s.cfg R.SEQ_FILL) 4 0
  4096 * (if 8 ≤ f ∧ f ≤ 16 then f else 14)

/-- A budget as it acts (R165). -/
def budgetOr (v hi reset : Nat) : Nat := if 1 ≤ v ∧ v ≤ hi then v else reset
def State.budgetFetch (s : State) : Nat := budgetOr (bits (s.cfg R.SEQ_BUDGET_FETCH) 7 0) 192 184
def State.budgetLayer (s : State) : Nat := budgetOr (bits (s.cfg R.SEQ_BUDGET_LAYER) 7 0) 160 160
def State.budgetMem (s : State) : Nat := budgetOr (bits (s.cfg R.SEQ_BUDGET_MEM) 15 0) 37680 30000

/-- Why a plan is refused, with the report of R161. -/
structure PlanErr where
  reason : Nat
  head : Nat
  band : Option Nat
  desc : Nat
  need : Nat
  deriving DecidableEq, Repr

/-- A refusal without a band, a descriptor or a quantity. -/
def PlanErr.plain (reason head : Nat) : PlanErr := ⟨reason, head, none, 0xFFFF, 0⟩

/-- Bands of a head (R153). -/
def bandsOf (h hb : Nat) : List (Nat × Nat) :=
  (List.range (ceilDiv h hb)).map (fun i => (i * hb, min hb (h - i * hb)))

/-- u of R153 for a set of bands, in units of 2^-16. -/
def tileShare (ls : List LayerBox) (x : Geo) (bands : List (Nat × Nat)) : Nat :=
  (bands.map (fun b => ceil16 (tauOf b.2 x.w (coverMax ls b.1 (b.1 + b.2)) / (b.2 * x.t)))).foldl max 0

/-- What R153 fixes for a head; `hb` is 0 when the loop refuses BUFFER. -/
structure HeadPlan where
  geo : Geo
  layers : List LayerBox
  lmax : Nat
  k : Nat
  hb : Nat
  bands : List (Nat × Nat)
  /-- u_h in units of 2^-16. -/
  u : Nat
  deriving DecidableEq, Repr

/-- The loop of R153 from tile count `k`. -/
def tileLoop (ls : List LayerBox) (x : Geo) (fill : Nat) : Nat → Nat → Nat × Nat × List (Nat × Nat) × Nat
  | 0, k => (k, 0, [], 0)
  | fuel + 1, k =>
    let hb := min 64 (x.lines / (k + 1))
    if hb = 0 then (k, 0, [], 0)
    else
      let bands := bandsOf x.h hb
      let u := tileShare ls x bands
      if u ≤ k * fill then (k, hb, bands, u) else tileLoop ls x fill fuel (k + 1)

/-- Tile count, band height and bands of a head (R153). -/
def headPlan (s : State) (descs : List (Nat × Desc)) (x : Geo) (fill : Nat) : HeadPlan :=
  let ls := layerBoxes s (sortBy (fun a b => decide (a.2.z < b.2.z)) (descs.filter (fun e => e.2.head == x.head))) x.w x.h
  let lmax := coverMax ls 0 x.h
  let u1 : Rat := (ceilDiv x.w 2 * max 5 lmax : Nat) / (5 * x.t)
  let k0 := max 1 (u1 * 65536 / fill).ceil.toNat
  let r := tileLoop ls x fill (x.lines + 1) k0
  ⟨x, ls, lmax, r.1, r.2.1, r.2.2.1, r.2.2.2⟩

-- Checks 1 to 4 (R159).

/-- The limits of R127 on one axis. -/
def ratioOk (src dst : Nat) : Bool := decide (src ≤ 8 * dst ∧ dst ≤ 16 * src)

/-- The surfaces of a descriptor's ring; none when one is unallocated. -/
def ringSurfaces (s : State) (d : Desc) : Option (List Surface) :=
  (List.range (d.ring + 1)).mapM (fun i => s.surface (d.handle + i))

/-- R99 for an enabled descriptor. Destination and source sizes and corners outside the ranges of R98 fail it too. -/
def descOk (s : State) (d : Desc) : Bool :=
  d.clean && decide (d.kind ≤ 1 ∧ d.srcMode ≤ 1 ∧ 1 ≤ d.dstW ∧ d.dstW ≤ 16384 ∧ 1 ≤ d.dstH ∧ d.dstH ≤ 16384)
  && if d.kind = 1 then
      decide (d.handle = 0 ∧ d.srcX = 0 ∧ d.srcY = 0 ∧ d.srcW = 0 ∧ d.srcH = 0 ∧ d.ring = 0 ∧ d.srcMode = 0
        ∧ d.hbank = 0 ∧ d.vbank = 0 ∧ d.edge = 0 ∧ d.csite = 0) && !d.imtxEn && !d.eotfEn && !d.skeyEn
    else match ringSurfaces s d with
      | none => false
      | some [] => false
      | some (x :: xs) =>
        xs.all (fun y => y.format == x.format && y.width == x.width && y.height == x.height)
        && !(d.ring != 0 && d.srcMode == 0)
        && decide (1 ≤ d.srcW ∧ d.srcW ≤ 16384 ∧ 1 ≤ d.srcH ∧ d.srcH ≤ 16384 ∧ d.srcX ≤ 16383 ∧ d.srcY ≤ 16383
          ∧ d.srcX + d.srcW ≤ x.width ∧ d.srcY + d.srcH ≤ x.height)
        && !(hSub2 x.format && (d.srcX % 2 == 1 || d.srcW % 2 == 1))
        && !(vSub2 x.format && (d.srcY % 2 == 1 || d.srcH % 2 == 1))
        && ratioOk d.srcW d.dstW && ratioOk d.srcH d.dstH

/-- Heads of another group's live or pending deck. -/
def State.foreign (s : State) (g : Nat) (h : Nat) : Bool :=
  (List.range 8).any (fun x => x != g && (bit (s.dk (R.SEQ_Gn_HEADS x)) h || bit (s.cfg (R.SEQ_Gn_HEADS x)) h))

/-- Whether head `h` is live in another group. -/
def State.foreignLive (s : State) (g : Nat) (h : Nat) : Bool :=
  (List.range 8).any (fun x => x != g && bit (s.cfg (R.SEQ_Gn_HEADS x)) h)

/-- Whether head `h` is in the pending or live deck of group `g`: what is on it moves with the commits of `g` (R97). -/
def State.ownHead (s : State) (g h : Nat) : Bool :=
  bit (s.dk (R.SEQ_Gn_HEADS g)) h || bit (s.cfg (R.SEQ_Gn_HEADS g)) h

/-- Whether head `h` is in no group, pending or live. -/
def State.noGroup (s : State) (h : Nat) : Bool := (List.range 8).all (fun g => !s.ownHead g h)

/-- Descriptors a commit of group `g` moves: those whose pending HEAD is the group's (R97). -/
def State.movedDescs (s : State) (g : Nat) : List Nat :=
  (List.range 4096).filter (fun n => s.ownHead g (s.descPending n).head)

/-- Enabled descriptors the planner checks for group `g`: those it moves, and those live on the group that now name a head
of no group. -/
def State.checkedDescs (s : State) (g : Nat) : List (Nat × Desc) :=
  ((List.range 4096).map (fun n => (n, s.descPending n))).filter (fun e =>
    e.2.enable && (s.ownHead g e.2.head ||
      (s.noGroup e.2.head && (s.descLive e.1).enable && bit (s.cfg (R.SEQ_Gn_HEADS g)) (s.descLive e.1).head)))

/-- Head of a TALLY_REGION record's word 0, and its enable (R383). -/
def regionHead (w : Word) : Nat := bits w 30 26
def regionEn (w : Word) : Bool := bit w 31

/-- A head has tallies enabled in its live or pending deck (R383). -/
def tallied (s : State) (h : Nat) : Bool :=
  (List.range 512).any (fun r =>
    let a := s.spw Space.TALLY_REGION (4 * r)
    let b := s.lvw Space.TALLY_REGION (4 * r)
    (regionEn a && regionHead a == h) || (regionEn b && regionHead b == h))

/-- Check 2: R144, R97, and the like rule of R383 for tally regions. DESIGN CHOICE: of several that fail, this order decides which head and
descriptor are reported: heads of another group, the reference head, the lowest descriptor on a head outside the group, write-back heads, the
lowest descriptor and then the lowest region that is live on another group. -/
def headsCheck (s : State) (g : Nat) (descs : List (Nat × Desc)) : Option PlanErr :=
  let hp := s.dk (R.SEQ_Gn_HEADS g)
  let ref := bits (s.dk (R.SEQ_Gn_CTRL g)) 4 0
  let wb := s.dk (R.SEQ_Gn_WB_RES g)
  match (headsOf hp).find? (fun h => !bit (s.cfg (R.SEQ_Gn_HEADS g)) h && s.foreign g h) with
  | some h => some (PlanErr.plain 2 h)
  | none =>
  if hp ≠ 0#32 ∧ ¬ bit hp ref then some (PlanErr.plain 2 ref)
  else match descs.find? (fun e => !bit hp e.2.head) with
  | some e => some ⟨2, e.2.head, none, e.1, 0⟩
  | none =>
  match (headsOf wb).find? (fun h => !bit hp h) with
  | some h => some (PlanErr.plain 2 h)
  | none =>
  match (s.movedDescs g).find? (fun n => let d := s.descLive n; d.enable && s.foreignLive g d.head) with
  | some n => some ⟨2, (s.descLive n).head, none, n, 0⟩
  | none =>
  ((List.range 512).find? (fun r =>
    let w := s.lvw Space.TALLY_REGION (4 * r)
    s.ownHead g (regionHead (s.spw Space.TALLY_REGION (4 * r))) && regionEn w && s.foreignLive g (regionHead w))).map
    (fun r => PlanErr.plain 2 (regionHead (s.lvw Space.TALLY_REGION (4 * r))))

/-- Heads of the pending deck whose timing generator is enabled (R145). -/
def plannedHeads (rd : Nat → Word) (g : Nat) : List Nat := (headsOf (rd (R.SEQ_Gn_HEADS g))).filter (tgEn rd)

/-- Check 3, and the head R161 names (R145, R216, R217, R293, R296). -/
def timingCheck (rd : Nat → Word) (g : Nat) : Option Nat :=
  let en := plannedHeads rd g
  let first := en.headD 0
  match en.find? (fun h => !timingOk rd g h) with
  | some h => some h
  | none =>
  match en.find? (fun h => decide ((geoOf rd g h).frame ≠ (geoOf rd g first).frame)) with
  | some h => some h
  | none =>
    let f := groupFreq rd g
    if (en ≠ [] ∧ ¬ ((25000000 : Rat) ≤ f ∧ f ≤ 4400000000)) ∨ (sscMode rd g = 1 ∧ alignSrc rd g ≠ 4) then some first
    else none

/-- Check 4 (R96). -/
def layersHeadCheck (descs : List (Nat × Desc)) : Option Nat :=
  (List.range 32).find? (fun h => decide (256 < (descs.filter (fun e => e.2.head == h)).length))

/-- First pixel covered by more than 16 layers, in ascending line and column: line, number of layers (R159 check 5). -/
def crowded (ls : List LayerBox) (h : Nat) : Option (Nat × Nat) :=
  let rows := sortBy (fun a b => decide (a < b)) (coverRows ls 0 h)
  let cols := sortBy (fun a b => decide (a < b)) (coverCols ls)
  rows.findSome? (fun y => (cols.find? (fun x => decide (16 < coverAt ls x y))).map (fun x => (y, coverAt ls x y)))

-- Reading a table.

/-- Step `i` of the pending table of group `g`, and an entry of it. -/
def State.pendStep (s : State) (g i : Nat) : TStep :=
  tstepOf (s.spw Space.RECKON (stepAddr g i 0)) (s.spw Space.RECKON (stepAddr g i 1))
def State.pendEntry (s : State) (g e : Nat) : TEntry := tentryOf (s.spw Space.LSET (entryAddr g e))

/-- Whether a word of step `i` or of its entries is among words that read as uncorrectable (R151). -/
def stepBroken (bad : List Nat) (g i : Nat) (t : TStep) : Bool :=
  !bad.isEmpty && ((List.range 4).any (fun w => bad.contains (skey Space.RECKON (stepAddr g i w)))
    || (decide (t.op ≠ 1) && (List.range t.nent).any (fun k => bad.contains (skey Space.LSET (entryAddr g (t.lset + k))))))

/-- Steps of the pending table before END, and whether it has an END step: one with a word that reads as uncorrectable is malformed, and ends
no pass (R151). -/
def readSteps (s : State) (g : Nat) (bad : List Nat) : Nat → Nat → List TStep × Bool
  | 0, _ => ([], false)
  | fuel + 1, i =>
    let t := s.pendStep g i
    if t.op = 1 ∧ ¬ stepBroken bad g i t then ([], true) else let r := readSteps s g bad fuel (i + 1); (t :: r.1, r.2)

/-- A step with its entries. -/
abbrev TRow := TStep × List TEntry

/-- Entries of a step; none when they do not fit the LSET area (R151). DESIGN CHOICE: this holds for LSET + NENT with NENT = 0 too, though such
a step's LSET names no entry (R148). -/
def stepEntries (s : State) (g : Nat) (t : TStep) : Option (List TEntry) :=
  if 256 < t.nent ∨ maxEntries < t.lset + t.nent then none
  else some ((List.range t.nent).map (fun e => s.pendEntry g (t.lset + e)))

/-- Step `i` of a table judged against the pending decks (R151, R163): its entries, none when it is malformed. `bad`: words of the table that
read as uncorrectable. -/
def wellStep (s : State) (g : Nat) (heads : List HeadPlan) (descs : List (Nat × Desc)) (bad : List Nat) (e : TStep × Nat) : Option TRow :=
  let t := e.1
  if stepBroken bad g e.2 t then none else
  match heads.find? (fun p => p.geo.head == t.head) with
  | none => none
  | some p =>
    if t.op ≠ 0 ∨ p.geo.h < t.y0 + t.lines then none
    else match stepEntries s g t with
      | none => none
      | some es =>
        if es.all (fun e => (decide (e.scaler ≤ 79) || e.scaler == 127)
            && descs.any (fun d => d.1 == e.desc && d.2.head == t.head)) then some (t, es) else none

/-- The strip an entry names, over the columns R155 gives it. -/
def entryStrip (ls : List LayerBox) (e : TEntry) : Option Strip :=
  (ls.find? (fun l => l.n == e.desc)).bind (fun l => l.surf.map (fun x =>
    let xm := stripMid l.x0 l.x1
    if e.split then (if e.strip = 0 then ⟨l, x, some 0, l.x0, xm, 0⟩ else ⟨l, x, some 1, xm, l.x1, 0⟩)
    else ⟨l, x, none, l.x0, l.x1, 0⟩))

/-- Cost of a step from the entries it lists (R158, R162). -/
def rowCost (p : HeadPlan) (r : TRow) : BandCost :=
  bandCost p.layers (r.2.filterMap (entryStrip p.layers)) p.geo.w r.1.y0 r.1.lines

-- Demands (R157, R158).

/-- Peak demands of a head, in units of 2^-16, with the bands that attain the fetch and the layer peak. -/
structure Demand where
  head : Nat
  fetch : Nat
  layer : Nat
  mem : Nat
  fBand : Option Nat
  lBand : Option Nat
  deriving DecidableEq, Repr

def demandOf (x : Geo) (wb : Bool) (costs : List BandCost) : Demand :=
  let f := peakOf (fun c => ceil16 (c.phi / (c.lines * x.t))) costs
  let l := peakOf (fun c => ceil16 (c.lam / (c.lines * x.t))) costs
  ⟨x.head, f.1, l.1, 128 * f.1 + (if wb then ceil16 ((64 * x.w : Nat) / x.t) else 0), f.2.map (·.y0), l.2.map (·.y0)⟩

/-- Active pixels per ns of a head: Gpixel/s (R159 check 6). -/
def Geo.pix (x : Geo) : Rat := (x.w * x.h : Nat) / x.frame

/-- A non-negative rational as a ratio, and back. -/
def fracOf (q : Rat) : Frac := ⟨q.num.toNat, q.den⟩
def ratOf (f : Frac) : Rat := (f.num : Rat) / (f.den : Rat)

/-- What the other groups hold, demand by demand the larger of live and planned (R160). -/
def othersMax (s : State) (g : Nat) (f : Plan → Nat) : Nat :=
  (((List.range 8).filter (· ≠ g)).map (fun x =>
    max (f (s.group x).live) (((s.group x).planned.map f).getD 0))).sum
def othersPix (s : State) (g : Nat) : Rat :=
  (((List.range 8).filter (· ≠ g)).map (fun x =>
    max (ratOf (s.group x).live.pix) (((s.group x).planned.map (fun p => ratOf p.pix)).getD 0))).sum

/-- Units that other groups' live, PLANNED or HELD tables name, or that are lost (R154, R155). -/
def takenTiles (s : State) (g : Nat) : List Nat :=
  s.health.lostTiles ++ ((List.range 8).filter (· ≠ g)).flatMap (fun x =>
    (s.group x).live.tiles ++ ((s.group x).planned.map (·.tiles)).getD [])
def takenScalers (s : State) (g : Nat) : List Nat :=
  s.health.lostScalers ++ ((List.range 8).filter (· ≠ g)).flatMap (fun x =>
    (s.group x).live.scalers ++ ((s.group x).planned.map (·.scalers)).getD [])

def tilePool (s : State) (g : Nat) : List Nat := let t := takenTiles s g; (List.range 32).filter (fun x => !t.contains x)
def scalerPool (s : State) (g : Nat) : List Nat := let t := takenScalers s g; (List.range 80).filter (fun x => !t.contains x)

/-- The demand with the largest contribution, ties to the lower head (R161). -/
def largest (f : Demand → Nat) (ds : List Demand) : Option Demand := (peakOf f ds).2

/-- Checks 11 to 13 (R159, R160). -/
def budgetCheck (s : State) (g : Nat) (ds : List Demand) : Option PlanErr :=
  let sum (f : Demand → Nat) (o : Plan → Nat) : Nat := (ds.map f).sum + othersMax s g o
  let fetch := sum (·.fetch) (·.fetch)
  let layer := sum (·.layer) (·.layer)
  let mem := sum (·.mem) (·.mem) + 65536 * bits (s.cfg R.SEQ_INGEST_RES) 15 0
  let err (reason need : Nat) (d : Option Demand) (band : Demand → Option Nat) : PlanErr :=
    ⟨reason, (d.map (·.head)).getD 0, d.bind band, 0xFFFF, need⟩
  if 65536 * s.budgetFetch < fetch then some (err 11 (ceilDiv (1000 * fetch) 65536) (largest (·.fetch) ds) (·.fBand))
  else if 65536 * s.budgetLayer < layer then some (err 12 (ceilDiv (1000 * layer) 65536) (largest (·.layer) ds) (·.lBand))
  else if 65536 * s.budgetMem < mem then some (err 13 (ceilDiv mem 65536) (largest (·.mem) ds) (·.fBand))
  else none

/-- The plan a set of demands and units makes. -/
def planOf (heads : List HeadPlan) (ds : List Demand) (tiles scalers : List Nat) (steps lsets : Nat) : Plan :=
  ⟨tiles, scalers, (ds.map (·.fetch)).sum, (ds.map (·.layer)).sum, (ds.map (·.mem)).sum,
    fracOf ((heads.map (fun p => p.geo.pix)).sum), steps, lsets⟩

-- Planned mode (R153 to R156).

/-- An entry before its scaler is bound: descriptor, strip, whether it is a FILL layer. -/
structure PreEntry where
  desc : Nat
  part : Option Nat
  fill : Bool
  deriving DecidableEq, Repr

/-- Entries of lines [y0, y0 + b) of a head (R148). -/
def preEntries (ls : List LayerBox) (strips : List Strip) (y0 b : Nat) : List PreEntry :=
  (ls.filter (fun l => decide (l.y0 < y0 + b ∧ y0 < l.y1))).flatMap (fun l =>
    match l.surf with
    | none => [⟨l.n, none, true⟩]
    | some _ => (strips.filter (fun p => p.box.n == l.n)).map (fun p => ⟨l.n, p.part, false⟩))

/-- A step before its units are bound. -/
structure PreStep where
  due : Rat
  head : Nat
  band : Nat
  y0 : Nat
  lines : Nat
  entries : List PreEntry
  deriving DecidableEq, Repr

/-- Steps of a head. -/
def headSteps (p : HeadPlan) (strips : List Strip) : List PreStep :=
  p.bands.zipIdx.map (fun b =>
    ⟨p.geo.a + b.1.1 * p.geo.t, p.geo.head, b.2, b.1.1, b.1.2, preEntries p.layers strips b.1.1 b.1.2⟩)

/-- Order of R156. -/
def dueLt (a b : PreStep) : Bool := decide (a.due < b.due) || (decide (a.due = b.due) && decide (a.head < b.head))

/-- Layer-set records in the order of first use: entry list and address; and the entries used (R156). -/
def records (steps : List PreStep) : List (List PreEntry × Nat) × Nat :=
  steps.foldl (fun acc t =>
    if t.entries = [] ∨ acc.1.any (fun r => r.1 == t.entries) then acc
    else (acc.1 ++ [(t.entries, acc.2)], acc.2 + t.entries.length)) ([], 0)

/-- Units drawn from a pool: the pool left, what the plan holds with the load of each, and what each head or strip got. -/
structure Draw (β : Type) where
  pool : List Nat
  taken : List (Nat × Rat)
  got : List β

/-- Tiles of heads with k ≥ 2 (R154 item 1). -/
def drawTiles (acc : Except PlanErr (Draw (Nat × List Nat))) (p : HeadPlan) : Except PlanErr (Draw (Nat × List Nat)) := do
  let a ← acc
  if a.pool.length < p.k then
    .error ⟨9, p.geo.head, none, 0xFFFF, a.taken.length + a.pool.length + 1⟩
  else
    let ts := a.pool.take p.k
    .ok ⟨a.pool.drop p.k, a.taken ++ ts.map (fun t => (t, (p.u : Rat) / p.k)), a.got ++ [(p.geo.head, ts)]⟩

/-- Tile of a head with k = 1 (R154 item 2). -/
def placeTile (fill : Nat) (acc : Except PlanErr (Draw (Nat × List Nat))) (p : HeadPlan) :
    Except PlanErr (Draw (Nat × List Nat)) := do
  let a ← acc
  match a.taken.find? (fun t => decide (t.2 + (p.u : Rat) ≤ (fill : Rat))) with
  | some t =>
    .ok { a with taken := a.taken.map (fun x => if x.1 = t.1 then (x.1, x.2 + p.u) else x),
                 got := a.got ++ [(p.geo.head, [t.1])] }
  | none =>
    match a.pool with
    | [] => .error ⟨9, p.geo.head, none, 0xFFFF, a.taken.length + 1⟩
    | t :: rest => .ok ⟨rest, a.taken ++ [(t, (p.u : Rat))], a.got ++ [(p.geo.head, [t])]⟩

/-- Tile assignment (R154): each head's tiles. -/
def assignTiles (s : State) (g fill : Nat) (heads : List HeadPlan) : Except PlanErr (Draw (Nat × List Nat)) :=
  let many := heads.filter (fun p => decide (2 ≤ p.k))
  let one := sortBy (fun a b => decide (b.u < a.u)) (heads.filter (fun p => decide (p.k < 2)))
  one.foldl (placeTile fill) (many.foldl drawTiles (.ok ⟨tilePool s g, [], []⟩))

/-- First band of a head that holds lines of a strip, and whose own share of the strip's load exceeds `fill`. -/
def overBand (p : HeadPlan) (fill : Nat) (q : Strip) : Option Nat :=
  (p.bands.find? (fun b => decide (fill < stripLoad q.box q.surf p.geo.t [b] q.x0 q.x1))).map (·.1)
def firstBand (p : HeadPlan) (q : Strip) : Option Nat :=
  (p.bands.find? (fun b => decide (max q.box.y0 b.1 < min q.box.y1 (b.1 + b.2)))).map (·.1)

/-- A strip or unsplit layer above FILL (R155), in ascending head and band. -/
def overload (fill : Nat) (hs : List (HeadPlan × List Strip)) : Option PlanErr :=
  hs.findSome? (fun e =>
    let above := e.2.filter (fun q => decide (fill < q.load))
    let order := sortBy (fun a b => decide ((overBand e.1 fill a).getD 0 < (overBand e.1 fill b).getD 0)) above
    order.head?.map (fun q => ⟨10, e.1.geo.head, overBand e.1 fill q, q.box.n, ceilDiv q.load fill⟩))

/-- A placed strip: head, strip, scaler. -/
structure Bound where
  head : Nat
  strip : Strip
  scaler : Nat

/-- Whether two layers of one head share a line. -/
def linesMeet (a b : LayerBox) : Bool := decide (a.y0 < b.y1 ∧ b.y0 < a.y1)

/-- Place one strip (R155). -/
def placeStrip (fill : Nat) (acc : Except PlanErr (Draw Bound)) (e : HeadPlan × Strip) : Except PlanErr (Draw Bound) := do
  let a ← acc
  let h := e.1.geo.head
  match a.taken.find? (fun t => decide (t.2 + (e.2.load : Rat) ≤ (fill : Rat))
      && !a.got.any (fun b => b.scaler == t.1 && b.head == h && linesMeet b.strip.box e.2.box)) with
  | some t =>
    .ok { a with taken := a.taken.map (fun x => if x.1 = t.1 then (x.1, x.2 + e.2.load) else x),
                 got := a.got ++ [⟨h, e.2, t.1⟩] }
  | none =>
    match a.pool with
    | [] => .error ⟨10, h, firstBand e.1 e.2, e.2.box.n, a.taken.length + 1⟩
    | t :: rest => .ok ⟨rest, a.taken ++ [(t, (e.2.load : Rat))], a.got ++ [⟨h, e.2, t⟩]⟩

/-- Placement order of R155: descending load, ascending descriptor, left strip first. -/
def stripLt (a b : HeadPlan × Strip) : Bool :=
  decide (b.2.load < a.2.load) || (b.2.load == a.2.load &&
    (decide (a.2.box.n < b.2.box.n) || (a.2.box.n == b.2.box.n && decide (a.2.part.getD 0 < b.2.part.getD 0))))

/-- Scaler assignment (R155). -/
def assignScalers (s : State) (g fill : Nat) (hs : List (HeadPlan × List Strip)) : Except PlanErr (Draw Bound) :=
  match overload fill hs with
  | some e => .error e
  | none =>
    (sortBy stripLt (hs.flatMap (fun e => e.2.map (fun q => (e.1, q))))).foldl (placeStrip fill)
      (.ok ⟨scalerPool s g, [], []⟩)

/-- Words of the table a planned commit writes (R147, R148, R156). -/
def tableWords (g : Nat) (steps : List PreStep) (recs : List (List PreEntry × Nat)) (tiles : List (Nat × List Nat))
    (bound : List Bound) (cost : PreStep → BandCost) : List (Nat × Word) :=
  let tileOf (t : PreStep) : Nat :=
    let ts := ((tiles.find? (fun e => e.1 == t.head)).map (·.2)).getD []
    ts.getD (t.band % ts.length) 0
  let scalerOf (e : PreEntry) : Nat :=
    if e.fill then 127 else ((bound.find? (fun b => b.strip.box.n == e.desc && b.strip.part == e.part)).map (·.scaler)).getD 0
  let sets := recs.flatMap (fun r => r.1.zipIdx.map (fun e =>
    (skey Space.LSET (entryAddr g (r.2 + e.2)), entryWord e.1.desc (scalerOf e.1) e.1.part)))
  let band (t : PreStep) : List Word :=
    let base := if t.entries = [] then 0 else ((recs.find? (fun r => r.1 == t.entries)).map (·.2)).getD 0
    let c := cost t
    stepWords t.head (tileOf t) t.y0 t.lines base t.entries.length c.phi c.tau
  let rows := steps.map band ++ [[0x40000000#32, 0#32, 0#32, 0#32]]
  sets ++ rows.zipIdx.flatMap (fun r => r.1.zipIdx.map (fun w => (skey Space.RECKON (stepAddr g r.2 w.2), w.1)))

/-- Compile a group in planned mode: checks 7 to 13 (R153 to R160). DESIGN CHOICE: check 8 (TABLE) names no head or band; it reports HEAD 0 and
BV 0. -/
def compile (s : State) (g fill : Nat) (heads : List HeadPlan) : Except PlanErr (Plan × List (Nat × Word)) := do
  match heads.find? (fun p => p.hb == 0) with
  | some p => .error ⟨7, p.geo.head, none, 0xFFFF, p.k + 1⟩
  | none =>
  let hs := heads.map (fun p => (p, headStrips p.layers p.geo.t fill p.bands))
  let steps := sortBy dueLt (hs.flatMap (fun e => headSteps e.1 e.2))
  let (recs, used) := records steps
  if maxSteps < steps.length + 1 then .error ⟨8, 0, none, 0xFFFF, steps.length + 1⟩
  else if maxEntries < used then .error ⟨8, 0, none, 0xFFFF, used⟩
  else
  let tiles ← assignTiles s g fill heads
  let bound ← assignScalers s g fill hs
  let wb := s.dk (R.SEQ_Gn_WB_RES g)
  let ds := hs.map (fun e => demandOf e.1.geo (bit wb e.1.geo.head)
    (e.1.bands.map (fun b => bandCost e.1.layers e.2 e.1.geo.w b.1 b.2)))
  match budgetCheck s g ds with
  | some e => .error e
  | none =>
    let cost (t : PreStep) : BandCost :=
      match hs.find? (fun e => e.1.geo.head == t.head) with
      | some e => bandCost e.1.layers e.2 e.1.geo.w t.y0 t.lines
      | none => ⟨t.y0, t.lines, 0, 0, 0, 0⟩
    .ok (planOf heads ds (tiles.taken.map (·.1)) (bound.taken.map (·.1)) (steps.length + 1) used,
      tableWords g steps recs tiles.got bound.got cost)

-- Explicit mode (R162, R163).

/-- A load on a unit: unit, key of what loads it, ratio; and the step that first names the unit. -/
def sumLoads (xs : List (Nat × (Nat × Nat) × Rat)) (u : Nat) : Rat :=
  let mine := xs.filter (fun x => x.1 == u)
  let keys := (mine.map (fun x => x.2.1)).eraseDups
  (keys.map (fun k => (mine.filter (fun x => x.2.1 == k)).foldl (fun m x => max m x.2.2) 0)).sum

/-- Tiles that a head's steps name. -/
def tilesOfHead (rows : List TRow) (h : Nat) : List Nat :=
  ((rows.filter (fun r => r.1.head == h)).map (fun r => r.1.tile)).eraseDups

/-- Bands of a head in an explicit table. -/
def rowBands (rows : List TRow) (h : Nat) : List (Nat × Nat) :=
  (rows.filter (fun r => r.1.head == h)).map (fun r => (r.1.y0, r.1.lines))

/-- Tile loads of R162: (tile, (head, 0), band ratio over the head's tiles). -/
def tileLoads (heads : List HeadPlan) (rows : List TRow) : List (Nat × (Nat × Nat) × Rat) :=
  rows.filterMap (fun r => (heads.find? (fun p => p.geo.head == r.1.head)).map (fun p =>
    (r.1.tile, (r.1.head, 0),
      (ceil16 ((rowCost p r).tau / (r.1.lines * p.geo.t)) : Rat) / (tilesOfHead rows r.1.head).length)))

/-- Scaler loads of R162: (scaler, (descriptor, strip), band ratio). -/
def scalerLoads (heads : List HeadPlan) (rows : List TRow) : List (Nat × (Nat × Nat) × Rat) :=
  rows.flatMap (fun r => match heads.find? (fun p => p.geo.head == r.1.head) with
    | none => []
    | some p => r.2.filterMap (fun e => (entryStrip p.layers e).map (fun q =>
        (e.scaler, (e.desc, match e.part with | none => 0 | some k => k + 1),
          (stripLoad q.box q.surf p.geo.t [(r.1.y0, r.1.lines)] q.x0 q.x1 : Rat)))))

/-- Sharing of R148 within a step: the layers an entry list puts on one scaler have no line of the band in common, and
FILL layers name 127. -/
def sharingOk (p : HeadPlan) (r : TRow) : Bool :=
  let q (e : TEntry) : Option Strip := entryStrip p.layers e
  r.2.all (fun e => (q e).isNone == (e.scaler == 127))
  && r.2.zipIdx.all (fun a => r.2.zipIdx.all (fun b =>
      decide (b.2 ≤ a.2) || a.1.scaler == 127 || a.1.scaler != b.1.scaler
        || match q a.1, q b.1 with
          | some x, some y => !decide (max (max x.box.y0 y.box.y0) r.1.y0 < min (min x.box.y1 y.box.y1) (r.1.y0 + r.1.lines))
          | _, _ => true))

/-- What the steps of an explicit table put on its units. -/
structure TableUse where
  rows : List TRow
  tiles : List (Nat × (Nat × Nat) × Rat)
  scalers : List (Nat × (Nat × Nat) × Rat)

/-- Whether entries list layers in order, each once, whole or as its two strips (R148). A strip follows the boundary of R155, which a layer has
only where each side holds a column. -/
def listsLayers : List LayerBox → List TEntry → Bool
  | [], es => es.isEmpty
  | _ :: _, [] => false
  | l :: ls, e :: es =>
    if e.desc ≠ l.n then false
    else if ¬ e.split then e.strip == 0 && listsLayers ls es
    else match es with
      | [] => false
      | e2 :: es2 =>
        let xm := stripMid l.x0 l.x1
        l.surf.isSome && e.strip == 0 && e2.desc == l.n && e2.split && e2.strip == 1 && decide (l.x0 < xm ∧ xm < l.x1) && listsLayers ls es2

/-- Whether a step of an explicit table keeps R163, given the steps before it. -/
def rowOk (s : State) (g fill : Nat) (use : TableUse) (p : HeadPlan) (earlier : List TRow) (r : TRow) : Bool :=
  !earlier.any (fun x => x.1.head == r.1.head && decide (x.1.y0 < r.1.y0 + r.1.lines ∧ r.1.y0 < x.1.y0 + x.1.lines))
  && listsLayers (p.layers.filter (fun l => decide (l.y0 < r.1.y0 + r.1.lines ∧ r.1.y0 < l.y1))) r.2
  && sharingOk p r
  && decide (r.1.lines ≤ p.geo.lines / ((tilesOfHead use.rows r.1.head).length + 1))
  && (tilePool s g).contains r.1.tile
  && r.2.all (fun e => e.scaler == 127 || (scalerPool s g).contains e.scaler)
  && decide (sumLoads use.tiles r.1.tile ≤ fill)
  && r.2.all (fun e => e.scaler == 127 || decide (sumLoads use.scalers e.scaler ≤ fill))

/-- First step of a table, in table order, that breaks R163. -/
def badRow (s : State) (g fill : Nat) (heads : List HeadPlan) (use : TableUse) : List TRow → List TRow → Option TStep
  | _, [] => none
  | earlier, r :: rest =>
    match heads.find? (fun p => p.geo.head == r.1.head) with
    | none => some r.1
    | some p => if rowOk s g fill use p earlier r then badRow s g fill heads use (r :: earlier) rest else some r.1

/-- Units that steps name. -/
def rowTiles (rows : List TRow) : List Nat := (rows.map (fun r => r.1.tile)).eraseDups
def rowScalers (rows : List TRow) : List Nat :=
  (rows.flatMap (fun r => (r.2.map (·.scaler)).filter (· ≠ 127))).eraseDups
/-- Distinct entry addresses that the steps of a table name (R165). -/
def rowAddrs (steps : List TStep) : Nat := countDistinct (steps.flatMap (fun t => (List.range t.nent).map (· + t.lset)))

/-- Demands of a table's steps (R162), each head's bands in ascending line, so that a tie goes to the lower band (R161). -/
def rowDemands (s : State) (g : Nat) (heads : List HeadPlan) (rows : List TRow) : List Demand :=
  heads.map (fun p => demandOf p.geo (bit (s.dk (R.SEQ_Gn_WB_RES g)) p.geo.head)
    ((sortBy (fun a b => decide (a.1.y0 < b.1.y0)) (rows.filter (fun r => r.1.head == p.geo.head))).map (rowCost p)))

/-- Check 14, then checks 11 to 13 (R162). DESIGN CHOICE: of several failing steps the first malformed one is reported, before an earlier step
that breaks another condition of R163. DESIGN CHOICE: without a failing step, a table with no END reports HEAD 0 and BV 0, and one that
leaves lines of a head uncovered that head with BV 0. -/
def explicit (s : State) (g fill : Nat) (heads : List HeadPlan) (descs : List (Nat × Desc)) (bad : List Nat) :
    Except PlanErr (Plan × List (Nat × Word)) :=
  let read := readSteps s g bad maxSteps 0
  match read.1.zipIdx.find? (fun t => (wellStep s g heads descs bad t).isNone) with
  | some t => .error ⟨14, t.1.head, some t.1.y0, 0xFFFF, 0⟩
  | none =>
  if ¬ read.2 then .error (PlanErr.plain 14 0)
  else
  let rows := read.1.zipIdx.filterMap (wellStep s g heads descs bad)
  match badRow s g fill heads ⟨rows, tileLoads heads rows, scalerLoads heads rows⟩ [] rows with
  | some t => .error ⟨14, t.head, some t.y0, 0xFFFF, 0⟩
  | none =>
  match heads.find? (fun p => ((rowBands rows p.geo.head).map (·.2)).sum != p.geo.h) with
  | some p => .error (PlanErr.plain 14 p.geo.head)
  | none =>
  let ds := rowDemands s g heads rows
  match budgetCheck s g ds with
  | some e => .error e
  | none => .ok (planOf heads ds (rowTiles rows) (rowScalers rows) (read.1.length + 1) (rowAddrs read.1), [])

/-- The band R161 reports for check 5: the head's own band in planned mode, the first step of the table that composes the
line in explicit mode. -/
def crowdedBand (s : State) (g : Nat) (isExplicit : Bool) (bad : List Nat) (p : HeadPlan) (y : Nat) : Option Nat :=
  if isExplicit then
    ((readSteps s g bad maxSteps 0).1.find? (fun t => t.op == 0 && t.head == p.geo.head
      && decide (t.y0 ≤ y ∧ y < t.y0 + t.lines))).map (·.y0)
  else if p.hb = 0 then none else some (y / p.hb * p.hb)

/-- Plan or check the pending deck of group `g` (R152, R159, R162): its plan and the words of its table, or why it is
refused. `asWritten` admits the pending table as written whatever MODE says (R164); `bad`: words of the pending table that read as
uncorrectable (R151). -/
def evaluate (s : State) (g : Nat) (asWritten : Bool) (bad : List Nat) : Except PlanErr (Plan × List (Nat × Word)) :=
  let descs := s.checkedDescs g
  match descs.find? (fun e => !descOk s e.2) with
  | some e => .error ⟨1, e.2.head, none, e.1, 0⟩
  | none =>
  match headsCheck s g descs with
  | some e => .error e
  | none =>
  match timingCheck s.dk g with
  | some h => .error (PlanErr.plain 3 h)
  | none =>
  match layersHeadCheck descs with
  | some h => .error (PlanErr.plain 4 h)
  | none =>
  let fill := s.fill16
  let heads := (plannedHeads s.dk g).map (fun h => headPlan s descs (geoOf s.dk g h) fill)
  let isExplicit := asWritten || bit (s.dk (R.SEQ_Gn_CTRL g)) 8
  match heads.findSome? (fun p => (crowded p.layers p.geo.h).map (fun c => (p, c))) with
  | some (p, c) => .error ⟨5, p.geo.head, crowdedBand s g isExplicit bad p c.1, 0xFFFF, c.2⟩
  | none =>
  let pix := (heads.map (fun p => p.geo.pix)).sum + othersPix s g
  if 64 < pix then .error ⟨6, 0, none, 0xFFFF, (1000 * pix).ceil.toNat⟩
  else if isExplicit then explicit s g fill heads descs bad
  else compile s g fill heads

/-- The units and demands of an explicit table that release makes live without checks (R164), its malformed steps apart. -/
def uncheckedPlan (s : State) (g : Nat) : Plan :=
  let descs := s.checkedDescs g
  let heads := (plannedHeads s.dk g).map (fun h => headPlan s descs (geoOf s.dk g h) s.fill16)
  let read := readSteps s g s.failingPend maxSteps 0
  let rows := read.1.zipIdx.filterMap (wellStep s g heads descs s.failingPend)
  let used := heads.filter (fun p => rows.any (fun r => r.1.head == p.geo.head))
  planOf used (rowDemands s g used rows) (rowTiles rows) (rowScalers rows)
    (if read.2 then read.1.length + 1 else maxSteps) (rowAddrs read.1)

/-- The outcome of a plan as the planner keeps it until it ends; an admitted one reports HEAD, BV and DESC zero (R161). -/
def planResult (g : Nat) (r : Except PlanErr (Plan × List (Nat × Word))) : PlanResult :=
  match r with
  | .ok p => ⟨g, 0, 0, none, 0, 0, p.1, p.2⟩
  | .error e => ⟨g, e.reason, e.head, e.band, e.desc, e.need, Plan.empty, []⟩

/-- The report of a plan (R161, R166). -/
def planReport (s : State) (tag : Nat) (r : PlanResult) : State :=
  let g := r.group
  let band := match r.band with
    | none => 0
    | some y => 32768 + y
  ((s.wr (R.SEQ_Gn_PLAN_STAT g) (word (tag * 65536 + r.head * 256 + r.reason))).wr
    (R.SEQ_Gn_PLAN_BAND g) (word (r.desc * 65536 + band))).wr
    (R.SEQ_Gn_PLAN_NEED g) (word (min r.need 0xFFFFFFFF))

/-- SEQ_DEMAND_* and SEQ_POOL from the live tables (R165). -/
def publishDemand (s : State) : State :=
  let live := (List.range 8).map (fun g => (s.group g).live)
  let sum (f : Plan → Nat) : Nat := (live.map f).sum
  let pix := (live.map (fun p => ratOf p.pix)).sum
  let tiles := (live.flatMap (·.tiles) ++ s.health.lostTiles).eraseDups.length
  let scalers := (live.flatMap (·.scalers) ++ s.health.lostScalers).eraseDups.length
  ((((s.wr R.SEQ_DEMAND_MEM (word (ceilDiv (sum (·.mem)) 65536))).wr
    R.SEQ_DEMAND_FETCH (word (ceilDiv (1000 * sum (·.fetch)) 65536))).wr
    R.SEQ_DEMAND_LAYER (word (ceilDiv (1000 * sum (·.layer)) 65536))).wr
    R.SEQ_DEMAND_PIX (word (1000 * pix).ceil.toNat)).wr
    R.SEQ_POOL (word ((32 - tiles) * 65536 + (80 - scalers)))

/-- Words of pending copies that are found uncorrectable as they are read. -/
def pendUpsets (s : State) (us : List Upset) : State :=
  forEach us s (fun s u => if u.ecc = .ue then s.failPend u.space u.addr else s)

/-- The planner judges the oldest commit that waits, over every input as it stands now (R152). -/
def planStart (s : State) (us : List Upset) : State :=
  match s.planning, s.planQ with
  | none, g :: rest =>
    let s1 := pendUpsets s us
    { s1 with planQ := rest, planning := some (planResult g (evaluate s1 g false s1.failingPend)) }
  | _, _ => s

/-- PLAN_START (R152). -/
def execPlanStart (upsets : List Upset) (s : State) : Host.Outcome State Fault Refusal :=
  runOn [.compose] s (fun s => planStart s upsets)

end Sys2Proof.Machine
end

