-- ==== Sys2Proof/Machine/Tally.lean ====
section
/-!
DEFINITION. Tally regions (R383 to R387): signing of lines at the tally point, comparison, and the words of TALLY_STAT.
-/
namespace Sys2Proof.Machine

/-- A tally region (R383). -/
structure Region where
  en : Bool
  head : Nat
  thresh : Nat
  nexp : Nat
  x0 : Nat
  y0 : Nat
  w : Nat
  h : Nat
  deriving DecidableEq, Repr

/-- Region `r` of a deck. -/
def regionOf (rd : Nat → Word) (r : Nat) : Region :=
  let w (i : Nat) : Word := rd (skey Space.TALLY_REGION (4 * r + i))
  ⟨bit (w 0) 31, bits (w 0) 30 26, max 1 (bits (w 0) 23 20), bits (w 0) 17 16, bits (w 1) 15 0, bits (w 1) 31 16,
    bits (w 2) 15 0, bits (w 2) 31 16⟩

/-- The group a head belongs to: that whose frame it scans out, else by the live decks, else by the decks of a frame that others still finish
(R199, R209). -/
def State.headGroup (s : State) (h : Nat) : Option Nat :=
  (s.head h).group <|> s.groupOf h
    <|> (List.range 8).find? (fun g => (s.group g).olds.any (fun o => bit (kget regReset o.unit (R.SEQ_Gn_HEADS g)) h))

/-- Heads that belong to group `g` now: a head that still finishes a frame of the group it comes from is none of them yet (R199, R209). -/
def State.headsIn (s : State) (g : Nat) : List Nat := (List.range 32).filter (fun h => s.headGroup h == some g)

/-- The decks of the frame head `h` is scanning out (R199). -/
def State.headView (s : State) (h : Nat) : DeckView :=
  match s.headGroup h with
  | some g => s.viewFor g (s.head h).frame
  | none => s.view

/-- Enabled regions of head `h` in the decks of its frame. -/
def headRegions (s : State) (h : Nat) : List (Nat × Region) :=
  let v := s.headView h
  ((List.range 512).map (fun r => (r, regionOf v.lv r))).filter (fun e => e.2.en && e.2.head == h)

/-- Words of a region's record and expected values that a deck holds as uncorrectable (R386). -/
def regionBad (v : DeckView) (r : Nat) (x : Region) : Bool :=
  !v.bad.isEmpty && ((List.range 4).any (fun i => v.fails Space.TALLY_REGION (4 * r + i))
    || (List.range (x.nexp + 1)).any (fun k => v.fails Space.TALLY_EXP (4 * r + k)))

/-- Active size of head `h` in a deck. -/
def activeSize (v : DeckView) (h : Nat) : Nat × Nat :=
  (bits (v.cfg (R.OWB_Hnn_HTIME0 h)) 15 0, bits (v.cfg (R.OWB_Hnn_VTIME0 h)) 15 0)

/-- Malformed region (R386). -/
def regionMalformed (v : DeckView) (r : Nat) (x : Region) : Bool :=
  let a := activeSize v x.head
  x.w == 0 || x.h == 0 || decide (a.1 < x.x0 + x.w) || decide (a.2 < x.y0 + x.h) || regionBad v r x

/-- The six bytes a pixel is signed as (R384): the low byte of each code first, red, green, blue. -/
def signBytes (px : BitVec 48) : List Byte := leBytes 6 px.toNat

/-- Sign a line of head `h` at the tally point (R384). -/
def signLine (s : State) (h y : Nat) (px : List (BitVec 48)) : State :=
  let v := s.headView h
  forEach ((headRegions s h).filter (fun e => decide (e.2.y0 ≤ y ∧ y < e.2.y0 + e.2.h) && !regionMalformed v e.1 e.2)) s
    (fun s e =>
      let g := s.sign e.1
      let row := ((px.drop e.2.x0).take e.2.w).flatMap signBytes
      s.setSign e.1 { g with crc := crc32cStep g.crc row, rows := g.rows + 1 })

/-- The signatures of a head's regions start anew with its line 0. -/
def signStart (s : State) (h : Nat) : State :=
  forEach (headRegions s h) s (fun s e => s.setSign e.1 Sign.reset)

/-- Drop the signatures of a head: the frame in progress is not compared (R386). -/
def signAbandon (s : State) (h : Nat) : State :=
  forEach (headRegions s h) s (fun s e => s.setSign e.1 { Sign.reset with done := true })

/-- Key of word `w` of TALLY_STAT of region `r`. -/
def tsKey (r w : Nat) : Nat := skey Space.TALLY_STAT (4 * r + w)

/-- A word of the collector's or the tallies' storage is found uncorrectable (R391). -/
def collectorUpset (s : State) : State := raise (s.setFlag R.IHM_FC_SELF 2) 311

/-- A word of TALLY_STAT as its user reads it: one that is uncorrectable raises source 311 (R391), and its value is free. -/
def statRead (s : State) (r w : Nat) : Word × State :=
  if s.failing.contains (tsKey r w) then (Config.freeWord s.fresh, collectorUpset s.bumpFresh) else (s.sp (tsKey r w), s)

/-- A word of TALLY_STAT is written: it reads clean again. -/
def statWrite (s : State) (r w : Nat) (v : Word) : State := (s.setSp (tsKey r w) v).clean Space.TALLY_STAT (4 * r + w)

/-- Count in word `w` of TALLY_STAT of region `r`. -/
def statCount (s : State) (r w : Nat) : State := let x := statRead s r w; statWrite x.2 r w (satAdd32 x.1 1)

/-- Compare region `r` with tally `tally` (R385, R387). -/
def compareRegion (s : State) (v : DeckView) (r : Nat) (x : Region) (malformed : Bool) (tally : Nat) : State :=
  let (inj, s1) := injectCheck s 8 r
  let seen := if inj then tally ^^^ 0xFFFFFFFF else tally
  let idx := if malformed then none else (List.range (x.nexp + 1)).find? (fun k => (v.word Space.TALLY_EXP (4 * r + k)).toNat == seen)
  let (old, s1) := statRead s1 r 1
  let frame := bits (s1.rd (R.OWB_Hnn_FRAME x.head)) 15 0
  let flag (fault : Bool) : Nat := (if fault then 128 else 0) + (if malformed then 64 else 0) + (if inj then 32 else 0) + 2048
  let put (s : State) (misses : Nat) (mat : Nat) (fault : Bool) : State :=
    statWrite (statWrite s r 0 (word tally)) r 1 (word (frame * 65536 + misses * 4096 + mat + flag fault))
  let s1 := s1.setSign r { s1.sign r with done := true }
  match idx with
  | some k => put s1 0 (1024 + k * 256) (bit old 7)
  | none =>
    -- IDX after a miss is a free value: the spec states none.
    let free := bits (Config.freeWord s1.fresh) 1 0 * 256
    let misses := min 15 (bits old 15 12 + 1)
    let fault := decide (x.thresh ≤ misses) && !bit old 7
    let s2 := put s1.bumpFresh misses free (bit old 7 || fault)
    let s4 := raiseInj (statCount s2 r 2) 305 inj
    if fault then
      let s6 := history (statCount s4 r 3) 0 (word ((if inj then 536870912 else 0) + x.head * 16777216 + misses * 1048576 + r)) (word tally)
      raiseFull (s6.wrBits R.IHM_TALLY_SUM 8 0 r) 304 0 inj (setBit 0#32 x.head true)
    else s4

/-- Uncorrectable words of regions raise source 311 (R386, R391). -/
def regionUpset (s : State) (v : DeckView) (r : Nat) (x : Region) : State := if regionBad v r x then collectorUpset s else s

/-- At a head's end of frame, its malformed regions are compared and fail (R386). -/
def compareMalformed (s : State) (h : Nat) : State :=
  let v := s.headView h
  forEach (headRegions s h) s (fun s e =>
    if regionMalformed v e.1 e.2 ∧ ¬ (s.sign e.1).done then compareRegion (regionUpset s v e.1 e.2) v e.1 e.2 true 0 else s)

/-- Words of region `r` that a comparison finds uncorrectable are so until they are written (R386, R391). -/
def statUpsets (s : State) (r : Nat) (us : List Upset) : State :=
  forEach (us.filter (fun u => u.ecc == .ue && decide (u.addr / 4 = r)
    && [Space.TALLY_REGION, Space.TALLY_EXP, Space.TALLY_STAT].contains u.space)) s (fun s u => s.fail u.space u.addr)

/-- TALLY_COMPARE: the last pixel of a region passes the tally point (R385). A region with an uncorrectable word is malformed: it is compared at
its head's end of frame (R386). -/
def execTallyCompare (r : Fin 512) (upsets : List Upset) (s : State) : Host.Outcome State Fault Refusal :=
  runOn [.compose] s (fun s =>
    match (List.range 32).find? (fun h => let x := regionOf (s.headView h).lv r.val; x.en && x.head == h) with
    | none => s
    | some h =>
      let v := s.headView h
      let x := regionOf v.lv r.val
      let g := s.sign r.val
      if regionMalformed v r.val x ∨ g.done ∨ g.rows ≠ x.h then s
      else
        let s1 := statUpsets s r upsets
        let v := s1.headView h
        if regionMalformed v r.val x then s1 else compareRegion s1 v r.val x false (g.crc ^^^ 0xFFFFFFFF))

/-- Regions newly disabled by a commit (R387): VALID returns to 0. -/
def regionDisabled (s : State) (r : Nat) : State := s.setSp (tsKey r 1) (setBit (s.sp (tsKey r 1)) 11 false)

/-- Regions newly enabled by a commit (R385): MISSES and VALID return to 0. -/
def regionEnabled (s : State) (r : Nat) : State :=
  s.setSp (tsKey r 1) (s.sp (tsKey r 1) &&& 0xFFFF07FF#32)

end Sys2Proof.Machine
end

