-- ==== Sys2Proof/Machine/Pipeline.lean ====
section
/-!
DEFINITION. The run of a live table (R149 to R151): steps issued to tiles, the lines tiles compose from layer lines and the
substitution ladder (R181, R182), and the output converter (R113, R40).
-/
namespace Sys2Proof.Machine

-- Units of a step.

/-- Whether a step is one of those that finish on the old unit of a planned carry (R407 step 3). -/
def oldStep (s : State) (c l : Nat) (st : Step) : Option Nat :=
  match kget (fun _ => none) s.health.carry c with
  | some x => if x.switched ∧ x.reason ≠ 1 ∧ x.logical = l ∧ x.group = some st.group ∧ st.frame < x.frame then some x.unit else none
  | none => none

/-- Metered unit that runs a step on a logical tile, and one that serves it as a logical scaler. -/
def tileFor (s : State) (t : Nat) (st : Step) : Nat := (oldStep s 1 t st).getD (tileUnit s t)
def scalerFor (s : State) (l : Nat) (st : Step) : Nat := (oldStep s 2 l st).getD (scalerUnit s l)

-- The table of a deck.

/-- Step `i` of group `g` and the words of its entries (R146 to R148). -/
def DeckView.step (v : DeckView) (g i : Nat) : TStep :=
  tstepOf (v.word Space.RECKON (stepAddr g i 0)) (v.word Space.RECKON (stepAddr g i 1))
def DeckView.entries (v : DeckView) (g : Nat) (t : TStep) : List Word :=
  (List.range t.nent).map (fun k => v.word Space.LSET (entryAddr g (t.lset + k)))

/-- Whether a word of a step or of its entries is uncorrectable (R151). -/
def stepUe (v : DeckView) (g i : Nat) (t : TStep) : Bool :=
  !v.bad.isEmpty && ((List.range 4).any (fun w => v.fails Space.RECKON (stepAddr g i w))
    || (decide (t.op ≠ 1) && (List.range t.nent).any (fun k => v.fails Space.LSET (entryAddr g (t.lset + k)))))

/-- The other malformed steps of R151. DESIGN CHOICE: LSET + NENT over 32,768 makes a step without entries malformed too, though R148 ignores
its LSET. -/
def stepBad (v : DeckView) (g : Nat) (t : TStep) : Bool :=
  decide (2 ≤ t.op) || !bit (v.cfg (R.SEQ_Gn_HEADS g)) t.head || !tgEn v.cfg t.head
    || decide ((activeSize v t.head).2 < t.y0 + t.lines) || decide (256 < t.nent) || decide (maxEntries < t.lset + t.nent)
    || (v.entries g t).any (fun w =>
      let e := tentryOf w
      let d := v.desc e.desc
      (decide (79 < e.scaler) && e.scaler != 127) || !d.enable || d.head != t.head)

/-- Words of the reckoning tables that the sequencer reads with an error (R146); a corrected one is not counted anywhere. Answers the words
that an injected error makes uncorrectable in this read (R394). -/
def seqUpsets (s : State) (us : List Upset) (ws : List (Nat × Nat)) : List Nat × State :=
  let (inj, s1) := sramReads s 4 0 ws
  (brokenWords inj, forEach us s1 (fun s u => if u.ecc = .ue then s.fail u.space u.addr else s))

/-- The words the sequencer reads for step `i` of group `g`: the record, and the entries of a step that is no END (R146 to R148). -/
def seqReads (v : DeckView) (g i : Nat) : List (Nat × Nat) :=
  let t := v.step g i
  (List.range 4).map (fun w => (Space.RECKON, stepAddr g i w))
    ++ (if t.op = 1 then [] else (List.range t.nent).map (fun k => (Space.LSET, entryAddr g (t.lset + k))))

/-- A step is skipped (R151). -/
def skipStep (s : State) (g : Nat) (ue inj : Bool) : State :=
  let s1 := (s.bump (R.SEQ_Gn_BAD_STEP g) 1).setFlag (R.SEQ_Gn_TABLE_STAT g) (if ue then 30 else 31)
  raiseInj s1 (9 + 2 * g) (ue && inj)

/-- Whether a group has no reference head that counts frames: it has a boundary every 1 ms (R198). -/
def noReference (s : State) (g : Nat) : Bool :=
  let ref := bits (s.cfg (R.SEQ_Gn_CTRL g)) 4 0
  decide (s.groupHeads g = []) || !bit (s.cfg (R.SEQ_Gn_HEADS g)) ref || !tgEn s.cfg ref

/-- The first frame whose decks the next boundary of a group still decides. DEDUCED: the boundaries of a group without a reference head that
come before the next frame start all decide that frame. -/
def undecided (s : State) (g : Nat) : Nat :=
  let x := s.group g
  if x.started ∨ ¬ noReference s g then x.frame + 1 else x.frame

/-- The last frame of a group that has started: at a boundary, the last one that the decks live before it compose. -/
def lastFrame (s : State) (g : Nat) : Nat := let x := s.group g; if x.started then x.frame else x.frame - 1

/-- Whether the sequencer may begin the pass of the next frame: that frame's boundary has been passed, or its own frame has started and
no commit in flight could still change the decks (R149, R177). DEDUCED. -/
def nextPassOpen (s : State) (g : Nat) : Bool :=
  let x := s.group g
  decide (x.seqFrame + 1 < undecided s g) || (decide (x.seqFrame + 1 = undecided s g ∧ (x.started ∨ noReference s g)) && match x.commit with
    | none => true
    | some c => c.state == 1)

/-- A head scans out or is about to: it runs or starts. -/
def headRuns (x : Head) : Bool := decide (x.state = .running) || decide (x.state = .starting)

/-- Whether a head starts at the next frame start: its gap's step 3 is done, it has been enabled, or it resets. -/
def startsNow (x : Head) : Bool :=
  (decide (x.state = .gap) || (decide (x.state = .dark) && decide (x.req = .running)) || decide (x.state = .resetting)) && !x.divWait && !x.pllWait

/-- The frame with which a head that waits starts. -/
def firstFrame (x : Group) : Nat := if x.started then x.frame + 1 else x.frame

/-- Whether head `h` composes steps of frame `f` of group `g`: it runs or starts in that group, and no gap is due before that frame; or it waits for the frame start
at which it starts with `f` (R206, R208). DEDUCED: composition begins once step 3 is done, so that the first line is there when it is due
(R37). -/
def headComposes (s : State) (g h f : Nat) : Bool :=
  let x := s.head h
  if headRuns x then x.group.getD g == g && !(x.gapDue && decide (x.gapAt < f)) else startsNow x && decide (firstFrame (s.group g) ≤ f)

/-- The step the sequencer reads next, and the group once it has been read: a step skipped for a head that now composes, else the next of
the pass, else the first of the next pass when that may begin. -/
def seqNext (s : State) (g : Nat) : Option (Nat × Group) :=
  let x := s.group g
  match x.skipped.find? (fun i => headComposes s g ((s.viewFor g x.seqFrame).step g i).head x.seqFrame) with
  | some i => some (i, { x with skipped := x.skipped.erase i })
  | none =>
    if ¬ x.passDone then some (x.pos, { x with pos := x.pos + 1, passDone := decide (maxSteps ≤ x.pos + 1) })
    else if nextPassOpen s g then some (0, { x with seqFrame := x.seqFrame + 1, pos := 1, passDone := false, skipped := [] })
    else none

/-- SEQ_STEP_ISSUE (R149, R151). -/
def seqIssue (s : State) (g : Nat) (us : List Upset) : State :=
  if ¬ s.released ∨ (s.group g).live.steps = 0 then s
  else match seqNext s g with
    | none => s
    | some (i, x) =>
      let (inj, s1) := seqUpsets s us (seqReads (s.viewFor g x.seqFrame) g i)
      let v := s1.viewFor g x.seqFrame
      let t := v.step g i
      if stepUe (v.withBad inj) g i t then skipStep (s1.setGroup g x) g true (!inj.isEmpty && !stepUe v g i t)
      else if t.op = 1 then s1.setGroup g { x with passDone := true }
      else if stepBad v g t then skipStep (s1.setGroup g x) g false false
      else if ¬ headComposes s1 g t.head x.seqFrame then s1.setGroup g { x with skipped := x.skipped ++ [i] }
      else
        let q := s1.tile t.tile
        if 4 ≤ q.queue.length then s1
        else
          (s1.setGroup g x).setTile t.tile
            { q with queue := q.queue ++ [⟨g, x.seqFrame, i, t.head, t.y0, t.lines, v.entries g t⟩] }

def execSeqStepIssue (g : Fin 8) (upsets : List Upset) (s : State) : Host.Outcome State Fault Refusal :=
  runOn [.compose] s (fun s => seqIssue s g upsets)

-- A step at its tile.

/-- Columns [x0, x1) and lines [y0, y1) an entry covers in its step (R95, R148, R155). -/
def entryBox (v : DeckView) (st : Step) (w : Word) : Nat × Nat × Nat × Nat :=
  let e := tentryOf w
  let a := activeSize v st.head
  match clipBox (v.desc e.desc) a.1 a.2 with
  | none => (0, 0, 0, 0)
  | some (x0, x1, y0, y1) =>
    let m := stripMid x0 x1
    let c := match e.part with
      | none => (x0, x1)
      | some 0 => (x0, m)
      | some _ => (m, x1)
    (c.1, c.2, max y0 st.y0, min y1 (st.y0 + st.lines))

/-- The format of the surface a descriptor shows (R205). -/
def entryFormat (s : State) (v : DeckView) (n : Nat) : Nat :=
  match s.surface (v.handle n) with
  | some x => x.format
  | none => 0

/-- One entry at one line of a running step. -/
structure LayAt where
  n : Nat
  d : Desc
  f : Nat
  x0 : Nat
  /-- Samples; none where the layer bead is VOID or a table word the sample uses fails (R119). -/
  px : List LayerPx
  rung : Nat
  prev : List LayerPx
  low : Bool
  deriving DecidableEq, Repr

/-- Samples that would use a failing table word are VOID (R119). -/
def screened (v : DeckView) (g n f : Nat) (d : Desc) (px : List LayerPx) : List LayerPx :=
  if layerFails v g n f d then px.map (fun _ => none)
  else if v.bad.isEmpty then px
  else px.map (fun p => match p with
    | none => none
    | some b => if sampleFails v g f d (unpack4 b) then none else some b)

/-- An entry at line `y`: none when it does not cover the line; its samples are none when they have not arrived. DEDUCED: the samples that
rung 1 repeats use the table words again, so those that would use a failing one are VOID too. -/
def layAt (s : State) (v : DeckView) (st : Step) (y : Nat) (e : Entry) : Option (Option LayAt) :=
  let te := tentryOf e.word
  let d := v.desc te.desc
  let (x0, x1, y0, y1) := entryBox v st e.word
  if y < y0 ∨ y1 ≤ y ∨ x1 ≤ x0 then none
  else
    let f := if d.kind = 1 then 0 else entryFormat s v te.desc
    let mk (px : List LayerPx) (low : Bool) : LayAt :=
      ⟨te.desc, d, f, x0, screened v st.group te.desc f d px, e.rung, screened v st.group te.desc f d e.prev, low⟩
    if d.kind = 1 then some (some (mk (List.replicate (x1 - x0) (some 0#64)) false))
    else some ((e.got.find? (fun l => l.y == y)).map (fun l => mk l.px l.low))

/-- Whether some sample of a line is VOID. -/
def LayAt.holed (l : LayAt) : Bool := l.px.any Option.isNone

/-- The samples a line uses, for rung 1 on the next one (R181). -/
def LayAt.used (l : LayAt) : List LayerPx :=
  l.px.zipIdx.map (fun p => match p.1 with
    | some b => some b
    | none => if l.rung = 1 then (l.prev[p.2]?).join else none)

/-- How a used sample of a layer is composed (R112, R181). A VOID sample of a line without a rung does not occur: the line
waits for its rung. -/
def LayAt.sample (l : LayAt) (p : LayerPx) : Rung × Px :=
  match p with
  | some b => (.samples, unpack4 b)
  | none => (if l.rung = 2 then .fallback else .omit, ⟨0, 0, 0, 0⟩)

/-- One layer over a line of pixels: each pixel it covers is composed (R111), the others stay. -/
def composeOver (v : DeckView) (g : Nat) (line : List Px) (l : LayAt) : Calc (List Px) := do
  let mid ← ((line.drop l.x0).zip l.used).mapM (fun p => let r := l.sample p.2; composeLayer v g l.f l.d r.1 r.2 p.1)
  return line.take l.x0 ++ mid ++ line.drop (l.x0 + mid.length)

/-- Count an entry's line by what it used (R172, R182). -/
def countLine (g : Nat) (s : State) (l : LayAt) : State :=
  let put (s : State) (w : Nat) : State :=
    let k := skey Space.LAYER_CNT (4 * l.n + w)
    s.setSp k (satAdd32 (s.sp k) 1)
  if l.rung ≠ 0 then (put s l.rung).bump (R.FSH_Gn_SUBST g) 1
  else if l.low then (put s 0).bump (R.FSH_Gn_DELAYED g) 1
  else s

/-- The ladder state of an entry after a line (R181). -/
def entryAfter (y : Nat) (l : Option LayAt) (e : Entry) : Entry :=
  match l with
  | none => e
  | some l =>
    { e with got := e.got.filter (fun g => g.y != y)
             repRun := if l.rung = 1 then e.repRun + 1 else 0
             fillRun := if 2 ≤ l.rung then e.fillRun + 1 else 0
             prevFill := decide (2 ≤ l.rung)
             rung := 0
             prev := l.used
             flips := e.flips.filter (fun p => p.1 != y) }

/-- A result line goes over its tile's result rod to the head's converter, and to its write-back branch while write-back runs (R21, R27,
R30). A line of odd width ends with a pixel the head discards. -/
def deliverResult (s : State) (h : Nat) (l : ResLine) : State :=
  let x := s.head h
  let px := if rodVoid s (tileRod l.tile) then l.px.map (fun _ => none) else carryPixels 0 l.px (tallied s h) []
  let l1 := { l with px := px }
  s.setHead h { x with results := x.results ++ [l1],
                       wbq := if x.wb.run || x.wb.recheck || x.wb.capture.isSome then x.wbq ++ [⟨l1, 0, false⟩] else x.wbq }

/-- Compose the next line of a tile's step from entries that are all there. -/
def composeLine (s : State) (t : Nat) (v : DeckView) (st : Step) (ls : List (Entry × Option LayAt)) : State :=
  let x := s.tile t
  let lays := ls.filterMap (·.2)
  let back := List.replicate (activeSize v st.head).1 (background v st.head)
  let (px, n) := (lays.foldlM (composeOver v st.group) back).run 0
  let s1 := s.setTile t { x with y := x.y + 1, entries := ls.map (fun e => entryAfter x.y e.2 e.1) }
  countSat (forEach lays (deliverResult s1 st.head ⟨st.frame, x.y, px.map (fun p => some (pack4 p)), t⟩) (countLine st.group)) n

/-- Compose lines of a tile's step while every layer line they need has arrived and has its rung (R149). -/
def tileAdvance : Nat → State → Nat → State
  | 0, s, _ => s
  | fuel + 1, s, t =>
    let x := s.tile t
    match x.run with
    | none => s
    | some st =>
      if st.y0 + st.lines ≤ x.y then s
      else
        let v := (s.viewFor st.group st.frame).withBad x.bad
        let ls := x.entries.map (fun e => (e, layAt s v st x.y e))
        let ready := ls.all (fun e => match e.2 with
          | none => true
          | some none => false
          | some (some l) => !l.holed || decide (l.rung ≠ 0))
        if ready then tileAdvance fuel (composeLine s t v st (ls.map (fun e => (e.1, e.2.join)))) t else s

/-- The rung an entry takes (R181). DEDUCED: neither rung 1 nor rung 2 is taken with a word it uses failing; a sample that would use it is
VOID (R119). -/
def rungOf (v : DeckView) (st : Step) (e : Entry) (l : LayAt) (y : Nat) : Nat :=
  let lad := v.cfg (R.FSH_Gn_LADDER st.group)
  let first := (entryBox v st e.word).2.2.1
  if first < y ∧ ¬ e.prevFill ∧ e.repRun < bits lad 3 0 ∧ ¬ layerFails v st.group l.n l.f l.d then 1
  else if (bits lad 15 8 = 255 ∨ e.fillRun < bits lad 15 8) ∧ ¬ fallbackFails v st.group l.d ∧ ¬ descFails v l.n then 2
  else 3

/-- TILE_VOID_BEAD: the first VOID bead of an entry's present line chooses its rung (R181). -/
def tileVoid (s : State) (t i : Nat) : State :=
  let x := s.tile t
  match x.run, x.entries[i]? with
  | some st, some e =>
    let v := (s.viewFor st.group st.frame).withBad x.bad
    match layAt s v st x.y e with
    | some (some l) =>
      if l.holed ∧ e.rung = 0 ∧ x.y < st.y0 + st.lines then
        tileAdvance 64 (s.setTile t { x with entries := setAt x.entries i { e with rung := rungOf v st e l x.y } }) t
      else s
    | _ => s
  | _, _ => s

def execTileVoidBead (t : Fin 32) (entry : Nat) (s : State) : Host.Outcome State Fault Refusal :=
  runOn [.outputs, .compose] s (fun s => tileVoid s t entry)

-- Layer lines from a scaler.

/-- Take the pixels of VOID beads out of a run that starts at column `x0`; bead k carries columns 2k and 2k + 1. -/
def voidPairs (x0 : Nat) (void : Nat → Bool) (px : List LayerPx) : List LayerPx :=
  px.zipIdx.map (fun p => if void ((x0 + p.2) / 2) then none else p.1)

/-- A layer line after its way over its scaler's two layer rods (R23, R26, R40); `x0` is its first column. -/
def layerArrives (s : State) (l x0 : Nat) (st : Bool) (flips : List (Nat × BitVec 137)) (px : List LayerPx) : List LayerPx :=
  carryPixels x0 (voidPairs x0 (rodsVoid s (scalerRods l)) px) st flips

/-- A layer line reaches its tile, if the step still runs there. -/
def layerLine (s : State) (j : ScaleJob) (y : Nat) (px : List LayerPx) (low : Bool) : State :=
  let x := s.tile j.tile
  match x.run, x.entries[j.entry]? with
  | some st, some e =>
    if st = j.step then
      let d := (s.viewFor st.group st.frame).desc j.desc
      let flips := (e.flips.filter (fun f => f.1 == y)).map (·.2)
      let got := layerArrives s (tentryOf e.word).scaler j.x0 (d.safety || tallied s st.head) flips px
      let line : LayLine := ⟨y, got, low⟩
      tileAdvance 64 ((s.drawn (px.length + j.x0)).setTile j.tile { x with entries := setAt x.entries j.entry { e with got := e.got ++ [line] } }) j.tile
    else s
  | _, _ => s

/-- Destination line `v` of a job leaves the scaler VOID (R125, R143). -/
def voidLine (s : State) (j : ScaleJob) (d : Desc) (v : Nat) : State :=
  layerLine (raise (s.bump R.SCA_VOID_OUT_CNT 1) 60) j (d.dstY + (v : Int)).toNat (List.replicate (j.x1 - j.x0) none) false

/-- Every destination line a job still owes leaves the scaler VOID (R39, R411). -/
def voidJob (s : State) (j : ScaleJob) : State :=
  let d := (s.viewFor j.step.group j.step.frame).desc j.desc
  forEach ((List.range (j.vEnd - j.v)).map (· + j.v)) s (fun s v => voidLine s j d v)

/-- Whether a job of logical scaler `l` is answered with VOID beads only: its unit drains or has failed (R39, R456). -/
def jobVoided (s : State) (l : Nat) (j : ScaleJob) : Bool := unitVoid s j.unit || s.health.lostScalers.contains l

/-- Deliver the destination lines of the first job of a scaler whose stored lines are all decided (R124, R125). -/
def scalerAdvance : Nat → State → Nat → State
  | 0, s, _ => s
  | fuel + 1, s, l =>
    match (s.scaler l).jobs with
    | [] => s
    | j :: rest =>
      if j.vEnd ≤ j.v then scalerAdvance fuel (s.setScaler l ⟨rest⟩) l
      else if jobVoided s l j then scalerAdvance fuel (voidJob (s.setScaler l ⟨rest⟩) j) l
      else
        let d := (s.viewFor j.step.group j.step.frame).desc j.desc
        match s.surface j.handle with
        | none => scalerAdvance fuel (voidJob (s.setScaler l ⟨rest⟩) j) l
        | some x =>
          let want := linesFor d x j.v
          let have_ := want.filterMap (fun n => j.stored.find? (fun e => e.line == n))
          if have_.length < want.length then s
          else
            let s1 := s.setScaler l ⟨{ j with v := j.v + 1 } :: rest⟩
            if have_.any (fun e => e.data.isNone) || coefFails s (j.unit - 450) d x j.x0 j.x1 j.v then
              scalerAdvance fuel (voidLine s1 j d j.v) l
            else
              let line (n : Nat) : List Byte := ((j.stored.find? (fun e => e.line == n)).bind (·.data)).getD []
              let (px, n) := (scaleLine s d x line j.x0 j.x1 j.v j.hdone).run 0
              let s1 := s.setScaler l ⟨{ j with v := j.v + 1, hdone := (j.hdone ++ want).eraseDups } :: rest⟩
              scalerAdvance fuel (countClip (layerLine s1 j (d.dstY + (j.v : Int)).toNat (px.map some) (have_.any (·.low))) n) l

/-- Lines a job can have, with the jobs behind it. -/
def scalerFuel : Nat := 4096

-- Starting and ending a step.

/-- Lines of head `h` that hold a slot of its elastic buffer: composed, being composed or converted, and not yet left
(R149). -/
def slotsUsed (s : State) (h : Nat) : Nat :=
  let x := s.head h
  let running := (List.range 32).flatMap (fun t => match (s.tile t).run with
    | some st => if st.head = h then (List.range st.lines).map (fun i => (st.frame, st.y0 + i)) else []
    | none => [])
  let held := (x.results ++ x.ebuf).map (fun l => (l.frame, l.y))
  ((running ++ held).eraseDups.filter (fun e => decide (x.frame < e.1 ∨ (e.1 = x.frame ∧ x.line ≤ e.2)))).length

/-- Slots of a head's elastic buffer that its queued steps before a step take first (R149 item 4: in table order). -/
def slotsAhead (s : State) (st : Step) : Nat :=
  ((List.range 32).flatMap (fun t => ((s.tile t).queue.filter (fun q =>
    q.head == st.head && decide (q.frame < st.frame ∨ (q.frame = st.frame ∧ q.index < st.index)))).map (·.lines))).sum

/-- The scaler job of an entry (R124, R148); none for a FILL layer or an entry without lines in the band. -/
def scaleJob (s : State) (v : DeckView) (t : Nat) (st : Step) (i : Nat) (w : Word) : Option (Nat × ScaleJob) :=
  let e := tentryOf w
  let d := v.desc e.desc
  let (x0, x1, y0, y1) := entryBox v st w
  if d.kind = 1 ∨ y1 ≤ y0 ∨ x1 ≤ x0 ∨ 79 < e.scaler then none
  else
    let v0 := ((y0 : Int) - d.dstY).toNat
    let v1 := ((y1 : Int) - d.dstY).toNat
    let h := v.handle e.desc
    let needs := match s.surface h with
      | some x => linesForRange d x v0 v1
      | none => []
    some (e.scaler, ⟨t, i, st, e.desc, h, scalerFor s e.scaler st, x0, x1, needs, [], [], v0, v0, v1, []⟩)

/-- Whether a tile's unit has failed and a carry onto a spare is to take its steps (R409). -/
def tileCarryComing (s : State) (t : Nat) : Bool :=
  let hit (x : UnitCarry) : Bool := x.logical == t && x.reason == 1
  (match kget (fun _ => none) s.health.carry 1 with
    | some x => hit x
    | none => false) || (kget (fun _ => []) s.health.waiting 1).any hit

/-- A tile that answers VOID gives a step's lines without a pixel (R39, R456). -/
def voidStep (s : State) (t : Nat) (v : DeckView) (st : Step) : State :=
  forEach (List.range st.lines) s (fun s i =>
    deliverResult s st.head ⟨st.frame, st.y0 + i, List.replicate (activeSize v st.head).1 none, t⟩)

/-- The words of a descriptor. -/
def descWords (n : Nat) : List (Nat × Nat) := (List.range 8).map (fun k => (Space.LAYER_DESC, 8 * n + k))

/-- TILE_STEP_START (R149 item 3). A tile reads the descriptors of its entries here; an error is met in them or in the group tables. -/
def tileStart (s : State) (t : Nat) (us : List Upset) : State :=
  let x := s.tile t
  match x.run, x.queue with
  | none, st :: rest =>
    let v := s.viewFor st.group st.frame
    let w := (activeSize v st.head).1
    let u := tileFor s t st
    if 131072 / max 1 w < slotsUsed s st.head + slotsAhead s st + st.lines then s
    else if (s.metered u).eff = 7 ∧ tileCarryComing s t then s
    else if unitVoid s u ∨ s.health.lostTiles.contains t then
      voidStep (s.setTile t { x with queue := rest, run := some st, y := st.y0 + st.lines, entries := [], unit := u, bad := [] }) t v st
    else
      let (bad, s1) := tableUpsets s us (st.entries.flatMap (fun w => descWords (tentryOf w).desc))
      let s2 := s1.setTile t { x with queue := rest, run := some st, y := st.y0, unit := u, bad := bad,
                                      entries := st.entries.map (fun w => ⟨w, [], 0, 0, false, 0, [], []⟩) }
      let jobs := st.entries.zipIdx.filterMap (fun e => scaleJob s2 v t st e.2 e.1)
      let s3 := forEach jobs s2 (fun s j => s.setScaler j.1 ⟨(s.scaler j.1).jobs ++ [j.2]⟩)
      forEach (jobs.map (·.1)).eraseDups (tileAdvance 64 s3 t) (fun s l => scalerAdvance scalerFuel s l)
  | _, _ => s

def execTileStepStart (t : Fin 32) (upsets : List Upset) (s : State) : Host.Outcome State Fault Refusal :=
  runOn [.outputs, .compose] s (fun s => tileStart s t upsets)

/-- TILE_STEP_DONE: the last result bead of the step has been delivered (R149). -/
def execTileStepDone (t : Fin 32) (s : State) : Host.Outcome State Fault Refusal :=
  runOn [.compose] s (fun s =>
    let x := s.tile t
    match x.run with
    | some st => if st.y0 + st.lines ≤ x.y then s.setTile t { x with run := none, entries := [] } else s
    | none => s)

/-- Drop the steps, layer lines and results of head `h` that a test on the frame picks (R197, R206, R221). -/
def dropSteps (s : State) (h : Nat) (p : Nat → Bool) : State :=
  let hit (st : Step) : Bool := st.head == h && p st.frame
  let s1 := forEach (List.range 32) s (fun s t =>
    let x := s.tile t
    let y := { x with queue := x.queue.filter (fun st => !hit st) }
    s.setTile t (match x.run with
      | some st => if hit st then { y with run := none, entries := [] } else y
      | none => y))
  let s2 := forEach (List.range 80) s1 (fun s l => s.setScaler l ⟨(s.scaler l).jobs.filter (fun j => !hit j.step)⟩)
  let x := s2.head h
  let keep (ls : List ResLine) : List ResLine := ls.filter (fun l => !p l.frame)
  s2.setHead h { x with results := keep x.results, wbq := x.wbq.filter (fun l => !p l.line.frame), ebuf := keep x.ebuf }

-- The output converter.

/-- Metered unit of a head's output converter (R400). -/
def converterUnit (h : Nat) : Nat := 538 + h

/-- φ of R117: bits [1:0] of OWB_Hnn_FRAME as it will stand when the frame is scanned out. -/
def frameCount (s : State) (h frame : Nat) : Nat :=
  let x := s.head h
  if ¬ headRuns x then
    match s.headGroup h with
    | some g => frame - firstFrame (s.group g)
    | none => 0
  else if x.first then frame - x.frame
  else (s.rd (R.OWB_Hnn_FRAME h)).toNat + (frame - x.frame)

/-- First column of a line with a pixel. -/
def ResLine.firstPixel (l : ResLine) : Option Nat := l.px.findIdx? Option.isSome

/-- Convert a composed line of head `h` (R113 to R117, R119): codes, none for a pixel that is not written. The conversion of its first pixel
meets the words `bad` as uncorrectable. -/
def convertLine (v : DeckView) (h : Nat) (phi : Nat) (l : ResLine) (bad : List Nat) : Calc (List (Option (BitVec 64))) :=
  l.px.zipIdx.mapM (fun p => match p.1 with
    | none => return none
    | some b => do
      let c ← outConvert (if l.firstPixel = some p.2 then v.withBad bad else v) h (depthOf v.cfg h) p.2 l.y (phi % 4) (unpack4 b)
      return c.map (·.setWidth 64))

/-- Whether line `y` of frame `f` has already fallen due at head `x` (R36). -/
def Head.past (x : Head) (f y : Nat) : Bool := decide (f < x.frame) || (decide (f = x.frame) && (decide (y < x.line) || (decide (y = x.line) && x.due)))

/-- Two compositions of one line: each pixel is one of them, or background (R151); which is a free value. -/
def mixLines (fresh : Nat) (a b : List (Option (BitVec 64))) : List (Option (BitVec 64)) :=
  (a.zip b).zipIdx.map (fun e => match bits (Config.freeWord (fresh + e.2)) 1 0 with
    | 0 => e.1.1
    | 1 => e.1.2
    | _ => none)

/-- Put a converted line into the elastic buffer. -/
def bufferLine (s : State) (h : Nat) (l : ResLine) : State :=
  let x := s.head h
  match x.ebuf.find? (fun e => e.frame == l.frame && e.y == l.y) with
  | none => s.setHead h { x with ebuf := x.ebuf ++ [l] }
  | some old =>
    let px := mixLines s.fresh old.px l.px
    { s with fresh := s.fresh + l.px.length }.setHead h
      { x with ebuf := { l with px := px } :: x.ebuf.filter (fun e => !(e.frame == l.frame && e.y == l.y)) }

/-- RESULT_BEAD_ARRIVAL (R113, R36, R40): the next result line is converted into the elastic buffer; pixels that arrive
after their line fell due are discarded. An armed injection meets the words that the line's first pixel reads (DESIGN CHOICE). -/
def resultArrival (s : State) (h : Nat) (us : List Upset) : State :=
  let x := s.head h
  match x.results with
  | [] => s
  | l :: rest =>
    let s1 := s.setHead h { x with results := rest }
    if unitVoid s (converterUnit h) then bufferLine s1 h { l with px := l.px.map (fun _ => none) }
    else
      let view (s : State) : DeckView := match s.headGroup h with
        | some g => s.viewFor g l.frame
        | none => s.view
      let reads := match (l.px.filterMap id).head? with
        | some p => convertReads (view s1) h (unpack4 p)
        | none => []
      let (bad, s2) := tableUpsets s1 us reads
      let (px, n) := (convertLine (view s2) h (frameCount s2 h l.frame) l bad).run 0
      let s3 := countSat s2 n
      if x.past l.frame l.y then s3 else bufferLine s3 h { l with px := px }

def execResultBeadArrival (h : Fin 32) (upsets : List Upset) (s : State) : Host.Outcome State Fault Refusal :=
  runOn [.outputs] s (fun s => resultArrival s h upsets)

end Sys2Proof.Machine
end

