-- ==== Sys2Proof/Machine/Carries.lean ====
section
/-!
DEFINITION. Metered units and their carries onto spares (R400 to R414, R456): wear, the choice of a spare, planned and fault
carries, drains.
-/
namespace Sys2Proof.Machine

-- Classes and numbers (R400).

def clsRod : Nat := 0
def clsTile : Nat := 1
def clsScaler : Nat := 2
def clsConverter : Nat := 3

/-- Class code of a metered unit. -/
def unitClass (u : Nat) : Nat := if u < 416 then 0 else if u < 450 then 1 else if u < 538 then 2 else 3

/-- First metered unit of a class, and how many it has. -/
def classBase (c : Nat) : Nat := if c = 0 then 0 else if c = 1 then 416 else if c = 2 then 450 else 538
def classSize (c : Nat) : Nat := if c = 0 then 416 else if c = 1 then 34 else if c = 2 then 88 else if c = 3 then 32 else 0

/-- Physical number within the class. -/
def physOf (u : Nat) : Nat := u - classBase (unitClass u)

/-- Class as the carry commands name it. -/
def UnitClass.code : UnitClass → Nat
  | .rod => 0
  | .tile => 1
  | .scaler => 2
  | .converter => 3

/-- Spare domain of a unit (R24, R123); tiles have one domain. DESIGN CHOICE: the spec numbers the domains of no rod; physical rods 100 d to
100 d + 99 are those of the logical rods of domain d (`rodPurpose`), and rods 400 to 415 the spares, four per domain. -/
def unitDomain (u : Nat) : Nat :=
  let p := physOf u
  match unitClass u with
  | 0 => if p < 400 then p / 100 else (p - 400) / 4
  | 2 => p / 22
  | _ => 0

/-- Units of a class and domain. -/
def domainUnits (c d : Nat) : List Nat :=
  ((List.range (classSize c)).map (· + classBase c)).filter (fun u => unitDomain u == d)

/-- Spares a domain was delivered with (R404). -/
def spareCount (c : Nat) : Nat := if c = 0 then 4 else 2

/-- The logical number that runs on a metered unit; a converter runs its own head. -/
def logicalOf (s : State) (u : Nat) : Option Nat :=
  match unitClass u with
  | 0 => (List.range 400).find? (fun l => kget rodMapReset s.health.rodMap l == u)
  | 1 => (List.range 32).find? (fun t => tileUnit s t == u)
  | 2 => (List.range 80).find? (fun l => scalerUnit s l == u)
  | _ => some (u - 538)

/-- Map a logical unit of a class onto a metered unit. -/
def mapLogical (s : State) (c l u : Nat) : State :=
  match c with
  | 0 => { s with health := { s.health with rodMap := kset rodMapReset s.health.rodMap l u } }
  | 1 => { s with health := { s.health with tileMap := kset tileMapReset s.health.tileMap l u } }
  | _ => s.wrBits (R.SCA_MAPnn (l / 4)) (8 * (l % 4) + 7) (8 * (l % 4)) (physOf u)

-- States (R414).

/-- A unit in service: idle or active. -/
def inService (s : State) (u : Nat) : Bool := decide ((s.metered u).eff = 1)

/-- The group whose live table names a logical tile or scaler (R407). -/
def servingGroup (s : State) (c l : Nat) : Option Nat :=
  (List.range 8).find? (fun g =>
    let p := (s.group g).live
    if c = 1 then p.tiles.contains l else c == 2 && p.scalers.contains l)

/-- Whether a live, PLANNED or HELD table names a logical unit (R413). -/
def namedInTable (s : State) (c l : Nat) : Bool :=
  (List.range 8).any (fun g =>
    let x := s.group g
    let ps := x.live :: x.planned.toList
    ps.any (fun p => if c = 1 then p.tiles.contains l else c == 2 && p.scalers.contains l))

/-- Whether registers and tables ask work of a unit in service. DEDUCED: of a rod always, of a tile or scaler while a live
table names it, of a converter while its head is not dark. -/
def unitAsked (s : State) (u : Nat) : Bool :=
  match unitClass u with
  | 0 => true
  | 3 => tgEn s.cfg (u - 538)
  | c => match logicalOf s u with
    | some l => (servingGroup s c l).isSome
    | none => false

/-- REQ_STATE and EFF_STATE of a metered unit as CMETER shows them (R414). -/
def shownState (s : State) (u code : Nat) : Nat := if code = 1 ∧ unitAsked s u then 2 else code
def reqState (s : State) (u : Nat) : Nat := shownState s u (s.metered u).req
def effState (s : State) (u : Nat) : Nat := shownState s u (s.metered u).eff

def setEff (s : State) (u e : Nat) : State := s.setMetered u { s.metered u with eff := e }
def setReqEff (s : State) (u e : Nat) : State := s.setMetered u { s.metered u with req := e, eff := e }

/-- CMETER words of a unit (R402). -/
def meterWord (s : State) (a : Nat) : Word :=
  let u := a / 4
  let x := s.metered u
  match a % 4 with
  | 0 => word (x.periodMax * 65536 + x.period)
  | 1 => word ((Config.fusedBase u).toNat * 65536 + x.ratio)
  | 2 => word (reqState s u * 16777216 + effState s u * 65536 + (x.drift % 65536).toNat)
  | _ => word (x.overs * 65536 + x.windows)

-- Spares (R404).

/-- A spare that could be carried in: in no use, not failed and not carried out. -/
def freeSpare (s : State) (u : Nat) : Bool :=
  (decide ((s.metered u).eff = 5) || decide ((s.metered u).eff = 0)) && (logicalOf s u).isNone
    && !(s.health.carry.any (fun e => match e.2 with
      | some x => x.spare == some u
      | none => false))

def freeSpares (s : State) (c d : Nat) : List Nat :=
  if c = 3 then [] else (domainUnits c d).filter (freeSpare s)

/-- The spare for a unit: the lowest-numbered free one that is NORMAL, else one in WARN (R404). -/
def chooseSpare (s : State) (u : Nat) : Option Nat :=
  let xs := freeSpares s (unitClass u) (unitDomain u)
  match xs.find? (fun v => (s.metered v).cond == 0) with
  | some v => some v
  | none => xs.find? (fun v => (s.metered v).cond == 1)

/-- Source of a class's exhaustion, and of its carry. -/
def exhaustSource (c : Nat) : Nat := if c = 0 then 315 else if c = 1 then 79 else 64
def carrySource (c : Nat) : Nat := if c = 0 then 314 else if c = 1 then 78 else 63

/-- The exhaustion event of the class, when its domain has no free spare left. -/
def checkExhausted (s : State) (u : Nat) : State :=
  if unitClass u ≠ 3 ∧ freeSpares s (unitClass u) (unitDomain u) = [] then raise s (exhaustSource (unitClass u)) else s

/-- Spares of a domain in use. DESIGN CHOICE: a spare is in use while a logical unit runs on it; one carried out, failed or found worn is
neither free nor in use. -/
def sparesUsed (s : State) (c d : Nat) : Nat :=
  ((domainUnits c d).filter (fun u => decide ((Metered.init u).eff = 5) && (logicalOf s u).isSome)).length

/-- IHM_ROD_SPARE_STAT and SCA_SPARE_STAT (R142, R422). -/
def updateSpareStat (s : State) (c d : Nat) : State :=
  match c with
  | 0 => s.wrBits R.IHM_ROD_SPARE_STAT (4 * d + 2) (4 * d) (sparesUsed s 0 d)
  | 2 => s.wrBits R.SCA_SPARE_STAT (2 * d + 1) (2 * d) (sparesUsed s 2 d)
  | _ => s

-- Carries in progress, and those that wait (R406 to R410).

def State.carry (s : State) (c : Nat) : Option UnitCarry := kget (fun _ => none) s.health.carry c
def State.setCarry (s : State) (c : Nat) (x : Option UnitCarry) : State :=
  { s with health := { s.health with carry := kset (fun _ => none) s.health.carry c x } }
def State.waitingCarries (s : State) (c : Nat) : List UnitCarry := kget (fun _ => []) s.health.waiting c
def State.setWaitingCarries (s : State) (c : Nat) (xs : List UnitCarry) : State :=
  { s with health := { s.health with waiting := kset (fun _ => []) s.health.waiting c xs } }

/-- The logical number a unit serves: its own, or the one that a carry has just moved from it. -/
def servedLogical (s : State) (u : Nat) : Option Nat :=
  logicalOf s u <|> (s.carry (unitClass u)).bind (fun x => if x.unit = u then some x.logical else none)

-- Draining (R39, R411).

/-- A tile gives the rest of its step without a pixel. -/
def voidTile (s : State) (t : Nat) : State :=
  let x := s.tile t
  match x.run with
  | none => s
  | some st =>
    let w := (activeSize (s.viewFor st.group st.frame) st.head).1
    forEach ((List.range (st.y0 + st.lines - x.y)).map (· + x.y)) (s.setTile t { x with y := st.y0 + st.lines, entries := [] })
      (fun s y => deliverResult s st.head ⟨st.frame, y, List.replicate w none, t⟩)

/-- Whether fetch rod `r` holds the request with number `id`: it carries its beads, or no rod is known to, and free bit `i` says so. -/
def onFetchRod (s : State) (r id i : Nat) : Bool :=
  let on := s.rods.filter (fun k => k.2.line == [0, id])
  on.any (fun k => k.1 == r) || (on.isEmpty && s.freeBit i)

/-- Line requests of scalers and of run-ahead that a fetch rod holds are answered VOID. -/
def voidFetch (s : State) (r : Nat) : State :=
  let s1 := forEach (List.range 80) s (fun s l =>
    match (s.scaler l).jobs with
    | [] => s
    | j :: rest =>
      let reqs := j.reqs.zipIdx.map (fun q => if onFetchRod s r q.1.id q.2 then { q.1 with void := true } else q.1)
      (s.drawn reqs.length).setScaler l ⟨{ j with reqs := reqs } :: rest⟩)
  forEach (List.range 8) s1 (fun s g =>
    let x := s.group g
    let ra := x.ra.zipIdx.map (fun q => if q.1.got < q.1.beads ∧ onFetchRod s r q.1.id q.2 then { q.1 with void := true } else q.1)
    (s.drawn ra.length).setGroup g { x with ra := ra })

/-- Beads of the next line of logical scaler `l` that its rod holds are VOID. Which beads of the line the rod carries is free. -/
def voidLayerRod (s : State) (l : Nat) : State :=
  match (s.scaler l).jobs with
  | [] => s
  | j :: _ =>
    let x := s.tile j.tile
    match x.entries[j.entry]? with
    | none => s
    | some e =>
      let y := (((s.viewFor j.step.group j.step.frame).desc j.desc).dstY + (j.v : Int)).toNat
      let pairs := ((List.range (j.x1 / 2 + 1 - j.x0 / 2)).filter s.freeBit).map (· + j.x0 / 2)
      let e1 := { e with flips := pairs.map (fun k => (y, k, voidFlip)) ++ e.flips }
      if x.run = some j.step then (s.drawn (j.x1 / 2 + 1)).setTile j.tile { x with entries := setAt x.entries j.entry e1 } else s

/-- Beads of the last line of logical tile `t` that its result rod holds are VOID: free ones. -/
def voidResultRod (s : State) (t : Nat) : State :=
  forEach (List.range 32) s (fun s h =>
    let x := s.head h
    match x.results.reverse with
    | [] => s
    | l :: rest =>
      if l.tile ≠ t then s
      else
        let l1 := { l with px := voidPairs 0 s.freeBit l.px }
        let same (w : WbLine) : Bool := w.line.frame == l.frame && w.line.y == l.y && w.got == 0
        (s.drawn l.px.length).setHead h { x with results := (l1 :: rest).reverse,
                                                 wbq := x.wbq.map (fun w => if same w then { w with line := l1 } else w) })

/-- Lines that receive streams assemble and whose beads an ingest rod holds: free ones are poisoned (R40, R78). -/
def voidIngest (s : State) : State :=
  let open_ := (List.range 256).flatMap (fun st => (s.rxs st).frames.flatMap (fun f => match f.handle with
    | some h => f.slots.map (fun t => (h, t.line))
    | none => []))
  let hit := (open_.zipIdx.filter (fun e => s.freeBit e.2)).map (·.1)
  forEach hit (s.drawn open_.length) (fun s e => ingestFlip s e.1 e.2 0 voidFlip)

/-- What logical rod `r` holds is answered VOID (R39, R408 step 4). -/
def voidRod (s : State) (r : Nat) : State :=
  match rodPurpose r with
  | .fetch => voidFetch s r
  | .layer => voidLayerRod s (rodScaler r)
  | .result => voidResultRod s (rodTile r)
  | .ingest => voidIngest s

/-- The unit answers what it holds with VOID beads (R39): a rod its beads, a tile the rest of its step, a scaler the rest of its lines. A
converter's results are answered as they arrive. -/
def voidHeld (s : State) (u : Nat) : State :=
  match unitClass u with
  | 0 => match servedLogical s u with
    | some r => voidRod s r
    | none => s
  | 1 => forEach ((List.range 32).filter (fun t => (s.tile t).run.isSome && (s.tile t).unit == u)) s voidTile
  | 2 => forEach ((List.range 80).filter (fun l => (s.scaler l).jobs.any (fun j => j.unit == u))) s (scalerAdvance scalerFuel)
  | _ => s

-- Carries (R406 to R410).

/-- BUSY of IHM_CARRY_STAT: a carry is in progress. -/
def carryBusy (s : State) : State := s.wrBits R.IHM_CARRY_STAT 31 31 (if s.health.carry.any (fun e => e.2.isSome) then 1 else 0)

/-- The latest carry in IHM_CARRY_STAT. -/
def logCarry (s : State) (u reason : Nat) : State :=
  ((s.wrBits R.IHM_CARRY_STAT 26 24 (unitClass u)).wrBits R.IHM_CARRY_STAT 14 12 reason).wrBits R.IHM_CARRY_STAT 8 0 (physOf u)

/-- A logical unit is lost (R456); SEQ_POOL does not count it. -/
def loseLogical (s : State) (c l : Nat) : State :=
  let h := s.health
  publishDemand (match c with
    | 0 => { s with health := { h with lostRods := l :: h.lostRods.filter (· ≠ l) } }
    | 1 => { s with health := { h with lostTiles := l :: h.lostTiles.filter (· ≠ l) } }
    | _ => { s with health := { h with lostScalers := l :: h.lostScalers.filter (· ≠ l) } })

/-- The mapping switches to the spare (R407 step 3, R408 step 3, R409 step 2): steps of group `g` before frame `f` stay with the old unit. -/
def switchCarry (s : State) (c : Nat) (x : UnitCarry) (g : Option Nat) (f : Nat) : State :=
  match x.spare with
  | none => s
  | some v => (setReqEff (mapLogical s c x.logical v) v 1).setCarry c (some { x with switched := true, group := g, frame := f })

/-- Steps queued for logical tile `l`, or for tiles whose entries name logical scaler `l`. -/
def queuedSteps (s : State) (c l : Nat) : List Step :=
  if c = 1 then (s.tile l).queue
  else (List.range 32).flatMap (fun t => (s.tile t).queue.filter (fun st => st.entries.any (fun w => (tentryOf w).scaler == l)))

/-- A carry ends: maps and spare registers are updated, the carry event is raised, and the next one waiting may begin. -/
def endCarry (s : State) (c : Nat) (x : UnitCarry) : State :=
  let s1 := updateSpareStat (s.setCarry c none) c (unitDomain x.unit)
  let s2 := raise ((carryBusy s1).setFlag R.IHM_CARRY_STAT 29) (carrySource c)
  checkExhausted s2 x.unit

/-- A planned carry of a tile or scaler whose spare is ready switches at once without a serving group (R407, R421). `freed`: the group whose
commit frees the unit; its frame so far, and steps that are queued already, finish on the old unit. -/
def switchIdle (freed : Option Nat) (s : State) (c : Nat) : State :=
  match s.carry c with
  | some x =>
    if x.ready ∧ ¬ x.switched ∧ x.reason ≠ 1 ∧ c ≠ 0 ∧ (servingGroup s c x.logical).isNone then
      let g := freed <|> (queuedSteps s c x.logical).head?.map (·.group)
      let last := ((queuedSteps s c x.logical).filter (fun st => g == some st.group)).map (·.frame + 1)
      switchCarry s c x g ((freed.toList.map (lastFrame s · + 1) ++ last).foldl max 0)
    else s
  | none => s

/-- A fault carry whose old unit has drained switches and ends (R409). -/
def finishFault (s : State) (c : Nat) : State :=
  match s.carry c with
  | some x =>
    if x.reason = 1 ∧ x.ready ∧ c ≠ 0 then
      let s1 := switchCarry s c x none 0
      faultAnswered (endCarry s1 c x) 313 x.unit
    else s
  | none => s

/-- Begin a carry: its spare is chosen (R404, R407 step 1). Without one the unit is not carried; after a fault its logical unit
is lost. -/
def beginCarry (s : State) (x : UnitCarry) : State :=
  let c := unitClass x.unit
  match chooseSpare s x.unit with
  | none =>
    let s1 := raise s (exhaustSource c)
    if x.reason = 1 then
      let s2 := loseLogical s1 c x.logical
      if x.ready then faultAnswered s2 313 x.unit else s2
    else s1
  | some v =>
    let s1 := (s.setMetered v { s.metered v with req := 2 }).setCarry c (some { x with spare := some v, at_ := s.time })
    finishFault (carryBusy (logCarry s1 x.unit x.reason)) c

/-- Begin the next waiting carry of a class whose unit still needs one. -/
def nextCarry : Nat → State → Nat → State
  | 0, s, _ => s
  | fuel + 1, s, c =>
    if (s.carry c).isSome then s
    else match s.waitingCarries c with
      | [] => s
      | x :: rest =>
        let s1 := s.setWaitingCarries c rest
        let live := decide (x.reason = 1) || [0, 1, 3, 4].contains (s1.metered x.unit).eff
        nextCarry fuel (if live ∧ logicalOf s1 x.unit = some x.logical then beginCarry s1 x else s1) c

/-- A trigger of R406: begun at once, or kept waiting behind the carry of its class in progress (R410). -/
def triggerCarry (s : State) (u reason : Nat) : State :=
  match logicalOf s u with
  | none => s
  | some l =>
    let c := unitClass u
    let s1 := s.setWaitingCarries c (s.waitingCarries c ++ [⟨u, none, l, none, reason, false, false, 0, s.time⟩])
    nextCarry (s1.waitingCarries c).length s1 c

/-- Carries of the tiles and scalers a group serves switch at its frame boundary (R407 step 3). -/
def boundaryCarry (s : State) (g : Nat) : State :=
  forEach [1, 2] s (fun s c =>
    match s.carry c with
    | some x =>
      if x.ready ∧ ¬ x.switched ∧ x.reason ≠ 1 ∧ servingGroup s c x.logical = some g ∧ x.at_ + 100000 ≤ s.time then
        switchCarry s c x (some g) (s.group g).frame
      else s
    | none => s)

/-- A fault waits behind the carry of its class in progress, in order of detection (R410); a trigger of the unit that waits already becomes the
fault's. -/
def faultWaits (s : State) (u l : Nat) : State :=
  let c := unitClass u
  let ws := s.waitingCarries c
  s.setWaitingCarries c (if ws.any (fun y => y.unit == u) then ws.map (fun y => if y.unit = u then { y with reason := 1, ready := false } else y)
    else ws ++ [⟨u, none, l, none, 1, false, false, 0, s.time⟩])

/-- A unit fails (R409, R456). An old unit that a carry has moved from answers what it still holds with VOID beads too (R411). -/
def failUnit (s : State) (u : Nat) : State :=
  let e := (s.metered u).eff
  if e = 6 ∨ e = 7 then s
  else
    let c := unitClass u
    let s1 := raise (setEff s u 7) 313
    let inCarry := (s.carry c).any (fun x => x.spare == some u && !x.switched)
    if c = 3 then voidHeld s1 u
    else if inCarry then
      match s1.carry c with
      | some x =>
        let s2 := (partFault (setReqEff s1 u 7) 313 u).setCarry c none
        carryBusy (nextCarry 16 (beginCarry s2 { x with spare := none, ready := x.reason == 1 && x.ready }) c)
      | none => s1
    else match logicalOf s1 u with
      | none => checkExhausted (voidHeld (setReqEff s1 u 7) u) u
      | some l =>
        let s2 := partFault (setReqEff s1 u 7) 313 u
        let s3 := voidHeld s2 u
        match s3.carry c with
        | some x =>
          if x.unit = u ∧ ¬ x.switched then logCarry (s3.setCarry c (some { x with reason := 1, ready := c == 0 && x.ready })) u 1
          else faultWaits s3 u l
        | none => beginCarry s3 ⟨u, none, l, none, 1, false, false, 0, s3.time⟩

/-- The drain of a failed unit has ended (R392, R409, R456). -/
def failedDrained (s : State) (u : Nat) : State :=
  let c := unitClass u
  match s.carry c with
  | some x =>
    if x.unit = u ∧ x.reason = 1 ∧ c ≠ 0 then nextCarry 16 (finishFault (s.setCarry c (some { x with ready := true })) c) c
    else if (s.waitingCarries c).any (fun y => y.unit == u) then
      s.setWaitingCarries c ((s.waitingCarries c).map (fun y => if y.unit = u then { y with ready := true } else y))
    else if x.unit = u then s
    else faultAnswered s 313 u
  | none => faultAnswered s 313 u

-- Wear (R401, R403).

/-- WARN and CARRY in force. -/
def warnDrift (s : State) : Int := let w := bits (s.cfg R.IHM_SPARE_CTRL) 23 16; if w = 0 then 20 else w
def carryDrift (s : State) : Int := let w := bits (s.cfg R.IHM_SPARE_CTRL) 31 24; if w = 0 then 40 else w

/-- RATIO of R401, kept in 16 bits. -/
def ratioOf (period ring : Nat) : Nat := min 65535 (roundDiv (4096 * period : Nat) ring).toNat

/-- DRIFT of R401, kept in 16 bits. -/
def driftOf (u ratio : Nat) : Int :=
  let base := (Config.fusedBase u).toNat
  max (-32768) (min 32767 (roundDiv (1024 * ((ratio : Int) - base)) base))

/-- Whether a unit that becomes WORN is carried (R403): a logical unit runs on it, or would once it is woken. -/
def wearCarries (s : State) (u : Nat) : Bool := [0, 1].contains (s.metered u).eff && (logicalOf s u).isSome

/-- A counted window of a meter (R401, R403); `carries`: a WORN unit triggers a wear carry. -/
def meterWindow (s : State) (u period ring : Nat) (carries : Bool) : State :=
  let x := s.metered u
  let p := min 65535 period
  let r := ratioOf period ring
  let d := driftOf u r
  let many := if carryDrift s ≤ d then min 65535 (x.overs + 1) else 0
  let quiet := if d < warnDrift s then x.quiet + 1 else 0
  let cond := if x.cond < 2 ∧ x.overs < 16 ∧ 16 ≤ many then 2
    else if x.cond = 0 ∧ warnDrift s ≤ d then 1
    else if x.cond ≠ 0 ∧ 64 ≤ quiet then 0 else x.cond
  let s1 := s.setMetered u { x with period := p, periodMax := max x.periodMax p, ratio := r, drift := d, overs := many, quiet := quiet,
                                    windows := min 65535 (x.windows + 1), cond := cond }
  let s2 := if x.cond < cond then raise s1 312 else s1
  if carries ∧ cond = 2 ∧ x.cond ≠ 2 ∧ unitClass u ≠ 3 ∧ bit (s.cfg R.IHM_SPARE_CTRL) (unitClass u) ∧ wearCarries s2 u then
    triggerCarry s2 u 0
  else s2

end Sys2Proof.Machine
end

