-- ==== Sys2Proof/Machine/TxStream.lean ====
section
/-!
DEFINITION. Transmit streams (R251 to R256): samplings, packets of a line, the check at line 0, and the stops.
-/
namespace Sys2Proof.Machine

/-- Component codes of a pixel. -/
def chan (px : BitVec 48) (c : Nat) : Nat := px.toNat / 65536 ^ c % 65536

/-- Bits of a list, most significant first, of samples of `n` bits each, as bytes (network byte order). -/
def packBits (n : Nat) (xs : List Nat) : List Byte :=
  beBytes (n * xs.length / 8) (xs.foldl (fun acc x => acc * 2 ^ n + x % 2 ^ n) 0)

/-- Bytes and pixels of a pixel group (R251): sampling 4:2:2 when `enc` is 2. -/
def pgroup (enc depth : Nat) : Nat × Nat :=
  if enc = 2 then (depth / 2, 2)
  else if depth = 10 then (15, 4) else if depth = 12 then (9, 2) else (3 * depth / 8, 1)

/-- Samples of one pixel group in the order of ST 2110-20. -/
def groupSamples (enc : Nat) (ps : List (BitVec 48)) : List Nat :=
  if enc = 2 then
    let a := ps.getD 0 0#48
    let b := ps.getD 1 0#48
    [chan a 1, chan a 0, chan a 2, chan b 0]
  else if enc = 1 then ps.flatMap (fun p => [chan p 1, chan p 0, chan p 2])
  else ps.flatMap (fun p => [chan p 0, chan p 1, chan p 2])

/-- Split a list into parts of `n`. -/
def chunks {α : Type} (n : Nat) : Nat → List α → List (List α)
  | 0, _ => []
  | _, [] => []
  | fuel + 1, xs => xs.take n :: chunks n fuel (xs.drop n)

/-- Bytes of a line of pixels. Pixels that complete a last, partial group are free values: the spec states none. -/
def lineBytes (enc depth : Nat) (fresh : Nat) (px : List (BitVec 48)) : List Byte :=
  let (_, n) := pgroup enc depth
  let short := (n - px.length % n) % n
  let px := px ++ (List.range short).map (fun i => (Config.freePixel (fresh + i)).setWidth 48)
  (chunks n px.length px).flatMap (fun ps => packBits depth (groupSamples enc ps))

-- Fields of a stream's settings in force (R275).
def TxStream.word (t : TxStream) (i : Nat) : Word := t.cfg.getD i 0#32
def TxStream.en (t : TxStream) : Bool := bit (t.word 0) 31
def TxStream.tc (t : TxStream) : Nat := min 6 (bits (t.word 0) 29 27)

/-- Gmax of R253. -/
def gMax (ext : Bool) (bytes : Nat) : Nat := (if ext then 8940 else 1440) / max 1 bytes

/-- Pixel groups per packet (R253). -/
def TxStream.groups (t : TxStream) (bytes : Nat) : Nat :=
  let g := bits (t.word 6) 15 0
  if g = 0 then gMax (bit (t.word 0) 30) bytes else g

/-- One packet on the wire (R253). -/
def txPacket (s : State) (t : TxStream) (seq y off : Nat) (marker : Bool) (data : List Byte) : List Byte :=
  let p := t.port
  let dst := (t.word 2).toNat
  let mac := if isMulticast dst then multicastMac dst else macOf (t.word 4) (t.word 5)
  let rtp := [0x80#8, BitVec.ofNat 8 ((if marker then 128 else 0) + bits (t.word 0) 15 9)] ++ beBytes 2 seq
    ++ beBytes 4 t.ts.toNat ++ beBytes 4 (t.word 1).toNat
  let head := beBytes 2 (seq / 65536) ++ beBytes 2 data.length ++ beBytes 2 y ++ beBytes 2 off
  ethFrame s p t.tc mac 0x0800 (ipv4 (portIp s p) dst (bits (t.word 0) 21 16) (bits (t.word 5) 23 16) 17 []
    (udp (bits (t.word 3) 15 0) (bits (t.word 3) 31 16) (rtp ++ head ++ data)))

/-- Count in a transmit counter word. -/
def txCount (s : State) (st w : Nat) : State := s.setSp (txcKey st w) (satAdd32 (s.sp (txcKey st w)) 1)

/-- STATUS of a transmit stream. -/
def txStatus (s : State) (st : Nat) : State :=
  let t := s.txs st
  s.setSp (txcKey st 4) (word (t.state * 268435456 + t.err * 16777216))

/-- Hand one packet to its queue and count it (R255). -/
def sendPacket (s : State) (st y off : Nat) (marker : Bool) (data : List Byte) : State :=
  let t := s.txs st
  let s1 := txCount (enqueue s t.port t.tc (txPacket s t t.seq y off marker data) (some st)) st 1
  let s2 := (s1.setTxs st { s1.txs st with seq := (t.seq + 1) % 4294967296 }).setSp (txcKey st 5) t.ts
  if marker then txCount s2 st 0 else s2

/-- The packets of line `y` of a frame a stream sends (R253, R255). -/
def sendLine (enc depth y : Nat) (last : Bool) (px : List (BitVec 48)) (s : State) (st : Nat) : State :=
  let t := s.txs st
  let (bytes, n) := pgroup enc depth
  let g := max 1 (t.groups bytes)
  let data := lineBytes enc depth s.fresh px
  let parts := chunks (g * bytes) data.length data
  forEach parts.zipIdx s.bumpFresh (fun s e =>
    sendPacket s st y (e.2 * g * n) (last && e.2 + 1 == parts.length) e.1)

/-- Streams that send the frame in progress of head `h`. -/
def sendingStreams (s : State) (h : Nat) : List Nat :=
  (List.range 64).filter (fun st => (s.txs st).sending && (s.txs st).head == h)

/-- A line of head `h` has left the substitution point. -/
def streamLine (s : State) (h enc depth y : Nat) (last : Bool) (px : List (BitVec 48)) : State :=
  forEach (sendingStreams s h) s (sendLine enc depth y last px)

/-- Settings of stream `st` as written. -/
def txWords (s : State) (st : Nat) : List Word := (List.range 7).map (fun w => s.spw Space.NMP_TXS (16 * st + w))

/-- Failing check of a stream at its line 0, 0 for none (R252, R253). -/
def txCheck (s : State) (t : TxStream) (enc depth : Nat) : Nat :=
  if ¬ [8, 10, 12, 16].contains depth then 1
  else if portMode s t.port = 0 then 2
  else if gMax (bit (t.word 0) 30) (pgroup enc depth).1 < bits (t.word 6) 15 0 then 3
  else 0

/-- Line 0 of a head for one stream (R252, R254): settings take effect, the check is made. `emits`: pixels leave the
substitution point; `tf`: T_f of the frame. DEDUCED: a stream that passes while nothing leaves is in RUN only if it was. -/
def txLine0 (h enc depth : Nat) (emits : Bool) (tf : Rat) (s : State) (st : Nat) : State :=
  let t := s.txs st
  let now := txWords s st
  let new : TxStream := { t with cfg := now, sending := false }
  if t.head = h ∨ new.head = h then
    if ¬ new.en then txStatus (s.setTxs st { new with state := 0, err := 0, seq := 0 }) st
    else if new.head ≠ h then s.setTxs st { new with cfg := [] }
    else
      let new := { new with seq := if t.state = 0 then 0 else t.seq, state := if t.state = 0 then 1 else t.state }
      match txCheck s new enc depth with
        | 0 =>
          if ¬ emits then txStatus (s.setTxs st { new with state := if t.state = 3 then 1 else new.state, err := 0 }) st
          else
          let p := s.port new.port
          let ts := word ((tf * 9 / 100000).floor % 4294967296).toNat
          txStatus (s.setTxs st { new with state := 2, err := 0, ts := ts, sending := !p.resetting }) st
        | c =>
          let s1 := txStatus (s.setTxs st { new with state := 3, err := c }) st
          if t.state = 3 then s1 else raise s1 (202 + 4 * new.port)
  else s

/-- Line 0 of head `h` for every transmit stream. -/
def streamsLine0 (s : State) (h enc depth : Nat) (emits : Bool) (tf : Rat) : State :=
  forEach (List.range 64) s (txLine0 h enc depth emits tf)

/-- The frame in progress of head `h` is cut on its streams: without a marker, counted in CUT when `count` (R221, R303). -/
def cutStreams (s : State) (h : Nat) (count : Bool) : State :=
  forEach (sendingStreams s h) s (fun s st => if count then cutStream s st else s.setTxs st { s.txs st with sending := false })

/-- TX_STREAM_CONFIG_WRITE is a write like another: its words take effect at line 0. STATUS reports WAIT from the enable
(R252). -/
def txConfigEffect (s : State) (a : Nat) (v : Word) : State :=
  let st := a / 16
  let mask : Word := match a % 16 with
    | 0 => 0xFFFFFE0F#32
    | 5 => 0x00FFFFFF#32
    | 6 => 0x0000FFFF#32
    | 1 | 2 | 3 | 4 => 0xFFFFFFFF#32
    | _ => 0#32
  let s1 := s.setSpw Space.NMP_TXS a (v &&& mask)
  let t := s1.txs st
  if a % 16 = 0 ∧ bit v 31 ∧ t.state = 0 then txStatus (s1.setTxs st { t with state := 1, seq := 0 }) st else s1

end Sys2Proof.Machine
end

