-- ==== Sys2Proof/Machine/Fetch.lean ====
section
/-!
DEFINITION. Fetch scheduling (07_fetch_scheduling.md): grants of memory words, the credits of the weighted classes,
stored-line requests with their deadlines, and run-ahead.
-/
namespace Sys2Proof.Machine

-- Frame and due times (R150).

/-- `a` modulo `f`; `a` itself without a period. -/
def ratMod (a f : Rat) : Rat := if f = 0 then a else a - f * (a / f).floor

/-- Heads of group `g` whose timing generator is enabled in the live deck. -/
def State.enabledHeads (s : State) (g : Nat) : List Nat := (s.groupHeads g).filter (tgEn s.cfg)

/-- F_g of the live deck (R145); 0 without an enabled head. -/
def State.period (s : State) (g : Nat) : Rat :=
  match s.enabledHeads g with
  | [] => 0
  | h :: _ => (geoOf s.cfg g h).frame

/-- O_g in force (R291). -/
def gridOffset (s : State) (g : Nat) : Rat :=
  if alignSrc s.cfg g = 0 then ratMod ((s.cfg (R.TRS_Gn_OFFSET g)).toInt : Rat) (s.period g) else (s.group g).grid

/-- The next grid point of group `g` (R290); while it has none, now. -/
def nextGrid (s : State) (g : Nat) : Rat :=
  let f := s.period g
  if f = 0 ∨ (alignSrc s.cfg g = 4 ∧ ¬ (s.group g).gridSet) then (s.time : Rat)
  else
    let o := gridOffset s g
    (((s.time : Rat) - o) / f).ceil * f + o

/-- Start T_f of frame `f` of group `g`, with the frame period of the decks the frame is composed with. While no head runs, the next frame
to start is that of the next grid point. -/
def frameTime (s : State) (g f : Nat) (period : Rat) : Rat :=
  let x := s.group g
  if (s.groupHeads g).any (fun h => headRuns (s.head h)) then
    let base := if x.started then x.frame else x.frame - 1
    x.tf + ((f : Int) - (base : Int) : Int) * period
  else nextGrid s g + ((f : Int) - (firstFrame x : Int) : Int) * period

/-- Due time of line `y` of head `h` in frame `f` (R150); lines of an adrift head are due at their own instants (R302). -/
def dueTime (s : State) (v : DeckView) (g h f y : Nat) : Rat :=
  let x := geoOf v.cfg g h
  frameTime s g f x.frame + x.a + y * x.t + (s.head h).offset

/-- CUTOFF and SLACK of a group (R186). -/
def cutoffOf (v : DeckView) (g : Nat) : Nat := max 1024 (bits (v.cfg (R.FSH_Gn_TIMING g)) 15 0)
def slackOf (v : DeckView) (g : Nat) : Nat := bits (v.cfg (R.FSH_Gn_TIMING g)) 31 16

/-- Deadline of a request for a stored line first read by destination line `y` of the head (R170). -/
def deadlineOf (s : State) (v : DeckView) (st : Step) (y wc : Nat) : Int :=
  (dueTime s v st.group st.head st.frame y).floor
    - (ceilDiv (activeSize v st.head).1 2 : Nat) - (ceilDiv wc 4 : Nat) - (cutoffOf v st.group : Nat)

-- Requests of scalers.

/-- A served or abandoned request had little slack: the level of FSH_Gn_WM_SLACK for this tick (R184). -/
def lowSlack (s : State) (g : Nat) : State := s.setGroup g { s.group g with slackHit := true }

/-- Whether a job's buffer is chosen: that of a LATEST layer is chosen at the boundary before its frame (R203). -/
def bufferChosen (s : State) (j : ScaleJob) (d : Desc) : Bool :=
  d.srcMode != 1 || decide (j.step.frame ≤ (s.group j.step.group).frame)

/-- Words of stripe `k` that line `i` of a surface touches: the first, and the one after the last. -/
def lineWords (x : Surface) (i k : Nat) : Nat × Nat :=
  let lo := max (i * x.pitch) (k * stripeBytes) - k * stripeBytes
  let hi := min ((i + 1) * x.pitch) ((k + 1) * stripeBytes) - k * stripeBytes
  (lo / 32, ceilDiv hi 32)

/-- Words granted of a line all of whose beads have come. -/
def allWords (x : Surface) (i : Nat) : KMap Nat :=
  let (a, b) := lineStripes x i
  (List.range (b + 1 - a)).foldl (fun m n => let w := lineWords x i (a + n); kset (fun _ => 0) m (a + n) (w.2 - w.1)) []

/-- A run-ahead line of the released store that serves a scaler's request (R178). -/
def raHit (s : State) (j : ScaleJob) (n : Nat) : Option RaLine :=
  (s.group j.step.group).ra.find? (fun r => !r.tag && r.frame == j.step.frame && r.desc == j.desc && r.line == n)

/-- The request for stored line `n` of a job, first read by destination line `v`: from the released run-ahead store, whose deadline it keeps,
or from memory (R170, R178). -/
def newRequest (s : State) (j : ScaleJob) (n v : Nat) (void : Bool) : LineReq :=
  let w := s.viewFor j.step.group j.step.frame
  let d := w.desc j.desc
  match raHit s j n with
  | some r => ⟨s.fsh.nextReq, r.handle, n, v, r.deadline, r.at_, r.s0, void || r.void, r.words, if r.got = 0 then none else some r.data, r.flips⟩
  | none =>
    let y := (d.dstY + (v : Int)).toNat
    ⟨s.fsh.nextReq, j.handle, n, v, deadlineOf s w j.step y (j.x1 - j.x0), s.time, d.safety, void, [], none, []⟩

/-- SCALER_LINE_REQUEST (R125, R170): with a free stored-line buffer, the scaler asks for the next stored line of the layer it serves. `ecc`: what
the check of the request-queue word finds; an uncorrectable one is answered VOID (R187). -/
def lineRequest (s : State) (l : Nat) (ecc : Ecc) : State :=
  match (s.scaler l).jobs with
  | [] => s
  | j :: rest =>
    if jobVoided s l j then scalerAdvance scalerFuel s l
    else match j.needs with
      | [] => s
      | (n, v) :: more =>
        if 2 ≤ j.reqs.length ∨ ¬ bufferChosen s j ((s.viewFor j.step.group j.step.frame).desc j.desc) then s
        else
          let (e, s1) := sramCheck s 3 0
          let s2 := if e = .ue then raiseInj s1 53 true else if ecc = .ue then raise s1 53 else s1
          let req := newRequest s2 j n v (decide (e = .ue ∨ ecc = .ue) || rodsVoid s2 (rodsFor .fetch) 0)
          let x := s2.group j.step.group
          let s3 := match raHit s2 j n with
            | some r => raLevel (s2.setGroup j.step.group { x with ra := x.ra.erase r })
            | none => s2
          let s4 := { s3.drawn 1 with fsh := { s3.fsh with nextReq := s3.fsh.nextReq + 1 } }
          s4.setScaler l ⟨{ j with needs := more, reqs := j.reqs ++ [req] } :: rest⟩

def execScalerLineRequest (l : Fin 80) (ecc : Ecc) (s : State) : Host.Outcome State Fault Refusal :=
  runOn [.outputs, .compose] s (fun s => lineRequest s l ecc)

/-- A request is abandoned at its deadline (R171). -/
def abandon (s : State) (l : Nat) (j : ScaleJob) (rest : List ScaleJob) (r : LineReq) : State :=
  let g := j.step.group
  let j1 := { j with reqs := j.reqs.filter (fun q => q.id != r.id), stored := j.stored ++ [⟨r.line, none, false⟩] }
  let s1 := s.setScaler l ⟨j1 :: rest⟩
  let s2 := raise ((lowSlack s1 g).bump (R.FSH_Gn_LATE g) 1) (40 + g)
  let s3 := if r.s0 then raise (s2.bump R.FSH_S0_LATE_CNT 1) 48 else s2
  scalerAdvance scalerFuel s3 l

/-- The bytes that answer a request: the store's, or the memory's (R178); none when neither gives the line. -/
def reqBytes (s : State) (r : LineReq) : Option (List Byte) := r.held <|> memLine s r.handle r.line

/-- The line that answers a request at its scaler: its beads over a fetch rod (R26), its tail checked (R28, R77). -/
def answerLine (s : State) (r : LineReq) (bytes : Option (List Byte)) (st void : Bool) : LineClass × List Byte × State :=
  match bytes with
  | none => (.void, [], s)
  | some b => if void then (.void, [], s) else match carryLine b st false r.flips with
    | none => (.void, [], s)
    | some b => checkLine s r.handle r.line (linePayload s r.handle) b

/-- Bank words that the next destination line of a scaler's job reads. -/
def jobCoefs (s : State) (j : ScaleJob) : List Nat :=
  match s.surface j.handle with
  | some x => lineCoefs ((s.viewFor j.step.group j.step.frame).desc j.desc) x j.x0 j.x1 j.v
  | none => []

/-- A line that answers the oldest request of a scaler's first job is stored, `data` when it is GOOD, and the scaler goes on with the lines it can
now deliver. Bank words `hit`, which an injected error makes uncorrectable, are so in these reads only (R394). -/
def storeArrival (s : State) (l : Nat) (j : ScaleJob) (rest : List ScaleJob) (r : LineReq) (more : List LineReq) (data : Option (List Byte))
    (low : Bool) (hit : List Nat) : State :=
  let s1 := if low then lowSlack s j.step.group else s
  let s2 := s1.setScaler l ⟨{ j with reqs := more, stored := j.stored ++ [⟨r.line, data, low⟩] } :: rest⟩
  { scalerAdvance scalerFuel { s2 with failing := hit.map (coefKey (j.unit - 450)) ++ s2.failing } l with failing := s2.failing }

/-- Whether a request is answered within the slack of its group (R184). -/
def lowArrival (s : State) (j : ScaleJob) (r : LineReq) : Bool :=
  decide (r.deadline - s.time < (slackOf (s.viewFor j.step.group j.step.frame) j.step.group : Int))

/-- SCALER_LINE_ARRIVAL (R77, R125, R171, R172): the oldest line asked for arrives whole. A line whose memory gives no data does not arrive;
its request is abandoned at its deadline. `store`: what the check of its words in the run-ahead store finds (R176, R187). -/
def lineArrival (s : State) (l : Nat) (us : List Upset) (store : Ecc) : State :=
  match (s.scaler l).jobs with
  | [] => s
  | j :: rest =>
    match j.reqs with
    | [] => s
    | r :: more =>
      if r.deadline < s.time then abandon s l j rest r
      else if (reqBytes s r).isNone ∧ (s.surface r.handle).isSome ∧ ¬ r.void then s
      else
        let d := (s.viewFor j.step.group j.step.frame).desc j.desc
        let (hit, s1) := coefUpsets s (j.unit - 450) us ((jobCoefs s j).take 15)
        let bad := r.held.isSome && store == .ue
        let s2 := if bad then raise s1 53 else s1
        let (c, data, s3) := answerLine s2 r (reqBytes s2 r) (d.safety || tallied s2 j.step.head) (r.void || bad)
        storeArrival s3 l j rest r more (if c = .good then some data else none) (lowArrival s j r) hit

/-- FETCH_DEADLINE: the deadline of a request passes before it is served (R171). -/
def fetchDeadline (s : State) (req : Nat) : State :=
  match (List.range 80).find? (fun l => (s.scaler l).jobs.any (fun j => j.reqs.any (fun r => r.id == req))) with
  | none => s
  | some l =>
    match (s.scaler l).jobs with
    | [] => s
    | j :: rest =>
      match j.reqs.find? (fun r => r.id == req) with
      | none => s
      | some r => abandon s l j rest r

def execFetchDeadline (req : Nat) (s : State) : Host.Outcome State Fault Refusal := runOn [.outputs, .compose] s (fun s => fetchDeadline s req)

-- Grants.

/-- Count beads in an FSH_PERF counter, in units of 4,096 (R185). -/
def perfCount (s : State) (i reg : Nat) : State :=
  let n := kget (fun _ => 0) s.fsh.perf i + 2
  let s1 := { s with fsh := { s.fsh with perf := kset (fun _ => 0) s.fsh.perf i (n % 4096) } }
  if n < 4096 then s1 else s1.wr reg (s1.rd reg + 1#32)

/-- The class of a kind of traffic (R168): 0 is S2, and 1 + c the weighted class c. -/
def trafficClass : Traffic → Nat
  | .ingest => 0
  | .upload => 0
  | .writeBack => 1
  | .carry => 2
  | .rowSparing => 2
  | .patrol => 2
  | .scrub => 2
  | .offline => 3
  | .aperture => 4
  | .job => 4

/-- The request of S2, or of a weighted class, that has arrived first (R168). -/
def firstArrived (r : Ready) (cls : Nat) : Option (Traffic × WordSite) := r.arrived.find? (fun t => trafficClass t.1 == cls)

/-- Whether a weighted class has a request ready. -/
def readyW (r : Ready) (c : Nat) : Bool := (firstArrived r (1 + c)).isSome

/-- The weighted class a grant goes to, and whether it is charged (R173). -/
def weightedPick (s : State) (r : Ready) : Option (Nat × Bool) :=
  match (List.range 4).find? (fun c => readyW r c && decide (0 ≤ (s.wclass c).credit - (s.wclass c).s)) with
  | some c => some (c, true)
  | none => ((List.range 4).find? (fun c => readyW r c && (s.wclass c).surplus)).map (fun c => (c, false))

/-- Note the classes that have a request ready with their credit used up (R183). -/
def noteHeld (s : State) (r : Ready) : State :=
  forEach (List.range 4) s (fun s c =>
    let x := s.wclass c
    if readyW r c ∧ x.credit - x.s < 0 ∧ ¬ x.held then s.setWclass c { x with held := true } else s)

/-- A request of a strict class that waits for memory words (R168): of a scaler, or of run-ahead. -/
structure StrictReq where
  s0 : Bool
  deadline : Int
  at_ : Int
  desc : Nat
  handle : Nat
  line : Nat
  words : KMap Nat
  /-- Scaler and number of a scaler's request. -/
  scaler : Option (Nat × Nat)
  /-- Group of a run-ahead request, and its place in the order of requests. -/
  ahead : Option (Nat × Nat)
  /-- RA = 1: one whose commit has been applied is an ordinary request (R178). -/
  tag : Bool
  deriving DecidableEq, Repr

/-- Every request of S0 and S1 (R168). -/
def strictReqs (s : State) : List StrictReq :=
  (List.range 80).flatMap (fun l => match (s.scaler l).jobs with
    | [] => []
    | j :: _ => j.reqs.map (fun r => ⟨r.s0, r.deadline, r.at_, j.desc, r.handle, r.line, r.words, some (l, r.id), none, false⟩))
  ++ (List.range 8).flatMap (fun g => ((s.group g).ra.filter (fun r => decide (r.got < r.beads))).map
    (fun r => ⟨r.s0, r.deadline, r.at_, r.desc, r.handle, r.line, r.words, none, some (g, r.pos), r.tag⟩))

/-- The next word of a request that pseudo-channel `p` holds: stripe, word, and whether its twin is read (R91). -/
def nextWord (s : State) (p : Nat) (q : StrictReq) : Option (Nat × Nat × Bool) :=
  match s.surface q.handle with
  | none => none
  | some x =>
    let (a, b) := lineStripes x q.line
    let from_ (k : Nat) : Option Bool :=
      if x.place.getD k 0 = p ∧ readable s p then some false
      else if x.duplex ∧ (s.pc (x.place.getD k 0)).state = .failed ∧ x.twins.getD k 0 = p ∧ readable s p then some true
      else none
    (List.range (b + 1 - a)).findSome? (fun n =>
      let k := a + n
      let (lo, hi) := lineWords x q.line k
      let w := lo + kget (fun _ => 0) q.words k
      match from_ k with
      | some twin => if w < hi then some (k, w, twin) else none
      | none => none)

/-- Whether a request goes before another of its class (R168): by deadline, then as made, then by descriptor. -/
def StrictReq.before (a b : StrictReq) : Bool :=
  decide (a.deadline < b.deadline ∨ (a.deadline = b.deadline ∧ (a.at_ < b.at_ ∨ (a.at_ = b.at_ ∧ a.desc < b.desc))))

/-- The request of a class that pseudo-channel `p` serves next, with its word. -/
def strictNext (s : State) (p : Nat) (s0 : Bool) : Option (StrictReq × Nat × Nat × Bool) :=
  ((strictReqs s).filter (fun q => q.s0 == s0)).foldl (fun best q => match nextWord s p q with
    | none => best
    | some w => match best with
      | none => some (q, w)
      | some b => if q.before b.1 then some (q, w) else best) none

/-- One more word of stripe `k` has been granted. -/
def oneMore (m : KMap Nat) (k : Nat) : KMap Nat := kset (fun _ => 0) m k (kget (fun _ => 0) m k + 1)

/-- Beads of word `w` of stripe `k` that belong to line `i`. -/
def wordBeads (x : Surface) (i k w : Nat) : Nat :=
  let b := k * stripeBytes + 32 * w
  ((List.range 2).filter (fun n => decide (i * x.pitch ≤ b + 16 * n ∧ b + 16 * n < (i + 1) * x.pitch))).length

/-- A granted run-ahead word arrives in the store (R176, R177): the line stands as it is when its first bead comes (R79). -/
def raArrive (s : State) (g pos k w : Nat) : State :=
  let x := s.group g
  raLevel (s.setGroup g { x with ra := x.ra.map (fun r =>
    if r.pos ≠ pos ∨ r.beads ≤ r.got then r
    else match s.surface r.handle with
      | none => r
      | some y => { r with got := min r.beads (r.got + wordBeads y r.line k w), words := oneMore r.words k,
                           data := if r.got = 0 then (memLine s r.handle r.line).getD [] else r.data }) })

/-- Run-ahead beads that arrive for a request withdrawn at a boundary are discarded, and counted (R178). -/
def raStray (s : State) : State := raise (s.bump R.FSH_RA_DISCARD 2) 52

/-- The word that a strict grant reads for a request of the scalers or of run-ahead. -/
def strictWord (s : State) (q : StrictReq) (k w : Nat) : State :=
  match q.scaler, q.ahead with
  | some (l, id), _ => s.setScaler l ⟨(s.scaler l).jobs.map (fun j =>
      { j with reqs := j.reqs.map (fun r => if r.id = id then { r with words := oneMore r.words k } else r) })⟩
  | none, some (g, pos) => raArrive s g pos k w
  | none, none => s

/-- A strict read (R168, R169): counted by class, or as run-ahead (R179), checked, and counted as heat (R84). -/
def strictRead (s : State) (p i reg : Nat) (runAhead : Bool) (site : WordSite) (ecc : Ecc) : State :=
  if runAhead then readWord (perfCount s 4 R.FSH_PERF_RA) p site ecc
  else readWord (countHeat (perfCount s i reg) p site) p site ecc

/-- A grant to S0 or S1: to the first request of the class (R168); a word of a request that has been withdrawn arrives all the same. -/
def strictGrant (s : State) (p : Nat) (s0 runAhead : Bool) (site : WordSite) (ecc : Ecc) : State :=
  let i := if s0 then 0 else 1
  let reg := if s0 then R.FSH_PERF_S0 else R.FSH_PERF_S1
  match strictNext s p s0 with
  | some (q, k, w, twin) =>
    strictRead (strictWord s q k w) p i reg q.tag { site with handle := q.handle, stripe := k, word := w, twin := twin } ecc
  | none =>
    let s1 := strictRead s p i reg runAhead site ecc
    if runAhead then raStray s1 else s1

/-- A weighted grant (R173). W0 writes; the words of W1 to W3 are checked as they are read. Carries, sparing and scrubbing
(W1) count no heat (R84). -/
def weightedGrant (s : State) (p c : Nat) (charged : Bool) (site : WordSite) (ecc : Ecc) : State :=
  let x := s.wclass c
  let s1 := perfCount (if charged then s.setWclass c { x with s := x.s + 2 } else s) 3 R.FSH_PERF_W
  let s2 := if c = 1 then s1 else countHeat s1 p site
  if c = 0 then s2 else readWord s2 p site ecc

/-- MEMORY_WORD_GRANT (R169). A refresh that is due goes first; an access ends self-refresh (R413). -/
def wordGrant (s : State) (p : Nat) (r : Ready) (runAhead : Bool) (site : WordSite) (ecc : Ecc) : State :=
  if ¬ readable s p ∨ ¬ s.store.trained then s
  else
    let s1 := s.setPc p { s.pc p with refresh := false }
    let s2 := { s1 with store := { s1.store with selfRefresh := false } }
    if r.s0 ∨ (strictNext s2 p true).isSome then strictGrant s2 p true runAhead site ecc
    else if r.s1 ∨ (strictNext s2 p false).isSome then strictGrant s2 p false runAhead site ecc
    else match firstArrived r 0 with
    | some t => countHeat (perfCount s2 2 R.FSH_PERF_S2) p t.2
    | none =>
      let s3 := noteHeld s2 r
      match weightedPick s3 r with
      | none => s3
      | some (c, charged) => weightedGrant s3 p c charged (((firstArrived r (1 + c)).map (·.2)).getD site) ecc

-- The refill tick.

/-- Effective RATE of a weighted class (R175), by SHAPE as last accepted (R174); that of W3 is halved from THROTTLE on (R419). -/
def rateOf (s : State) (c : Nat) : Nat :=
  let rate := bits (s.rd (R.FSH_Wc_SHAPE c)) 16 0
  if c = 0 then rate + bits (s.rd R.FSH_WB_FLOOR) 16 0 else if c = 3 ∧ 2 ≤ s.health.level then rate / 2 else rate

/-- The update of a class's credit (R173). -/
def refillCredit (credit s rate limit : Int) (waited : Bool) : Int :=
  let c := credit - s
  if waited then min (c + rate) limit else if c < 0 then min (c + rate) 0 else 0

/-- One class at a refill tick: SHAPED and STARVED, credit, PENDING and the backlog notice (R173, R174, R183, R184). -/
def refillClass (pending peak : List Nat) (s : State) (c : Nat) : State :=
  let x := s.wclass c
  let left := pending.getD c 0
  let top := max left (peak.getD c 0)
  let waited := decide (0 < top)
  let rest := x.credit - x.s
  let shaped := waited && (x.held || (decide (0 < left) && decide (rest < 0)))
  let starved := waited && decide (0 < left) && decide (0 ≤ rest) && !shaped
  let rate := rateOf s c
  let limit := max rate (bits (s.rd (R.FSH_Wc_LIMIT c)) 16 0)
  let credit := refillCredit x.credit x.s rate limit waited
  let s1 := s.setWclass c ⟨credit, 0, false, bit (s.rd (R.FSH_Wc_SHAPE c)) 31 && !(c == 3 && decide (2 ≤ s.health.level))⟩
  let s2 := if shaped then s1.bump (R.FSH_Wc_SHAPED c) 1 else s1
  let s3 := if starved then s2.bump (R.FSH_Wc_STARVED c) 1 else s2
  let s4 := (s3.wr (R.FSH_Wc_CREDIT c) (satWord credit)).wr (R.FSH_Wc_PENDING c) (word (min left 0xFFFFFF))
  setNotice s4 (R.FSH_Wc_WM_BACKLOG c) 50 (decide (bits (s.cfg (R.FSH_Wc_BACKLOG c)) 23 0 < top))

/-- FSH_REFILL_TICK (R173, R184). -/
def refillTick (s : State) (pending peak : List Nat) : State :=
  let s1 := forEach (List.range 4) s (refillClass pending peak)
  let s2 := forEach (List.range 8) s1 (fun s g =>
    let hit := (s.group g).slackHit
    setNotice (s.setGroup g { s.group g with slackHit := false }) (R.FSH_Gn_WM_SLACK g) 49 hit)
  let s3 := setNotice s2 R.FSH_WM_RA 51 s2.fsh.raHigh
  raLevel { s3 with fsh := { s3.fsh with raHigh := false } }

def execFshRefillTick (pending peak : List Nat) (s : State) : Host.Outcome State Fault Refusal :=
  runOn [.compose] s (fun s => refillTick s pending peak)

-- Run-ahead.

/-- The pending deck as a view: what an applied commit would make live (R149, R177). -/
def State.pendView (s : State) : DeckView := ⟨s.deck, s.spaces, s.spaces, s.failingPend⟩

/-- A stored line the next frame's steps need: descriptor, handle, line, beads, and the class and deadline of its request (R170, R177). -/
structure RaNeed where
  desc : Nat
  handle : Nat
  line : Nat
  beads : Nat
  s0 : Bool
  deadline : Int
  deriving DecidableEq, Repr

/-- The stored lines of one entry of a planned step (R177); none of a LATEST layer (R203). -/
def entryNeeds (s : State) (v : DeckView) (st : Step) (w : Word) : List RaNeed :=
  let d := v.desc (tentryOf w).desc
  let (x0, x1, y0, y1) := entryBox v st w
  if d.kind = 1 ∨ d.srcMode = 1 ∨ y1 ≤ y0 ∨ x1 ≤ x0 then []
  else match s.surface d.handle with
    | none => []
    | some x => (linesForRange d x ((y0 : Int) - d.dstY).toNat ((y1 : Int) - d.dstY).toNat).map
        (fun n => ⟨(tentryOf w).desc, d.handle, n.1, x.pitch / 16, d.safety, deadlineOf s v st (d.dstY + (n.2 : Int)).toNat (x1 - x0)⟩)

/-- Every stored line of the planned table of group `g`, in step order. -/
def raNeeds (s : State) (g : Nat) : List RaNeed :=
  let v := s.pendView
  let next := undecided s g
  (List.range ((readSteps s g s.failingPend maxSteps 0).1.length)).flatMap (fun i =>
    let t := v.step g i
    let st : Step := ⟨g, next, i, t.head, t.y0, t.lines, v.entries g t⟩
    if stepUe v g i t ∨ stepBad v g t then [] else st.entries.flatMap (entryNeeds s v st))

/-- Quota of a group in beads (R176). -/
def raQuota (s : State) (g : Nat) : Nat := 65536 * bits (s.cfg R.FSH_RA_QUOTA) (4 * g + 3) (4 * g)

/-- Beads asked for and held. -/
def raAsked (s : State) (g : Nat) : Nat := ((s.group g).ra.map (·.beads)).sum

/-- RUN_AHEAD_REQUEST (R177, R203): the next line in step order whose descriptor does not wait for a fence is asked for,
when it fits the group's quota and the store; over a rod that answers VOID only, VOID beads come (R39). -/
def runAhead (s : State) (g : Nat) : State :=
  let x := s.group g
  let going : Bool := match x.commit with
    | some c => c.state == 2 || c.state == 3
    | none => false
  if ¬ going then s
  else
    let todo := (raNeeds s g).zipIdx.filter (fun e =>
      !x.ra.any (fun r => r.tag && r.pos == e.2) && !(fenced s e.1.desc && !s.sig e.1.handle))
    match todo with
    | [] => s
    | (n, i) :: _ =>
      let total := ((List.range 8).map (raAsked s)).sum
      if raQuota s g < raAsked s g + n.beads ∨ 1048576 < total + n.beads then s
      else
        let void := rodsVoid s (rodsFor .fetch) 0
        let r : RaLine := ⟨n.desc, n.handle, n.line, n.beads, 0, [], void, [], n.s0, n.deadline, s.time, i, true, s.fsh.nextReq, undecided s g, []⟩
        { (s.drawn 1).setGroup g { x with ra := x.ra ++ [r] } with fsh := { s.fsh with nextReq := s.fsh.nextReq + 1 } }

def execRunAheadRequest (g : Fin 8) (s : State) : Host.Outcome State Fault Refusal := runOn [.compose] s (fun s => runAhead s g)

/-- FSH_WB_FLOOR as the live decks give it (R175). -/
def wbFloor (s : State) : Nat :=
  ((List.range 8).map (fun g =>
    ((headsOf (s.cfg (R.SEQ_Gn_WB_RES g))).map (fun h =>
      if tgEn s.cfg h then
        let x := geoOf s.cfg g h
        ((128 * x.w : Nat) / x.t : Rat).ceil.toNat
      else 0)).sum)).sum

/-- FSH recomputes the write-back floor when a commit is applied (R175). -/
def setWbFloor (s : State) : State := s.wr R.FSH_WB_FLOOR (word (min (wbFloor s) 0x1FFFF))

/-- A write to a LAYER_CNT word sets it to zero (R182). -/
def layerCntEffect (s : State) (a : Nat) : State := s.setSpw Space.LAYER_CNT a 0#32

end Sys2Proof.Machine
end

