-- ==== Sys2Proof/Machine/WriteBack.lean ====
section
/-!
DEFINITION. Write-back of heads and CAPTURE jobs (R232 to R237).
-/
namespace Sys2Proof.Machine

/-- Event source of a head's write-back (R247). -/
def wbSource (h : Nat) : Nat := 105 + 3 * h

def State.setWb (s : State) (h : Nat) (w : Wb) : State := s.setHead h { s.head h with wb := w }

/-- First failing check of a write-back ring, 0 for none (R232). -/
def wbCheck (s : State) (h base ring : Nat) : Nat :=
  let a := activeSize s.view h
  let xs := (ringHandles base ring).map s.surface
  let all (p : Surface → Bool) : Bool := xs.all (fun x => match x with
    | some x => p x
    | none => false)
  if xs.any Option.isNone then 1
  else if ¬ all (fun x => x.format == 0x04) then 2
  else if ¬ all (fun x => x.width == a.1 && x.height == a.2) then 3
  else if (s.head h).wb.capture.isSome then 4
  else 0

/-- RUN and ERR of WB_STAT (R244). -/
def wbStat (s : State) (h : Nat) (run : Bool) (err : Nat) : State :=
  (s.wrBits (R.OWB_Hnn_WB_STAT h) 31 31 (if run then 1 else 0)).wrBits (R.OWB_Hnn_WB_STAT h) 27 24 err

/-- WB_CTRL at a frame start (R232): a new setting, or a new timing, is checked. -/
def wbTake (s : State) (h : Nat) : State :=
  let x := s.head h
  let c := s.cfg (R.OWB_Hnn_WB_CTRL h)
  let w := x.wb
  if ¬ w.recheck ∧ ¬ (x.first ∧ w.run) then s
  else if ¬ bit c 31 then wbStat (s.setWb h { w with recheck := false, run := false }) h false 0
  else
    let base := bits c 15 0
    let ring := bits c 17 16
    match wbCheck s h base ring with
    | 0 =>
      let last := if w.handle = base ∧ w.ring = ring ∧ w.run then w.last else none
      wbStat (s.setWb h { w with recheck := false, run := true, handle := base, ring := ring, last := last }) h true 0
    | e => raise (wbStat (s.setWb h { w with recheck := false, run := false }) h false e) (wbSource h)

/-- The ring in use: that of a CAPTURE job, else that of WB_CTRL (R237). -/
def wbRing (w : Wb) : Option (Nat × Nat) :=
  match w.capture with
  | some c => if c.started then some (c.handle, c.ring) else none
  | none => if w.run then some (w.handle, w.ring) else none

/-- A frame is not written (R233, R235). -/
def wbSkip (s : State) (h : Nat) : State := raise (s.bump (R.OWB_Hnn_WB_SKIP h) 1) (wbSource h)

/-- A frame that does not end as a whole picture (R235): the fence is left unsignalled. -/
def wbFail (s : State) (h : Nat) : State :=
  let w := (s.head h).wb
  match w.cur with
  | none => s
  | some c => wbSkip (dropFence (s.setWb h { w with cur := none }) c writerWb) h

/-- Choose the buffer of frame `f` (R233). A frame still in progress ends here, not whole (R235). A handle that a receive stream is writing
is excluded by its WRITING (R272). -/
def wbSelect (s0 : State) (h f : Nat) : State :=
  let s := wbFail s0 h
  let w := (s.head h).wb
  match wbRing w with
  | none => s
  | some (base, ring) =>
    let fresh : Wb := { w with cur := none, frame := f, done := [], dropped := w.dropped.filter (fun d => decide (f ≤ d.1)), voided := [] }
    let taken (c : Nat) : Bool := s.writing c && bits (s.sp (fence0 c)) 18 16 == writerIngest
    match (ringOrder base ring w.last).find? (fun c => !shownNow s c && !taken c) with
    | none => wbSkip (s.setWb h fresh) h
    | some c =>
      startFence ((s.setWb h { fresh with cur := some c, last := some c }).wrBits (R.OWB_Hnn_WB_STAT h) 15 0 c) c writerWb

/-- Bytes of a composed line in format 0x04, with the background for pixels that are VOID (R30, R40, R72). -/
def wbPayload (v : DeckView) (h : Nat) (px : List (Option (BitVec 64))) : List Byte :=
  px.flatMap (fun p => leBytes 8 (p.getD (pack4 (background v h))).toNat)

/-- Count a line in WB_VOID once (R40, R234). -/
def wbVoid (s : State) (h y : Nat) : State :=
  let w := (s.head h).wb
  if w.voided.contains y then s
  else raise ((s.setWb h { w with voided := y :: w.voided }).bump (R.OWB_Hnn_WB_VOID h) 1) (wbSource h)

/-- The view whose background a line of frame `f` takes. -/
def wbView (s : State) (h f : Nat) : DeckView :=
  match s.headGroup h with
  | some g => s.viewFor g f
  | none => s.view

/-- Write pixels of line `y` of the frame in progress from column `x0` on, as one part (R78, R234): VOID ones as background. The last part of a
line that has lost no bead leaves the correct tail. -/
def wbPart (s : State) (h c f y x0 : Nat) (px : List (Option (BitVec 64))) (last whole : Bool) : State :=
  let s1 := writePart s c y (8 * x0) (wbPayload (wbView s h f) h px) (last && whole)
  let w := (s1.head h).wb
  let s2 := if last then s1.setWb h { w with done := y :: w.done } else s1
  if px.any Option.isNone then wbVoid s2 h y else s2

/-- Beads that arrive with the store full are discarded; each line that loses some is counted once (R235). -/
def wbDrop (s : State) (h f y : Nat) : State :=
  let w := (s.head h).wb
  if w.dropped.contains (f, y) then s
  else raise ((s.setWb h { w with dropped := (f, y) :: w.dropped }).bump (R.OWB_Hnn_WB_DROP h) 1) (wbSource h)

/-- A line at the head of the write-back's queue after `n` more beads; it leaves with its last one. -/
def wbNext (l : WbLine) (n : Nat) (lost : Bool) (rest : List WbLine) : List WbLine :=
  if l.line.px.length ≤ 2 * (l.got + n) then rest else { l with got := l.got + n, lost := l.lost || lost } :: rest

/-- WB_BEAD_ARRIVAL (R234, R235): the next `n` beads of the head's lines, at least one, are written to the line, discarded with a full store,
or wait in the store for the buffer of their frame. -/
def wbArrival (s : State) (h n0 : Nat) (full : Bool) : State :=
  let x := s.head h
  match x.wbq with
  | [] => s
  | l :: rest =>
    let w := x.wb
    let n := max 1 n0
    let f := l.line.frame
    let y := l.line.y
    if full then wbDrop (s.setHead h { x with wbq := wbNext l n true rest }) h f y
    else if w.frame < f ∧ ((wbRing w).isSome ∨ w.recheck ∨ w.capture.isSome) then s
    else
      let s1 := s.setHead h { x with wbq := wbNext l n false rest }
      match w.cur with
      | none => s1
      | some c =>
        if f ≠ w.frame ∨ w.done.contains y then s1
        else wbPart s1 h c f y (2 * l.got) ((l.line.px.drop (2 * l.got)).take (2 * n)) (decide (l.line.px.length ≤ 2 * (l.got + n))) (!l.lost)

def execWbBeadArrival (h : Fin 32) (beads : Nat) (storeFull : Bool) (s : State) : Host.Outcome State Fault Refusal :=
  runOn [.store, .outputs] s (fun s => wbArrival s h beads storeFull)

/-- The due time of line `y` at the write-back (R234): beads that have not arrived are written as background. -/
def wbDue (s : State) (h y : Nat) : State :=
  let x := s.head h
  let w := x.wb
  match w.cur with
  | none => s
  | some c =>
    if w.frame ≠ x.frame ∨ w.done.contains y then s
    else
      let mine (l : WbLine) : Bool := l.line.frame == x.frame && l.line.y == y
      let lost := w.dropped.contains (x.frame, y)
      let part (s : State) (got : Nat) : State :=
        wbPart s h c x.frame y (2 * got) (List.replicate ((activeSize (wbView s h x.frame) h).1 - 2 * got) none) true (!lost)
      match x.wbq.find? mine with
      | some l => part (s.setHead h { x with wbq := x.wbq.filter (fun l => !mine l) }) l.got
      | none => if lost then s else part s 0

/-- A CAPTURE job ends (R237). -/
def captureEnd (s : State) (h code : Nat) : State :=
  match (s.head h).wb.capture with
  | none => s
  | some c => completeJob (s.setWb h { (s.head h).wb with capture := none }) c.queue code

/-- A frame of a CAPTURE job has been signalled (R237). -/
def captureFrame (s : State) (h : Nat) : State :=
  let w := (s.head h).wb
  match w.capture with
  | none => s
  | some c => if c.left ≤ 1 then captureEnd s h Code.OK else s.setWb h { w with capture := some { c with left := c.left - 1 } }

/-- The frame in progress at a head's end of frame (R235). -/
def wbEnd (s : State) (h : Nat) : State :=
  let x := s.head h
  let w := x.wb
  match w.cur with
  | none => s
  | some c =>
    if w.frame ≠ x.frame then s
    else if w.dropped.all (fun d => d.1 != w.frame) ∧ (List.range (activeSize (wbView s h x.frame) h).2).all w.done.contains then
      captureFrame ((signalFence (s.setWb h { w with cur := none }) c writerWb).bump (R.OWB_Hnn_WB_FRAMES h) 1) h
    else wbFail s h

/-- A frame start of head `h` for its write-back and capture (R232, R233, R237). -/
def wbFrameStart (s : State) (h f : Nat) : State :=
  let w := (s.head h).wb
  let s1 := match w.capture with
    | some c => s.setWb h { w with capture := some { c with started := true }, last := if c.started then w.last else none }
    | none => s
  wbSelect (wbTake s1 h) h f

/-- The head is dark: a CAPTURE job on it ends (R237). -/
def captureDark (s : State) (h : Nat) : State := captureEnd s h Code.HEAD_DARK

/-- A CAPTURE job that passes its checks takes the head's write-back channel (R237): its outcome, 0 when it runs on. A head
that no group names has no frame start to come; it is dark (DEDUCED). -/
def captureStart (s : State) (q h base ring frames : Nat) : Nat × State :=
  let w := (s.head h).wb
  match wbCheck s h base ring with
  | 1 => (Code.BAD_HANDLE, s)
  | 2 => (Code.BAD_FORMAT, s)
  | 3 => (Code.BAD_SIZE, s)
  | 4 => (Code.BUSY, s)
  | _ =>
    if w.run ∨ (w.recheck ∧ bit (s.cfg (R.OWB_Hnn_WB_CTRL h)) 31) then (Code.BUSY, s)
    else if (s.headGroup h).isNone then (Code.HEAD_DARK, s)
    else (0, s.setWb h { w with capture := some ⟨q, base, ring, frames, false⟩ })

end Sys2Proof.Machine
end

