-- ==== Sys2Proof/Machine/DisplayPort.lean ====
section
/-!
DEFINITION. DisplayPort ports (R224 to R230): link states, training, source changes, and AUX transactions.
-/
namespace Sys2Proof.Machine

-- Fields of OWB_Ddd_CTRL in force (R246). Before release no port is active (R58).
def dpEn (s : State) (d : Nat) : Bool := s.released && bit (s.cfg (R.OWB_Ddd_CTRL d)) 31
def dpMaxLanes (s : State) (d : Nat) : Nat := min 2 (bits (s.cfg (R.OWB_Ddd_CTRL d)) 11 10)
def dpMaxRate (s : State) (d : Nat) : Nat := min 6 (bits (s.cfg (R.OWB_Ddd_CTRL d)) 8 6)
def dpSrc (s : State) (d : Nat) : Option Nat :=
  let c := s.cfg (R.OWB_Ddd_CTRL d)
  if bit c 5 then some (bits c 4 0) else none

/-- Payload of one lane in bit/s (R225). -/
def lanePayload (rate : Nat) : Nat :=
  [1296000000, 2160000000, 4320000000, 6480000000, 9671250000, 13056187500, 19342500000].getD rate 0

/-- Payload of a configuration in bit/s. -/
def payloadOf (c : DpConfig) : Nat := lanePayload c.rate * 2 ^ c.lanes

/-- Bits per second of a head's stream (R225); none for a head without timing. -/
def headStream (s : State) (h : Nat) : Option Rat :=
  match s.headGroup h with
  | none => none
  | some g =>
    if tgEn s.cfg h then
      some ((geoOf s.cfg g h).rate * ((if encOf s.cfg h = 2 then 2 else 3) * depthOf s.cfg h : Nat))
    else none

/-- Whether a configuration carries the stream of a port's source (R225). -/
def carries (s : State) (src : Option Nat) (c : DpConfig) : Bool :=
  match src.bind (headStream s) with
  | none => true
  | some r => decide (r ≤ payloadOf c)

/-- OWB_Ddd_STAT from the port's state (R246). -/
def dpShow (s : State) (d link : Nat) : State :=
  let x := s.dp d
  s.wr (R.OWB_Ddd_STAT d) (word (link * 536870912 + (if x.hpd then 268435456 else 0) + x.rate * 33554432 + x.lanes * 8388608
    + match x.src with
      | some h => 32 + h
      | none => 0))

/-- Raise OWB_Hnn_OUT for the source head of a port; a port with no valid source raises nothing (R226). -/
def dpRaise (s : State) (d : Nat) : State :=
  match dpSrc s d with
  | some h => raise s (106 + 3 * h)
  | none => s

/-- PORT_OFF is in force on the source head in use of a port, and acts on it (R219, R226, R238). -/
def shutOff (s : State) (d : Nat) : Bool :=
  match (s.dp d).src with
  | some h => (s.safeOf h).active && (s.safeOf h).mode == 3 && headOut s h
  | none => false

/-- A port shows its state; a transaction that waited for its training is sent on AUX once that is over (R229). -/
def dpLeave (s : State) (d link : Nat) : State :=
  let s1 := dpShow s d link
  if dpLink s d = Link.TRAINING then auxSend s1 d else s1

/-- State of a port that is trained and not shut off (R226). -/
def trainedLink (s : State) (d : Nat) : Nat :=
  let x := s.dp d
  match x.src with
  | none => Link.IDLE
  | some h =>
    let hd := s.head h
    if hd.state ≠ .running ∨ ¬ hd.emits then Link.IDLE
    else if carries s (some h) ⟨x.rate, x.lanes⟩ then Link.ACTIVE
    else Link.OVERRATE

/-- A port enters TRAINING (R226). DESIGN CHOICE: while PORT_OFF is in force its lanes stay idle in SAFE_OFF, and it trains when that ends. -/
def dpTrain (s : State) (d : Nat) : State :=
  let x := s.dp d
  let e := s.rd (R.OWB_Ddd_EVT d)
  let s1 := s.setDp d { x with trained := false, trainedOnce := x.trainedOnce || !shutOff s d, rate := 0, lanes := 0 }
  if shutOff s d then dpLeave s1 d Link.SAFE_OFF
  else dpShow (s1.wr (R.OWB_Ddd_EVT d) (if x.trainedOnce then satField e 31 16 1 else e)) d Link.TRAINING

/-- Re-evaluate the state of an enabled port (R226, R227, R240): while PORT_OFF is in force on its head it is in SAFE_OFF, trained or not,
but for a port unplugged then (R242). Entering OVERRATE is recorded and raised. -/
def dpUpdate (s : State) (d : Nat) : State :=
  let x := s.dp d
  if ¬ dpEn s d then dpShow s d Link.OFF
  else if shutOff s d then dpLeave s d (if dpLink s d = Link.NO_SINK then Link.NO_SINK else Link.SAFE_OFF)
  else if x.trained then
    let was := dpLink s d
    let now := trainedLink s d
    let s1 := dpShow s d now
    if now = Link.OVERRATE ∧ was ≠ Link.OVERRATE then dpRaise (s1.setFlag (R.OWB_Ddd_EVT d) 3) d else s1
  else if dpLink s d = Link.SAFE_OFF ∨ dpLink s d = Link.OFF then
    if x.hpd then dpTrain s d else dpShow s d Link.NO_SINK
  else dpShow s d (dpLink s d)

/-- Ports whose source in use is head `h`. -/
def portsOf (s : State) (h : Nat) : List Nat := (List.range 16).filter (fun d => (s.dp d).src == some h)

/-- Re-evaluate the ports of a head. -/
def dpHead (s : State) (h : Nat) : State := forEach (portsOf s h) s dpUpdate

/-- Line 0 of head `h`: ports waiting for it take it over, and every port it feeds re-evaluates R225 (R224, R227). A new
source whose stream the trained link does not carry retrains. -/
def dpLine0 (s : State) (h : Nat) : State :=
  let s1 := forEach (List.range 16) s (fun s d =>
    let x := s.dp d
    if x.srcWait ∧ dpSrc s d = some h then
      let s1 := s.setDp d { x with src := some h, srcWait := false }
      if dpEn s d ∧ shutOff s1 d then dpLeave s1 d Link.SAFE_OFF
      else if dpEn s d ∧ x.trained ∧ ¬ carries s1 (some h) ⟨x.rate, x.lanes⟩ then dpTrain s1 d else s1
    else s)
  dpHead s1 h

/-- The faults of a DisplayPort port's lanes, whatever source reported them, are answered: its link has retrained, or is down (R392). -/
def dpAnswered (s : State) (d : Nat) : State := { s with col := { s.col with faults := s.col.faults.filter (fun f => f.part != 0x10000 + d) } }

/-- The fault of a lane of a port, reported by its source head's event, or by none (R392). -/
def dpLaneFault (s : State) (d : Nat) : State :=
  partFault s (match dpSrc s d with
    | some h => 106 + 3 * h
    | none => 0x1FF) (0x10000 + d)

/-- OWB_Ddd_CTRL takes effect (R224, R226); `old` is the value before. An enable with HPD high counts as a plug (DEDUCED). -/
def dpCtrlEffect (s : State) (d : Nat) (old : Word) : State :=
  let c := s.cfg (R.OWB_Ddd_CTRL d)
  let x := s.dp d
  let moved := decide (bits c 5 0 ≠ bits old 5 0)
  let s1 := if moved then s.setDp d { x with src := none, srcWait := bit c 5 } else s
  if ¬ dpEn s d then
    dpShow ((dpAnswered s1 d).setDp d { s1.dp d with trained := false, rate := 0, lanes := 0 }) d Link.OFF
  else if ¬ x.hpd then dpShow s1 d Link.NO_SINK
  else if ¬ bit old 31 ∨ bits c 11 10 ≠ bits old 11 10 ∨ bits c 8 6 ≠ bits old 8 6 then dpTrain s1 d
  else dpUpdate s1 d

-- What a port sends (R217, R228).

/-- COLORIMETRY of a head: 4 and more act as 0 (R244). -/
def colorOf (rd : Nat → Word) (h : Nat) : Nat := let c := bits (rd (R.OWB_Hnn_TG_CTRL h)) 19 16; if 3 < c then 0 else c

/-- Main stream attributes of a head's stream (R214, R228). -/
def streamAttr (rd : Nat → Word) (g h : Nat) : StreamAttr :=
  let x := geoOf rd g h
  let h1 := rd (R.OWB_Hnn_HTIME1 h)
  let v1 := rd (R.OWB_Hnn_VTIME1 h)
  { rate := x.rate, hActive := x.w, hTotal := x.hTotal, hSyncStart := bits h1 15 0, hSyncWidth := bits h1 30 16, hHigh := bit h1 31,
    vActive := x.h, vTotal := x.vTotal, vSyncStart := bits v1 15 0, vSyncWidth := bits v1 30 16, vHigh := bit v1 31,
    enc := encOf rd h, depth := depthOf rd h }

/-- Payload of the HDR metadata SDP: byte 0 in HDR0 [7:0] (R228). -/
def hdrPayload (s : State) (d : Nat) : List Byte :=
  (List.range 28).map (fun k => BitVec.ofNat 8 (bits (s.cfg (R.OWB_Ddd_HDRn d (k / 4))) (8 * (k % 4) + 7) (8 * (k % 4))))

/-- Samples of a line as a port encoder sends them (R217): with ENC = 2, of each pair, Y' of both pixels and Cb and Cr of the first. -/
def portSamples (enc : Nat) (px : List (BitVec 48)) : List Nat :=
  if enc = 2 then
    (chunks 2 px.length px).flatMap (fun p =>
      let a := p.getD 0 0#48
      [chan a 0, chan (p.getD 1 0#48) 0, chan a 1, chan a 2])
  else px.flatMap (fun p => [chan p 0, chan p 1, chan p 2])

/-- Ports of head `h` that are in ACTIVE. -/
def activePorts (s : State) (h : Nat) : List Nat := (portsOf s h).filter (fun d => dpLink s d == Link.ACTIVE)

/-- What each active port of head `h` sends once a frame, here at line 0 (R228): attributes, VSC SDP, and the HDR SDP with HDR_EN. -/
def portStreams (s : State) (h : Nat) (v : DeckView) : State :=
  match s.headGroup h with
  | none => s
  | some g =>
    forEach (activePorts s h) s (fun s d =>
      let s1 := (s.emit (.mainStream d (streamAttr v.cfg g h))).emit (.vscSdp d (encOf v.cfg h) (depthOf v.cfg h) (colorOf v.cfg h))
      if bit (s.cfg (R.OWB_Ddd_CTRL d)) 14 then s1.emit (.hdrSdp d (hdrPayload s d)) else s1)

/-- Line `y` of head `h` as its active ports send it (R217, R228). -/
def portLines (s : State) (h : Nat) (v : DeckView) (y : Nat) (px : List (BitVec 48)) : State :=
  forEach (activePorts s h) s (fun s d => s.emit (.portLine d y (portSamples (encOf v.cfg h) px)))

/-- DP_HPD_PLUG (R226). -/
def execDpHpdPlug (d : Fin 16) (s : State) : Host.Outcome State Fault Refusal :=
  runOn [.outputs] s (fun s =>
    let s1 := (s.setDp d { s.dp d with hpd := true }).setFlag (R.OWB_Ddd_EVT d) 0
    if dpEn s1 d then dpTrain s1 d else dpShow s1 d Link.OFF)

/-- DP_HPD_UNPLUG (R226). -/
def execDpHpdUnplug (d : Fin 16) (s : State) : Host.Outcome State Fault Refusal :=
  runOn [.outputs] s (fun s =>
    let s1 := (dpAnswered s d).setDp d { s.dp d with hpd := false, trained := false, rate := 0, lanes := 0 }
    let s2 := (s1.setFlag (R.OWB_Ddd_EVT d) 0).setFlag (R.OWB_Ddd_EVT d) 1
    if dpEn s2 d then dpRaise (dpLeave s2 d Link.NO_SINK) d else dpShow s2 d Link.OFF)

/-- A trained port loses lock and trains anew (R226). -/
def dpLost (s : State) (d : Nat) : State := dpTrain (s.setFlag (R.OWB_Ddd_EVT d) 1) d

/-- DP_IRQ_HPD (R226, R392): a sink that has lost lock makes the port train; `lane`: for a fault of a lane of the port. -/
def dpIrq (s : State) (d : Nat) (lost lane : Bool) : State :=
  let s1 := s.setFlag (R.OWB_Ddd_EVT d) 0
  if lost ∧ dpEn s1 d ∧ (s1.dp d).trained then
    let s2 := dpLost s1 d
    if lane then dpLaneFault s2 d else s2
  else s1

def execDpIrqHpd (d : Fin 16) (lost lane : Bool) (s : State) : Host.Outcome State Fault Refusal :=
  runOn [.outputs] s (fun s => dpIrq s d lost lane)

/-- Candidates in the order they are tried: descending payload, more lanes first (R226). -/
def candidates (xs : List DpConfig) : List DpConfig :=
  sortBy (fun a b => decide (payloadOf b < payloadOf a) || (decide (payloadOf a = payloadOf b) && decide (b.lanes < a.lanes)))
    xs.eraseDups

-- AUX (R229).

/-- Put a byte into AUX_DATA. -/
def setAuxByte (s : State) (d k : Nat) (b : Byte) : State :=
  let o := R.OWB_Ddd_AUX_DATAn d (k / 4)
  let w := setBits (s.rd o) (8 * (k % 4) + 7) (8 * (k % 4)) b.toNat
  (s.wr o w).setCfg o w

/-- A transaction ends with a RESULT (R246). -/
def auxEnd (s : State) (d result : Nat) : State :=
  (s.setDp d { s.dp d with aux := none, defers := 0 }).wr (R.OWB_Ddd_AUX_STAT d) (word result)

/-- A write of AUX_CMD takes effect (R229, R246). DESIGN CHOICE: on a port with EN = 0, whose AUX is inactive (R226), it ends at once as on one
without a sink. -/
def auxCmdEffect (s : State) (d : Nat) (v : Word) : State :=
  let x := s.dp d
  let typ := bits v 30 28
  if ¬ bit v 31 ∨ x.aux.isSome ∨ 3 < typ then s
  else if ¬ dpEn s d ∨ ¬ x.hpd then auxEnd s d 4
  else
    auxSend ((s.setDp d { x with aux := some (typ, bits v 27 24, bits v 19 0), defers := 0 }).wr (R.OWB_Ddd_AUX_STAT d)
      0x80000000#32) d

/-- The word of AUX_CMD that starts a transaction. -/
def auxWord (typ len addr : Nat) : Word := word (2147483648 + typ * 268435456 + len * 16777216 + addr)

/-- AUX_REPLY (R229): DEFER is retried up to 7 times. -/
def auxAnswer (s : State) (d : Nat) (r : AuxReply) : State :=
  let x := s.dp d
  match x.aux with
  | none => s
  | some (typ, len, _) =>
    match r with
    | .ack data =>
      let s1 := if typ % 2 = 0 then forEach (data.take (len + 1)).zipIdx s (fun s b => setAuxByte s d b.2 b.1) else s
      auxEnd s1 d 0
    | .nack => auxEnd s d 1
    | .defer => if 7 ≤ x.defers then auxEnd s d 2 else auxSend (s.setDp d { x with defers := x.defers + 1 }) d

def execAuxReply (d : Fin 16) (r : AuxReply) (s : State) : Host.Outcome State Fault Refusal :=
  runOn [.force, .outputs] s (fun s => auxAnswer s d r)

/-- AUX_TIMEOUT (R229). -/
def execAuxTimeout (d : Fin 16) (s : State) : Host.Outcome State Fault Refusal :=
  runOn [.outputs] s (fun s => if (s.dp d).aux.isSome then auxEnd s d 3 else s)

/-- Training ends (R226): of the configurations the sink supports within MAX_RATE and MAX_LANES, candidates that carry the source head's stream first, then the others. -/
def trainingDone (s : State) (d : Nat) (sink trains : List DpConfig) : State :=
  if dpLink s d ≠ Link.TRAINING then s
  else
    let s := dpAnswered s d
    let ok := sink.filter (fun c => decide (c.rate ≤ dpMaxRate s d ∧ c.lanes ≤ dpMaxLanes s d))
    let good := candidates (ok.filter (carries s (dpSrc s d)))
    let rest := candidates (ok.filter (fun c => !carries s (dpSrc s d) c))
    match (good ++ rest).find? trains.contains with
    | some c =>
      let s1 := dpUpdate (s.setDp d { s.dp d with trained := true, rate := c.rate, lanes := c.lanes }) d
      let heavy := !good.contains c && dpLink s1 d != Link.OVERRATE
      auxSend (if heavy then dpRaise ((dpShow s1 d Link.OVERRATE).setFlag (R.OWB_Ddd_EVT d) 3) d else s1) d
    | none => auxSend (dpRaise ((dpShow s d Link.FAILED).setFlag (R.OWB_Ddd_EVT d) 2) d) d

def execDpTrainingDone (d : Fin 16) (sink trains : List DpConfig) (s : State) : Host.Outcome State Fault Refusal :=
  runOn [.outputs] s (fun s => trainingDone s d sink trains)

/-- DP_TRAINING_RETRY (R226). -/
def execDpTrainingRetry (d : Fin 16) (s : State) : Host.Outcome State Fault Refusal :=
  runOn [.outputs] s (fun s => if dpEn s d ∧ (s.dp d).hpd ∧ dpLink s d = Link.FAILED then dpTrain s d else s)

end Sys2Proof.Machine
end

