-- ==== Sys2Proof/Machine/Grid.lean ====
section
/-!
DEFINITION. Group frame grids (R290 to R292, R455), pixel PLLs and their band search (R293 to R297), and the steps of
device time and of grids that make heads adrift (R302).
-/
namespace Sys2Proof.Machine

/-- `a` reduced to (−f/2, f/2]. -/
def ratCentre (a f : Rat) : Rat := let m := ratMod a f; if f < 2 * m then m - f else m

/-- Nearest integer, halves up. -/
def ratRound (a : Rat) : Int := (a + 1 / 2).floor

/-- The grid point of group `g` nearest to device time; with SRC = FREE, now (R290, R455). -/
def gridTime (s : State) (g : Nat) : Rat :=
  let f := s.period g
  if alignSrc s.cfg g = 4 ∨ f = 0 then (s.time : Rat)
  else
    let o := gridOffset s g
    (ratRound (((s.time : Rat) - o) / f) : Rat) * f + o

/-- Set a bit of TRS_Gn_ADRIFT. -/
def adriftBit (s : State) (g h : Nat) (b : Bool) : State :=
  s.wr (R.TRS_Gn_ADRIFT g) (setBit (s.rd (R.TRS_Gn_ADRIFT g)) h b)

/-- The instants of the running heads of group `g` move by `d` against their grid (R302). -/
def shiftHeads (s : State) (g : Nat) (d : Rat) : State :=
  forEach (s.headsIn g) s (fun s h =>
    let x := s.head h
    if headRuns x ∧ ¬ x.first then s.setHead h { x with offset := ratCentre (x.offset + d) (s.period g) } else s)

/-- O_g takes a new value outside a gap (R291, R292, R302). -/
def moveGrid (s : State) (g : Nat) (new : Rat) : State :=
  let x := s.group g
  if x.grid = new then s else shiftHeads (s.setGroup g { x with grid := new }) g (x.grid - new)

/-- Device time steps by `d` ns (R283, R284): grids stay, so heads of every group that follows device time move against
them. -/
def stepTime (s : State) (d : Int) : State :=
  if d = 0 then s
  else forEach (List.range 8) { s with time := s.time + d } (fun s g =>
    if alignSrc s.cfg g = 4 then s else shiftHeads s g (d : Rat))

-- Pixel PLLs.

/-- Post-divider P: the power of two that places f × P in 3.2 to 6.4 GHz; the smaller one where two do (R293). -/
def postDivider (f : Rat) : Nat :=
  match List.find? (fun (p : Nat) => decide ((3200000000 : Rat) ≤ f * (p : Rat) ∧ f * (p : Rat) ≤ 6400000000))
      [1, 2, 4, 8, 16, 32, 64, 128] with
  | some p => p
  | none => 1

/-- A triangle of period 1 between 0 and 1. -/
def triangle (x : Rat) : Rat := let p := ratMod x 1; if 2 * p ≤ 1 then 2 * p else 2 - 2 * p

/-- Frequency in Hz that the pixel PLL of group `g` gives now: f_g with the triangular spread of R296, at RATE kHz. -/
def pllHz (s : State) (g : Nat) : Rat :=
  let f := groupFreq s.cfg g
  let depth : Rat := (sscDepth s.cfg g : Rat) / 10000
  let tri := triangle ((s.up : Rat) * (sscRate s.cfg g : Rat) / 1000000 + Config.sscPhase g)
  match sscMode s.cfg g with
  | 1 => f * (1 - depth * tri)
  | 2 => f * (1 + depth * (2 * tri - 1))
  | _ => f

/-- F_LO, F_HI, VALID of a band of a physical PLL (R294). -/
def bandRow (s : State) (p b : Nat) : Nat × Nat × Bool :=
  let w0 := s.spw Space.BAND (32 * p + 2 * b)
  (bits w0 15 0, bits w0 31 16, bit (s.spw Space.BAND (32 * p + 2 * b + 1)) 8)

/-- Tuning code that a try of a band is set with: its seed, 128 if the band is not VALID (R294, R295). -/
def bandSeed (s : State) (p b : Nat) : Nat := if (bandRow s p b).2.2 then bits (s.spw Space.BAND (32 * p + 2 * b + 1)) 7 0 else 128

/-- The first band of a search for VCO frequency `v` in MHz (R295). -/
def searchBand (s : State) (p : Nat) (v : Rat) : Nat :=
  let fit := (List.range 16).filter (fun b => let r := bandRow s p b; r.2.2 && decide ((r.1 : Rat) ≤ v ∧ v ≤ (r.2.1 : Rat)))
  let far (b : Nat) : Rat := let r := bandRow s p b; let d := ((r.1 + r.2.1 : Nat) : Rat) - 2 * v; if d < 0 then -d else d
  match fit with
  | [] => 8
  | b :: rest => rest.foldl (fun m c => if far c < far m then c else m) b

/-- The band tried after `b` (R295); none when every band has been tried. -/
def nextBand (b : Nat) (upper : Bool) (tried : List Nat) : Option Nat :=
  let c : Int := if upper then b + 1 else (b : Int) - 1
  if 0 ≤ c ∧ c < 16 ∧ ¬ tried.contains c.toNat then some c.toNat
  else (List.range 16).find? (fun x => !tried.contains x)

/-- The frequency the group's PLL is set to: the live one, or while no live one is in range the loaded one, with which TRS
searches before the release commit (R56). -/
def pllFreq (s : State) (g : Nat) : Rat :=
  let f := groupFreq s.cfg g
  if 25000000 ≤ f ∧ f ≤ 4400000000 then f else groupFreq s.dk g

/-- Begin a band search of group `g` (R295). -/
def startSearch (s : State) (g : Nat) : State :=
  let p := s.pll g
  let f := pllFreq s g
  let b := searchBand s p.phys (f * postDivider f / 1000000)
  let again := p.onSpare || decide (p.state = 2 ∨ p.state = 3)
  s.setPll g { p with state := 1, band := b, tried := [b], onSpare := again, code := bandSeed s p.phys b }

/-- Whether a pixel PLL setting of `g` can be searched for (R293). -/
def freqOk (s : State) (g : Nat) : Bool :=
  let f := groupFreq s.cfg g
  decide (25000000 ≤ f ∧ f ≤ 4400000000)

/-- The group must place its own grid anew (R455). -/
def unsetGrid (s : State) (g : Nat) : State := s.setGroup g { s.group g with gridSet := false }

/-- A head of the group is ready to start: its divider is loaded (R455). -/
def headReady (s : State) (g : Nat) : Bool :=
  (s.enabledHeads g).isEmpty || (s.enabledHeads g).any (fun h => startsNow (s.head h))

/-- With SRC = FREE the device sets O_g now, when its conditions hold (R455). -/
def freeGrid (s : State) (g : Nat) : State :=
  let x := s.group g
  if alignSrc s.cfg g = 4 ∧ ¬ x.gridSet ∧ (s.pll g).state = 2 ∧ headReady s g then
    let o := ratMod (s.time : Rat) (s.period g)
    (s.setGroup g { x with grid := o, gridSet := true }).wr (R.TRS_Gn_PHASE g) (satWord o.floor)
  else s

/-- STATE of a group (R297). -/
def groupState (s : State) (g : Nat) : Nat :=
  let p := s.pll g
  if p.state = 3 ∧ s.trs.spareBy.isSome then 4
  else if p.state ≠ 2 then 1
  else if alignSrc s.cfg g = 4 then 2
  else s.trs.state

/-- TRS_Gn_STAT (R297, R305). DEDUCED: before TRS starts (R56), and in WAIT_HOST and NO_IMAGE (R61), that of a group whose PLL is OFF reads as at
reset; from then on a PLL that is OFF is unlocked. -/
def groupStat (s : State) (g : Nat) : Word :=
  let p := s.pll g
  let st := groupState s g
  if ¬ s.ldr.trsOn ∨ (p.state = 0 ∧ s.hostStates) then 1#32
  else
    word (st * 536870912 + p.state * 134217728 + (if p.state = 2 then p.band else 0) * 1048576 + p.phys * 65536 + postDivider (pllFreq s g))

/-- Heads of the group are all in their gap, dark or resetting: none scans out a frame of the group. -/
def allQuiet (s : State) (g : Nat) : Bool := (s.headsIn g).all (fun h => !headRuns (s.head h))

/-- The heads of group `g` that run take a gap for their pixel PLL (R206, R295). -/
def pllGap (s : State) (g : Nat) : State :=
  forEach (s.groupHeads g) s (fun s h =>
    let x := s.head h
    if headRuns x ∧ x.group.getD g = g then s.setHead h { x with gapDue := true, gapAt := if x.gapDue then x.gapAt else x.frame, pllWait := true }
    else if x.state = .gap ∨ headRuns x ∨ x.req = .running then s.setHead h { x with pllWait := true }
    else s)

/-- When every running head of the group is in its gap, the PLL searches (R206 step 3); one that has lost lock searches though no head
waits for it (R295). -/
def searchWhenQuiet (s : State) (g : Nat) : State :=
  let p := s.pll g
  let f := pllFreq s g
  if allQuiet s g ∧ ¬ (p.state = 1 ∧ p.tried ≠ [])
      ∧ (((s.groupHeads g).any (fun h => (s.head h).pllWait) ∧ freqOk s g) ∨ (p.state = 1 ∧ 25000000 ≤ f ∧ f ≤ 4400000000))
  then startSearch s g else s

/-- Physical pixel PLLs of a group: its own, and the spare while it is the group's. -/
def groupPlls (s : State) (g : Nat) : List Nat := if (s.pll g).phys = 8 then [g, 8] else [g]

/-- The faults of a group's pixel PLLs are answered: locked again, or LOST (R392). -/
def pllAnswered (s : State) (g : Nat) : State :=
  forEach (groupPlls s g) s (fun s p => faultAnswered (faultAnswered s 270 p) 271 p)

/-- A pixel PLL is found faulty; one fault is one part fault, whichever source reports it again (R392). -/
def pllFault (s : State) (src p : Nat) : State :=
  if s.col.faults.any (fun f => decide (f.part = p) && (f.src == 270 || f.src == 271)) then s else partFault s src p

/-- BSL_OUT drives its balls from the instant at which the link is enabled and its source PLL is locked, until the link is disabled; a later
search sends idle symbols (R299, R438). -/
def bslDrive (s : State) : State :=
  let c := s.cfg R.TRS_BSL_CTRL
  { s with trs := { s.trs with bslDriven := bit c 31 && (s.trs.bslDriven || decide ((s.pll (bits c 18 16)).state = 2)) } }

/-- A search succeeds (R295, R206): heads wait for the PLL no more. -/
def pllLocked (s : State) (g : Nat) : State :=
  let p := s.pll g
  let s1 := bslDrive (s.setPll g { p with state := 2, tried := [], onSpare := false })
  let s2 := if p.onSpare then s1.bump (R.TRS_Gn_RELOCKS g) 1 else s1
  freeGrid (forEach (s.groupHeads g) (pllAnswered s2 g) (fun s h => s.setHead h { s.head h with pllWait := false })) g

/-- A search fails: the group is carried onto the spare PLL when it is free (R295, R392). -/
def pllFailed (s : State) (g : Nat) : State :=
  let p := s.pll g
  let s1 := pllFault (raise (s.setPll g { p with state := 3, tried := [] }) 271) 271 p.phys
  if s1.trs.spareBy.isSome then pllAnswered (raise s1 273) g
  else
    let s2 := { s1 with trs := { s1.trs with spareBy := some g } }
    let s3 := s2.wrBits R.TRS_PLL_MAP (4 * g + 3) (4 * g) 8
    startSearch (unsetGrid (raise (s3.setPll g { s3.pll g with phys := 8, onSpare := true }) 272) g) g

/-- PLL_LOCK_TRY_END (R295). -/
def lockTryEnd (s : State) (g : Nat) (r : PllTry) : State :=
  let p := s.pll g
  if p.state ≠ 1 ∨ p.tried = [] then s
  else match r with
    | .locked => pllLocked s g
    | _ =>
      match nextBand p.band (decide (r = .upperRail)) p.tried with
      | some b => s.setPll g { p with band := b, tried := b :: p.tried, code := bandSeed s p.phys b }
      | none => pllFailed s g

def execPllLockTryEnd (g : Fin 8) (r : PllTry) (s : State) : Host.Outcome State Fault Refusal :=
  runOn [.outputs, .compose, .timing] s (fun s => lockTryEnd s g r)

/-- PLL_UNLOCK (R295): a PLL loses lock outside a search; its group takes a gap and re-locks. -/
def pllLost (s : State) (g : Nat) : State :=
  let p := s.pll g
  if p.state ≠ 2 then s
  else
    let s1 := raise (s.setPll g { p with state := 1, tried := [], onSpare := true }) 270
    searchWhenQuiet (pllGap (unsetGrid s1 g) g) g

/-- PLL_UNLOCK is the fault of a part (R392). -/
def pllUnlock (s : State) (g : Nat) : State :=
  if (s.pll g).state ≠ 2 then s else pllFault (pllLost s g) 270 (s.pll g).phys

def execPllUnlock (g : Fin 8) (s : State) : Host.Outcome State Fault Refusal := runOn [.outputs, .compose, .timing] s (fun s => pllUnlock s g)

/-- TRS_Gn_PHASE and TRS_Gn_PHASE_ERR at the frame start whose grid point is `t` (R290, R301, R304, R455). DEDUCED: e of a group is the instant
of its frame start less the grid point. -/
def showPhase (s : State) (g : Nat) (t : Rat) : State :=
  let o := if alignSrc s.cfg g = 4 then ratMod t (s.period g) else gridOffset s g
  (s.wr (R.TRS_Gn_PHASE g) (satWord o.floor)).wr (R.TRS_Gn_PHASE_ERR g) (satWord (ratRound ((s.time : Rat) - t)))

end Sys2Proof.Machine
end

