-- ==== Sys2Proof/Machine/Heads.lean ====
section
/-!
DEFINITION. Heads (09_outputs_writeback.md, R206 to R209, R302, R303): frame starts, line 0, scan-out with background fill and
the substitution point, ends of frame, gaps, resets, and the words of the safe state.
-/
namespace Sys2Proof.Machine

-- Leaving and entering scan-out.

/-- Heads named by a deck's SEQ_Gn_HEADS. -/
def DeckView.heads (v : DeckView) (g : Nat) : List Nat := headsOf (v.cfg (R.SEQ_Gn_HEADS g))

/-- The decks of a frame go when its last line has left every head of the group (R199). -/
def releaseOld (s : State) (g : Nat) : State :=
  let x := s.group g
  let busy (o : OldDeck) (h : Nat) : Bool :=
    let y := s.head h
    headRuns y && y.group.getD g == g && (decide (y.frame < o.frame) || (decide (y.frame = o.frame) && (y.scanning || y.first)))
  if x.olds = [] then s
  else s.setGroup g { x with olds := x.olds.filter (fun o => (headsOf (kget regReset o.unit (R.SEQ_Gn_HEADS g))).any (busy o)) }

/-- Steps of head `h` that the pass in progress has read are to be read again: what they composed is dropped. -/
def rereadSteps (s : State) (g h : Nat) : State :=
  let x := s.group g
  let v := s.viewFor g x.seqFrame
  let mine (i : Nat) : Bool := let t := v.step g i; t.op == 0 && t.head == h
  s.setGroup g { x with skipped := (List.range x.pos).filter (fun i => x.skipped.contains i || mine i) }

/-- What stops with a head's scan-out: the write-back frame is abandoned, no tally of the frame is compared, composed lines
are dropped, its ports idle (R206, R208, R221, R235). -/
def headStops (s : State) (h : Nat) (st : HeadState) : State :=
  let s1 := signAbandon (wbFail s h) h
  let s2 := dropSteps s1 h (fun _ => true)
  let s3 := s2.setHead h { s2.head h with state := st, scanning := false, line := 0, due := false, ebuf := [], results := [],
                                          wbq := [], gapDue := false, adrift := false, offset := 0, group := none, inGap := false }
  let s4 := match s.headGroup h with
    | some g => rereadSteps (adriftBit s3 g h false) g h
    | none => s3
  dpHead s4 h

/-- A head goes dark (R209, R220). -/
def goDark (s : State) (h : Nat) : State := captureDark (headStops s h .dark) h

/-- A head that has ended its last frame of group `g` enters its gap (R206 step 2); one that is no longer enabled goes dark (R209). -/
def enterGap (s : State) (g h : Nat) : State :=
  let s1 := if (s.head h).req = .dark then goDark s h
    else
      let s1 := headStops s h .gap
      s1.setHead h { s1.head h with divWait := true, req := .running }
  let s2 := searchWhenQuiet (releaseOld s1 g) g
  match s2.groupOf h with
  | some g2 => if g2 = g then s2 else searchWhenQuiet s2 g2
  | none => s2

/-- HEAD_GAP_START (R206 step 2): after its end of the last frame of the old decks the head enters its gap. -/
def gapStart (s : State) (h : Nat) : State :=
  let x := s.head h
  match s.headGroup h with
  | none => s
  | some g =>
    if ¬ headRuns x ∨ ¬ x.gapDue ∨ x.scanning ∨ (x.frame < x.gapAt ∧ ¬ x.first) then s
    else enterGap s g h

def execHeadGapStart (h : Fin 32) (s : State) : Host.Outcome State Fault Refusal := runOn [.force, .queues, .outputs, .compose, .timing] s (fun s => gapStart s h)

/-- OUTPUT_DIVIDER_LOAD (R206 step 3, R455). -/
def execOutputDividerLoad (h : Fin 32) (s : State) : Host.Outcome State Fault Refusal :=
  runOn [.outputs, .compose] s (fun s =>
    let x := s.head h
    if ¬ x.divWait then s
    else
      let s1 := s.setHead h { x with divWait := false, divZero := s.up }
      match s.headGroup h with
      | some g => freeGrid s1 g
      | none => s1)

-- Frame starts.

/-- A head's timing generator starts, aligned (R206 step 4, R209, R221 step 3): its count is 0. What has been composed for the frame
stays. -/
def headStart (s : State) (g h : Nat) : State :=
  let f := (s.group g).frame
  let x := s.head h
  let keep (ls : List ResLine) : List ResLine := ls.filter (fun l => decide (f ≤ l.frame))
  let s1 := s.setHead h { x with state := .starting, req := .running, frame := f, line := 0, due := false, scanning := false,
                                 first := true, offset := 0, adrift := false, group := some g,
                                 inGap := decide (x.state = .gap), ebuf := keep x.ebuf, results := keep x.results,
                                 wbq := x.wbq.filter (fun l => decide (f ≤ l.line.frame)) }
  adriftBit (s1.wr (R.OWB_Hnn_FRAME h) 0#32) g h false

/-- Lines an adrift head is off its grid (R302). -/
def driftLines (s : State) (g h : Nat) : Rat :=
  let t := (geoOf s.cfg g h).t
  if t = 0 then 0 else (s.head h).offset / t

/-- GUARD, SLEW and MODE of R303. -/
def guardOf (s : State) (g : Nat) : Nat := bits (s.cfg (R.SEQ_Gn_GUARD g)) 9 0
def slewOf (s : State) (g : Nat) : Nat := max 1 (bits (s.cfg (R.SEQ_Gn_SLEW g)) 7 0)
def jumpMode (s : State) (g : Nat) : Bool := bit (s.cfg (R.SEQ_Gn_REJOIN g)) 0

/-- |δ| ≤ GUARD. -/
def nearGrid (s : State) (g h : Nat) : Bool :=
  let d := driftLines s g h
  decide (-(guardOf s g : Rat) ≤ d ∧ d ≤ guardOf s g)

/-- A head adrift beyond GUARD jumps at a grid frame start (R303): its frame is cut. -/
def headJump (s : State) (g h : Nat) : State :=
  let x := s.head h
  let s1 := if x.scanning then
      let s1 := cutStreams (wbFail (signAbandon s h) h) h false
      if x.emits then s1.emit (.cut h x.line) else s1
    else s
  let s2 := s1.setHead h { s1.head h with offset := 0, scanning := false, line := 0, due := false, adrift := false,
                                          frame := (s1.group g).frame - 1,
                                          ebuf := x.ebuf.filter (fun l => decide ((s1.group g).frame ≤ l.frame)) }
  let w := s2.rd (R.SEQ_Gn_REJOIN g)
  raise (adriftBit (s2.wr (R.SEQ_Gn_REJOIN g) (satField w 31 16 1)) g h false) 274

/-- The blank of the frame that spans a boundary changes toward the grid (R303): by all of −δ within GUARD, else by at most
SLEW lines and no further than the grid, never leaving fewer than 2 blank lines. -/
def rejoin (s : State) (g : Nat) : State :=
  forEach (s.groupHeads g) s (fun s h =>
    let x := s.head h
    if ¬ headRuns x ∨ x.group.getD g ≠ g ∨ x.offset = 0 then s
    else if nearGrid s g h then s.setHead h { x with offset := 0 }
    else if jumpMode s g then s
    else
      let v := geoOf s.cfg g h
      let d := driftLines s g h
      let room : Rat := ((v.vTotal - v.h - 2 : Nat) : Rat)
      let most : Rat := min (slewOf s g : Rat) ((if d < 0 then -d else d).floor : Rat)
      let by_ : Rat := if 0 < d then -(min most room) else most
      s.setHead h { x with offset := x.offset + by_ * v.t })

/-- GROUP_FRAME_START (R290): heads that wait start, heads beyond GUARD jump, write-back takes its settings and buffers. A frame
start without a boundary since the last one begins the next frame (R208: a reference head in its gap gives no boundary). Before release no head
starts (R58). -/
def frameStart (s : State) (g : Nat) : State :=
  if ¬ s.released then s else
  let t := gridTime s g
  let x := s.group g
  let x1 := if x.started then { x with frame := x.frame + 1, tf := t } else { x with started := true, tf := t }
  let s1 := showPhase (s.setGroup g x1) g t
  let s2 := forEach (s1.groupHeads g) s1 (fun s h =>
    let y := s.head h
    if startsNow y then headStart s g h
    else if headRuns y ∧ y.group.getD g = g ∧ jumpMode s g ∧ ¬ nearGrid s g h then headJump s g h
    else s)
  forEach (s2.groupHeads g) s2 (fun s h =>
    let y := s.head h
    if headRuns y then (if y.group.getD g = g then wbFrameStart s h x1.frame else s)
    else if y.state = .dark then captureDark s h
    else s)

def execGroupFrameStart (g : Fin 8) (s : State) : Host.Outcome State Fault Refusal := runOn [.force, .queues, .outputs, .compose] s (fun s => frameStart s g)

-- Line 0.

/-- A release record (R381, R390). -/
def releaseRecord (h mode frame : Nat) : Word := safeRecord false false false h mode frame 0x1FF

/-- The safe state at line 0 (R240 to R242): an accepted release ends it, MODE and FRAME as written take effect, and a force line
that rose while OUT_EN.EN was 0 acts, even if it is low again (R242). `was`: pixels left before this line 0. -/
def safeLine0 (s : State) (h : Nat) (was : Bool) : State :=
  let y := s.safeOf h
  let c := s.cfg (R.OWB_Hnn_SAFE_CTRL h)
  if y.active ∧ y.releasing then
    dpHead (reportSafe (s.setSafe h { y with active := false, releasing := false }) (releaseRecord h y.mode y.frame) 0#32) h
  else if y.active then
    let s1 := s.setSafe h { y with mode := bits c 9 8, frame := bits c 2 0 }
    if bits c 9 8 = 3 ∧ y.mode ≠ 3 ∧ headOut s1 h then withForce (fun s => portOff s h) s1 else s1
  else if (forceLine s h ∨ y.held) ∧ forcible s h ∧ ¬ was then enterSafe s h (decide (y.cause = 0x1FF)) y.cause 0#32
  else s

/-- The frame whose line 0 comes next at a head: of one off its grid the group's present frame (R302); none when no frame start has been reached
for it, or when its gap is due (R206 step 2). -/
def nextFrame (s : State) (g h : Nat) : Option Nat :=
  let x := s.head h
  let y := s.group g
  let last := if y.started then y.frame else y.frame - 1
  if x.first then some x.frame
  else if x.gapDue ∧ x.gapAt ≤ x.frame then none
  else if x.adrift ∨ x.offset ≠ 0 then some y.frame
  else if last ≤ x.frame then none
  else some (max (x.frame + 1) (last - 1))

/-- A running head measures its offset from the grid (R302). -/
def measureDrift (s : State) (g h : Nat) : State :=
  let x := s.head h
  let off := decide (x.offset ≠ 0)
  let s1 := adriftBit (s.setHead h { x with adrift := off }) g h off
  if off ∧ ¬ x.adrift then raise s1 274 else s1

/-- HEAD_LINE0 (R218, R219, R224, R227, R241, R252, R302). -/
def line0 (s : State) (h : Nat) : State :=
  let x := s.head h
  match s.headGroup h with
  | none => s
  | some g =>
    if ¬ headRuns x ∨ x.scanning then s
    else match nextFrame s g h with
      | none => s
      | some f =>
        let en := bit (s.cfg (R.OWB_Hnn_OUT_EN h)) 0
        let n := s.rd (R.OWB_Hnn_FRAME h)
        let s1 := s.setHead h { x with state := .running, frame := f, line := 0, due := false, scanning := true, first := false,
                                       emits := en, inGap := false }
        let s2 := if x.first then s1 else s1.wr (R.OWB_Hnn_FRAME h) (n + 1#32)
        let s3 := measureDrift s2 g h
        let s4 := dpLine0 (safeLine0 s3 h x.emits) h
        let v := s4.headView h
        let y := s4.safeOf h
        let sends := en && !(y.active && y.mode == 3)
        let t := frameTime s4 g f (geoOf v.cfg g h).frame
        signStart (streamsLine0 (portStreams s4 h v) h (encOf v.cfg h) (depthOf v.cfg h) sends t) h

def execHeadLine0 (h : Fin 32) (s : State) : Host.Outcome State Fault Refusal := runOn [.outputs, .compose] s (fun s => line0 s h)

-- Scan-out.

/-- The background a head emits at a pixel (R118, R119): codes, and whether a failing table word made them zero. -/
def backgroundCodes (v : DeckView) (h phi x y : Nat) : Calc (BitVec 48 × Bool) := do
  let c ← outConvert v h (depthOf v.cfg h) x y phi (background v h)
  return match c with
    | some c => (c, false)
    | none => (0#48, true)

/-- Pixels of a line as they leave the elastic buffer: missing ones are background (R36). Counts of pixels filled, and of
those emitted as zero (R119). The conversion of the first missing pixel meets the words `bad` as uncorrectable. -/
def fillLine (v : DeckView) (h phi y : Nat) (px : List (Option (BitVec 64))) (bad : List Nat) : Calc (List (BitVec 48) × Nat × Nat) := do
  let first := px.findIdx? Option.isNone
  let ps ← px.zipIdx.mapM (fun p => match p.1 with
    | some b => return (b.setWidth 48, false, false)
    | none => do
      let c ← backgroundCodes (if first = some p.2 then v.withBad bad else v) h phi p.2 y
      return (c.1, true, c.2))
  return (ps.map (·.1), (ps.filter (·.2.1)).length, (ps.filter (·.2.2)).length)

-- Safe content (R238, R239).

/-- Word `w` of safe frame `f`, and whether it reads as uncorrectable. -/
def safeWord (s : State) (f w : Nat) : Word := s.spw Space.SAFE_FRAME (32768 * f + w)
def safeBad (s : State) (f w : Nat) : Bool := s.failing.contains (skey Space.SAFE_FRAME (32768 * f + w))

/-- Header of a safe frame: cells wide and high; none when its ranges are broken. -/
def safeHeader (s : State) (f : Nat) : Option (Nat × Nat) :=
  let w := safeWord s f 0
  let cw := bits w 15 0
  let ch := bits w 31 16
  if safeBad s f 0 ∨ cw = 0 ∨ 512 < cw ∨ ch = 0 ∨ 510 < ch ∨ 261632 < cw * ch then none else some (cw, ch)

/-- Codes of a safe-frame pixel at depth `n`, and the words that failed. -/
def safePixel (s : State) (f n w h x y : Nat) : BitVec 48 × Nat :=
  match safeHeader s f with
  | none => (0#48, 0)
  | some (cw, ch) =>
    let c := y * ch / h * cw + x * cw / w
    let a := 64 + c / 8
    let bad := safeBad s f a
    let p := if bad then 0 else bits (safeWord s f a) (4 * (c % 8) + 3) (4 * (c % 8))
    let b0 := safeBad s f (16 + 2 * p)
    let b1 := safeBad s f (17 + 2 * p)
    let sh (v : Nat) : Nat := v / 2 ^ (16 - n)
    let w0 := safeWord s f (16 + 2 * p)
    let w1 := safeWord s f (17 + 2 * p)
    (if b0 || b1 then 0#48 else pack3 (sh (bits w0 15 0)) (sh (bits w0 31 16)) (sh (bits w1 15 0)),
      (if bad then 1 else 0) + (if b0 || b1 then 1 else 0))

/-- Words of safe frame `f` that the first pixels of line `y` read (R239): the header, and for each pixel its cell and the two words of its
colour. -/
def safeReads (s : State) (f w h y : Nat) : List (Nat × Nat) :=
  (0 :: match safeHeader s f with
    | none => []
    | some (cw, ch) => (List.range (min w 5)).flatMap (fun x =>
      let c := y * ch / h * cw + x * cw / w
      let a := 64 + c / 8
      let p := bits (safeWord s f a) (4 * (c % 8) + 3) (4 * (c % 8))
      [a, 16 + 2 * p, 17 + 2 * p])).map (fun a => (Space.SAFE_FRAME, 32768 * f + a))

/-- SAFE_FRAME words a line meets with an error (R239); those that an injected error makes uncorrectable are so in this line only (R394).
DESIGN CHOICE: a line reads each word once. -/
def safeUpsets (s : State) (us : List Upset) (ws : List (Nat × Nat)) : List Nat × State :=
  let (inj, s1) := sramReads s 5 0 ws
  (brokenWords inj, forEach us s1 (fun s u => if u.ecc = .ue ∧ u.space = Space.SAFE_FRAME then s.fail u.space u.addr else s))

/-- What the substitution point lets through (R238): the pixels of the line, none in PORT_OFF; with the words that failed, the pixels that are zero
for it, and the results replaced. `bad`: table words that the background's first pixel meets as uncorrectable. -/
def substitute (s : State) (v : DeckView) (h phi y : Nat) (px : List (BitVec 48)) (bad : List Nat) :
    Option (List (BitVec 48)) × Nat × Nat × Nat :=
  let x := s.safeOf h
  if ¬ x.active then (some px, 0, 0, 0)
  else match x.mode with
    | 0 => (some (px.map (fun _ => 0#48)), 0, 0, 0)
    | 1 =>
      let a := activeSize v h
      let ps := px.zipIdx.map (fun p => safePixel s x.frame (depthOf v.cfg h) a.1 a.2 p.2 y)
      (some (ps.map (·.1)), (ps.map (·.2)).sum, 0, 0)
    | 2 =>
      let ((ps, _, z), sat) := (fillLine v h phi y (px.map (fun _ => none)) bad).run 0
      (some ps, 0, z, sat)
    | _ => (none, 0, 0, 0)

/-- Event source OWB_Hnn_OUT (R247). -/
def outSource (h : Nat) : Nat := 106 + 3 * h

/-- Words of the 3D LUT and the OETF tables that background pixels read with an error (R119), and those that an injected error makes
uncorrectable for the first of them, where there is one. -/
def tableUpsetsOf (s : State) (h : Nat) (us : List Upset) (some_ : Bool) : List Nat × State :=
  let v := s.headView h
  tableUpsets s (us.filter (fun u => u.space == Space.LUT_3D || u.space == Space.LUT_OETF))
    (if some_ then convertReads v h (background v h) else [])

/-- Count uncorrectable words of a head's buffer or safe frame (R223, R239); `inj`: injected (R395). -/
def countUe (inj : Bool) (s : State) (h n : Nat) : State :=
  if n = 0 then s else forEach (List.range n) (s.bump (R.OWB_Hnn_UE_CNT h) n) (fun s _ => raiseInj s (outSource h) inj)

/-- The level of OWB_Hnn_WM_LOW for line `y` (R222). -/
def lowWater (s : State) (h y height : Nat) : Bool :=
  let x := s.head h
  let n := max 1 (bits (s.cfg (R.OWB_Hnn_WM_CTRL h)) 3 0)
  let later := (x.ebuf.filter (fun l => l.frame == x.frame && decide (y < l.y) && l.px.all Option.isSome)).length
  decide (y + n < height) && decide (later < n)

/-- The substitution point at a line (R238, R239): the words its content reads are checked, and what it lets through leaves. -/
def substituted (s : State) (h phi y : Nat) (us : List Upset) (px : List (BitVec 48)) : Option (List (BitVec 48)) × State :=
  let x := s.safeOf h
  let (w, height) := activeSize (s.headView h) h
  let (hit, s1) := if x.active ∧ x.mode = 1 then safeUpsets s us (safeReads s x.frame w height y) else ([], s)
  let (bad, s2) := if x.active ∧ x.mode = 2 then tableUpsetsOf s1 h [] true else ([], s1)
  let v := s2.headView h
  let (out, ue, nul, sat) := substitute { s2 with failing := hit ++ s2.failing } v h phi y px bad
  let real := (substitute s2 v h phi y px bad).2.1
  let s3 := countSat (s2.bump R.CMP_ZERO_FILL_CNT nul) sat
  (out, countUe true (countUe false s3 h real) h (ue - real))

/-- LINE_DUE (R36, R150, R222, R223, R234, R238, R384): the line leaves the elastic buffer. -/
def lineDue (s : State) (h : Nat) (ueCols : List Nat) (us : List Upset) : State :=
  let x := s.head h
  let v := s.headView h
  let (w, height) := activeSize v h
  if ¬ x.scanning ∨ x.due ∨ height ≤ x.line then s
  else
    let y := x.line
    let phi := (s.rd (R.OWB_Hnn_FRAME h)).toNat % 4
    let (hits, s1) := sramReads s 2 h ((List.range (min w 15)).map (fun c => (0, c)))
    let hit := (hits.filter (fun u => u.ecc == .ue)).map (·.addr)
    let stored := ((x.ebuf.find? (fun l => l.frame == x.frame && l.y == y)).map (·.px)).getD (List.replicate w none)
    let bad := (ueCols.filter (fun c => decide (c < w) && !hit.contains c)).eraseDups
    let px := stored.zipIdx.map (fun p => if bad.contains p.2 || hit.contains p.2 then none else p.1)
    let s2 := countUe true (countUe false s1 h bad.length) h hit.length
    let (words, s2) := tableUpsetsOf s2 h us (px.any Option.isNone)
    let v := s2.headView h
    let ((codes, miss, nul), sat) := (fillLine v h phi y px words).run 0
    let s3 := countSat (s2.bump R.CMP_ZERO_FILL_CNT nul) sat
    let s4 := if miss = 0 then s3 else raise (s3.bump (R.OWB_Hnn_BG_FILL h) miss) (104 + 3 * h)
    let s5 := setNotice s4 (R.OWB_Hnn_WM_LOW h) (outSource h) (lowWater s4 h y height)
    let s6 := signLine s5 h y codes
    let (out, s8) := substituted s6 h phi y us codes
    let s9 := match out with
      | some ps =>
        if x.emits then streamLine (portLines (s8.emit (.line h y ps)) h v y ps) h (encOf v.cfg h) (depthOf v.cfg h) y (y + 1 == height) ps else s8
      | none => s8
    let s10 := wbDue s9 h y
    s10.setHead h { s10.head h with due := true }

def execLineDue (h : Fin 32) (ueCols : List Nat) (upsets : List Upset) (s : State) : Host.Outcome State Fault Refusal :=
  runOn [.store, .outputs, .compose] s (fun s => lineDue s h ueCols upsets)

/-- LINE_LEFT (R149, R198): the line's slot is free. -/
def execLineLeft (h : Fin 32) (s : State) : Host.Outcome State Fault Refusal :=
  runOn [.outputs] s (fun s =>
    let x := s.head h
    if ¬ x.scanning ∨ ¬ x.due then s
    else s.setHead h { x with line := x.line + 1, due := false,
                              ebuf := x.ebuf.filter (fun l => !(l.frame == x.frame && decide (l.y ≤ x.line))) })

/-- HEAD_END_OF_FRAME (R198, R209, R235, R386): the last active line has left. -/
def endOfFrame (s : State) (h : Nat) : State :=
  let x := s.head h
  if ¬ x.scanning ∨ (activeSize (s.headView h) h).2 ≠ x.line then s
  else
    let s1 := wbEnd (compareMalformed s h) h
    let s2 := s1.setHead h { s1.head h with scanning := false }
    match s2.headGroup h with
    | none => s2
    | some g =>
      let y := s2.head h
      let s3 := if y.gapDue ∧ y.req = .dark ∧ y.gapAt ≤ y.frame then goDark s2 h else s2
      releaseOld s3 g

def execHeadEndOfFrame (h : Fin 32) (s : State) : Host.Outcome State Fault Refusal := runOn [.force, .queues, .outputs, .compose] s (fun s => endOfFrame s h)

/-- A head reset takes effect (R221); not on a dark head, nor in a gap, which lasts until the first line leaves (R206). DEDUCED: it ends the
last frame of a head whose gap is due, which enters that gap. -/
def headResetEffect (s : State) (h : Nat) : State :=
  let x := s.head h
  if x.state = .dark ∨ x.state = .gap ∨ x.inGap then s
  else
    let s1 := withForce (fun s => cutStreams s h true) s
    let s2 := if x.scanning ∧ x.emits then s1.emit (.cut h x.line) else s1
    match s2.headGroup h with
    | some g => if x.gapDue then enterGap s2 g h else headStops s2 h .resetting
    | none => headStops s2 h .resetting

-- The safe-state words.

/-- A write of OWB_Hnn_SAFE_CTRL takes effect (R240, R241); `old` is the register before. DESIGN CHOICE: an accepted release also drops a
rise that waits for OUT_EN.EN (R242). -/
def safeCtrlEffect (s : State) (h : Nat) (old : Word) (release : Bool) : State :=
  let x := s.safeOf h
  let o := R.OWB_Hnn_SAFE_CTRL h
  let v := s.cfg o
  let keep := x.active && bit old 10 && !bit v 10
  let s1 := if keep then ((s.setCfg o (setBit v 10 true)).wr o (setBit v 10 true)).setFlag (R.OWB_Hnn_SAFE_STAT h) 28 else s
  let s2 := updateForce1 0x1FF s1 h
  if ¬ release then s2
  else if forceLine s2 h ∨ bit (s2.cfg o) 11 then s2.setFlag (R.OWB_Hnn_SAFE_STAT h) 27
  else if (s2.safeOf h).active then s2.setSafe h { s2.safeOf h with releasing := true }
  else s2.setSafe h { s2.safeOf h with held := false }

/-- Safe frames that may not be written: those in force, and those a written MODE and FRAME will bring into force (R241). -/
def safeFrameHeld (s : State) (f : Nat) : List Nat :=
  (List.range 32).filter (fun h =>
    let x := s.safeOf h
    let c := s.cfg (R.OWB_Hnn_SAFE_CTRL h)
    x.active && ((x.mode == 1 && x.frame == f) || (bits c 9 8 == 1 && bits c 2 0 == f)))

/-- A write of a SAFE_FRAME word takes effect (R239, R241). -/
def safeFrameEffect (s : State) (a : Nat) (v : Word) : State :=
  match safeFrameHeld s (a / 32768) with
  | [] =>
    let w := a % 32768
    let v := if 16 ≤ w ∧ w < 48 then (if w % 2 = 1 then v &&& 0xFFFF#32 else v)
      else if (1 ≤ w ∧ w < 16) ∨ (48 ≤ w ∧ w < 64) then 0#32 else v
    let s1 := s.setSpw Space.SAFE_FRAME a v
    { s1 with failing := s1.failing.filter (· ≠ skey Space.SAFE_FRAME a) }
  | hs => forEach hs s (fun s h => s.setFlag (R.OWB_Hnn_SAFE_STAT h) 29)

end Sys2Proof.Machine
end

