-- ==== Sys2Proof/Machine/Commits.lean ====
section
/-!
DEFINITION. Commits (08_commits_updates.md): the slot of a group, the planner's end, the frame boundary, and what applying a
commit does to decks, tables, heads, pixel PLLs and run-ahead.
-/
namespace Sys2Proof.Machine

-- What a commit moves (R188, R189).

/-- Replace the entries of `dst` at keys in [lo, hi) by those of `src`. -/
def kcopy {α : Type} [DecidableEq α] (d : Nat → α) (src dst : KMap α) (lo hi : Nat) : KMap α :=
  (krange src lo hi).foldr (fun e m => kset d m e.1 e.2) (kclear dst lo hi)

/-- Pixel PLL settings, and the other disruptive settings, of a group (R207, R304). -/
def pllRegs (g : Nat) : List Nat := [R.TRS_Gn_FREQ_LO g, R.TRS_Gn_FREQ_HI g, R.TRS_Gn_SSC g]
def gridRegs (g : Nat) : List Nat := [R.TRS_Gn_ALIGN g, R.TRS_Gn_OFFSET g]

/-- Group registers a commit moves (R165, R185, R304). -/
def groupRegs (g : Nat) : List Nat :=
  [R.SEQ_Gn_CTRL g, R.SEQ_Gn_HEADS g, R.SEQ_Gn_WB_RES g, R.FSH_Gn_TIMING g, R.FSH_Gn_LADDER g] ++ pllRegs g ++ gridRegs g

/-- Timing and output format of a head (R213, R243). -/
def timingRegs (h : Nat) : List Nat :=
  [R.OWB_Hnn_TG_CTRL h, R.OWB_Hnn_HTIME0 h, R.OWB_Hnn_HTIME1 h, R.OWB_Hnn_VTIME0 h, R.OWB_Hnn_VTIME1 h, R.OWB_Hnn_VPHASE h,
    R.OWB_Hnn_DIV h]

/-- Composition registers of a head (R120). -/
def cmpRegs (h : Nat) : List Nat :=
  [R.CMP_Hnn_BG_RG h, R.CMP_Hnn_BG_B h, R.CMP_Hnn_OUT_CTRL h, R.CMP_Hnn_OMTX0 h, R.CMP_Hnn_OMTX1 h, R.CMP_Hnn_OMTX2 h,
    R.CMP_Hnn_OMTX3 h, R.CMP_Hnn_OMTX4 h]

/-- Heads whose settings move with group `g`: those its live or pending deck names (R188). -/
def ownHeads (s : State) (g : Nat) : List Nat := (List.range 32).filter (s.ownHead g)

/-- Registers a commit of group `g` moves. -/
def deckRegs (s : State) (g : Nat) : List Nat := groupRegs g ++ (ownHeads s g).flatMap (fun h => timingRegs h ++ cmpRegs h)

/-- Tally regions a commit of group `g` moves: those whose pending head is the group's (R383). -/
def movedRegions (s : State) (g : Nat) : List Nat :=
  (List.range 512).filter (fun r => s.ownHead g (regionHead (s.spw Space.TALLY_REGION (4 * r))))

/-- A range of words of an indirect space, as keys. -/
def spaceRange (code lo n : Nat) : Nat × Nat := (skey code lo, skey code (lo + n))

/-- Words of the decked spaces a commit of group `g` moves. -/
def deckRanges (s : State) (g : Nat) : List (Nat × Nat) :=
  (s.movedDescs g).map (fun n => spaceRange Space.LAYER_DESC (8 * n) 8)
    ++ [spaceRange Space.LAYER_DESC (groupTables g) 0x400, spaceRange Space.LUT_EOTF (4096 * g) 4096,
        spaceRange Space.RECKON (0x10000 * g) 0x10000, spaceRange Space.LSET (0x8000 * g) 0x8000]
    ++ (ownHeads s g).flatMap (fun h => [spaceRange Space.LUT_3D (0x20000 * h) 0x20000, spaceRange Space.LUT_OETF (2048 * h) 2048])
    ++ (movedRegions s g).flatMap (fun r => [spaceRange Space.TALLY_REGION (4 * r) 4, spaceRange Space.TALLY_EXP (4 * r) 4])

-- Where a register or a word belongs.

/-- Head of a per-head register of OWB or CMP. -/
def regHead (o : Nat) : Option Nat :=
  if 0x200000 ≤ o ∧ o < 0x240000 then some ((o - 0x200000) / 0x2000)
  else (List.range 32).find? (fun h => (cmpRegs h).contains o)

/-- Group of a register of `groupRegs`. -/
def regGroup (o : Nat) : Option Nat := (List.range 8).find? (fun g => (groupRegs g).contains o)

/-- Heads named by the live SEQ_Gn_HEADS or by the pending one as the mirror shows it: writes are judged against the mirror (R38, R188). -/
def shownHead (s : State) (g h : Nat) : Bool := bit (s.rd (R.SEQ_Gn_HEADS g)) h || bit (s.cfg (R.SEQ_Gn_HEADS g)) h

/-- Groups a head's settings belong to (R188). -/
def groupsOfHead (s : State) (h : Nat) : List Nat := (List.range 8).filter (fun g => shownHead s g h)

/-- Groups a decked register belongs to. -/
def deckGroups (s : State) (r : RegRow) (o : Nat) : List Nat :=
  if r.cls = .group ∨ r.cls = .disruptive then
    match regGroup o with
    | some g => [g]
    | none => match regHead o with
      | some h => groupsOfHead s h
      | none => []
  else []

/-- A pending word once the writes of a queue have taken effect. -/
def aheadWord (s : State) (wq : List QWrite) (k : Nat) : Word :=
  match wq.reverse.find? (fun q => q.indirect && q.at_ == k) with
  | some q => q.v
  | none => s.sp k

/-- Groups a word of a decked space belongs to (R97, R100, R114, R116, R146, R383), behind the writes of a queue. -/
def wordGroups (s : State) (wq : List QWrite) (code a : Nat) : List Nat :=
  if code = Space.RECKON then [a / 0x10000]
  else if code = Space.LSET then [a / 0x8000]
  else if code = Space.LAYER_DESC then
    if a < 0x8000 then groupsOfHead s (descOf (fun i => aheadWord s wq (skey Space.LAYER_DESC (8 * (a / 8) + i)))).head
    else [(a - 0x8000) / 0x1000]
  else if code = Space.LUT_EOTF then [a / 4096]
  else if code = Space.LUT_3D then groupsOfHead s (a / 0x20000)
  else if code = Space.LUT_OETF then groupsOfHead s (a / 2048)
  else if code = Space.TALLY_REGION ∨ code = Space.TALLY_EXP then
    groupsOfHead s (regionHead (aheadWord s wq (skey Space.TALLY_REGION (4 * (a / 4)))))
  else []

-- Words of indirect spaces.

/-- Whether a word of a space is reserved, or read-only within a writable space (R100, R114, R275, R360, R429). -/
def wordReserved (code a : Nat) : Bool :=
  (code == Space.LAYER_DESC && layerDescReserved a)
    || (code == Space.LUT_3D && decide (71874 ≤ a % 0x20000))
    || (code == Space.NMP_GCL && decide (256 ≤ a % 512))

/-- Bits that a word of a decked space holds: the zero fields of a TALLY_REGION record stay zero (R354, R383). -/
def deckMask (code a : Nat) : Word :=
  if code ≠ Space.TALLY_REGION then 0xFFFFFFFF#32
  else if a % 4 = 0 then 0xFCF30000#32
  else if a % 4 = 3 then 0#32
  else 0xFFFFFFFF#32

/-- Store a word of a decked space in the pending copy; reserved words stay. -/
def storeDeckWord (s : State) (code a : Nat) (v : Word) : State :=
  if wordReserved code a then s else (s.setSpw code a (v &&& deckMask code a)).cleanPend (skey code a)

/-- A write of a decked register reaches the pending deck (R189). -/
def storeDeckReg (s : State) (r : RegRow) (o : Nat) (v : Word) : State := s.setDk o (merge (s.dk o) v r.rw)

/-- A queued write reaches the pending deck of group `g`, if it is one of its settings; whether it was one. -/
def landWrite (s : State) (g : Nat) (q : QWrite) : Bool × State :=
  if q.indirect then
    let code := q.at_ / 16777216
    let a := q.at_ % 16777216
    if (wordGroups s [] code a).contains g then (true, storeDeckWord s code a q.v) else (false, s)
  else match findRow q.at_ with
    | some r => if (deckGroups s r q.at_).contains g then (true, storeDeckReg s r q.at_ q.v) else (false, s)
    | none => (false, s)

/-- A write that has landed still counts in its queue until it is retired, and does nothing more. -/
def QWrite.spent (q : QWrite) : QWrite := ⟨false, R.GLB_IDX_DATA, q.v, q.priv⟩

/-- What the masters have written to the pending deck of group `g` so far is part of a commit that becomes PENDING now (R194). -/
def landDecks (s : State) (g : Nat) : State :=
  forEach [Master.lmp, .pf0, .pf1] s (fun s m =>
    let r := (s.master m).wq.foldl (fun (a : State × List QWrite) q =>
      let l := landWrite a.1 g q
      (l.2, a.2 ++ [if l.1 then q.spent else q])) (s, [])
    r.1.setMaster m { r.1.master m with wq := r.2 })

/-- A range of tables, whose banks exchange at a commit (R146). -/
def isTable (k : Nat) : Bool := [Space.RECKON, Space.LSET].contains (k / 16777216)

/-- The words that fail in the live decks once the pending ones at `ranges` have become live: a failing word stays so until it is written
(R119), and a commit is no write of it; of a table, whose banks exchange (R146), the words of the new bank that fail. DEDUCED. -/
def failingAfter (s : State) (ranges : List (Nat × Nat)) : List Nat :=
  let moved (k : Nat) : Bool := ranges.any (fun r => decide (r.1 ≤ k ∧ k < r.2))
  s.failing.filter (fun k => !moved k || (!isTable k && !s.mended.contains k && !s.failingPend.contains k)) ++ s.failingPend.filter moved

/-- The pending decks of group `g` become its live decks (R189, R199). -/
def copyDecks (s : State) (g : Nat) : State :=
  let ranges := deckRanges s g
  let s1 := forEach (deckRegs s g) s (fun s o => s.setCfg o (s.dk o))
  { s1 with live := ranges.foldl (fun m r => kcopy spaceReset s.spaces m r.1 r.2) s1.live,
            failing := failingAfter s1 ranges,
            mended := s1.mended.filter (fun k => !ranges.any (fun r => decide (r.1 ≤ k ∧ k < r.2))) }

/-- A register's live value changes with the deck. -/
def changes (old new : Nat → Word) (os : List Nat) : Bool := os.any (fun o => old o != new o)

-- Heads and PLLs (R206 to R209).

/-- A head of the group after its decks moved (R206, R207, R209): `old` are the registers before. One that comes from another group has a gap due
at its last frame there, and starts in this group from that gap. -/
def headAfter (old : Nat → Word) (g : Nat) (s : State) (h : Nat) : State :=
  let was := bit (old (R.SEQ_Gn_HEADS g)) h && tgEn old h
  let now := bit (s.cfg (R.SEQ_Gn_HEADS g)) h && tgEn s.cfg h
  let x := s.head h
  let group := changes old s.cfg (pllRegs g ++ gridRegs g)
  if was ∧ now then
    if ¬ group ∧ ¬ changes old s.cfg (timingRegs h) then s
    else if headRuns x then s.setHead h { x with gapDue := true, gapAt := lastFrame s g }
    else if x.state = .gap then dropSteps (s.setHead h { x with divWait := true }) h (fun _ => true)
    else dropSteps s h (fun _ => true)
  else if was then
    if headRuns x then s.setHead h { x with gapDue := true, gapAt := lastFrame s g, req := .dark } else goDark (s.setHead h { x with req := .dark }) h
  else if now then
    s.setHead h { x with req := .running, gapDue := headRuns x, pllWait := x.pllWait || decide ((s.pll g).state ≠ 2) }
  else s

/-- The group's pixel PLL after its decks moved (R206 step 3, R293, R295). DEDUCED: a PLL that is off starts with the first live
frequency in range; one that TRS has started before the release commit goes on (R56). -/
def pllAfter (old : Nat → Word) (s : State) (g : Nat) : State :=
  let f := groupFreq old g
  if (s.pll g).state ≠ 0 ∧ (¬ changes old s.cfg (pllRegs g) ∨ ¬ (25000000 ≤ f ∧ f ≤ 4400000000)) then s
  else if ¬ freqOk s g then s.setPll g { s.pll g with state := 0, tried := [], onSpare := false }
  else
    let s1 := (pllGap s g).setPll g { s.pll g with state := 1, tried := [], onSpare := decide ((s.pll g).state ≠ 0) }
    if allQuiet s1 g then startSearch s1 g else s1

/-- The grid of the group after its decks moved (R291, R455): with SRC = FREE it is set anew where the PLL re-locks, F_g changes, or the
commit makes SRC = FREE; with SRC = 1 or 2, O_g keeps the value it had until an edge gives it one (R292). -/
def gridAfter (old : Nat → Word) (s : State) (g : Nat) (period offset : Rat) : State :=
  let moved := changes old s.cfg (pllRegs g)
  let anew := moved || decide (s.period g ≠ period) || (alignSrc s.cfg g == 4 && alignSrc old g != 4)
  let s0 := if alignSrc s.cfg g ≠ alignSrc old g then s.setGroup g { s.group g with grid := offset } else s
  let s1 := if anew then unsetGrid s0 g else s0
  let s2 := if anew ∨ changes old s.cfg (gridRegs g) then s1.setGroup g { s1.group g with refEdges := none } else s1
  freeGrid s2 g

/-- Tally regions that a commit newly enables or disables (R385, R387). -/
def regionsAfter (was : Nat → Word) (rs : List Nat) (s : State) : State :=
  forEach rs s (fun s r =>
    let now := regionEn (s.lvw Space.TALLY_REGION (4 * r))
    if now = regionEn (was (4 * r)) then s else if now then regionEnabled s r else regionDisabled s r)

/-- The units a plan names are woken (R413). -/
def wakeUnits (s : State) (p : Plan) : State :=
  forEach (p.tiles.map (tileUnit s) ++ p.scalers.map (scalerUnit s)) s (fun s u => if (s.metered u).eff = 0 then setReqEff s u 1 else s)

/-- What applying the pending decks of group `g` does, buffers and fences apart (R164, R165, R175, R197, R199, R206 to R209). -/
def applyDecks (s : State) (g : Nat) (plan : Plan) : State :=
  let old := s.cfg
  let period := s.period g
  let offset := gridOffset s g
  let heads := ownHeads s g
  let regions := movedRegions s g
  let s1 := regionsAfter (s.lvw Space.TALLY_REGION) regions (copyDecks s g)
  let s2 := s1.setGroup g { s1.group g with live := plan, planned := none, bank := !(s1.group g).bank }
  let s3 := ((s2.wrBits (R.SEQ_Gn_TABLE_STAT g) 15 15 (if (s2.group g).bank then 1 else 0)).wrBits (R.SEQ_Gn_TABLE_STAT g) 14 0
    plan.steps).wr (R.SEQ_Gn_LSET_USED g) (word plan.lsets)
  let s4 := forEach heads s3 (headAfter old g)
  let s5 := gridAfter old (pllAfter old s4 g) g period offset
  setWbFloor (publishDemand (forEach [1, 2] (wakeUnits s5 plan) (switchIdle (some g))))

-- Commit states (R192 to R197, R213).

/-- COMMIT_STAT of a commit in a state. -/
def commitStat (c : Commit) (state : Nat) (cancelled : Bool) : Word :=
  word (c.tag * 65536 + (if c.job.isSome then 32768 else 0) + (if cancelled then 16384 else 0) + c.held % 16 * 256 + state)

def showCommit (s : State) (g : Nat) (c : Commit) (state : Nat) : State := s.wr (R.SEQ_Gn_COMMIT_STAT g) (commitStat c state false)

/-- A commit takes the slot and is PENDING (R192, R193); writes accepted before are part of it (R194). -/
def takeSlot (s : State) (g tag : Nat) (job : Option Nat) (priv : Bool) : State :=
  let c : Commit := ⟨tag, job, priv, 1, false, false, 0, 0⟩
  let s := landDecks s g
  let s1 := showCommit (s.setGroup g { s.group g with commit := some c }) g c 1
  { s1 with planQ := s1.planQ ++ [g] }

/-- COMMIT_REJ counts a commit or cancel write (R192, R195). -/
def commitRejected (s : State) (g : Nat) : State := s.wr (R.SEQ_Gn_DECK_DENY g) (satField (s.rd (R.SEQ_Gn_DECK_DENY g)) 31 16 1)

/-- SEQ_Gn_COMMIT written with CMD = COMMIT takes effect (R192). -/
def commitEffect (s : State) (priv : Bool) (g tag : Nat) : State :=
  let x := s.group g
  if s.released ∧ tag ≠ 0 ∧ x.commit.isNone ∧ x.waiters = [] then takeSlot s g tag none priv else commitRejected s g

/-- SEQ_Gn_COMMIT written with CMD = CANCEL takes effect (R195). -/
def cancelEffect (s : State) (m : Master) (priv : Bool) (g tag : Nat) : State :=
  let x := s.group g
  match x.commit with
  | some c =>
    if c.tag ≠ tag then commitRejected s g
    else if c.priv ∧ ¬ priv then denyPriv s m false (logOfReg (R.SEQ_Gn_COMMIT g))
    else s.setGroup g { x with commit := some { c with cancelled := true } }
  | none => commitRejected s g

/-- The completion code of a final state (R331). -/
def finalCode (state : Nat) : Nat := if state = 4 then Code.APPLIED else if state = 5 then Code.EXPIRED else Code.REFUSED

/-- A commit reaches a final state: the slot is free, the state is counted, and its job completes (R193, R197). -/
def finishCommit (s : State) (g : Nat) (c : Commit) (state : Nat) : State :=
  let x := s.group g
  let s1 := s.setGroup g { x with commit := none, planned := none,
                                  lastJob := if c.job.isSome then x.lastJob.map (fun j => (j.1, j.2.1, state)) else x.lastJob }
  let s2 := s1.wr (R.SEQ_Gn_COMMIT_STAT g) (commitStat c state (state == 5 && c.cancelled))
  let s3 := match state with
    | 4 => s2.bump (R.SEQ_Gn_APPLIED g) 1
    | 5 => raise (s2.bump (R.SEQ_Gn_EXPIRED g) 1) (8 + 2 * g)
    | _ => raise (s2.bump (R.SEQ_Gn_REFUSED g) 1) (8 + 2 * g)
  match c.job with
  | some q => if (s3.jobIn q Typ.COMMIT .commit).isSome then completeJob s3 q (finalCode state) else s3
  | none => s3

-- The planner ends.

/-- A pass of the next frame that has begun is given up; the next frame is read from its first step (R177, R178). -/
def dropEarly (s : State) (g : Nat) : State :=
  let x := s.group g
  let f0 := undecided s g
  if x.seqFrame < f0 ∨ f0 = 0 then s
  else
    let s1 := forEach (s.headsIn g) s (fun s h => dropSteps s h (fun f => decide (f0 ≤ f)))
    s1.setGroup g { s1.group g with seqFrame := f0 - 1, passDone := true, skipped := [] }

/-- A commit reaches PLANNED (R178, R196, R197): its units are woken (R413). -/
def reachPlanned (s : State) (g : Nat) (c : Commit) (p : Plan) : State :=
  let c1 := { c with state := 2, limit := bits (s.cfg (R.SEQ_Gn_HOLD_LIMIT g)) 3 0 }
  let s1 := showCommit (s.setGroup g { s.group g with commit := some c1, planned := some p }) g c1 2
  dropEarly (wakeUnits s1 p) g

/-- PLAN_DONE (R152, R161, R195, R197). -/
def planDone (s : State) (us : Nat) : State :=
  match s.planning with
  | none => s
  | some r =>
    let s1 := { s with planning := none }
    match (s1.group r.group).commit with
    | none => s1
    | some c =>
      let s2 := forEach r.words (s1.wr R.SEQ_PLAN_TIME (word us)) (fun s w => (s.setSp w.1 w.2).cleanPend w.1)
      let s3 := planReport s2 c.tag r
      if r.reason ≠ 0 then finishCommit s3 r.group c 6
      else if c.cancelled ∧ c.missed then finishCommit s3 r.group c 5
      else reachPlanned s3 r.group c r.plan

def execPlanDone (us : Nat) (s : State) : Host.Outcome State Fault Refusal := runOn [.force, .queues, .outputs, .compose, .health] s (fun s => planDone s us)

-- The frame boundary.

/-- Whether the group has a boundary now: its reference head runs and the frame has started, or there is no such head (R198,
R208). -/
def hasBoundary (s : State) (g : Nat) : Bool :=
  if noReference s g then true
  else
    let x := s.head (bits (s.cfg (R.SEQ_Gn_CTRL g)) 4 0)
    ((headRuns x && x.group.getD g == g) || decide (x.state = .resetting)) && (s.group g).started

/-- Every fence a commit of group `g` waits for is signalled (R202). -/
def fencesReady (s : State) (g : Nat) : Bool :=
  (s.movedDescs g).all (fun n => !fenced s n || s.sig (s.descPending n).handle)

/-- What a boundary decides for the commit in flight: 0 nothing, 3 HELD, 4 APPLIED, 5 EXPIRED (R197). -/
def boundaryVerdict (s : State) (g : Nat) : Nat :=
  match (s.group g).commit with
  | none => 0
  | some c =>
    if c.state = 1 then 0
    else if c.cancelled then 5
    else if fencesReady s g then 4
    else if c.held < c.limit then 3 else 5

/-- Keep the decks of the frame that ends for the lines still to come (R199). -/
def keepDecks (s : State) (g : Nat) : State :=
  let x := s.group g
  if x.started then
    s.setGroup g { x with olds := ⟨x.frame, s.unit, s.live, krange s.spaces (skey Space.LAYER_SRC 0) (skey Space.LAYER_SRC 8192)⟩ :: x.olds }
  else s

/-- Buffers of the next frame (R205): `before` is the deck of the frame that ends, `moved` the descriptors a commit has moved. -/
def selectBuffers (s : State) (g : Nat) (before : DeckView) (moved : List Nat) : State :=
  let heads := s.cfg (R.SEQ_Gn_HEADS g)
  forEach (List.range 4096) s (fun s n =>
    let d := s.descLive n
    if bit heads d.head ∨ moved.contains n then
      let b := before.desc n
      selectBuffer d (b.shown && bit (before.cfg (R.SEQ_Gn_HEADS g)) b.head) true s n
    else s)

/-- Lines of LATEST layers of the new frame are asked for from the buffer now chosen (R203). -/
def rebindLatest (s : State) (g : Nat) : State :=
  let f := (s.group g).frame
  let v := s.view
  forEach (List.range 80) s (fun s l =>
    s.setScaler l ⟨(s.scaler l).jobs.map (fun j =>
      if j.step.group = g ∧ j.step.frame = f ∧ (v.desc j.desc).latest then { j with handle := v.handle j.desc } else j)⟩)

/-- Run-ahead data at a boundary (R178): those of the commit are released or discarded. DESIGN CHOICE: lines and requests released for the
frame that ends, which no scaler has taken, are forgotten. -/
def raBoundary (s : State) (g verdict : Nat) : State :=
  let x := s.group g
  let s1 := raLevel (s.setGroup g { x with ra := x.ra.filter (·.tag) })
  let y := s1.group g
  if verdict = 4 then s1.setGroup g { y with ra := y.ra.map (fun r => { r with tag := false }) }
  else if verdict = 3 ∨ verdict = 5 then raDrop s1 g (fun _ => true)
  else s1

/-- The commit in flight at its boundary (R197). -/
def decideCommit (s : State) (g verdict : Nat) : State :=
  match (s.group g).commit with
  | none => s
  | some c =>
    match verdict with
    | 4 => finishCommit (applyDecks s g (((s.group g).planned).getD Plan.empty)) g c 4
    | 5 => finishCommit s g c 5
    | 3 =>
      let c1 := { c with state := 3, held := c.held + 1 }
      (showCommit (s.setGroup g { s.group g with commit := some c1 }) g c1 3).bump (R.SEQ_Gn_HOLD_FRAMES g) 1
    | _ => if c.cancelled then s.setGroup g { s.group g with commit := some { c with missed := true } } else s

/-- FRAME_BOUNDARY (R197 to R205, R303, R407). -/
def frameBoundary (s : State) (g : Nat) : State :=
  if ¬ s.released ∨ ¬ hasBoundary s g then s
  else
    let verdict := boundaryVerdict s g
    let before := s.view
    let moved := if verdict = 4 then s.movedDescs g else []
    let s1 := keepDecks s g
    let s2 := decideCommit (raBoundary s1 g verdict) g verdict
    let x := s2.group g
    let s3 := if x.started then s2.setGroup g { x with frame := x.frame + 1, started := false } else s2
    let s4 := rebindLatest (selectBuffers s3 g before moved) g
    releaseOld (boundaryCarry (rejoin s4 g) g) g

def execFrameBoundary (g : Fin 8) (s : State) : Host.Outcome State Fault Refusal := runOn [.force, .queues, .outputs, .compose, .timing, .health] s (fun s => frameBoundary s g)

/-- The release commit of a group (R58 step 2): no fence is checked, no STALE counts, descriptors count as not shown before. -/
def releaseCommit (s : State) (g : Nat) (plan : Plan) : State :=
  let moved := s.movedDescs g
  let s1 := applyDecks s g plan
  let s2 := s1.wr (R.SEQ_Gn_COMMIT_STAT g) 4#32
  forEach moved s2 (fun s n => selectBuffer (s.descLive n) false false s n)

end Sys2Proof.Machine
end

