-- ==== Sys2Proof/Machine/Timing.lean ====
section
/-!
DEFINITION. The timebase (11_timing_reference.md): references and their qualification, the state machine, build-out,
holdover, oscillator temperature, SYNC_IN and the Bexsan sync link.
-/
namespace Sys2Proof.Machine

/-- A billion: nanoseconds of a second. -/
def secNs : Nat := 1000000000

-- What the registers set.

/-- TYPE of REFIN i that acts: a FRAME period outside 23.98 to 240 Hz is OFF (R279). -/
def refType (s : State) (i : Nat) : Nat :=
  let t := bits (s.cfg (R.TRS_REFINx_CTRL i)) 1 0
  let num := (s.cfg (R.TRS_REFINx_PER i)).toNat
  let den := max 1 (bits (s.cfg (R.TRS_REFINx_CTRL i)) 31 16)
  if t = 3 ∧ ¬ (2398 * num ≤ 100 * secNs * den ∧ secNs * den ≤ 240 * num) then 0 else t

/-- Nominal period of the edges of REFIN i as PER_NUM and PER_DEN (R279, R280). -/
def refPeriod (s : State) (i : Nat) : Nat × Nat :=
  if refType s i = 1 then (secNs, 1)
  else ((s.cfg (R.TRS_REFINx_PER i)).toNat, max 1 (bits (s.cfg (R.TRS_REFINx_CTRL i)) 31 16))

/-- Priority of a candidate (R281). -/
def refPrio (s : State) (c : Nat) : Nat :=
  let k := 4 * (c % 8)
  bits (s.cfg (R.TRS_REF_PRIOk (c / 8))) (k + 3) k

/-- MODE of TRS_REF_CTRL; 3 acts as 0. -/
def refMode (s : State) : Nat := let m := bits (s.cfg R.TRS_REF_CTRL) 3 2; if m = 3 then 0 else m

def trsThresh (s : State) : Nat := let t := bits (s.cfg R.TRS_LOOP) 27 16; if t = 0 then 100 else t

def refIn (s : State) (i : Nat) : RefIn := if i = 0 then s.trs.ref0 else s.trs.ref1

def setRefIn (s : State) (i : Nat) (x : RefIn) : State :=
  { s with trs := if i = 0 then { s.trs with ref0 := x } else { s.trs with ref1 := x } }

-- Measuring a reference.

/-- An integer reduced to (−n/2, n/2]. -/
def intCentre (a n : Int) : Int := if n = 0 then a else let m := a % n; if n < 2 * m then m - n else m

/-- Δ of R283. -/
def refDelta (s : State) (c : Nat) : Int :=
  if c < 16 then -((s.port c).ptp.offset.getD 0 + (s.port c).ptp.delay)
  else if c = 18 then s.trs.bslDelta
  else if refType s (c - 16) = 1 then (refIn s (c - 16)).delta
  else 0

/-- The loop's phase error against candidate `c`: device time less the reference's time plus B (R277, R282). -/
def refPhase (s : State) (c : Nat) : Int :=
  if c < 16 ∨ c = 18 then refDelta s c - s.trs.b
  else
    let i := c - 16
    let x := refIn s i
    match refType s i with
    | 1 => intCentre (x.delta - s.trs.b) secNs
    | 3 => roundDiv x.delta (refPeriod s i).2
    | _ => x.delta

/-- Device time steps by `d` ns, and with it what has been measured against it. -/
def stepDevice (s : State) (d : Int) : State :=
  if d = 0 then s
  else
    let s1 := stepTime s d
    let move (i : Nat) (x : RefIn) : RefIn :=
      { x with at_ := x.at_ + d, delta := if refType s i = 1 then intCentre (x.delta + d) secNs else x.delta }
    let s2 := { s1 with trs := { s1.trs with ref0 := move 0 s1.trs.ref0, ref1 := move 1 s1.trs.ref1,
                                             bslDelta := s1.trs.bslDelta + d } }
    forEach (List.range 16) s2 (fun s p =>
      let pt := s.port p
      s.setPort p { pt with ptp := { pt.ptp with offset := pt.ptp.offset.map (· - d),
                                                 sync := pt.ptp.sync.map (fun y => (y.1, y.2.1 + d, y.2.2)),
                                                 delayReq := pt.ptp.delayReq.map (fun y => (y.1, y.2 + d)) } })

/-- |B| above 1 us is reported once after a measurement (R284). -/
def checkBuildout (s : State) : State :=
  if 1000 < s.trs.b.natAbs ∧ ¬ s.trs.bOver then raise { s with trs := { s.trs with bOver := true } } 279 else s

/-- TRS measures a new reference: B := Δ, or, when `step`, device time steps and B := 0 (R283). -/
def measureRef (s : State) (c : Nat) (step : Bool) : State :=
  let s0 := if 16 ≤ c ∧ c < 18 ∧ refType s (c - 16) ≠ 1 then setRefIn s (c - 16) { refIn s (c - 16) with delta := 0 } else s
  let d := refDelta s0 c
  let s1 := if step then stepDevice s0 (-d) else s0
  checkBuildout { s1 with trs := { s1.trs with b := if step then 0 else d, bOver := false, e := 0, stepNow := false } }

/-- 100 ppm in units of y. -/
def ppm100 : Int := 6553600000

/-- BW of TRS_LOOP: above 10 acts as 10. -/
def loopBw (s : State) : Nat := min 10 (bits (s.cfg R.TRS_LOOP) 31 28)

/-- Gains of the second-order loop (R282): the frequency, in 1/65,536 ppb, that a phase error of 1 ns moves at once, and the frequency it moves in
each second. DESIGN CHOICE: the bandwidth 2^-BW Hz is the loop's noise bandwidth; whatever the damping z, gains a and b of
a = 16 z² B / (4 z² + 1) and b = a² / (4 z²), in 1/s and 1/s², give it. -/
def loopGain (bw : Nat) : Rat × Rat :=
  let q := Config.loopDamping bw * Config.loopDamping bw
  let a : Rat := 16 * q / (2 ^ bw * (4 * q + 1))
  (65536 * a, 65536 * a * a / (4 * q))

/-- y has held its value for some time, which counts in the mean of R285. -/
def countY (s : State) : State :=
  { s with trs := { s.trs with ySum := s.trs.ySum + s.trs.y * ((s.up - s.trs.yAt : Nat) : Int), yAt := s.up } }

/-- A new phase error of the selected reference moves the second-order loop of bandwidth 2^-BW Hz: its frequency state integrates e, and y adds
the proportional part; in ACQUIRING y is pulled by at most ±100 ppm (R282). -/
def loopRun (s : State) : State :=
  match s.trs.sel with
  | none => s
  | some c =>
    if s.trs.state ≠ 1 ∧ s.trs.state ≠ 2 then s
    else
      let e := refPhase s c
      let s := countY s
      let gain := loopGain (loopBw s)
      let span : Rat := ((s.up - s.trs.loopAt : Nat) : Rat) / 1000000000
      let f := s.trs.loopF - gain.2 * span * (e : Rat)
      let need := ratRound (f - gain.1 * (e : Rat))
      let y := if s.trs.state = 1 then max (-ppm100) (min ppm100 need) else need
      let s1 := { s with trs := { s.trs with e := e, y := y, loopF := f, loopAt := s.up } }
      if ppm100 < (need.natAbs : Int) ∧ (s.trs.y.natAbs : Int) < ppm100 then raise s1 277 else s1

-- The state machine.

/-- Words 0 and 1 of a record of history queue 1 (R381). -/
def trsRecord (s : State) (old : Nat) : Word × Word :=
  (word (s.trs.sel.getD 31 * 256 + old * 16 + s.trs.state), satWord s.trs.e)

/-- BC_BLOCKED of every port: a master is silenced while a PTP port is the selected reference (R269); what it has queued is not sent. -/
def blockMasters (s : State) : State :=
  forEach (List.range 16) s (fun s p =>
    let now := decide ((s.port p).ptp.state = 6) && (match s.trs.sel with | some c => decide (c < 16) | none => false)
    let was := bit (s.rd (R.NMP_Pnn_PTP_STAT p)) 27
    let s := if now ∧ ¬ was then s.setPort p ((s.port p).setQueue 7 []) else s
    let s1 := if now = was then s else s.wr (R.NMP_Pnn_PTP_STAT p) (setBit (s.rd (R.NMP_Pnn_PTP_STAT p)) 27 now)
    if now ∧ ¬ was then raise s1 (203 + 4 * p) else s1)

/-- The selected candidate changes (R282). -/
def setSel (s : State) (c : Option Nat) : State :=
  if s.trs.sel = c then s
  else blockMasters (raise ({ s with trs := { s.trs with sel := c } }.bump R.TRS_REF_SWITCHES 1) 265)

/-- Ten seconds of learning begin (R285). -/
def startLearning (x : Trs) (up : Nat) : Trs := { x with ySum := 0, yFrom := up, yAt := up, tSum := 0, tNum := 0 }

/-- The timebase enters a state (R282), LOCKED to learn (R285); a loop that starts does so at the y in force, so y does not step. -/
def enterTrs (s : State) (st : Nat) : State :=
  if s.trs.state = st then s
  else
    let old := s.trs.state
    let starts := decide (st = 1 ∧ old ≠ 2)
    let s0 := if st = 2 then { s with trs := (startLearning s.trs s.up) } else s
    let s1 := { s0 with trs := { s0.trs with state := st, prev := if st = 1 then old else s.trs.prev,
                                             loopF := if starts then (s.trs.y : Rat) else s.trs.loopF,
                                             loopAt := if starts then s.up else s.trs.loopAt } }
    let r := trsRecord s1 old
    let s2 := raise (history s1 1 r.1 r.2) 264
    if st = 3 then raise s2 267 else if st = 4 then raise s2 268 else s2

/-- At least MIN_LEARN × 10 s learned (R285). -/
def modelValid (s : State) : Bool := decide (10 * bits (s.cfg R.TRS_HO_CTRL) 15 8 ≤ s.trs.learned)

/-- At least 24 h learned (R285). -/
def ageingValid (s : State) : Bool := decide (86400 ≤ s.trs.learned)

/-- SRC of TRS_TEMP_CTRL; 3 acts as 2 (R288). -/
def tempSrc (s : State) : Nat := min 2 (bits (s.cfg R.TRS_TEMP_CTRL) 1 0)

/-- At least 24 h learned with a valid temperature, over a span of at least 2 degrees (R285). -/
def tempValid (s : State) : Bool :=
  let ts := s.trs.recs.filterMap (fun r => r.temp)
  match ts with
  | [] => false
  | t :: rest =>
    let lo := rest.foldl min t
    let hi := rest.foldl max t
    decide (86400 ≤ s.trs.learnedT) && decide (512 ≤ hi - lo) && decide (tempSrc s ≠ 2)

/-- Enter HOLDOVER: Ȳ, over the records of the last AVG × 10 s, T_h and t_h are taken (R286). DEDUCED: with no record that recent, Ȳ is y. -/
def enterHoldover (s : State) : State :=
  let n := max 1 (bits (s.cfg R.TRS_HO_CTRL) 7 0)
  let rs := (s.trs.recs.take n).filter (fun r => decide (s.up ≤ r.up + 10 * secNs * n))
  let mean := if rs.isEmpty then s.trs.y else roundDiv ((rs.map (fun r => r.y)).sum) rs.length
  enterTrs { s with trs := { s.trs with hoAt := s.time64, hoY := mean, hoT := s.trs.temp.getD 0 } } 3

/-- Enter LOST: y stays as it is, frozen (R282). -/
def enterLost (s : State) : State := enterTrs { s with trs := { s.trs with lostY := s.trs.y } } 4

/-- Enter FREE_RUN: XO_IN with y = 0 (R277). -/
def enterFreeRun (s : State) : State := enterTrs { s with trs := { s.trs with y := 0 } } 0

/-- No candidate is left in LOCKED (R282). -/
def loseLock (s : State) : State :=
  let s1 := setSel s none
  if modelValid s1 then enterHoldover s1 else enterLost s1

/-- Whether R281 lets a qualified candidate be used. DEDUCED: priority 0 disables a candidate in every mode. -/
def refEligible (s : State) (c : Nat) : Bool :=
  s.trs.qual.contains c && decide (refPrio s c ≠ 0)
    && (match refMode s with
        | 0 => true
        | 1 => decide (bits (s.cfg R.TRS_REF_CTRL) 8 4 = c)
        | _ => false)

/-- The best candidate of R281. -/
def bestRef (s : State) : Option Nat :=
  ((List.range 19).filter (refEligible s)).foldl (fun m c =>
    match m with
    | none => some c
    | some b => if refPrio s c < refPrio s b then some c else m) none

/-- R282 after a change of what qualifies or of what R281 permits. -/
def evalRefs (s : State) : State :=
  if ¬ s.ldr.trsOn then s else
  let best := bestRef s
  let held := match s.trs.sel with
    | some c => refEligible s c
    | none => false
  if refMode s = 2 then enterFreeRun (setSel { s with trs := { s.trs with y := 0 } } none)
  else match s.trs.state with
    | 1 =>
      match best with
      | some c => if s.trs.sel = some c then s else measureRef (setSel s (some c)) c s.trs.stepNow
      | none =>
        if held then s
        else match s.trs.prev with
          | 2 => loseLock s
          | 3 => enterHoldover (setSel s none)
          | 4 =>
            let s1 := setSel s none
            enterTrs { s1 with trs := { s1.trs with y := s1.trs.lostY } } 4
          | _ => enterFreeRun (setSel s none)
    | 2 =>
      if held then s
      else match best with
        | some c => measureRef (setSel s (some c)) c false
        | none => loseLock s
    | st =>
      match best with
      | some c =>
        let step := s.trs.stepNow || (decide (st = 0) && !bit (s.cfg R.TRS_REF_CTRL) 0)
        measureRef (enterTrs (setSel s (some c)) 1) c step
      | none => s

/-- A candidate disqualifies (R280). -/
def disqualify (s : State) (c : Nat) : State :=
  if s.trs.qual.contains c then
    let s1 := { s with trs := { s.trs with qual := s.trs.qual.filter (· ≠ c) } }
    evalRefs (if refPrio s1 c ≠ 0 then raise s1 266 else s1)
  else s

/-- Grandmaster clock classes that qualify (R280). -/
def classOk (c : Nat) : Bool := c == 6 || c == 7 || c == 13 || c == 14

/-- Whether the sender state of the link is accepted (R280). -/
def bslAccepted (s : State) : Bool := bit (s.cfg R.TRS_BSL_CTRL) 30 || s.trs.bslState == 2 || s.trs.bslState == 3

/-- The conditions of R280 that the device holds for a candidate. -/
def refReady (s : State) (c : Nat) : Bool :=
  if c < 16 then
    let x := (s.port c).ptp
    decide (x.state = 9) && (s.port c).link && x.offset.isSome && x.rateOk
      && (match x.best with | some a => classOk a.clockClass | none => false)
  else if c = 18 then s.trs.bslLink && decide (s.trs.bslBad = 0) && bslAccepted s
  else decide (refType s (c - 16) ≠ 0) && (refIn s (c - 16)).good

/-- REF_QUALIFIED (R280): the first edge after it places the grids of the groups aligned to an input (R292). -/
def refQualified (s : State) (c : Nat) : State :=
  if s.trs.qual.contains c ∨ ¬ refReady s c then s
  else
    let s1 := { s with trs := { s.trs with qual := c :: s.trs.qual } }
    let s2 := if c = 16 ∨ c = 17 then
        forEach (List.range 8) s1 (fun s g =>
          if alignSrc s.cfg g = c - 15 then s.setGroup g { s.group g with refEdges := none } else s)
      else s1
    evalRefs s2

def execRefQualified (c : Fin 19) (s : State) : Host.Outcome State Fault Refusal := runOn [.outputs, .compose, .timing] s (fun s => refQualified s c)

/-- TRS_LOCK_ACHIEVED (R282). -/
def execTrsLockAchieved (s : State) : Host.Outcome State Fault Refusal :=
  runOn [.timing] s (fun s => if s.trs.state = 1 ∧ s.trs.e.natAbs ≤ trsThresh s then enterTrs s 2 else s)

/-- TRS_PHASE_ERROR_TIMEOUT (R282): LOCKED goes to ACQUIRING on the same candidate, measured anew (R283). -/
def execTrsPhaseErrorTimeout (s : State) : Host.Outcome State Fault Refusal :=
  runOn [.outputs, .timing] s (fun s =>
    match s.trs.sel with
    | some c =>
      if s.trs.state = 2 ∧ 8 * trsThresh s < s.trs.e.natAbs then measureRef (enterTrs s 1) c s.trs.stepNow else s
    | none => s)

/-- TRS_WTR_EXPIRY (R282). -/
def execTrsWtrExpiry (s : State) : Host.Outcome State Fault Refusal :=
  runOn [.outputs, .timing] s (fun s =>
    match bestRef s with
    | some c =>
      if s.trs.state = 2 ∧ bit (s.cfg R.TRS_REF_CTRL) 1 ∧ s.trs.sel ≠ some c then measureRef (setSel s (some c)) c false else s
    | none => s)

/-- HOLDOVER_LIMIT_EXPIRY (R282). -/
def execHoldoverLimitExpiry (s : State) : Host.Outcome State Fault Refusal :=
  runOn [.timing] s (fun s => if s.trs.state = 3 ∧ bits (s.cfg R.TRS_HO_CTRL) 31 16 ≠ 0 then enterLost s else s)

-- Register writes in effect.

/-- A write of TRS_REF_CTRL; STEP_NOW sets B to 0 at once, and stays pending for the next entry into ACQUIRING while no
reference is selected (R281, R283, R284). -/
def refCtrlEffect (s : State) (v : Word) : State :=
  let s1 := if bit v 31 then
      let s1 := stepDevice s (-s.trs.b)
      { s1 with trs := { s1.trs with b := 0, stepNow := s1.trs.sel.isNone } }
    else s
  evalRefs s1

/-- A write of TRS_REFINx_CTRL or _PER: an input whose type or period changes starts anew. -/
def refinEffect (s : State) (old : State) (i : Nat) : State :=
  if refType s i = refType old i ∧ (refType s i = 0 ∨ refPeriod s i = refPeriod old i) then s
  else disqualify (setRefIn s i RefIn.reset) (16 + i)

/-- TRS_TOD_SET_HI (R279). -/
def todEffect (s : State) (hi : Word) : State :=
  { s with trs := { s.trs with tod := some (hi.toNat * 4294967296 + s.trs.todLo.toNat) } }

-- Edges of the inputs.

/-- Seconds armed are set at an active edge of the selected 1PPS input (R279). -/
def todEdge (s : State) (i : Nat) : State :=
  match s.trs.tod with
  | none => s
  | some n =>
    if s.trs.sel = some (16 + i) ∧ refType s i = 1 then
      let s1 := stepDevice s ((n * secNs : Nat) - s.time)
      { s1 with trs := { s1.trs with tod := none, b := 0, e := 0 } }
    else s

/-- A FRAME edge at an input that groups align to (R292). -/
def gridEdge (s : State) (i : Nat) : State :=
  forEach (List.range 8) s (fun s g =>
    if alignSrc s.cfg g = i + 1 then
      let x := s.group g
      let o := ratMod (s.time : Rat) (s.period g)
      let d := ratCentre (o - x.grid) (s.period g)
      match x.refEdges with
      | none => moveGrid (s.setGroup g { x with refEdges := some 0 }) g o
      | some n =>
        if d ≤ 1000 ∧ (-1000 : Rat) ≤ d then s.setGroup g { x with refEdges := some 0 }
        else if 2 ≤ n then moveGrid (s.setGroup g { x with refEdges := some 0 }) g o
        else s.setGroup g { x with refEdges := some (n + 1) }
    else s)

/-- Whether an interval lies within the tolerance of R280: 100 ppm of the nominal period; and whether it is too short. -/
def intervalOk (s : State) (i : Nat) (d : Nat) : Bool × Bool :=
  let (num, den) := refPeriod s i
  (decide (10000 * (d * den) ≤ 10001 * num ∧ 9999 * num ≤ 10000 * (d * den)), decide (10000 * (d * den) < 9999 * num))

/-- REFIN_EDGE (R279, R280, R283, R292). -/
def refinEdge (s : State) (i : Nat) : State :=
  let t := refType s i
  if t ≠ 1 ∧ t ≠ 3 then s
  else
    let s0 := todEdge s i
    let x := refIn s0 i
    let iv := match x.last with
      | none => (false, false)
      | some l => intervalOk s0 i (s0.up - l)
    let per := refPeriod s0 i
    let delta := if t = 1 then intCentre s0.time secNs
      else if x.last.isNone then x.delta else x.delta + intCentre ((s0.time - x.at_) * per.2) per.1
    let s1 := setRefIn s0 i { last := some s0.up, at_ := s0.time, good := iv.1, delta := delta }
    let s2 := if iv.2 ∨ (x.last.isSome ∧ ¬ iv.1) then disqualify s1 (16 + i) else s1
    let s3 := if t = 3 ∧ s2.trs.qual.contains (16 + i) then gridEdge s2 i else s2
    if s3.trs.sel = some (16 + i) then loopRun s3 else s3

def execRefinEdge (i : Fin 2) (s : State) : Host.Outcome State Fault Refusal := runOn [.outputs, .compose, .timing] s (fun s => refinEdge s i)

/-- REFIN_WINDOW_END (R280): cycles missing from a window are 100 ns each that device time has gained. -/
def execRefinWindowEnd (i : Fin 2) (cycles : Nat) (s : State) : Host.Outcome State Fault Refusal :=
  runOn [.outputs, .timing] s (fun s =>
    if refType s i ≠ 2 then s
    else
      let ok := decide (9999 ≤ cycles ∧ cycles ≤ 10001)
      let x := refIn s i
      let s1 := setRefIn s i { x with good := ok, delta := x.delta + 100 * (10000 - (cycles : Int)) }
      let s2 := if ok then s1 else disqualify s1 (16 + i)
      if s2.trs.sel = some (16 + i.val) then loopRun s2 else s2)

/-- REF_EDGE_TIMEOUT (R280). -/
def execRefEdgeTimeout (i : Fin 2) (s : State) : Host.Outcome State Fault Refusal :=
  runOn [.outputs, .timing] s (fun s =>
    let t := refType s i
    if t = 1 ∨ t = 3 then disqualify (setRefIn s i { refIn s i with last := none, good := false }) (16 + i) else s)

/-- PTP_SYNC_TIMEOUT (R280). -/
def execPtpSyncTimeout (p : Fin 16) (s : State) : Host.Outcome State Fault Refusal :=
  runOn [.outputs, .timing] s (fun s =>
    let pt := s.port p
    disqualify (s.setPort p { pt with ptp := { pt.ptp with sync := none, offset := none, lastSync := none, rateOk := false } }) p)

/-- BUILDOUT_BLEED_STEP (R284). -/
def execBuildoutBleedStep (s : State) : Host.Outcome State Fault Refusal :=
  runOn [.timing] s (fun s =>
    if bits (s.cfg R.TRS_BLEED) 6 0 = 0 ∨ s.trs.b = 0 then s
    else { s with trs := { s.trs with b := if 0 < s.trs.b then s.trs.b - 1 else s.trs.b + 1 } })

-- Holdover.

/-- Records kept: 7 days of one every 10 s (R285). -/
def recordsKept : Nat := 60480

/-- Gauss-Jordan elimination of one column: columns with their pivot rows so far, and the rows left. -/
def pivotStep (a : List (Nat × List Rat) × List (List Rat)) (c : Nat) : List (Nat × List Rat) × List (List Rat) :=
  match a.2.find? (fun r => decide (r.getD c 0 ≠ 0)) with
  | none => a
  | some r =>
    let p := r.map (· / r.getD c 0)
    let clear (x : List Rat) : List Rat := List.zipWith (fun u v => u - x.getD c 0 * v) x p
    ((c, p) :: a.1.map (fun e => (e.1, clear e.2)), (a.2.erase r).map clear)

/-- A solution of `n` linear equations in `n` unknowns, each row its coefficients and its right side; an unknown that they leave open has the
value `free` gives it. -/
def solve (n : Nat) (rows : List (List Rat)) (free : Nat → Rat) : List Rat :=
  let (done, _) := (List.range n).foldl pivotStep ([], rows)
  let open_ := (List.range n).filter (fun c => !done.any (fun e => e.1 == c))
  (List.range n).map (fun c => match done.find? (fun e => e.1 == c) with
    | some e => e.2.getD n 0 - (open_.map (fun k => e.2.getD k 0 * free k)).sum
    | none => free c)

/-- Coefficients that fit `y` to a sum over the columns `x` by least squares: a solution of the normal equations. -/
def leastSquares (n : Nat) (rows : List (List Rat × Rat)) (free : Nat → Rat) : List Rat :=
  solve n ((List.range n).map (fun i =>
    (List.range n).map (fun j => (rows.map (fun r => r.1.getD i 0 * r.1.getD j 0)).sum) ++ [(rows.map (fun r => r.1.getD i 0 * r.2)).sum])) free

/-- The fit of R285 in ppb: b, a per day, c1 and c2 per degree and its square. DEDUCED: a record without a temperature has no part in the
temperature terms. -/
def holdoverFit (recs : List HoRec) (t0 : Rat) (free : Nat → Rat) : List Rat :=
  leastSquares 4 (recs.map (fun r =>
    let d : Rat := match r.temp with
      | some t => (t : Rat) / 256 - t0
      | none => 0
    ([1, (r.t : Rat) / 8640, d, d * d], (r.y : Rat) / 65536))) free

/-- The mean of y since the last record, to the nearest 1/65,536 ppb (R285). -/
def meanY (s : State) : Int :=
  let x := (countY s).trs
  if s.up ≤ x.yFrom then x.y else roundDiv x.ySum (s.up - x.yFrom)

/-- The mean of the temperatures converted since the last record, to the nearest 1/256 degree; none while the input is faulty (R285, R289). -/
def meanTemp (s : State) : Option Int :=
  if s.trs.frozen ∨ tempSrc s = 2 ∨ s.trs.tNum = 0 then none else some (roundDiv s.trs.tSum s.trs.tNum)

/-- HOLDOVER_LEARN_TICK (R285). DESIGN CHOICE: a, c1 and c2 are kept to the nearest 1/65,536 ppb, as their registers show them. -/
def learnTick (s : State) : State :=
  if s.trs.state ≠ 2 then s
  else
    let t := meanTemp s
    let recs := (⟨s.time64 / 10000000000, s.up, meanY s, t⟩ :: s.trs.recs).take recordsKept
    let ts := recs.filterMap (fun r => r.temp)
    let t0 : Rat := if ts.isEmpty then 0 else ((ts.sum : Int) : Rat) / ((256 * ts.length : Nat) : Rat)
    let fit := (holdoverFit recs t0 (Config.fitFree s.fresh)).map (fun c => ratRound (65536 * c))
    let s1 := s.bumpFresh
    let x := startLearning s.trs s.up
    { s1 with trs := { x with learned := s.trs.learned + 10,
                              learnedT := s.trs.learnedT + (if t.isSome then 10 else 0), recs := recs,
                              age := fit.getD 1 0, c1 := fit.getD 2 0, c2 := fit.getD 3 0,
                              t0 := if ts.isEmpty then s.trs.t0 else roundDiv ts.sum ts.length } }

def execHoldoverLearnTick (s : State) : Host.Outcome State Fault Refusal := runOn [.timing] s learnTick

/-- y of R286 at temperature `t`, in 1/65,536 ppb. -/
def holdoverY (s : State) : Rat :=
  let x := s.trs
  let a : Rat := if ageingValid s then x.age else 0
  let c1 : Rat := if tempValid s then x.c1 else 0
  let c2 : Rat := if tempValid s then x.c2 else 0
  let days : Rat := ((s.time64 - x.hoAt : Nat) : Rat) / 86400000000000
  let t : Rat := (x.temp.getD 0 : Rat) / 256
  let th : Rat := (x.hoT : Rat) / 256
  let t0 : Rat := (x.t0 : Rat) / 256
  x.hoY + a * days + c1 * (t - th) + c2 * ((t - t0) * (t - t0) - (th - t0) * (th - t0))

/-- HOLDOVER_UPDATE_TICK (R286): y moves by at most 1 ppb. -/
def execHoldoverUpdateTick (s : State) : Host.Outcome State Fault Refusal :=
  runOn [.timing] s (fun s =>
    if s.trs.state ≠ 3 then s
    else
      let want := ratRound (holdoverY s)
      { s with trs := { s.trs with y := max (s.trs.y - 65536) (min (s.trs.y + 65536) want) } })

/-- A faulty conversion (R289); `seen` are the bits of TRS_TEMP_STAT for the checks failed. -/
def tempFault (s : State) (seen : List Nat) : State :=
  let w := setBit (seen.foldl (fun w b => setBit w b true) (satField (s.rd R.TRS_TEMP_STAT) 15 8 1)) 3 true
  raise { s.wr R.TRS_TEMP_STAT w with trs := { s.trs with frozen := true, goodRun := 0 } } 269

/-- A good conversion (R289). -/
def tempGood (s : State) (t : Int) : State :=
  let n := s.trs.goodRun + 1
  if s.trs.frozen ∧ n < 10 then { s with trs := { s.trs with goodRun := n } }
  else
    let s1 := { s with trs := { s.trs with goodRun := min n 10, frozen := false, temp := some t, tSum := s.trs.tSum + t, tNum := s.trs.tNum + 1 } }
    s1.wr R.TRS_TEMP_STAT (setBit (setBits (s1.rd R.TRS_TEMP_STAT) 31 16 (t % 65536).toNat) 3 false)

/-- The natural logarithm of a number in [1, 2], to some 12 digits: twice the first terms of the series of the inverse hyperbolic tangent. -/
def lnMantissa (m : Rat) : Rat :=
  let z := (m - 1) / (m + 1)
  2 * ((List.range 13).map (fun k => z ^ (2 * k + 1) / ((2 * k + 1 : Nat) : Rat))).sum

/-- A positive number as a mantissa in [1, 2) and a power of two, in at most `n` doublings or halvings. -/
def binaryForm : Nat → Rat → Rat × Int
  | 0, x => (x, 0)
  | n + 1, x =>
    if x < 1 then let r := binaryForm n (2 * x); (r.1, r.2 - 1)
    else if 2 ≤ x then let r := binaryForm n (x / 2); (r.1, r.2 + 1)
    else (x, 0)

/-- The natural logarithm of a positive ratio. -/
def ratLn (x : Rat) : Rat := let r := binaryForm 64 x; lnMantissa r.1 + (r.2 : Rat) * (693147180559945309 / 1000000000000000000)

/-- The temperature, in 1/256 degree, of a 10 kΩ NTC thermistor of B-constant `beta` fed by 10 kΩ, whose voltage is the fraction `v` of VPLL
(R288); none where the formula gives no temperature. DESIGN CHOICE: the nearest step. -/
def ntcTemp (beta : Nat) (v : Rat) : Option Int :=
  if beta = 0 then some (Config.ntcZero v)
  else
    let inv : Rat := 20 / 5963 + ratLn (v / (1 - v)) / (beta : Rat)
    if inv ≤ 0 then none else some (ratRound (256 * (1 / inv - 5463 / 20)))

/-- Checks that the samples of a conversion fail, as bits of TRS_TEMP_STAT (R288). DEDUCED: RANGE is judged of a sample that passes the other
two, which alone has a temperature. -/
def sampleFaults (beta : Nat) (vs : List Rat) : List Nat :=
  let opened := vs.any (fun v => decide (99 / 100 < v))
  let shorted := vs.any (fun v => decide (v < 5 / 1000))
  let ranged := vs.any (fun v => decide (5 / 1000 ≤ v ∧ v ≤ 99 / 100) && (match ntcTemp beta v with
    | some t => decide (t < -55 * 256 ∨ 150 * 256 < t)
    | none => true))
  (if opened then [2] else []) ++ (if shorted then [1] else []) ++ (if ranged then [0] else [])

/-- An OSCTEMP conversion (R288): faulty if any sample fails a check; otherwise the temperature of the mean of its samples. -/
def oscTemp (s : State) (vs : List Rat) : State :=
  let beta := bits (s.cfg R.TRS_TEMP_CTRL) 31 16
  match sampleFaults beta vs with
  | [] => match ntcTemp beta (vs.sum / (vs.length : Rat)) with
    | some t => tempGood s t
    | none => s
  | seen => tempFault s seen

/-- A conversion with SRC = 1 has read register 0 of the sensor (R288). -/
def readSensor (s : State) : State := s.emit (.i2cRead (bits (s.cfg R.TRS_TEMP_CTRL) 15 9) 0)

/-- TEMP_CONVERSION_END (R288, R289). -/
def tempConversion (s : State) (c : TempConv) : State :=
  match tempSrc s, c with
  | 0, .samples vs => if vs.isEmpty then s else oscTemp s vs
  | 1, .i2c hi lo => tempGood (readSensor s) (signed 16 (hi.toNat * 256 + lo.toNat))
  | 1, .noAck => tempFault (readSensor s) [0]
  | _, _ => s

def execTempConversionEnd (c : TempConv) (s : State) : Host.Outcome State Fault Refusal := runOn [.timing] s (fun s => tempConversion s c)

-- SYNC_IN.

/-- A write of TRS_SYNC_CTRL in effect (R298). -/
def syncCtrlEffect (s : State) (v : Word) : State := s.wr R.TRS_SYNC_STAT (setBit (s.rd R.TRS_SYNC_STAT) 31 (bit v 31))

/-- The post-dividers of the groups in `mask`, and the output dividers of their heads, are set to phase zero (R298). -/
def zeroDividers (s : State) (mask : Nat) : State :=
  forEach ((List.range 8).filter mask.testBit) s (fun s g =>
    forEach (s.groupHeads g) (s.setPll g { s.pll g with zeroAt := s.up }) (fun s h => s.setHead h { s.head h with divZero := s.up }))

/-- SYNC_IN_EDGE (R298): with CAPTURE = 1 an edge is only timestamped. -/
def syncInEdge (s : State) : State :=
  let c := s.cfg R.TRS_SYNC_CTRL
  let near := match s.trs.syncAt with
    | some t => decide (s.up - t < 1000)
    | none => false
  let s1 := { s with trs := { s.trs with syncAt := some s.up } }
  if near then s1
  else
    let stamp (s : State) : State := (s.wr R.TRS_SYNC_TS_LO (word s.time64)).wr R.TRS_SYNC_TS_HI (word (s.time64 / 4294967296))
    if bit c 30 then stamp s1
    else if bit (s1.rd R.TRS_SYNC_STAT) 31 then
      let s2 := (stamp s1).wr R.TRS_SYNC_STAT (setBit (setBit (s1.rd R.TRS_SYNC_STAT) 31 false) 30 true)
      raise (((zeroDividers s2 (bits c 7 0)).wr R.TRS_SYNC_CTRL (setBit (s2.rd R.TRS_SYNC_CTRL) 31 false)).setCfg R.TRS_SYNC_CTRL (setBit c 31 false)) 276
    else s1

def execSyncInEdge (s : State) : Host.Outcome State Fault Refusal := runOn [.force, .outputs, .timing] s syncInEdge

-- The Bexsan sync link.

/-- O_g as TRS_Gn_PHASE reads it (R290, R455). -/
def phaseWord (s : State) (g : Nat) : Word :=
  if alignSrc s.cfg g = 4 then s.rd (R.TRS_Gn_PHASE g) else satWord (gridOffset s g).floor

/-- RATE_ERR of TRS_BSL_STAT (R299). -/
def bslRate (s : State) : State :=
  let c := s.cfg R.TRS_BSL_CTRL
  let rate := groupFreq s.cfg (bits c 18 16) / ((bits c 7 0 + 1 : Nat) : Rat)
  let bad := bit c 31 && !decide (100000000 ≤ rate ∧ rate ≤ 400000000)
  let was := bit (s.rd R.TRS_BSL_STAT) 30
  let s1 := s.wr R.TRS_BSL_STAT (setBit (s.rd R.TRS_BSL_STAT) 30 bad)
  if bad ∧ ¬ was then raise s1 275 else s1

/-- The 52 bytes of a message (R299). -/
def bslMessage (s : State) : List Byte :=
  let body := 0x01#8 :: leBytes 2 s.trs.bslSeq ++ leBytes 8 s.time64 ++ [BitVec.ofNat 8 s.trs.state] ++ List.replicate 3 0#8
    ++ (List.range 8).flatMap (fun g => leBytes 4 (phaseWord s g).toNat)
  0xBC#8 :: body ++ leBytes 4 (crc32c body)

/-- BSL_MESSAGE_TX (R299). -/
def execBslMessageTx (s : State) : Host.Outcome State Fault Refusal :=
  runOn [.timing] s (fun s =>
    let s1 := bslRate s
    let c := s1.cfg R.TRS_BSL_CTRL
    if bit c 31 ∧ ¬ bit (s1.rd R.TRS_BSL_STAT) 30 ∧ (s1.pll (bits c 18 16)).state = 2 then
      { s1.emit (.bsl (bslMessage s1)) with trs := { s1.trs with bslSeq := (s1.trs.bslSeq + 1) % 65536 } }
    else s1)

/-- `n` invalid or missing messages (R300). -/
def bslErrors (s : State) (n : Nat) : State :=
  let s1 := raiseN (s.bump R.TRS_BSL_ERR_CNT n) 275 n
  let s2 := { s1 with trs := { s1.trs with bslBad := s1.trs.bslBad + n, bslSkip := s1.trs.bslSkip + n } }
  if 3 ≤ s2.trs.bslBad then disqualify s2 18 else s2

/-- A valid message acts (R291, R300). -/
def bslValid (s : State) (msg : List Byte) : State :=
  let st := byteAt msg 12
  let delta := s.time - ((le msg 4 8 : Nat) + (s.cfg R.TRS_BSL_DELAY).toInt)
  let offs := (List.range 8).map (fun g => signed 32 (le msg (16 + 4 * g) 4))
  let s1 := { s with trs := { s.trs with bslBad := 0, bslState := st, bslDelta := delta, bslOffsets := offs } }
  let s2 := s1.wrBits R.TRS_BSL_STAT 2 0 st
  let s3 := if bslAccepted s2 then s2 else disqualify s2 18
  let s4 := forEach (List.range 8) s3 (fun s g =>
    if alignSrc s.cfg g = 3 then
      moveGrid s g (ratMod ((offs.getD (bits (s.cfg (R.TRS_Gn_ALIGN g)) 6 4) 0 : Int) : Rat) (s.period g))
    else s)
  if s4.trs.sel = some 18 then loopRun s4 else s4

/-- BSL_MESSAGE_RX (R300). DEDUCED: a skipped SEQ that was already counted since the reference, as invalid or as missing, is not
counted again. A message that is not 52 bytes has no CRC that matches. -/
def bslRx (s : State) (msg : List Byte) : State :=
  if ¬ s.trs.bslLink then s
  else
    let seq := le msg 2 2
    let step := (seq + 65536 - s.trs.bslRef) % 65536
    let ref (s : State) : State := { s with trs := { s.trs with bslRef := seq, bslSkip := 0, bslFirst := false } }
    let ok := decide (msg.length = 52) && decide (crc32c (slice msg 1 47) = le msg 48 4) && decide (byteAt msg 1 = 1)
    if s.trs.bslFirst then ref s
    else if ¬ ok then bslErrors s 1
    else if 1 ≤ step ∧ step ≤ 3 then bslValid (ref (bslErrors s (step - 1 - s.trs.bslSkip))) msg
    else ref (bslErrors s 1)

def execBslMessageRx (msg : List Byte) (s : State) : Host.Outcome State Fault Refusal :=
  runOn [.outputs, .compose, .timing] s (fun s => bslRx s msg)

/-- BSL_LINK_ALIGN (R300). -/
def execBslLinkAlign (s : State) : Host.Outcome State Fault Refusal :=
  runOn [.timing] s (fun s => { s.setFlag R.TRS_BSL_STAT 31 with trs := { s.trs with bslLink := true, bslFirst := true } })

/-- BSL_LINK_LOST (R300): the messages that no longer arrive disqualify the link. -/
def execBslLinkLost (s : State) : Host.Outcome State Fault Refusal :=
  runOn [.timing] s (fun s =>
    { s.wr R.TRS_BSL_STAT (setBit (s.rd R.TRS_BSL_STAT) 31 false) with trs := { s.trs with bslLink := false, bslFirst := false } })

/-- BSL_MESSAGE_MISSING (R300). -/
def execBslMessageMissing (s : State) : Host.Outcome State Fault Refusal :=
  runOn [.outputs, .timing] s (fun s => if s.trs.bslLink ∨ s.trs.qual.contains 18 then bslErrors s 1 else s)

/-- TRS_BSL_CTRL written: RATE_ERR and the accepted sender states follow at once. -/
def bslCtrlEffect (s : State) : State :=
  let s1 := bslDrive (bslRate s)
  if bslAccepted s1 then s1 else disqualify s1 18

-- What the timebase shows.

/-- TRS_STATE (R305). -/
def trsStateWord (s : State) : Word :=
  word ((if s.trs.frozen then 524288 else 0) + (if tempValid s then 262144 else 0) + (if ageingValid s then 131072 else 0)
    + (if modelValid s then 65536 else 0) + s.trs.sel.getD 31 * 256 + s.trs.state)

/-- Registers of TRS that follow from its state (R278, R284, R285, R304); none for any other offset. -/
def trsRead (s : State) (o : Nat) : Option Word :=
  let x := s.trs
  if o = R.TRS_STATE then some (trsStateWord s)
  else if o = R.TRS_REF_QUAL then some (x.qual.foldl (fun w c => setBit w c true) 0#32)
  else if o = R.TRS_BUILDOUT_LO then some (wordOfInt x.b)
  else if o = R.TRS_BUILDOUT_HI then some (wordOfInt (x.b / 4294967296))
  else if o = R.TRS_FREQ_CORR then some (satWord (x.y / 4096))
  else if o = R.TRS_PHASE_ERR then some (satWord x.e)
  else if o = R.TRS_HO_AGE then some (if ageingValid s then satWord x.age else 0#32)
  else if o = R.TRS_HO_C1 then some (if tempValid s then satWord x.c1 else 0#32)
  else if o = R.TRS_HO_C2 then some (if tempValid s then satWord x.c2 else 0#32)
  else if o = R.TRS_HO_T0 then some (if tempValid s then word ((x.t0 % 65536).toNat) else 0#32)
  else if o = R.TRS_HO_LEARNED then some (word (min x.learned 0xFFFFFFFF))
  else
    match (List.range 8).find? (fun g => o = R.TRS_Gn_STAT g ∨ o = R.TRS_Gn_PHASE g) with
    | some g => some (if o = R.TRS_Gn_STAT g then groupStat s g else phaseWord s g)
    | none => none

/-- Duty cycle of LOCK_A (R301). -/
def lockDuty (s : State) : Rat :=
  let c := s.cfg R.TRS_LOCK_A
  let g := bits c 2 0
  let (st, e) := if bit c 3 then (groupState s g, ((s.rd (R.TRS_Gn_PHASE_ERR g)).toInt.natAbs : Nat))
    else (s.trs.state, s.trs.e.natAbs)
  let f : Rat := 1 - (e : Rat) / ((10 * trsThresh s : Nat) : Rat)
  match st with
  | 3 => 1 / 2
  | 1 => max 0 (min (7 / 10) f)
  | 2 => max (85 / 100) f
  | _ => 0

end Sys2Proof.Machine
end

