-- ==== Sys2Proof/Machine/Ports.lean ====
section
/-!
DEFINITION. The media ports (10_network_media.md): classification of received frames, the PTP instance of each port in the
message layouts and with the best master clock algorithm of IEEE 1588-2019 (PRESUMED), link changes and port reset.
-/
namespace Sys2Proof.Machine

-- PTP (R267 to R269).

def ptpOf (s : State) (p : Nat) : Ptp := (s.port p).ptp
def setPtp (s : State) (p : Nat) (x : Ptp) : State := s.setPort p { s.port p with ptp := x }

/-- The PTP port state changes: shown, raised, and a port that leaves SLAVE disqualifies (R280). -/
def ptpEnter (s : State) (p st : Nat) : State :=
  let x := ptpOf s p
  if x.state = st then s
  else
    let s1 := (setPtp s p { x with state := st }).wrBits (R.NMP_Pnn_PTP_STAT p) 31 28 st
    let s2 := blockMasters (raise s1 (203 + 4 * p))
    if x.state = 9 then disqualify s2 p else s2

/-- clockClass the device announces (R269). -/
def ownClass (s : State) : Nat := if s.trs.state = 2 then 13 else if s.trs.state = 3 then 14 else 248

/-- The port's own data set. -/
def ownData (s : State) (p : Nat) : Announce :=
  let w := s.cfg (R.NMP_Pnn_PTP_PRIO p)
  ⟨bits w 15 8, ownClass s, 0xFE, 0xFFFF, bits w 7 0, beNat (clockId s p), 0, beNat (portIdentity s p)⟩

/-- Lexicographic order of two lists of numbers. -/
def lexLt : List Nat → List Nat → Bool
  | [], _ :: _ => true
  | a :: as, b :: bs => if a = b then lexLt as bs else decide (a < b)
  | _, _ => false

/-- Whether data set `a` is better than `b`. -/
def betterData (a b : Announce) : Bool :=
  if a.gm = b.gm then lexLt [a.steps, a.sender] [b.steps, b.sender]
  else lexLt [a.prio1, a.clockClass, a.accuracy, a.variance, a.prio2, a.gm] [b.prio1, b.clockClass, b.accuracy, b.variance, b.prio2, b.gm]

/-- Show the grandmaster's identity (R273). -/
def showGm (s : State) (p gm : Nat) : State :=
  (s.wr (R.NMP_Pnn_PTP_GM_LO p) (word gm)).wr (R.NMP_Pnn_PTP_GM_HI p) (word (gm / 4294967296))

/-- The port follows the best master it hears. -/
def ptpFollow (s : State) (p : Nat) (a : Announce) : State :=
  let s1 := showGm s p a.gm
  if (ptpOf s1 p).state = 9 ∨ (ptpOf s1 p).state = 8 then s1 else ptpEnter s1 p 8

/-- The port is master. -/
def ptpMaster (s : State) (p : Nat) : State := ptpEnter (showGm s p (beNat (clockId s p))) p 6

/-- The state decision of the best master clock algorithm. -/
def ptpDecide (s : State) (p : Nat) : State :=
  let x := ptpOf s p
  if x.state < 4 then s
  else match ptpRole s p, x.best with
    | 1, some a => ptpFollow s p a
    | 1, none => ptpEnter s p 4
    | 3, some a =>
      let d := ownData s p
      if betterData d a then ptpMaster s p
      else if d.clockClass ≤ 127 then ptpEnter s p 7
      else ptpFollow s p a
    | _, _ => s

/-- An Announce that qualifies: the best is kept. A sender qualifies with its second Announce within four intervals. -/
def ptpAnnounce (s : State) (p : Nat) (a : Announce) : State :=
  let x := ptpOf s p
  let role := ptpRole s p
  if role ≠ 1 ∧ role ≠ 3 ∨ x.state < 4 ∨ a.sender = beNat (portIdentity s p) ∨ 255 ≤ a.steps then s
  else
    let span := 4 * 1000000000 * 2 ^ (logAnnounce s p + 3).toNat / 8
    let known := x.heard.any (fun h => h.1 == a.sender && decide (s.up - h.2 ≤ span))
    let heard := (a.sender, s.up) :: x.heard.filter (fun h => h.1 != a.sender && decide (s.up - h.2 ≤ span))
    let take : Bool := match x.best with
      | none => known
      | some b => a.sender == b.sender || (known && betterData a b)
    if ¬ take then setPtp s p { x with heard := heard }
    else
      let fresh : Bool := match x.best with
        | some b => b.sender == a.sender
        | none => false
      let y := { x with heard := heard, best := some a }
      let y := if fresh then y else { y with sync := none, offset := none, lastSync := none, rateOk := false }
      let s1 := setPtp s p y
      let s2 := if ¬ fresh ∧ x.state = 9 then ptpEnter s1 p 8 else s1
      let s3 := ptpDecide s2 p
      if classOk a.clockClass then s3 else disqualify s3 p

/-- The instance hands offset and delay to TRS (R268). -/
def ptpShow (s : State) (p : Nat) : State :=
  let x := ptpOf s p
  let s1 := (s.wr (R.NMP_Pnn_PTP_OFFSET p) (satWord (-(x.offset.getD 0 + x.delay)))).wr (R.NMP_Pnn_PTP_DELAY p) (satWord x.delay)
  if s1.trs.sel = some p then loopRun s1 else s1

/-- Whether the master's frequency between two Syncs lies within ±100 ppm of XO_IN (R280). -/
def syncRateOk (old : Option (Int × Nat)) (t : Int) (up : Nat) : Bool :=
  match old with
  | some (t0, up0) => decide (10000 * ((t - t0) - ((up : Int) - up0)).natAbs ≤ up - up0)
  | none => false

/-- A complete Sync: sent at `t1`, received at `t2` and, by the oscillator, at `up`; corrections `corr` in ns. DESIGN CHOICE: the frequency of
R280 is measured over successive Syncs. -/
def ptpSynced (s : State) (p : Nat) (t1 t2 corr : Int) (up : Nat) : State :=
  let x := ptpOf s p
  let s1 := setPtp s p { x with offset := some (t1 + corr + (s.cfg (R.NMP_Pnn_PTP_ASYM p)).toInt - t2), sync := none,
                                lastSync := some (t1 + corr, up), rateOk := syncRateOk x.lastSync (t1 + corr) up }
  ptpShow (if x.state = 8 then ptpEnter s1 p 9 else s1) p

/-- Fields of a message: signed correction in ns, timestamp in ns. -/
def ptpCorr (m : List Byte) : Int := roundDiv (signed 64 (be m 8 8)) 65536
def ptpTime (m : List Byte) : Int := (be m 34 6 * 1000000000 + be m 40 4 : Nat)

/-- A PTP message is received at device time `s.time` (R268). -/
def ptpRx (s : State) (p : Nat) (m : List Byte) : State :=
  let x := ptpOf s p
  let slave := x.state == 8 || x.state == 9
  let src := be m 20 10
  let seq := be m 30 2
  let parent : Bool := match x.best with
    | some b => b.sender == src
    | none => false
  if ptpRole s p = 0 ∨ byteAt m 1 % 16 ≠ 2 ∨ byteAt m 4 ≠ ptpDomain s p then s
  else match byteAt m 0 % 16 with
    | 0 =>
      if ¬ (slave ∧ parent) then s
      else if (byteAt m 6).testBit 1 then setPtp s p { x with sync := some (seq, s.time, ptpCorr m, s.up) }
      else ptpSynced s p (ptpTime m) s.time (ptpCorr m) s.up
    | 8 =>
      match x.sync with
      | some (n, t2, c, up) => if slave ∧ parent ∧ n = seq then ptpSynced s p (ptpTime m) t2 (c + ptpCorr m) up else s
      | none => s
    | 9 =>
      match x.delayReq, x.offset with
      | some (n, t3), some off =>
        if slave ∧ parent ∧ n = seq ∧ be m 44 10 = beNat (portIdentity s p) then
          let there := (s.cfg (R.NMP_Pnn_PTP_ASYM p)).toInt - off
          let back := ptpTime m - t3 - ptpCorr m
          ptpShow (setPtp s p { x with delayReq := none, delay := roundDiv (there + back) 2 }) p
        else s
      | _, _ => s
    | 1 =>
      if x.state = 6 ∧ ¬ bcBlocked s p then
        ptpSend s p false (ptpMessage s p 9 0 (signed 64 (be m 8 8)) seq 3 (logDelayReq s p) (ptpStamp s.time ++ slice m 20 10))
      else s
    | 11 =>
      ptpAnnounce s p ⟨byteAt m 47, byteAt m 48, byteAt m 49, be m 50 2, byteAt m 52, be m 53 8, be m 61 2, src⟩
    | _ => s

/-- Whether a master port may send now. -/
def ptpMaySend (s : State) (p : Nat) : Bool :=
  (ptpOf s p).state == 6 && !bcBlocked s p

/-- PTP_SYNC_TX: a two-step Sync (R267). -/
def execPtpSyncTx (p : Fin 16) (s : State) : Host.Outcome State Fault Refusal :=
  runOn [] s (fun s =>
    if ptpMaySend s p then
      let x := ptpOf s p
      ptpSend (setPtp s p { x with syncSeq := (x.syncSeq + 1) % 65536 }) p true
        (ptpMessage s p 0 0x0200 0 x.syncSeq 0 (logSync s p) (List.replicate 10 0#8))
    else s)

/-- PTP_ANNOUNCE_TX (R269). The offset of UTC is a free value, not flagged valid: the device holds none. -/
def execPtpAnnounceTx (p : Fin 16) (s : State) : Host.Outcome State Fault Refusal :=
  runOn [] s (fun s =>
    if ptpMaySend s p then
      let x := ptpOf s p
      let d := ownData s p
      let body := List.replicate 10 0#8 ++ beBytes 2 (Config.freeWord s.fresh).toNat ++ [0#8, BitVec.ofNat 8 d.prio1,
        BitVec.ofNat 8 d.clockClass, 0xFE#8, 0xFF#8, 0xFF#8, BitVec.ofNat 8 d.prio2] ++ clockId s p ++ [0#8, 0#8, 0xA0#8]
      ptpSend (setPtp s.bumpFresh p { x with annSeq := (x.annSeq + 1) % 65536 }) p false
        (ptpMessage s p 11 0x0008 0 x.annSeq 5 (logAnnounce s p) body)
    else s)

/-- PTP_DELAY_REQ_TX (R267). -/
def execPtpDelayReqTx (p : Fin 16) (s : State) : Host.Outcome State Fault Refusal :=
  runOn [] s (fun s =>
    let x := ptpOf s p
    if x.state = 8 ∨ x.state = 9 then
      ptpSend (setPtp s p { x with delaySeq := (x.delaySeq + 1) % 65536 }) p true
        (ptpMessage s p 1 0 0 x.delaySeq 1 0x7F (List.replicate 10 0#8))
    else s)

/-- PTP_ANNOUNCE_TIMEOUT (R267): the master heard is gone; a port that may be master becomes it. -/
def execPtpAnnounceTimeout (p : Fin 16) (s : State) : Host.Outcome State Fault Refusal :=
  runOn [.outputs, .timing] s (fun s =>
    let x := ptpOf s p
    if x.state < 4 ∨ x.state = 6 then s
    else
      let s1 := raise (setPtp s p { x with best := none, sync := none, offset := none, lastSync := none, rateOk := false }) (203 + 4 * p)
      match ptpRole s1 p with
      | 1 => ptpEnter s1 p 4
      | 3 => ptpMaster s1 p
      | _ => s1)

/-- The instance starts anew: INITIALIZING without a link, LISTENING with one; ROLE = MASTER is master at once (R267, R270). -/
def ptpStart (s : State) (p : Nat) : State :=
  let x := ptpOf s p
  let pt := s.port p
  let s1 := setPtp s p { Ptp.reset with state := x.state, syncSeq := x.syncSeq, annSeq := x.annSeq, delaySeq := x.delaySeq }
  if ptpRole s p = 0 then ptpEnter s1 p 0
  else if ¬ pt.link ∨ pt.resetting then ptpEnter s1 p 1
  else
    let s2 := ptpEnter s1 p 4
    if ptpRole s p = 2 then ptpMaster s2 p else s2

/-- NMP_Pnn_PTP_CTRL in effect: a new role or domain starts the instance anew and changes its membership (R250). -/
def ptpCtrlEffect (s : State) (old : Word) (p : Nat) : State :=
  let new := s.cfg (R.NMP_Pnn_PTP_CTRL p)
  if bits old 31 30 = bits new 31 30 ∧ bits old 23 16 = bits new 23 16 then s
  else
    let m : Member := (p, 0xE0000181, 0)
    let s1 := if bits old 31 30 = 0 ∧ bits new 31 30 ≠ 0 then igmpJoin true s m
      else if bits old 31 30 ≠ 0 ∧ bits new 31 30 = 0 then igmpLeave s m
      else s
    ptpStart s1 p

-- Received frames (R248, R249).

/-- An ARP request for the port's address is answered (R249). -/
def arpReply (s : State) (p : Nat) (a : List Byte) : State :=
  let tc := ctrlTc s p
  enqueue s p tc (ethFrame s p tc (slice a 8 6) 0x0806
    ([0#8, 1#8, 8#8, 0#8, 6#8, 4#8, 0#8, 2#8] ++ portMac s p ++ beBytes 4 (portIp s p) ++ slice a 8 6 ++ slice a 14 4)) none

/-- A UDP packet: to the first receive stream one of whose paths matches, path A first. -/
def rxStreamOf (s : State) (p src dst udp : Nat) (rtp : List Byte) : Option (Nat × Bool) :=
  (List.range 512).findSome? (fun i =>
    if pathMatches s p src dst udp rtp (i / 2) (i % 2 == 1) then some (i / 2, i % 2 == 1) else none)

/-- A frame in no other case (R249). -/
def rxOther (s : State) (p : Nat) : State := s.bump (R.NMP_Pnn_RX_OTHER p) 1

/-- Classification of an IPv4 packet that starts at `ip`; `len` is the frame's length. -/
def rxIpv4 (s : State) (p len : Nat) (ip : List Byte) (note : RxNote) : State :=
  let body := (ip.take (be ip 2 2)).drop (4 * (byteAt ip 0 % 16))
  let src := be ip 12 4
  let dst := be ip 16 4
  let port := be body 2 2
  if byteAt ip 0 / 16 ≠ 4 ∨ be ip 6 2 % 16384 ≠ 0 then rxOther s p
  else if byteAt ip 9 = 17 then
    let data := (body.take (be body 4 2)).drop 8
    if (port = 319 ∨ port = 320) ∧ (dst = 0xE0000181 ∨ dst = portIp s p) then
      keeping [.outputs, .compose, .timing] s (if note.stampLost ∧ port = 319 then stampError s p else ptpRx s p data)
    else match rxStreamOf s p src dst port data with
      | some (st, b) => rxPacket s st b len data note.asm
      | none => rxOther s p
  else if byteAt ip 9 = 2 ∧ byteAt body 0 = 0x11 then igmpQuery s p (be body 4 4)
  else rxOther s p

/-- FEC codewords corrected and found uncorrectable (R273, R274, R276). -/
def fecCount (s : State) (p : Nat) (note : RxNote) : State :=
  let s1 := s.bump (R.NMP_Pnn_FEC_CORR p) note.fecCorr
  if note.fecUncorr = 0 then s1
  else raiseN ((s1.bump (R.NMP_Pnn_FEC_UNCORR p) note.fecUncorr).setFlag (R.NMP_Pnn_EVT p) 3) (200 + 4 * p) note.fecUncorr

/-- A frame at a port whose link is up (R248, R249): one under 64 bytes with a good FCS is no case of the table; an empty one stands for
codewords without a frame. -/
def ethFrameIn (s : State) (p : Nat) (frame : List Byte) (note : RxNote) : State :=
  if frame = [] then s
  else if note.fifoFull then raise (s.bump (R.NMP_Pnn_RX_OVF p) 1) (201 + 4 * p)
  else if 9216 < frame.length ∨ crcEth (frame.take (frame.length - 4)) ≠ leNat (frame.drop (frame.length - 4)) then
    s.bump (R.NMP_Pnn_RX_BAD p) 1
  else if frame.length < 64 then rxOther s p
  else
    let tagged := decide (be frame 12 2 = 0x8100)
    let off := if tagged then 18 else 14
    let typ := be frame (off - 2) 2
    let rest := (frame.take (frame.length - 4)).drop off
    if tagged ∧ be frame 14 2 % 4096 ≠ bits (s.cfg (R.NMP_Pnn_VLAN p)) 11 0 then rxOther s p
    else if typ = 0x0806 ∧ be rest 2 2 = 0x0800 ∧ be rest 6 2 = 1 ∧ be rest 24 4 = portIp s p then arpReply s p rest
    else if typ = 0x0800 then rxIpv4 s p frame.length rest note
    else rxOther s p

/-- ETH_RX_FRAME (R249, R273). -/
def ethRx (s : State) (p : Nat) (frame : List Byte) (note : RxNote) : State :=
  if ¬ (s.port p).link ∨ (s.port p).resetting then s else ethFrameIn (fecCount s p note) p frame note

def execEthRxFrame (p : Fin 16) (frame : List Byte) (note : RxNote) (s : State) : Host.Outcome State Fault Refusal :=
  runOn [.store, .outputs, .compose, .receive, .timing] s (fun s => ethRx s p frame note)

-- Link and reset (R270, R271).

/-- REQ_STATE and EFF_STATE of a port (R273). -/
def portState (s : State) (p req eff : Nat) : State := s.wr (R.NMP_Pnn_STATE p) (word (eff * 256 + req))

/-- Whether a port is to be up: enabled, with a mode (R248), in a released device (R58). -/
def portOn (s : State) (p : Nat) : Bool := s.released && bit (s.cfg (R.NMP_Pnn_CTRL p)) 31 && portMode s p != 0

/-- Discard the frames queued at a port, counted for their class and stream (R263, R270, R271). -/
def dropQueued (s : State) (p : Nat) : State :=
  dropFrames (forEach (List.range 8) s (fun s k => forEach ((s.port p).queue k) s (fun s f => txDrop s p k f.stream))) p (fun _ => false)

/-- ETH_LINK_UP (R270). -/
def linkUp (s : State) (p : Nat) : State :=
  let pt := s.port p
  if ¬ portOn s p ∨ (pt.link ∧ ¬ pt.resetting) then s
  else
    let s1 := s.setPort p { pt with link := true, resetting := false }
    let s2 := s1.wr (R.NMP_Pnn_STAT p) (word (3221225472 + portMode s p * 134217728))
    ptpStart (portState s2 p 2 2) p

def execEthLinkUp (p : Fin 16) (s : State) : Host.Outcome State Fault Refusal := runOn [.outputs, .timing] s (fun s => linkUp s p)

/-- The link of a port, which ran at a MAC rate, goes down (R271): the frame on the wire is cut. -/
def linkLost (s : State) (p rate : Nat) : State :=
  let pt := s.port p
  if ¬ pt.link then s
  else
    let s0 := wireCut s p rate
    let s1 := dropQueued (s0.setPort p { s0.port p with link := false, wire := none, wireBits := 0 }) p
    let s2 := s1.wr (R.NMP_Pnn_STAT p) 0#32
    let s3 := s2.wr (R.NMP_Pnn_EVT p) (setBit (satField (s2.rd (R.NMP_Pnn_EVT p)) 31 16 1) 2 true)
    let s4 := if pt.resetting then s3 else portState s3 p (if portOn s p then 2 else 0) (if portOn s p then 1 else 0)
    disqualify (ptpStart (raise s4 (200 + 4 * p)) p) p

/-- The link of a port goes down (R271). -/
def linkDown (s : State) (p : Nat) : State := linkLost s p (macRate s p)

/-- ETH_LINK_DOWN (R271, R392): the fault of a `lane` of the port is answered when its link has gone down. -/
def ethDown (s : State) (p : Nat) (lane : Bool) : State :=
  if lane ∧ (s.port p).link then faultAnswered (partFault (linkDown s p) (200 + 4 * p) p) (200 + 4 * p) p else linkDown s p

def execEthLinkDown (p : Fin 16) (lane : Bool) (s : State) : Host.Outcome State Fault Refusal :=
  runOn [.outputs, .timing] s (fun s => ethDown s p lane)

/-- NMP_Pnn_RESET.GO in effect (R270): steps 1 and 2; the PHY reports the loss and the return of the link. -/
def portReset (s : State) (p : Nat) : State :=
  if (s.port p).resetting ∨ ¬ portOn s p then s
  else
    let s1 := dropQueued s p
    let s2 := withForce (fun s => forEach (List.range 64) s (fun s st => if (s.txs st).sending ∧ (s.txs st).port = p then cutStream s st else s)) s1
    let s3 := portState (s2.setPort p { s2.port p with resetting := true }) p 3 3
    ptpStart s3 p

/-- NMP_Pnn_CTRL in effect (R248): a port that goes off, or changes its mode, loses its link. -/
def portCtrlEffect (s : State) (old : Word) (p : Nat) : State :=
  let new := s.cfg (R.NMP_Pnn_CTRL p)
  if bit old 31 = bit new 31 ∧ bits old 2 0 = bits new 2 0 ∧ bit old 11 = bit new 11 then s
  else
    let s1 := linkLost s p (modeRate (bits old 2 0))
    let s2 := s1.setPort p { s1.port p with resetting := false }
    if portOn s2 p then portState s2 p 2 1 else portState s2 p 0 0

end Sys2Proof.Machine
end

