-- ==== Sys2Proof/Machine/Writes.lean ====
section
/-!
DEFINITION. What a write meets before it is stored (R188, R194, R210, R314, R324, R347, R356): the bits a register holds, privilege,
ownership, the group a deck setting belongs to, and the record writes of jobs and of the loader.
-/
namespace Sys2Proof.Machine

/-- Who writes: a master, its privilege at acceptance, whether a job carries the write (R346, R348), and the groups of which writes that the
master has queued before will have made a commit. -/
structure Writer where
  m : Master
  priv : Bool
  job : Bool
  commits : List Nat
  deriving DecidableEq, Repr

/-- Queue of a per-queue register, and function of a per-function one (R343). -/
def regQueue (o : Nat) : Option Nat := if 0x21000 ≤ o ∧ o < 0x22000 then some ((o - 0x21000) / 0x40) else none
def regFunc (o : Nat) : Option Nat :=
  if 0x20100 ≤ o ∧ o < 0x20200 then some ((o - 0x20100) / 0x80)
  else if 0x20400 ≤ o ∧ o < 0x20600 then some ((o - 0x20400) / 0x100)
  else none

/-- Whether R210 makes the disruptive setting at `o` privileged now. -/
def r210 (s : State) (o : Nat) : Bool :=
  match regGroup o with
  | some g => (List.range 32).any (fun h => shownHead s g h && tallied s h)
  | none => match regHead o with
    | some h => tallied s h
    | none => false

/-- Whether a register is privileged-only now (R343, R347). -/
def privOnly (s : State) (r : RegRow) (o : Nat) : Bool :=
  match r.priv with
  | .open_ => false
  | .priv => true
  | .r210 => r210 s o
  | .queue => match regQueue o with
    | some q => boardQueue q
    | none => false
  | .func => false

/-- Whether R314 lets a writer at a memory queue's or a function's registers. -/
def ownerOk (s : State) (o : Nat) (w : Writer) : Bool :=
  w.priv || match regQueue o, regFunc o with
    | some q, _ => boardQueue q || (queueOwner s q).any (fun k => funcMaster k == w.m)
    | none, some k => funcMaster k == w.m
    | none, none => true

/-- The first group with a commit in flight, or made by an earlier write of the same master (R194). -/
def committing (s : State) (w : Writer) (gs : List Nat) : Option Nat :=
  gs.find? (fun g => (s.group g).commit.isSome || w.commits.contains g)

/-- A write to a deck of group `g` is ignored (R194); `table` for RECKON and LSET (R146). -/
def denyDeck (s : State) (g : Nat) (table : Bool) : State :=
  let s1 := s.wr (R.SEQ_Gn_DECK_DENY g) (satField (s.rd (R.SEQ_Gn_DECK_DENY g)) 15 0 1)
  if table then s1.setFlag (R.SEQ_Gn_TABLE_STAT g) 29 else s1

/-- What becomes of a write. -/
inductive Verdict where
  /-- It is stored: the value the register then shows. -/
  | store (v : Word)
  /-- It changes nothing. -/
  | nothing
  | privilege
  | owner
  | deck (g : Nat)
  deriving DecidableEq, Repr

/-- Whether a register is of type WM (R356). -/
def isWm (o : Nat) : Bool := decide (R.GLB_FLAGSn 0 ≤ o ∧ o ≤ R.GLB_FLAGSn 3)

/-- Bits of SEQ_Gn_HEADS an ordinary master may not change (R210). -/
def heldHeads (s : State) (old v : Word) : Word :=
  (List.range 32).foldl (fun m h => if bit old h ≠ bit v h ∧ tallied s h then setBit m h true else m) 0#32

/-- A write of `v` to the register at `o` (R194, R210, R314, R347, R354 to R356). -/
def regVerdict (s : State) (w : Writer) (r : RegRow) (o : Nat) (v : Word) : Verdict :=
  let old := s.rd o
  if ¬ ownerOk s o w then .owner
  else if (r.rw ||| r.wo) = 0#32 then .nothing
  else if ¬ w.priv ∧ privOnly s r o then .privilege
  else
    let mask := if isWm o then word (bits v 31 16) else r.rw
    match committing s w (deckGroups s r o) with
    | some g => .deck g
    | none =>
      match (List.range 8).find? (fun g => o = R.SEQ_Gn_HEADS g) with
      | some _ =>
        let keep := if w.priv then 0#32 else heldHeads s old v
        let new := merge old v (mask &&& ~~~keep)
        if keep ≠ 0#32 ∧ new = old then .privilege else .store new
      | none => .store (merge old v mask)

-- Record writes: COMMIT jobs (R324) and the loader.

/-- A record of a COMMIT job: target and value. -/
abbrev Record := Word × Word

/-- Whether a COMMIT record of group `g` keeps the rules of R324. -/
def recordOk (s : State) (g : Nat) (t : Word) : Bool :=
  if bit t 31 then
    match findSpace (bits t 30 24) with
    | some x => x.decked && decide (bits t 23 0 < x.words)
    | none => false
  else
    let o := bits t 23 0
    decide (bits t 30 24 = 0) && decide (o % 4 = 0) && (match findRow o with
      | some r => (r.cls == .group || r.cls == .disruptive) && (deckGroups s r o).contains g
      | none => false)

/-- Apply one COMMIT record (R324): what the job's privilege does not allow is ignored and counted. -/
def applyRecord (w : Writer) (s : State) (e : Record) : State :=
  let t := e.1
  if bit t 31 then
    let code := bits t 30 24
    let a := bits t 23 0
    match findSpace code with
    | none => s
    | some x =>
      if ¬ w.priv ∧ ¬ x.writeOpen then denyPriv s w.m w.job (logOfSpace code a)
      else match committing s w (wordGroups s [] code a) with
        | some g => denyDeck s g (code == Space.RECKON || code == Space.LSET)
        | none => storeDeckWord s code a e.2
  else
    let o := bits t 23 0
    match findRow o with
    | none => s
    | some r =>
      match regVerdict s w r o e.2 with
      | .store v => storeDeckReg (s.wr o v) r o v
      | .privilege => denyPriv s w.m w.job (logOfReg o)
      | .deck g => denyDeck s g false
      | _ => s

end Sys2Proof.Machine
end

