-- ==== Sys2Proof/Machine/Queues.lean ====
section
/-!
DEFINITION. The work queues (12_work_queues.md): doorbells, the producer index, entries and chains, the jobs and their
outcomes, what a reset or a fault does to a job.
-/
namespace Sys2Proof.Machine

-- Entries (R321 to R323).

/-- Entry count E of a FIRST entry; none when a count field is out of range or the type is unknown (R323). -/
def entryCount (e : List Byte) : Option Nat :=
  match entryType e with
  | 1 => let n := le e 20 2; if n ≤ 24575 then some (1 + ceilDiv (n - 5) 6) else none
  | 4 => let n := le e 18 2; if 1 ≤ n ∧ n ≤ 2047 then some (1 + ceilDiv (n - 1) 2) else none
  | 8 => let n := byteAt e 19; if 1 ≤ n ∧ n ≤ 16 then some (1 + n) else none
  | 9 => let n := le e 18 2; if 1 ≤ n ∧ n ≤ 512 ∧ le e 16 2 + n ≤ 512 then some (1 + ceilDiv (n - 4) 6) else none
  | t => if 1 ≤ t ∧ t ≤ 10 then some 1 else none

/-- Whether a type is in R323. -/
def typeKnown (t : Nat) : Bool := decide (1 ≤ t ∧ t ≤ 10)

/-- Bytes 16 to 63 of an entry that R323 leaves zero: offset and length; `first` for the FIRST entry. -/
def zeroFields (t : Nat) (first : Bool) : List (Nat × Nat) :=
  if first then match t with
    | 1 => [(17, 1), (22, 2)]
    | 2 => [(23, 9)]
    | 3 => [(18, 46)]
    | 4 => [(20, 20), (56, 8)]
    | 5 => [(26, 38)]
    | 6 => [(23, 9), (48, 16)]
    | 7 => [(22, 42)]
    | 8 => [(20, 4), (32, 32)]
    | 9 => [(20, 12)]
    | _ => [(18, 14)]
  else match t with
    | 4 => [(32, 8), (56, 8)]
    | 8 => [(48, 16)]
    | _ => []

/-- Zero fields of an entry: FLAGS[7:3], the completion fields, and those of its type (R321, R323). -/
def entryClean (t : Nat) (first : Bool) (e : List Byte) : Bool :=
  decide (byteAt e 1 < 8) && ([(2, 2), (8, 8)] ++ zeroFields t first).all (fun f => allZero (slice e f.1 f.2))

/-- The parameter slots of a job, FIRST entry on: its records, segments or results. -/
def jobSlots (j : Job) (size firstAt : Nat) : List (List Byte) :=
  let cut (e : List Byte) (a : Nat) : List (List Byte) :=
    (List.range ((64 - a) / size)).map (fun i => slice e (a + size * i) size)
  match j.entries with
  | [] => []
  | e :: rest => cut e firstAt ++ rest.flatMap (fun d => cut d 16)

/-- Records of a COMMIT job (R323, R324), and segments of a SURFACE_UPLOAD (R325), all slots. -/
def commitSlots (j : Job) : List (List Byte) := jobSlots j 8 24
def uploadSlots (j : Job) : List (List Byte) := jobSlots j 24 40

/-- The first entry of a job. -/
def Job.head (j : Job) : List Byte := j.entries.headD []

/-- Slots in use of a job. -/
def commitRecords (j : Job) : List Record :=
  ((commitSlots j).take (le j.head 20 2)).map (fun r => (word (le r 0 4), word (le r 4 4)))
def uploadSegments (j : Job) : List (List Byte) := (uploadSlots j).take (le j.head 18 2)

/-- The fields of a whole chain (R322 step 5): zero fields, unused slots, and value ranges. -/
def fieldsOk (j : Job) : Bool :=
  let e := j.head
  entryClean j.typ true e && (j.entries.drop 1).all (entryClean j.typ false) && match j.typ with
    | 1 => decide (byteAt e 16 ≤ 7 ∧ 1 ≤ le e 18 2) && ((commitSlots j).drop (le e 20 2)).all allZero
    | 4 => ((uploadSlots j).drop (le e 18 2)).all allZero && (uploadSegments j).all (fun g => decide (1 ≤ le g 2 2))
    | 5 => decide (1 ≤ le e 24 2)
    | 6 => decide (1 ≤ le e 20 2 ∧ 1 ≤ byteAt e 22 ∧ byteAt e 22 ≤ 16)
    | 7 => decide (byteAt e 16 ≤ 31 ∧ byteAt e 17 ≤ 3 ∧ 1 ≤ le e 20 2)
    | 8 => decide (byteAt e 18 ≤ 7)
    | _ => true

-- Doorbells and the producer index (R318, R319).

/-- A doorbell of queue `q` (R318, R333, R337). -/
def ringDoorbell (s : State) (q : Nat) : State :=
  let x := s.queue q
  if ¬ bit (s.cfg (R.HWQ_Qnn_CFG q)) 31 then s.setFlag (R.HWQ_Qnn_STAT q) 3
  else if x.stopping then s
  else pollQueue (s.setQueue q { x with bell := true }) q

/-- A producer index read is judged (R319): an invalid one fetches nothing. -/
def takeIndex (s : State) (q : Nat) (p : Word) : State :=
  let x := s.queue q
  let cons := s.rd (R.HWQ_Qnn_CONS q)
  if (p - cons).toNat ≤ ringSize s q then pollQueue (s.setQueue q { x with reading := false, prod := p }) q
  else
    let s1 := s.setQueue q { x with reading := false, prod := cons }
    pollQueue (raiseQ (s1.setFlag (R.HWQ_Qnn_STAT q) 0) 282 q) q

/-- A read of host memory by a queue's owner leaves the device; none without an owner or with Bus Master Enable clear. -/
def queueHostRead (s : State) (q addr len : Nat) : Option State :=
  match queueOwner s q with
  | some k => if s.busMaster k then some (s.emit (.hostRead k addr len)) else none
  | none => none

/-- PROD_INDEX_READ (R318, R319): a board queue's index is in HWQ_Qnn_PROD, a memory queue's in host memory. -/
def prodRead (s : State) (q : Nat) (host : HostRead) : State :=
  let x := s.queue q
  if ¬ x.reading ∨ ¬ queueFetches s q then s
  else if boardQueue q then takeIndex s q (s.cfg (R.HWQ_Qnn_PROD q))
  else
    let failed (s : State) : State := pollQueue ((s.setQueue q { x with reading := false }).setFlag (R.HWQ_Qnn_STAT q) 4) q
    match queueHostRead s q (hostAddr (s.cfg (R.HWQ_Qnn_IDX_LO q)) (s.cfg (R.HWQ_Qnn_IDX_HI q))) 4 with
    | none => failed s
    | some s1 => match host with
      | .ok data => let p := word (leNat data); takeIndex (s1.wr (R.HWQ_Qnn_PROD q) p) q p
      | .error => failed s1

def execProdIndexRead (q : Fin 64) (host : HostRead) (s : State) : Host.Outcome State Fault Refusal :=
  runOn [.queues] s (fun s => prodRead s q (hostExactly 4 host))

-- What a job lets go of.

/-- The fence and the writer of the destination of a line-writing job (R200, R326). -/
def jobDst (j : Job) : Option (Nat × Nat) :=
  match j.typ with
  | 4 => some (le j.head 16 2, writerUpload)
  | 5 => some (le j.head 18 2, writerCopy)
  | 6 => some (le j.head 16 2, writerCopy)
  | 8 => some (le j.head 16 2, writerCopy)
  | _ => none

/-- The group of a COMMIT job. -/
def jobGroup (j : Job) : Nat := byteAt j.head 16

/-- A job gives up what it holds before its end: its place among the waiting commits, its commit's report, its capture, its
fence (R197, R237, R326). A commit in flight goes on without its job. -/
def jobRelease (s : State) (q : Nat) : State :=
  match (s.queue q).job with
  | none => s
  | some j =>
    let g := jobGroup j
    if j.typ = Typ.COMMIT then
      let x := s.group g
      let s1 := s.setGroup g { x with waiters := x.waiters.filter (· ≠ q) }
      match x.commit with
      | some c => if c.job = some q then s1.setGroup g { s1.group g with commit := some { c with job := some 64 } } else s1
      | none => s1
    else if j.typ = Typ.CAPTURE then
      let h := byteAt j.head 16
      match (s.head h).wb.capture with
      | some c => if c.queue = q then
          let s1 := if (s.head h).wb.cur.isSome then wbFail s h else s
          s1.setWb h { (s1.head h).wb with capture := none }
        else s
      | none => s
    else match jobDst j with
      | some (h, w) => if j.wrote then dropFence s h w else s
      | none => s

/-- A job ends before its end with a code. -/
def jobAbort (s : State) (q code : Nat) (quiet : Bool) : State := finishJob (jobRelease s q) q code quiet

/-- Whether the completion of a queue can be written: in QRING, or in the host memory that its owner may write (R337). -/
def completionWritable (s : State) (q : Nat) : Bool :=
  boardQueue q || match queueOwner s q with
    | some k => s.busMaster k
    | none => false

/-- A queue halts (R337): its job is completed with `code` if its completion can be written, and otherwise left neither completed nor
re-run; the queue reads no further entry. -/
def haltQueue (s : State) (q code : Nat) : State :=
  let s1 := s.setFlag (R.HWQ_Qnn_STAT q) 31
  if completionWritable s1 q then jobAbort s1 q code false
  else let s2 := jobRelease s1 q; s2.setQueue q { s2.queue q with job := none }

-- Reading an entry (R320, R322).

/-- Completion of an entry that is no accepted job (R322 step 1). -/
def orphan (s : State) (q : Nat) (index : Word) (e : List Byte) : State :=
  writeCompletion s q index e Code.ORPHAN (bits (s.rd (R.HWQ_Qnn_SEQ q)) 15 0) 1 false false false

/-- Privilege of the jobs of a queue (R314). -/
def queuePriv (s : State) (q : Nat) : Bool :=
  boardQueue q || match queueOwner s q with
    | some k => s.priv (funcMaster k)
    | none => false

/-- Checks after the whole chain is read (R314, R318, R322 step 5): the code that ends the job, none when it may act. -/
def chainVerdict (s : State) (q : Nat) (j : Job) : Option Nat :=
  if ¬ fieldsOk j then some Code.BAD_FIELD
  else if j.typ = Typ.SURFACE_UPLOAD ∧ boardQueue q then some Code.BAD_QUEUE
  else if ¬ s.released ∧ (j.typ = Typ.COMMIT ∨ j.typ = Typ.CAPTURE ∨ j.typ = Typ.OFFLINE_COMPOSE) then some Code.NOT_RELEASED
  else none

/-- The chain ends or goes on after its last entry was read (R322 steps 4 and 5). -/
def chainStep (s : State) (q : Nat) (j : Job) (e : List Byte) : State :=
  let s1 := s.setJob q j
  if j.read < j.want then
    if entryLast e then completeJob s1 q Code.BAD_CHAIN else pollQueue s1 q
  else if ¬ entryLast e then completeJob s1 q Code.BAD_CHAIN
  else match chainVerdict s1 q j with
    | some c => completeJob s1 q c
    | none => s1.setJob q { j with phase := .act }

/-- The FIRST entry of an accepted job has been read (R322 steps 2 and 3). -/
def startChain (s : State) (q : Nat) (j0 : Job) (e : List Byte) : State :=
  let j := { j0 with typ := entryType e, want := (entryCount e).getD 0 }
  if ¬ typeKnown (entryType e) then completeJob (s.setJob q j) q Code.BAD_TYPE
  else match entryCount e with
    | none => completeJob (s.setJob q j) q Code.BAD_FIELD
    | some n => if ringSize s q < n then completeJob (s.setJob q j) q Code.BAD_FIELD else chainStep s q j e

/-- A FIRST entry is accepted as a job (R320, R322). -/
def acceptJob (s : State) (q : Nat) (index : Word) (e : List Byte) : State :=
  let seq := s.rd (R.HWQ_Qnn_SEQ q)
  let s1 := (s.wr (R.HWQ_Qnn_SEQ q) (word ((seq.toNat + 1) % 65536))).bump (R.HWQ_Qnn_JOBS q) 1
  startChain s1 q
    { seq := BitVec.ofNat 16 seq.toNat, typ := 0, entries := [e], read := 1, want := 0, priv := queuePriv s q,
      rerun := false, phase := .chain, index := index, pos := 0, seg := 0, subst := false, wrote := false, voids := 0,
      tables := [], bad := [], units := [], acc := [], held := [], hdone := [], flips := [] } e

/-- A member of a chain has been read; one that starts a job, or is of another type, ends the chain (R322 step 4). -/
def chainEntry (s : State) (q : Nat) (j : Job) (e : List Byte) (keep : State → Job → State) : State :=
  if entryFirst e ∨ entryType e ≠ j.typ then completeJob s q Code.BAD_CHAIN else keep s { j with read := j.read + 1 }

/-- An entry has been read whole (R320, R322). One that was passed before, of a job that runs again, does not move CONS (R335). -/
def takeEntry (s : State) (q : Nat) (e : List Byte) : State :=
  let cons := s.rd (R.HWQ_Qnn_CONS q)
  let pass (s : State) : State := s.wr (R.HWQ_Qnn_CONS q) (cons + 1#32)
  match (s.queue q).job with
  | none => if entryFirst e then acceptJob (pass s) q cons e else pollQueue (orphan (pass s) q cons e) q
  | some j =>
    if j.entries.length ≤ j.read then
      chainEntry s q j e (fun s j => chainStep (pass s) q { j with entries := j.entries ++ [e] } e)
    else
      let j1 := { j with entries := setAt j.entries j.read e }
      if j.read = 0 then startChain s q { j1 with read := 1 } e else chainEntry s q j1 e (fun s j => chainStep s q j e)

/-- A copy of L found uncorrectable is rebuilt from the other (R336). DEDUCED: it is reported, and the queue does not halt. -/
def rebuildL (s : State) (q : Nat) : Option Bool → State
  | none => s
  | some second =>
    let s1 := raise s 290
    let x := s1.queue q
    s1.setQueue q (if second then { x with lastB := x.last } else { x with last := x.lastB })

/-- The words of HWQ state a queue checks as it reads an entry: those of the entry in QRING, or its own word. -/
def entryWords (q a : Nat) : List (Nat × Nat) := (List.range (if boardQueue q then 16 else 1)).map (fun w => (Space.QRING, a + w))

/-- The next entry of a queue that can fetch it is read (R320, R322, R337). -/
def fetchEntry (s : State) (q : Nat) (host : HostRead) (ecc : Ecc) : State :=
  let a := slotAddr s q (nextEntry s q)
  let (inj, s1) := sramReads s 7 0 (entryWords q a)
  let broken : Bool := boardQueue q && (entryWords q a).any (fun w => s.failing.contains (skey w.1 w.2))
  if inj.any (fun u => u.ecc == .ue) then haltQueue (raiseInj s1 290 true) q Code.STATE_LOST
  else if ecc = .ue ∨ broken then haltQueue (raise s1 290) q Code.STATE_LOST
  else if boardQueue q then takeEntry s1 q (qringEntry s1 a)
  else match queueHostRead s1 q a 64 with
    | none => s1.setFlag (R.HWQ_Qnn_STAT q) 4
    | some s2 => match host with
      | .ok data => takeEntry s2 q data
      | .error => s2.setFlag (R.HWQ_Qnn_STAT q) 4

/-- QUEUE_ENTRY_READ (R320, R322, R335 to R337). -/
def entryRead (s : State) (q : Nat) (host : HostRead) (ecc : Ecc) (badL : Option Bool) : State :=
  if ¬ queueFetches s q ∨ (¬ rereads s q ∧ s.rd (R.HWQ_Qnn_CONS q) = (s.queue q).prod) then s
  else fetchEntry (rebuildL s q badL) q host ecc

def execQueueEntryRead (q : Fin 64) (host : HostRead) (ecc : Ecc) (badL : Option Bool) (s : State) : Host.Outcome State Fault Refusal :=
  runOn [.force, .queues, .outputs, .compose] s (fun s => entryRead s q (hostExactly 64 host) ecc badL)

-- Surfaces (R74 to R76, R82).

/-- Jobs that use HBM wait until it is trained and zeroed (R56, R70). -/
def hbmJob (s : State) (q typ : Nat) (p : JobPhase) : Option Job := if s.store.trained then s.jobIn q typ p else none

/-- SURFACE_ALLOC acts (R74, R76, R201). -/
def allocJob (s : State) (q : Nat) (j : Job) : Nat × State :=
  let e := j.head
  let r := allocSurface s (le e 16 2) (le e 18 2) (le e 20 2) (byteAt e 22) (pinRec (slice e 32 32)) q j.seq j.rerun
  if r.1 = Code.OK then (r.1, clearFence r.2 (le e 16 2)) else r

/-- SURFACE_FREE acts (R75, R76, R201, R261): receive frames open in the surface are cut. -/
def freeJob (s : State) (q : Nat) (j : Job) : Nat × State :=
  let h := le j.head 16 2
  let r := freeSurface s h q j.seq j.rerun
  if r.1 ≠ Code.OK then r
  else
    let r1 := if (s.surface h).isSome then freeSurface (cutRxHandle s h) h q j.seq j.rerun else r
    (r1.1, clearFence r1.2 h)

/-- A job that acts in one step. -/
def actOnce (s : State) (q typ : Nat) (f : State → Nat → Job → Nat × State) : State :=
  match hbmJob s q typ .act with
  | none => s
  | some j => let r := f s q j; completeJob r.2 q r.1

def execSurfaceAlloc (q : Fin 64) (s : State) : Host.Outcome State Fault Refusal :=
  runOn [.store, .force, .queues] s (fun s => actOnce s q Typ.SURFACE_ALLOC allocJob)

def execSurfaceFree (q : Fin 64) (s : State) : Host.Outcome State Fault Refusal :=
  runOn [.store, .force, .queues, .compose, .receive] s (fun s => actOnce s q Typ.SURFACE_FREE freeJob)

/-- A PIN_HINT job whose carries have ended completes (R82). -/
def settlePin (s : State) (q : Nat) : State :=
  match hbmJob s q Typ.PIN_HINT .running with
  | none => s
  | some j => if pinCarriesLeft s (le j.head 16 2) then s else completeJob s q Code.OK

/-- PIN_HINT acts, and completes when no carry remains (R82). -/
def pinJob (s : State) (q : Nat) : State :=
  match hbmJob s q Typ.PIN_HINT .act with
  | none => settlePin s q
  | some j =>
    let r := pinHintStart s (le j.head 16 2) (pinRec (slice j.head 32 32))
    if r.1 ≠ Code.OK then completeJob r.2 q r.1 else settlePin (r.2.setJob q { j with phase := .running }) q

def execPinHint (q : Fin 64) (s : State) : Host.Outcome State Fault Refusal := runOn [.store, .force, .queues] s (fun s => pinJob s q)

def execStripeCarryCopyDone (s : State) : Host.Outcome State Fault Refusal :=
  runOn [.store, .force, .queues] s (fun s => forEach (List.range 64) (carryCopyDone s) settlePin)

-- COMMIT (R193, R324).

/-- Who makes the writes of a job. -/
def jobWriter (s : State) (q : Nat) (j : Job) : Writer :=
  match queueOwner s q with
  | some k => ⟨funcMaster k, j.priv, true, []⟩
  | none => ⟨.lmp, j.priv, true, []⟩

/-- A COMMIT job takes its group's free slot (R193): behind the writes accepted before (R194), its own are applied in list order, and its
commit is PENDING. -/
def takeJobSlot (s : State) (q : Nat) (j : Job) : State :=
  let g := jobGroup j
  let s := landDecks s g
  let x := s.group g
  let s1 := forEach (commitRecords j) (s.setGroup g { x with waiters := x.waiters.filter (· ≠ q) }) (applyRecord (jobWriter s q j))
  let s2 := takeSlot s1 g (le j.head 18 2) (some q) j.priv
  (s2.setGroup g { s2.group g with lastJob := some (q, j.seq, 0) }).setJob q { j with phase := .commit }

/-- COMMIT_JOB (R193, R324): records are checked, and the slot is taken when it is free and nothing waits for it. A job run again
finds its own commit. -/
def commitJobAct (s : State) (q : Nat) : State :=
  match s.jobIn q Typ.COMMIT .act with
  | none => s
  | some j =>
    let g := jobGroup j
    let x := s.group g
    match x.lastJob with
    | some (lq, ls, st) =>
      if j.rerun ∧ lq = q ∧ ls = j.seq then
        if st = 0 then s.setJob q { j with phase := .commit } else completeJob s q (finalCode st)
      else begin_ j g x
    | none => begin_ j g x
where
  begin_ (j : Job) (g : Nat) (x : Group) : State :=
    if ¬ (commitRecords j).all (fun r => recordOk s g r.1) then completeJob s q Code.BAD_WRITE
    else if x.commit.isNone ∧ x.waiters = [] then takeJobSlot s q j
    else (s.setGroup g { x with waiters := x.waiters ++ [q] }).setJob q { j with phase := .slot }

def execCommitJob (q : Fin 64) (s : State) : Host.Outcome State Fault Refusal := runOn [.force, .masters, .queues, .compose] s (fun s => commitJobAct s q)

/-- COMMIT_JOB_SLOT_TAKEN (R193): the job that has waited longest takes the freed slot. -/
def slotTaken (s : State) (g : Nat) : State :=
  let x := s.group g
  match x.waiters with
  | [] => s
  | q :: _ =>
    if x.commit.isSome then s
    else match s.jobIn q Typ.COMMIT .slot with
      | some j => takeJobSlot s q j
      | none => s.setGroup g { x with waiters := x.waiters.drop 1 }

def execCommitJobSlotTaken (g : Fin 8) (s : State) : Host.Outcome State Fault Refusal := runOn [.force, .masters, .queues, .compose] s (fun s => slotTaken s g)

-- CAPTURE (R237).

/-- CAPTURE acts: outcomes checked in order, then the head's write-back channel is taken. -/
def captureJob (s : State) (q : Nat) : State :=
  match hbmJob s q Typ.CAPTURE .act with
  | none => s
  | some j =>
    let e := j.head
    let r := captureStart s q (byteAt e 16) (le e 18 2) (byteAt e 17) (le e 20 2)
    if r.1 ≠ 0 then completeJob r.2 q r.1 else r.2.setJob q { j with phase := .running }

def execCapture (q : Fin 64) (s : State) : Host.Outcome State Fault Refusal := runOn [.force, .queues, .outputs] s (fun s => captureJob s q)

-- Jobs that write lines (R325 to R327).

/-- A line of the destination is written; with the first one the fence is taken (R78, R201). -/
def jobWrite (s : State) (q : Nat) (j : Job) (h w i : Nat) (payload : List Byte) (poison : Bool) : State :=
  let s1 := if j.wrote then s else startFence s h w
  (ingestLine s1 h i payload poison).setJob q { j with wrote := true }

/-- A line-writing job has written its last line: the fence is signalled (R201). -/
def jobDone (s : State) (q h w code : Nat) : State := completeJob (signalFence s h w) q code

/-- A line-writing job ends with an error (R326). -/
def jobFail (s : State) (q code : Nat) : State := jobAbort s q code false

/-- Checks of SURFACE_UPLOAD before its first line (R325, R326). -/
def uploadCheck (s : State) (q : Nat) (j : Job) : Option Nat :=
  match s.surface (le j.head 16 2) with
  | none => some Code.BAD_HANDLE
  | some x =>
    if (uploadSegments j).any (fun g => decide (x.lines < le g 0 2 + le g 2 2)) then some Code.RANGE
    else match queueOwner s q with
      | some k => if s.busMaster k then none else some Code.NO_BUS
      | none => some Code.NO_BUS

/-- Host address of the line an upload reads next: SRC_ADDR + (i − LINE0) × STRIDE of its segment (R325). -/
def uploadAddr (g : List Byte) (pos : Nat) : Nat := (le g 8 8 + pos * le g 4 4) % 18446744073709551616

/-- The host reads of an upload's next lines, in order. -/
def uploadLines (q : Nat) : List HostRead → State → State
  | [], s => s
  | r :: rest, s =>
    match s.jobIn q Typ.SURFACE_UPLOAD .running with
    | none => s
    | some j =>
      let h := le j.head 16 2
      let segs := uploadSegments j
      let g := segs.getD j.seg []
      let n := ((s.surface h).map Surface.payload).getD 0
      match queueHostRead s q (uploadAddr g j.pos) n with
      | none => jobFail s q Code.NO_BUS
      | some s0 => match r with
        | .error => jobFail s0 q Code.HOST_READ_ERR
        | .ok data =>
          let s1 := jobWrite s0 q j h writerUpload (le g 0 2 + j.pos) data false
          let last := decide (le g 2 2 ≤ j.pos + 1)
          if last ∧ segs.length ≤ j.seg + 1 then jobDone s1 q h writerUpload Code.OK
          else uploadLines q rest (s1.setJob q { j with wrote := true, pos := if last then 0 else j.pos + 1,
                                                        seg := if last then j.seg + 1 else j.seg })

/-- A line-writing job passes its checks and starts, or ends with the code found. At level CRITICAL no copy, fill or composition
starts (R419). -/
def startLines (s : State) (q typ : Nat) (check : Job → Option Nat) : State :=
  match hbmJob s q typ .act with
  | none => s
  | some j => if 3 ≤ s.health.level ∧ typ ≠ Typ.SURFACE_UPLOAD then s else match check j with
    | some c => jobFail s q c
    | none => s.setJob q { j with phase := .running }

def execSurfaceUpload (q : Fin 64) (lines : List HostRead) (s : State) : Host.Outcome State Fault Refusal :=
  runOn [.store, .force, .queues, .outputs, .compose] s (fun s => uploadLines q lines (startLines s q Typ.SURFACE_UPLOAD (uploadCheck s q)))

/-- Checks of SURFACE_COPY (R326). -/
def copyCheck (s : State) (j : Job) : Option Nat :=
  let e := j.head
  let n := le e 24 2
  match s.surface (le e 16 2), s.surface (le e 18 2) with
  | some x, some y =>
    if x.format ≠ y.format ∨ x.width ≠ y.width ∨ x.height ≠ y.height then some Code.MISMATCH
    else if x.lines < le e 20 2 + n ∨ y.lines < le e 22 2 + n then some Code.RANGE
    else if le e 16 2 = le e 18 2 ∧ le e 20 2 < le e 22 2 + n ∧ le e 22 2 < le e 20 2 + n then some Code.RANGE
    else none
  | _, _ => some Code.BAD_HANDLE

/-- A read of a copy has answered VOID: it is repeated, three times at most (R40). -/
def copyVoid (s : State) (q : Nat) (j : Job) : State :=
  if 3 ≤ j.voids then jobFail s q Code.VOID_READ else s.setJob q { j with voids := j.voids + 1 }

/-- A VOID fetch bead reaches HWQ for the read of a queue's job (R40). -/
def jobVoid (s : State) (q : Nat) : State :=
  match s.jobIn q Typ.SURFACE_COPY .running with
  | none => s
  | some j => copyVoid s q j

/-- SURFACE_COPY copies its next lines (R78, R326); a read that answers VOID is repeated, three times at most (R40). -/
def copyLines (q : Nat) : Nat → State → State
  | 0, s => s
  | n + 1, s =>
    match s.jobIn q Typ.SURFACE_COPY .running with
    | none => s
    | some j =>
      let e := j.head
      let dst := le e 18 2
      let r := fetchLine s (le e 16 2) (le e 20 2 + j.pos) []
      if r.1 = .void then copyVoid r.2.2 q j
      else
        let s1 := jobWrite r.2.2 q j dst writerCopy (le e 22 2 + j.pos) r.2.1 (decide (r.1 ≠ .good))
        if le e 24 2 ≤ j.pos + 1 then jobDone s1 q dst writerCopy Code.OK
        else copyLines q n (s1.setJob q { j with wrote := true, pos := j.pos + 1, voids := 0 })

def execSurfaceCopy (q : Fin 64) (n : Nat) (s : State) : Host.Outcome State Fault Refusal :=
  runOn [.store, .force, .queues, .outputs, .compose] s (fun s => copyLines q n (startLines s q Typ.SURFACE_COPY (copyCheck s)))

/-- Checks of FILL (R326). -/
def fillCheck (s : State) (j : Job) : Option Nat :=
  match s.surface (le j.head 16 2) with
  | none => some Code.BAD_HANDLE
  | some x => if x.lines < le j.head 18 2 + le j.head 20 2 then some Code.RANGE else none

/-- Payload of a filled line: byte j is PATTERN[j mod PLEN] (R326). -/
def fillPayload (e : List Byte) (n : Nat) : List Byte :=
  (List.range n).map (fun i => e.getD (32 + i % max 1 (byteAt e 22)) 0#8)

/-- FILL writes its next lines (R326). -/
def fillLines (q : Nat) : Nat → State → State
  | 0, s => s
  | n + 1, s =>
    match s.jobIn q Typ.FILL .running with
    | none => s
    | some j =>
      let e := j.head
      let h := le e 16 2
      match s.surface h with
      | none => jobFail s q Code.BAD_HANDLE
      | some x =>
        let s1 := jobWrite s q j h writerCopy (le e 18 2 + j.pos) (fillPayload e x.payload) false
        if le e 20 2 ≤ j.pos + 1 then jobDone s1 q h writerCopy Code.OK
        else fillLines q n (s1.setJob q { j with wrote := true, pos := j.pos + 1 })

def execFill (q : Fin 64) (n : Nat) (s : State) : Host.Outcome State Fault Refusal :=
  runOn [.store, .force, .queues, .outputs, .compose] s (fun s => fillLines q n (startLines s q Typ.FILL (fillCheck s)))

-- OFFLINE_COMPOSE (R327).

/-- Layers of an OFFLINE_COMPOSE job in chain order. -/
def offlineDescs (j : Job) : List Desc := (j.entries.drop 1).map entryDesc

/-- Checks of OFFLINE_COMPOSE (R99, R327). -/
def offlineCheck (s : State) (j : Job) : Option Nat :=
  match s.surface (le j.head 16 2) with
  | none => some Code.BAD_HANDLE
  | some x =>
    if x.format ≠ 0x04 then some Code.BAD_FORMAT
    else if (offlineDescs j).all (fun d => d.enable && decide (d.srcMode = 0 ∧ d.ring = 0) && descOk s d) then none
    else some Code.BAD_LAYER

/-- Units that the jobs of other queues compose with. -/
def unitsOfOthers (s : State) (q : Nat) : List Nat :=
  (List.range 64).flatMap (fun p => if p = q then [] else match (s.queue p).job with
    | some j => j.units
    | none => [])

/-- Tiles, and scalers, on which the job of queue `q` may compose: outside every pool in use (R154, R155, R327, R456). -/
def offlineTiles (s : State) (q : Nat) : List Nat :=
  let busy := unitsOfOthers s q
  ((tilePool s 8).map (tileUnit s)).filter (fun u => !unitVoid s u && !busy.contains u)
def offlineScalers (s : State) (q : Nat) : List Nat :=
  let busy := unitsOfOthers s q
  ((scalerPool s 8).map (scalerUnit s)).filter (fun u => !unitVoid s u && !busy.contains u)

/-- Whether a carry of the unit has switched and not ended: what was begun on it finishes there (R407). -/
def oldUnit (s : State) (u : Nat) : Bool := (s.carry (unitClass u)).any (fun x => x.switched && x.unit == u)

/-- The tile and scaler a job composes its next line with: those it has, while they stay free, else free ones, which are woken
(R327, R413). Which ones of several is a free value. -/
def offlineUnits (s : State) (q : Nat) (j : Job) : Option (List Nat × State) :=
  let ts := offlineTiles s q
  let ls := offlineScalers s q
  if j.units ≠ [] ∧ j.units.all (fun u => ts.contains u || ls.contains u || oldUnit s u) then some (j.units, s)
  else if ts = [] ∨ ls = [] then none
  else
    let us := [ts.getD ((Config.freeWord s.fresh).toNat % ts.length) 0, ls.getD ((Config.freeWord (s.fresh + 1)).toNat % ls.length) 0]
    some (us, forEach us s.bumpFresh.bumpFresh (fun s u => if (s.metered u).eff = 0 then setReqEff s u 1 else s))

/-- The units of a queue's OFFLINE_COMPOSE job are released and gated (R419). -/
def releaseUnits (s : State) (q : Nat) : State :=
  match (s.queue q).job with
  | none => s
  | some j => forEach j.units (s.setJob q { j with units := [] }) (fun s u => if inService s u then setReqEff s u 0 else s)

/-- Tile, and physical scaler, of a job. -/
def Job.tile (j : Job) : Nat := j.units.getD 0 416
def Job.scaler (j : Job) : Nat := j.units.getD 1 450 - 450

/-- The decks an OFFLINE_COMPOSE job composes with: the tables its group had when it started. -/
def offlineView (s : State) (j : Job) : DeckView := ⟨s.unit, j.tables, s.spaces, j.bad⟩

/-- The group tables as they stand, for a job that starts (R327). -/
def offlineTables (s : State) (g : Nat) : KMap Word :=
  krange s.live (skey Space.LAYER_DESC (groupTables g)) (skey Space.LAYER_DESC (groupTables g + 0x400))
    ++ krange s.live (skey Space.LUT_EOTF (4096 * g)) (skey Space.LUT_EOTF (4096 * g + 4096))

/-- A destination line leaves the scaler of an OFFLINE_COMPOSE VOID (R125, R143). -/
def offlineVoid (s : State) : State := raise (s.bump R.SCA_VOID_OUT_CNT 1) 60

/-- Bits changed in the beads of the present line of the layer in progress, at a receiver (R26). -/
def Job.flipsAt (j : Job) (at_ : OfflineStage) : List (Nat × Bead) := (j.flips.filter (fun e => e.1 == (at_, j.seg))).map (·.2)

/-- Of changes by bead, those in the `n` beads from `k` on, counted from there. -/
def flipsFrom (k n : Nat) (flips : List (Nat × Bead)) : List (Nat × Bead) :=
  (flips.filter (fun f => decide (k ≤ f.1 ∧ f.1 < k + n))).map (fun f => (f.1 - k, f.2))

/-- The stored lines a destination line of the layer needs: those the scaler holds, and the others as they are fetched now, their beads counted
through (R124, R125). -/
def offlineFetch (s : State) (j : Job) (d : Desc) (x : Surface) (want : List Nat) : List (Nat × Option (List Byte)) × State :=
  let n := x.pitch / 16
  (want.filter (fun i => !j.held.any (fun e => e.1 == i))).zipIdx.foldl (fun (a : List (Nat × Option (List Byte)) × State) e =>
    let r := fetchLine a.2 d.handle e.1 (flipsFrom (n * e.2) n (j.flipsAt .scaler ++ j.flipsAt .fetchSwitch))
    (a.1 ++ [(e.1, if r.1 = .good then some r.2.1 else none)], r.2.2)) (j.held.filter (fun e => want.contains e.1), s)

/-- A line of the layer in progress at the scaler (R124 to R135): its samples, VOID where a stored line is not GOOD or a bank word it uses
fails (R138), and the job with what the scaler holds now. -/
def offlineScale (us : List Upset) (s : State) (j : Job) (d : Desc) (x0 x1 ln : Nat) (first : Bool) : List LayerPx × Job × State :=
  let void := List.replicate (x1 - x0) none
  match s.surface d.handle with
  | none => (void, j, offlineVoid s)
  | some x =>
    let want := linesFor d x ln
    let j0 := if first then { j with held := [], hdone := [] } else j
    let (held, s1) := offlineFetch s j0 d x want
    let (hit, s2) := coefUpsets s1 j.scaler (us.filter (fun u => u.space == Space.COEF)) ((lineCoefs d x x0 x1 ln).take 15)
    let j1 := { j0 with held := held }
    let line (n : Nat) : List Byte := ((held.find? (fun e => e.1 == n)).bind (·.2)).getD []
    if held.any (fun e => e.2.isNone) || coefFails { s2 with failing := hit.map (coefKey j.scaler) ++ s2.failing } j.scaler d x x0 x1 ln then
      (void, j1, offlineVoid s2)
    else
      let (px, clips) := (scaleLine s2 d x line x0 x1 ln j0.hdone).run 0
      (px.map some, { j1 with hdone := (j0.hdone ++ want).eraseDups }, countClip s2 clips)

/-- The layer in progress at the next line of the destination: its samples at the tile, none where it does not cover the line; what it finds
uncorrectable is not used (R112, R119). -/
def offlineLayer (v : DeckView) (us : List Upset) (s : State) (j : Job) (d : Desc) (w ht : Nat) : Option LayAt × Job × State :=
  let g := byteAt j.head 18
  match clipBox d w ht with
  | none => (none, j, s)
  | some (x0, x1, y0, y1) =>
    if j.pos < y0 ∨ y1 ≤ j.pos then (none, j, s)
    else
      let f := if d.kind = 1 then 0 else ((s.surface d.handle).map Surface.format).getD 0
      let words := (layerWords g 0 f d).drop 8
      let (bad, s1) := tableUpsets s (us.filter (fun u => u.space != Space.COEF)) (words.map (fun k => (k / 16777216, k % 16777216)))
      let v := v.withBad bad
      let mk (px : List LayerPx) : LayAt :=
        ⟨0, d, f, x0, px.map (fun p => match p with
          | none => none
          | some b => if words.any v.bad.contains ∨ sampleFails v g f d (unpack4 b) then none else some b),
          if fallbackFails v g d then 3 else 2, [], false⟩
      if d.kind = 1 then (some (mk (List.replicate (x1 - x0) (some 0#64))), j, s1)
      else
        let r := offlineScale us s1 j d x0 x1 ((j.pos : Int) - d.dstY).toNat (j.pos == y0)
        let flips := (j.flipsAt .tile).map (fun p => (p.1 + x0 / 2, p.2))
        let got := layerArrives r.2.2 ((servedLogical s (450 + j.scaler)).getD 0) x0 false flips r.1
        (some (mk got), r.2.1, r.2.2.drawn (got.length + x0))

/-- Start value of an offline pixel (R327 item 1). -/
def offlineStart (e : List Byte) : Px :=
  ⟨hSat (le e 24 2), hSat (le e 26 2), hSat (le e 28 2), hMin (hSat (le e 30 2)) hOne⟩

/-- The layer in progress goes over the next line of the destination: the line, and the job and state after it. -/
def offlineLine (us : List Upset) (s : State) (j : Job) (d : Desc) (w ht : Nat) : List (BitVec 64) × Job × State :=
  let v := offlineView s j
  let back := if j.seg = 0 then List.replicate w (offlineStart j.head) else (j.acc.getD j.pos []).map unpack4
  let (lay, j1, s1) := offlineLayer v us s j d w ht
  let (px, sat) := (lay.toList.foldlM (composeOver v (byteAt j.head 18)) back).run 0
  (px.map pack4, { j1 with subst := j1.subst || lay.any LayAt.holed, flips := [] }, countSat s1 sat)

/-- A job starts composing (R327): with the tables its group has now. An uncorrectable word that it meets stays so for it. -/
def offlineStarts (s : State) (us : List Upset) (j : Job) : Job :=
  let j1 := if j.seg = 0 ∧ j.pos = 0 then { j with tables := offlineTables s (byteAt j.head 18), bad := s.failing, acc := [], held := [], hdone := [] } else j
  { j1 with bad := brokenWords (us.filter (fun u => u.space != Space.COEF)) ++ j1.bad }

/-- A line of a layer is done. Between layers the units are released at THROTTLE (R419). -/
def offlineNext (s : State) (q : Nat) (j : Job) (px : List (BitVec 64)) (ht : Nat) : State :=
  let j1 := { j with acc := setAt (if j.seg = 0 then j.acc ++ [[]] else j.acc) j.pos px }
  if j.pos + 1 < ht then s.setJob q { j1 with pos := j.pos + 1 }
  else
    let s1 := s.setJob q { j1 with pos := 0, seg := j.seg + 1, held := [], hdone := [] }
    if 2 ≤ s.health.level then releaseUnits s1 q else s1

/-- OFFLINE_COMPOSE goes over its next lines, layer by layer (R327): the last layer writes the destination. From THROTTLE on no further layer
starts (R419), and none without free units. DESIGN CHOICE: a layer goes over the whole destination before the next one starts. -/
def offlineLines (q : Nat) (us : List Upset) : Nat → State → State
  | 0, s => s
  | n + 1, s =>
    match s.jobIn q Typ.OFFLINE_COMPOSE .running with
    | none => s
    | some j =>
      let h := le j.head 16 2
      match s.surface h, (offlineDescs j)[j.seg]? with
      | some x, some d =>
        if j.pos = 0 ∧ 2 ≤ s.health.level then s
        else match offlineUnits s q j with
        | none => s
        | some (units, s0) =>
          let (px, j1, s1) := offlineLine us s0 { offlineStarts s0 us j with units := units } d x.width x.height
          if j.seg + 1 < (offlineDescs j).length then offlineLines q [] n (offlineNext s1 q j1 px x.height)
          else
            let s2 := jobWrite s1 q j1 h writerCopy j.pos (px.flatMap (fun p => leBytes 8 p.toNat)) (rodVoid s1 (tileRod ((servedLogical s1 j1.tile).getD 0)))
            if x.height ≤ j.pos + 1 then jobDone s2 q h writerCopy (if j1.subst then Code.OK_SUBST else Code.OK)
            else offlineLines q [] n (s2.setJob q { j1 with wrote := true, pos := j.pos + 1 })
      | _, _ => jobFail s q Code.BAD_HANDLE

-- TALLY_QUERY (R328).

/-- Result of one region (R328), its words of TALLY_STAT checked as they are read (R391). -/
def tallyResult (s : State) (r : Nat) : List Byte × State :=
  let (w, s1) := statRead s r 1
  let (t, s2) := statRead s1 r 0
  (leBytes 4 t.toNat ++ leBytes 2 (bits w 31 16) ++ leBytes 1 (bits w 15 12)
    ++ leBytes 1 ((if bit w 11 && regionEn (s.lvw Space.TALLY_REGION (4 * r)) then 128 else 0) + (if bit w 10 then 64 else 0) + bits w 9 8 * 16), s2)

/-- TALLY_QUERY acts: results go to the job's own slots; an ordinary function's are zero. `us`: words of TALLY_STAT that read with an error. -/
def tallyJob (us : List Upset) (s : State) (q : Nat) (j : Job) : Nat × State :=
  let r0 := le j.head 16 2
  let n := le j.head 18 2
  let s1 := forEach (List.range n) s (fun s i =>
    let r := if j.priv then tallyResult (statUpsets s (r0 + i) us) (r0 + i) else (leBytes 8 0, s)
    if i < 4 then writeSlot r.2 q j.index (32 + 8 * i) r.1
    else writeSlot r.2 q (j.index + word (1 + (i - 4) / 6)) (16 + 8 * ((i - 4) % 6)) r.1)
  if j.priv then (Code.OK, s1)
  else (Code.PRIV_DENIED, denyPriv s1 (jobWriter s q j).m true (logOfSpace Space.TALLY_STAT (4 * r0)))

def execTallyQuery (q : Fin 64) (upsets : List Upset) (s : State) : Host.Outcome State Fault Refusal :=
  runOn [.force, .queues] s (fun s => match s.jobIn q Typ.TALLY_QUERY .act with
    | none => s
    | some j => let r := tallyJob (upsets.filter (fun u => u.space == Space.TALLY_STAT)) s q j; completeJob r.2 q r.1)

-- Jobs under resets and faults (R333 to R337).

/-- A COMMIT job has a commit of its own: it waits for its end, or it ran before and made one (R193, R335). -/
def ownsCommit (s : State) (q : Nat) (j : Job) : Bool :=
  j.typ == Typ.COMMIT && (decide (j.phase = .commit) || (j.rerun && match (s.group (jobGroup j)).lastJob with
    | some (lq, ls, _) => lq == q && ls == j.seq
    | none => false))

/-- A COMMIT job whose slot is not taken ends at a reset (R334). DEDUCED: one whose chain is not read whole too, when its group is one of the
eight. -/
def cutCommit (s : State) (q : Nat) (j : Job) : State :=
  let g := jobGroup j
  let s1 := jobAbort s q Code.CUT true
  if g < 8 then raise (s1.bump (R.SEQ_Gn_EXPIRED g) 1) (8 + 2 * g) else s1

/-- A job in progress at a reset ends (R334). -/
def endAtReset (s : State) (q : Nat) : State :=
  match (s.queue q).job with
  | none => s
  | some j =>
    let once (f : State → Nat → Job → Nat × State) : State := let r := f s q j; finishJob r.2 q r.1 true
    if ownsCommit s q j then jobAbort s q Code.DETACHED true
    else if j.typ = Typ.COMMIT then cutCommit s q j
    else if j.phase = .chain then jobAbort s q Code.CUT true
    else match j.typ with
      | 2 => once allocJob
      | 3 => once freeJob
      | 9 => once (tallyJob [])
      | 10 =>
        let r := if j.phase = .act then pinHintStart s (le j.head 16 2) (pinRec (slice j.head 32 32)) else (Code.OK, s)
        if r.1 ≠ Code.OK then finishJob r.2 q r.1 true
        else finishJob r.2 q (if pinCarriesLeft r.2 (le j.head 16 2) then Code.CUT else Code.OK) true
      | _ => jobAbort s q Code.CUT true

/-- A bound job is run again from its FIRST entry, if it is the one after L (R335, R336): its chain is read again from there. A commit it
has made goes on (R193); a place it had among the waiting commits is given up. -/
def rerunJob (s : State) (q : Nat) : State :=
  match (s.queue q).job with
  | none => s
  | some j =>
    if j.phase = .chain ∨ j.seq ≠ (s.queue q).last + 1 then s
    else
      let g := jobGroup j
      let s1 := if j.typ = Typ.CAPTURE then jobRelease s q
        else if j.typ = Typ.COMMIT then s.setGroup g { s.group g with waiters := (s.group g).waiters.filter (· ≠ q) }
        else s
      raiseQ ((s1.setJob q { j with rerun := true, phase := .chain, read := 0, pos := 0, seg := 0, subst := false, voids := 0,
                                    units := [], acc := [], held := [], hdone := [], flips := [] }).bump (R.HWQ_Qnn_RERUNS q) 1) 284 q

/-- Surfaces that a job writes, places or frees: its destinations (R335). -/
def jobTargets (j : Job) : List Nat :=
  let e := j.head
  match j.typ with
  | 2 => [le e 16 2]
  | 3 => [le e 16 2]
  | 7 => (List.range (byteAt e 17 + 1)).map (· + le e 18 2)
  | 10 => [le e 16 2]
  | _ => match jobDst j with
    | some (h, _) => [h]
    | none => []

/-- Whether a job uses a pseudo-channel of its destination (R335). -/
def jobOnPc (s : State) (j : Job) (p : Nat) : Bool := (jobTargets j).any (fun h => (holders s h).contains p)

/-- Jobs that a drained, carried or faulty unit serves: they run again, or, when this fault is the second of two that are
simultaneous, are completed with DOUBLE_FAULT and their queues halt (R335, R337). A job whose chain is still read uses no unit yet. -/
def unitJobs (s : State) (second : Bool) (bound : Nat → Job → Bool) : State :=
  forEach (List.range 64) s (fun s q =>
    match (s.queue q).job with
    | none => s
    | some j => if j.phase ≠ .chain ∧ bound q j then (if second then haltQueue s q Code.DOUBLE_FAULT else rerunJob s q) else s)

/-- Whether a part fault beyond the first is open (R12). -/
def secondFault (s : State) : Bool := decide (2 ≤ s.col.faults.length)

/-- After something that can drain or fail pseudo-channels: jobs whose destinations they hold (R335, R337). -/
def pcJobs (f : State → State) (s : State) : State :=
  let t := f s
  let hit := (List.range 128).filter (fun p => decide ((s.pc p).state ≠ (t.pc p).state) &&
    decide ((t.pc p).state = .draining ∨ (t.pc p).state = .failed ∨ ((s.pc p).state = .active ∧ (t.pc p).state = .retired)))
  if hit = [] then t
  else unitJobs t (decide (s.col.faults.length < t.col.faults.length) && secondFault t) (fun _ j => hit.any (jobOnPc s j))

def execPatrolScrubRead (pc : Fin 128) (site : WordSite) (ecc : Ecc) (s : State) : Host.Outcome State Fault Refusal :=
  runOn [.store, .force, .queues, .outputs, .compose] s (pcJobs (fun s => patrolRead s pc site ecc))

def execMemoryWordGrant (pc : Fin 128) (ready : Ready) (runAhead : Bool) (site : WordSite) (ecc : Ecc) (s : State) :
    Host.Outcome State Fault Refusal :=
  runOn [.store, .force, .queues, .outputs, .compose] s (pcJobs (fun s => wordGrant s pc ready runAhead site ecc))

def execPcRetrainTimeout (pc : Fin 128) (s : State) : Host.Outcome State Fault Refusal :=
  runOn [.store, .force, .queues, .outputs, .compose] s (pcJobs (fun s => retrainTimeout s pc))

end Sys2Proof.Machine
end

