-- ==== Sys2Proof/Machine/HostLink.lean ====
section
/-!
DEFINITION. The host side of HWQ (12_work_queues.md): resets of functions and of the board queues, event rings, MSI-X, the surface
aperture, the PCIe link, and the rules for HWQ_Qnn_CFG and HWQ_QMAPn.
-/
namespace Sys2Proof.Machine

-- Resets (R332 to R334).

/-- Queues of an owner: 0 the device, 1 PF0, 2 PF1 (R314). -/
def ownedQueues (s : State) (owner : Nat) : List Nat :=
  (List.range 64).filter (fun q => if owner = 0 then boardQueue q else queueOwner s q == some (owner - 1))

/-- Both views of a register get a value that the device gives it. -/
def State.force (s : State) (o : Nat) (v : Word) : State := (s.wr o v).setCfg o v

/-- Step 1 of R333. -/
def startReset (s : State) (owner : Nat) (flr : Bool) : State :=
  let s1 := raise s 285
  let s2 := forEach (ownedQueues s1 owner) s1 (fun s q =>
    s.setQueue q { s.queue q with stopping := true, reading := false, bell := false })
  if owner = 0 then s2
  else
    let k := owner - 1
    let s3 := forEach (List.range 16) s2 (fun s w =>
      let o := R.HWQ_Fk_AWww_CTRL k w
      s.force o (setBit (s.rd o) 31 false))
    s3.setFunc k { s3.func k with flr := (s3.func k).flr || flr, resetting := true }

def execPcieFlr (pf1 : Bool) (s : State) : Host.Outcome State Fault Refusal :=
  runOn [.force, .queues] s (fun s => startReset s (if pf1 then 2 else 1) true)

/-- A function-level reset ends as PCIe Base 5.0 requires: the configuration space and the MSI-X table are at reset (R333 step 4), but for
Max_Payload_Size, the ASPM control and the sticky error status, which such a reset keeps (PRESUMED from R8's standard). -/
def Func.flrDone (f : Func) : Func :=
  { f with cfg := { PciCfg.reset with mps := f.cfg.mps, aspmL1 := f.cfg.aspmL1, aer := f.cfg.aer }, unmasked := [], table := [], pba := [] }

/-- Steps 2 to 4 of R333: jobs end, EN is cleared, and a function-level reset resets the configuration. A halted queue may run
again once enabled (R332). -/
def resetJobsEnded (s : State) (owner : Nat) : State :=
  let qs := (ownedQueues s owner).filter (fun q => (s.queue q).stopping)
  let s1 := forEach qs s endAtReset
  let s2 := forEach qs s1 (fun s q =>
    let o := R.HWQ_Qnn_CFG q
    let st := R.HWQ_Qnn_STAT q
    ((s.force o (setBit (s.rd o) 31 false)).wr st (setBit (s.rd st) 31 false)).setQueue q
      { s.queue q with stopping := false, bell := false, reading := false })
  if owner = 0 then s2
  else
    let k := owner - 1
    let f := s2.func k
    if ¬ f.resetting then s2
    else
      let o := R.HWQ_Fk_EVR_CFG k
      let s3 := s2.force o (setBit (s2.rd o) 31 false)
      let f3 := { s3.func k with resetting := false, flr := false, covered := false }
      s3.setFunc k (if f.flr then f3.flrDone else f3)

def execFuncResetJobsEnded (owner : Fin 3) (s : State) : Host.Outcome State Fault Refusal :=
  runOn [.store, .force, .queues, .outputs, .compose, .receive] s (fun s => resetJobsEnded s owner)

/-- GLB_FUNC_RESET takes effect (R332, R344). -/
def funcResetEffect (s : State) (v : Word) : State :=
  let one (s : State) (b owner : Nat) : State := if bit v b then startReset s owner false else s
  one (one (one s 0 0) 1 1) 2 2

-- Event rings (R339, R340) and MSI-X (R342).

/-- HWQ_Fk_EVR_CFG takes effect: EN = 1 starts the ring from slot 0. -/
def evrCfgEffect (s : State) (k : Nat) (v : Word) : State :=
  if bit v 31 then (s.wr (R.HWQ_Fk_EVR_PROD k) 0#32).setFunc k { s.func k with phase := true, covered := false } else s

/-- HWQ_Fk_EVR_CONS takes effect: once space returns, losses are reported first (R340). -/
def evrConsEffect (s : State) (k : Nat) : State :=
  if evrOn s k ∧ s.busMaster k then
    let s1 := flushLost s k
    if (s1.func k).lost < (s.func k).lost then evrMessage s1 k else s1
  else s

/-- MSIX_HOLDOFF_EXPIRY (R342): the records posted in the meantime are covered by the next message. -/
def holdoffEnd (s : State) (k : Nat) : State :=
  let f := s.func k
  if ¬ f.holdoff then s
  else
    let s1 := s.setFunc k { f with holdoff := false }
    if f.covered then evrMessage s1 k else s1

def execMsixHoldoffExpiry (k : Fin 2) (s : State) : Host.Outcome State Fault Refusal := runOn [] s (fun s => holdoffEnd s k)

/-- MSI-X vectors of a function (R308). -/
def vectorCount (k : Nat) : Nat := if k = 0 then 96 else 32

/-- Pending messages whose vectors send now are sent (R342). -/
def sendPending (s : State) (k : Nat) : State :=
  let f := s.func k
  if ¬ (f.cfg.msix ∧ f.cfg.busMaster) then s
  else forEach (f.pba.filter f.sends) (s.setFunc k { f with pba := f.pba.filter (fun v => !f.sends v) }) (fun s v => s.emit (.msix k v))

/-- Unsupported Request is logged in the error status of a function, and the logged error raised (R309, R345). -/
def logUnsupported (s : State) (k : Nat) : State :=
  let f := s.func k
  raise (s.setFunc k { f with cfg := { f.cfg with aer := setBit f.cfg.aer 20 true } }) 288

/-- MSIX_UNMASK: the vector's table entry is written unmasked; a message that fell due while it was masked is sent (R308, R342). -/
def unmask (s : State) (k v addr data : Nat) : State :=
  if ¬ (s.func k).cfg.memory then logUnsupported s k
  else if vectorCount k ≤ v then s
  else
    let f := s.func k
    sendPending (s.setFunc k { f with unmasked := if f.unmasked.contains v then f.unmasked else v :: f.unmasked,
                                      table := kset (fun _ => (0, 0)) f.table v (addr, data) }) k

/-- Where BAR4 holds the table entry of vector `v`, and the Pending Bit Array (R308). -/
def msixEntry (v : Nat) : Nat := 16 * v
def msixPba : Nat := 0x8000

/-- A word of BAR4 of a function (R308): of a table entry its address, data and mask bit; of the Pending Bit Array 32 vectors. -/
def bar4Word (s : State) (k off : Nat) : Word :=
  let f := s.func k
  let e := kget (fun _ => (0, 0)) f.table (off / 16)
  if off < msixEntry (vectorCount k) then
    match off % 16 / 4 with
    | 0 => word (e.1 % 4294967296)
    | 1 => word (e.1 / 4294967296)
    | 2 => word e.2
    | _ => if f.unmasked.contains (off / 16) then 0#32 else 1#32
  else if msixPba ≤ off ∧ off < msixPba + vectorCount k / 8 then
    word (((List.range 32).map (fun i => if f.pba.contains (8 * ((off - msixPba) / 4 * 4) + i) then 2 ^ i else 0)).sum)
  else 0#32

def execMsixUnmask (k : Fin 2) (vec : Fin 128) (addr : BitVec 64) (data : Word) (s : State) : Host.Outcome State Fault Refusal :=
  runOn [] s (fun s => unmask s k vec addr.toNat data.toNat)

-- The aperture (R312, R313).

/-- Surface, handle and first byte that an aperture offset of function `k` names (R312). -/
def apSite (s : State) (k off : Nat) : Option (Nat × Surface × Nat) :=
  let w := off / 0x4000000
  let c := s.cfg (R.HWQ_Fk_AWww_CTRL k w)
  if bit c 31 then
    match s.surface (bits c 15 0) with
    | some x => some (bits c 15 0, x, bits (s.cfg (R.HWQ_Fk_AWww_OFF k w)) 31 12 * 4096 + off % 0x4000000)
    | none => none
  else none

/-- Lines that bytes [b, b + n) of a surface touch. -/
def apLines (x : Surface) (b n : Nat) : List Nat := if n = 0 then [] else (List.range ((b + n - 1) / x.pitch + 1 - b / x.pitch)).map (· + b / x.pitch)

/-- A read the aperture cannot serve (R313). -/
def apUnsupported (s : State) (k : Nat) : State := (logUnsupported (s.bump R.HWQ_AP_ERR 1) k).emit (.aperture k [] false)

/-- A VOID fetch bead reaches HWQ for an aperture read of function `k` (R40). -/
def apVoid (s : State) (k : Nat) : State := s.setFunc k { s.func k with apVoids := (s.func k).apVoids + 1 }

/-- APERTURE_READ (R40, R313): each VOID bead met repeats the read, and the fourth makes it fail. A line that no memory answers stays VOID in
every repeat. -/
def apRead (s0 : State) (k off n : Nat) : State :=
  if ¬ (s0.func k).cfg.memory then (logUnsupported s0 k).emit (.aperture k [] false) else
  let voids := (s0.func k).apVoids
  let s := s0.setFunc k { s0.func k with apVoids := 0, apNext := 0 }
  match apSite s k off with
  | none => apUnsupported s k
  | some (h, x, b) =>
    if x.lines * x.pitch < b + n then apUnsupported s k
    else
      let (s1, ok) := (apLines x b n).foldl (fun (a : State × Bool) i =>
        let r := fetchLine a.1 h i []
        (r.2.2, a.2 && decide (r.1 = .good))) (s, decide (voids ≤ 3))
      if ok then s1.emit (.aperture k (s1.bytes h b n) false)
      else (raise (s1.bump R.HWQ_AP_ERR 1) 289).emit (.aperture k (List.replicate n 0xFF#8) true)

def execApertureRead (k : Fin 2) (off : BitVec 30) (len : Nat) (s : State) : Host.Outcome State Fault Refusal :=
  runOn [] s (fun s => apRead s k off.toNat len)

/-- APERTURE_WRITE (R78, R313): the payload bytes of each line are merged as one part. -/
def apWrite (s : State) (k off : Nat) (data : List Byte) : State :=
  if ¬ (s.func k).cfg.memory then logUnsupported s k
  else match apSite s k off with
  | none => s.bump R.HWQ_AP_ERR 1
  | some (h, x, b) =>
    if x.lines * x.pitch < b + data.length then s.bump R.HWQ_AP_ERR 1
    else forEach (apLines x b data.length) s (fun s i =>
      let lo := max b (i * x.pitch)
      let hi := min (b + data.length) (i * x.pitch + x.payload)
      if hi ≤ lo then s
      else if rodsVoid s (rodsFor .ingest) i then ingestEnds (poisonLine (s.drawn (i + 1)) h i) (· == (h, i))
      else mergeLine s h i (lo - i * x.pitch) ((data.drop (lo - b)).take (hi - lo)))

def execApertureWrite (k : Fin 2) (off : BitVec 30) (data : List Byte) (s : State) : Host.Outcome State Fault Refusal :=
  runOn [.store] s (fun s => apWrite s k off.toNat data)

-- The PCIe link (R309, R343).

/-- HWQ_PCIE_STAT of a link: width 0 when it is down. -/
def pcieStat (width speed : Nat) : Word := if width = 0 then 0#32 else word (65536 + width % 64 * 16 + speed % 16)

/-- The PCIe link goes down, or retrains. -/
def pcieLink (s : State) (width speed : Nat) : State := s.wr R.HWQ_PCIE_STAT (pcieStat width speed)

/-- PCIE_LANE_FAIL (R309, R392): the fault of a lane is answered when the link has retrained, or has gone down. -/
def laneFail (s : State) (width speed : Nat) : State :=
  faultAnswered (partFault (raise (pcieLink s width speed) 287) 287 0) 287 0

def execPcieLaneFail (width speed : Nat) (s : State) : Host.Outcome State Fault Refusal := runOn [] s (fun s => laneFail s width speed)

/-- The PCIe link goes down, and says so if it was up (R343). -/
def pcieDown (s : State) : State := if bit (s.rd R.HWQ_PCIE_STAT) 16 then raise (pcieLink s 0 0) 287 else s

def execPcieLinkDown (s : State) : Host.Outcome State Fault Refusal :=
  runOn [] s pcieDown

/-- A function as the host leaves it configured (R308, R309): Max_Payload_Size up to 512, Max_Read_Request_Size up to 4,096, BARs aligned
to their sizes. Vectors the host masks are masked; unmasking one is MSIX_UNMASK. -/
def hostConfig (s : State) (k : Nat) (c : HostConfig) : State :=
  let f := s.func k
  let cfg : PciCfg :=
    { memory := c.memory, busMaster := c.busMaster, bar0 := c.bar0 &&& ~~~0xFFFFFF#64, bar2 := c.bar2 &&& ~~~0x3FFFFFFF#64,
      bar4 := c.bar4 &&& ~~~0xFFFF#64, mps := BitVec.ofNat 3 (min 2 c.mps.toNat), mrrs := BitVec.ofNat 3 (min 5 c.mrrs.toNat), tags10 := c.tags10,
      aspmL1 := c.aspmL1, aer := f.cfg.aer, msix := c.msix, functionMask := c.functionMask }
  sendPending (s.setFunc k { f with cfg := cfg, unmasked := f.unmasked.filter (fun v => !(c.masked.map (·.val)).contains v) }) k

/-- The type 0 header of a function's configuration space (R308, R309). Its capability pointer is not stated. -/
def configHeader (s : State) (k : Nat) : List Word :=
  let c := (s.func k).cfg
  let bar (b : BitVec 64) (typ : Nat) : List Word := [word (b.toNat % 4294967296 + typ), word (b.toNat / 4294967296)]
  [word ((0x5120 + k) * 65536 + Config.vendorId.toNat),
   word (0x100000 + (if c.memory then 2 else 0) + (if c.busMaster then 4 else 0)), 0x038000B0#32, 0x00800000#32]
    ++ bar c.bar0 0x4 ++ bar c.bar2 0xC ++ bar c.bar4 0x4
    ++ [0#32, s.cfg R.HWQ_SUBSYS, 0#32, word Config.capPointer.toNat, 0#32, 0#32]

/-- The MSI-X capability of a function (R308): as many vectors as it has, their table and the Pending Bit Array in BAR4. -/
def msixCapability (s : State) (k : Nat) : List Word :=
  let c := (s.func k).cfg
  let control := vectorCount k - 1 + (if c.functionMask then 16384 else 0) + (if c.msix then 32768 else 0)
  [word (control * 65536 + Config.capNext.toNat * 256 + 0x11), word (msixEntry 0 + 4), word (msixPba + 4)]

/-- PCIE_LINK_UP: once the clocks run (R44), or retrained, narrower or slower raising its event (R345). DESIGN CHOICE: the table has no row for configuration requests, so those the endpoint answers
come with the link. -/
def pcieUp (s : State) (width speed : Nat) (c0 c1 : HostConfig) : State :=
  let old := s.rd R.HWQ_PCIE_STAT
  let less : Bool := bit old 16 && decide (width % 64 < bits old 9 4 ∨ speed % 16 < bits old 3 0)
  let s0 := pcieLink s width speed
  let s1 := hostConfig (hostConfig (if less then raise s0 287 else s0) 0 c0) 1 c1
  (s1.emit (.config 0 (configHeader s1 0) (msixCapability s1 0))).emit (.config 1 (configHeader s1 1) (msixCapability s1 1))

def execPcieLinkUp (width speed : Nat) (pf0 pf1 : HostConfig) (s : State) : Host.Outcome State Fault Refusal :=
  runOn [] s (fun s => if s.mgmt then pcieUp s width speed pf0 pf1 else s)

-- Rules for queue registers (R314, R317).

/-- Whether two ranges [a, a + n) and [b, b + m) meet. -/
def overlap (a n b m : Nat) : Bool := decide (a < b + m) && decide (b < a + n)

/-- EN of a queue as the mirror has it. -/
def queueEn (s : State) (q : Nat) : Bool := bit (s.rd (R.HWQ_Qnn_CFG q)) 31

/-- First QRING entry and size of a board queue's ring, from the mirror. -/
def boardRing (s : State) (q : Nat) : Nat × Nat := (bits (s.rd (R.HWQ_Qnn_BASE_LO q)) 13 0, 2 ^ bits (s.rd (R.HWQ_Qnn_CFG q)) 4 0)

/-- The conditions of R317 for enabling queue `q` with the value `v`. -/
def enableOk (s : State) (q : Nat) (v : Word) : Bool :=
  let n := bits v 4 0
  decide (4 ≤ n ∧ n ≤ 16) &&
    if boardQueue q then
      let base := (boardRing s q).1
      decide (base % 2 ^ n = 0 ∧ base + 2 ^ n ≤ 16384) &&
        (List.range 16).all (fun p => p == q || !queueEn s p || !overlap base (2 ^ n) (boardRing s p).1 (boardRing s p).2)
    else match queueOwner s q with
      | none => false
      | some k => decide (bits (s.rd (R.HWQ_Qnn_BASE_LO q)) 11 0 = 0 ∧ bits v 22 16 < vectorCount k)

/-- What a write of `v` to HWQ_Qnn_CFG leaves in it, and the bits of STAT it sets (R317). -/
def queueCfgValue (s : State) (q : Nat) (v : Word) : Word × State :=
  let old := s.rd (R.HWQ_Qnn_CFG q)
  let st := R.HWQ_Qnn_STAT q
  if bit old 31 then
    let deny := !bit v 31 || decide (bits v 4 0 ≠ bits old 4 0)
    (setBits (setBit v 31 true) 4 0 (bits old 4 0), if deny then s.setFlag st 2 else s)
  else if bit v 31 ∧ ¬ enableOk s q v then (setBit v 31 false, s.setFlag st 1)
  else (v, s)

/-- HWQ_Qnn_CFG takes effect: a queue that becomes enabled is idle at its consumer index. -/
def queueCfgEffect (s : State) (old : Word) (q : Nat) : State :=
  if bit (s.cfg (R.HWQ_Qnn_CFG q)) 31 ∧ ¬ bit old 31 then
    s.setQueue q { s.queue q with bell := false, reading := false, prod := s.rd (R.HWQ_Qnn_CONS q) }
  else s

/-- What a write of `v` to HWQ_QMAPn leaves: owners of enabled queues stay (R314). -/
def qmapValue (s : State) (n : Nat) (old v : Word) : Word :=
  (List.range 16).foldl (fun w j => if queueEn s (16 + 16 * n + j) then setBits w (2 * j + 1) (2 * j) (bits old (2 * j + 1) (2 * j)) else w) v

/-- Registers of a queue that cannot be written while it is enabled (R317). -/
def queueHeld (o : Nat) : Option Nat :=
  match regQueue o with
  | some q => if [R.HWQ_Qnn_BASE_LO q, R.HWQ_Qnn_BASE_HI q, R.HWQ_Qnn_IDX_LO q, R.HWQ_Qnn_IDX_HI q, R.HWQ_Qnn_CONS q].contains o
      then some q else none
  | none => none

/-- HWQ_Qnn_STAT as it reads: BUSY and WAIT are states of the queue (R344). -/
def queueStatWord (s : State) (q : Nat) : Word :=
  let x := s.queue q
  let w := setBit (s.rd (R.HWQ_Qnn_STAT q)) 30 x.job.isSome
  setBit w 29 (queueFetches s q && !rereads s q && decide (s.rd (R.HWQ_Qnn_CONS q) = x.prod))

end Sys2Proof.Machine
end

