-- ==== Sys2Proof/Machine/Integrity.lean ====
section
/-!
DEFINITION. The configuration CRC (R364 to R368), the commands of the fault collector and its self-checks (R373 to R395), the host
CRC units (R396, R397).
-/
namespace Sys2Proof.Machine

-- Configuration CRC.

/-- Offsets of all instances of a row. -/
def RegRow.offsets (r : RegRow) : List Nat :=
  (List.range r.count).flatMap (fun i => (List.range r.count2).map (fun j => r.base + r.stride * i + r.stride2 * j))

/-- Covered registers in ascending offset (R364, R365). -/
def coveredRegs : List Nat :=
  ((rowsHwq ++ rowsIhm ++ rowsTrs ++ rowsSeq ++ rowsSsp ++ rowsFsh ++ rowsSca ++ rowsCmp ++ rowsOwb ++ rowsDp ++ rowsNmp).flatMap
    RegRow.offsets).mergeSort.filter (fun o => crcMask o != 0#32)

/-- The value of a pass over the configuration in force (R365). -/
def configCrc (s : State) : Word :=
  word (crc32c (coveredRegs.flatMap (fun o => leBytes 4 o ++ leBytes 4 (s.cfg o &&& crcMask o).toNat)))

/-- IHM_CFGCRC_STAT shows ARMED and COMPARING (R368). -/
def showCrc (s : State) : State :=
  let w := s.rd R.IHM_CFGCRC_STAT
  s.wr R.IHM_CFGCRC_STAT (setBit (setBit w 31 s.col.armed) 30 s.col.comparing)

/-- A compared pass (R366, R394, R395). -/
def comparePass (s : State) (now : Word) : State :=
  let (inj, s1) := injectCheck s 7 0
  let seen := if inj then now ^^^ 0xFFFFFFFF#32 else now
  let ref := s1.cfg R.IHM_CFGCRC_REF
  let w := s1.rd R.IHM_CFGCRC_STAT
  if seen = ref then s1.wr R.IHM_CFGCRC_STAT (setBit w 28 false)
  else
    let s2 := s1.wr R.IHM_CFGCRC_STAT (satField (setBit (setBit w 28 true) 27 true) 25 16 1)
    raiseInj (history s2 3 now ref) 306 inj

/-- CFGCRC_PASS_END (R365, R366). -/
def passEnd (s : State) : State :=
  let now := configCrc s
  let c := s.col
  let w := s.rd R.IHM_CFGCRC_STAT
  let s1 := (s.wr R.IHM_CFGCRC_NOW now).wr R.IHM_CFGCRC_STAT
    (setBits (setBit w 29 (!c.changed)) 15 0 (bits w 15 0 + 1))
  let comparing := c.armed && (c.comparing || c.passArmed)
  let s2 := showCrc { s1 with col := { s1.col with comparing := comparing, passArmed := c.armed, changed := false } }
  if comparing then keeping [] s2 (comparePass s2 now) else s2

/-- IHM_CFGCRC_CTRL takes effect (R366). A second ARM = 1 changes nothing (DEDUCED). -/
def crcCtrlEffect (s : State) (v : Word) : State :=
  if bit v 0 then
    if s.col.armed then s else showCrc { s with col := { s.col with armed := true, comparing := false, passArmed := false } }
  else showCrc { s with col := { s.col with armed := false, comparing := false, passArmed := false } }

/-- IHM_CFGCRC_REF takes effect: whether it is ignored was decided as it was accepted (R38, R366). -/
def crcRefEffect (s : State) (v : Word) : State := s.setCfg R.IHM_CFGCRC_REF v

-- The collector.

/-- Reserved sources, which are never raised (R375). -/
def sourceReserved (src : Nat) : Bool := decide (sevReset src = 0) && !([27, 28, 60, 61, 76, 305] : List Nat).contains src

/-- History queue of a source, and the bits of word 0 of its records (R381). -/
def historyOf (src : Nat) : Option (Nat × Word) :=
  if src = 304 then some (0, 0x3FF001FF#32)
  else if src = 264 then some (1, 0x00001F77#32)
  else if src = 307 then some (2, 0xFFF801FF#32)
  else if src = 306 then some (3, 0xFFFFFFFF#32)
  else none

/-- A source is raised by its block (R373), with its history record where it keeps one (R381). What the record says beside the time, and with
it the head of a raise of source 304, is not stated for a raise on its own: free values. -/
def sourceRaise (s : State) (src : Nat) : State :=
  if sourceReserved src then s
  else match historyOf src with
    | none => raise s src
    | some (q, mask) =>
      let w0 := Config.freeWord s.fresh &&& mask
      let s1 := history s.bumpFresh.bumpFresh q w0 (Config.freeWord (s.fresh + 1))
      raiseFull s1 src 0 false (if src = 304 then setBit 0#32 (bits w0 28 24) true else 0#32)

/-- SOURCE_RAISE (R373 to R379, R381). -/
def execSourceRaise (src : Fin 320) (s : State) : Host.Outcome State Fault Refusal :=
  runOn [] s (fun s => sourceRaise s src)

/-- Close the counting window of a source (R377). -/
def closeWindow (s : State) (src : Nat) : State :=
  let x := s.src src
  if x.win then s.setSrc src { x with win := false, count := 0 } else s

/-- COUNT_WINDOW_END (R377): the window's word is used and rewritten (R391). -/
def execCountWindowEnd (src : Fin 320) (s : State) : Host.Outcome State Fault Refusal :=
  runOn [] s (fun s => rewritten (closeWindow (wordsUsed s [1024 + src.val]) src) [1024 + src.val])

/-- The collector's phase is set (R377): a change closes every window. -/
def setPhase (s : State) (p : Nat) : State :=
  let s1 := rewritten s [324]
  if s.col.phase = p then s1
  else
    let s2 := forEach (List.range 320) s1 closeWindow
    ({ s2 with col := { s2.col with phase := p } }).wrBits R.IHM_PHASE 17 16 p

/-- An FC_SRC word is written (R375): it holds for raises after it. -/
def fcSrcEffect (s : State) (src : Nat) (v : Word) : State :=
  if src = 308 then s else (rewritten s [src]).setSpw Space.FC_SRC src (v &&& 0xFFFB3003#32)

/-- FAULT of every region is cleared with source 304 (R380). -/
def clearFaults (s : State) : State :=
  forEach (List.range 512) s (fun s r => if bit (s.sp (tsKey r 1)) 7 then s.setSp (tsKey r 1) (setBit (s.sp (tsKey r 1)) 7 false) else s)

/-- A source is cleared (R380). -/
def clearOne (s : State) (src : Nat) : State :=
  let s1 := clearSource s src
  if src = 304 then clearFaults s1 else s1

/-- SELF = 1: judged when a full sweep that begins after it has ended (R380). -/
def clearSelf (s : State) : State := { s with col := { s.col with selfWait := 2 } }

/-- IHM_FC_CLEAR takes effect (R380, R399). -/
def fcClearEffect (s : State) (v : Word) : State :=
  let all := bit v 31
  let src := bits v 8 0
  let named := bit v 29 || (!all && !bit v 30 && decide (src ≠ 0))
  let s1 := if all then forEach ((List.range 320).filter (· ≠ 308)) s clearOne else s
  let s2 := if named ∧ src < 320 ∧ src ≠ 308 then clearOne s1 src else s1
  let s3 := if bit v 30 ∨ (named ∧ src = 308) then clearSelf s2 else s2
  updateForce s3 0x1FF

/-- IHM_HISTq_CTRL takes effect (R382). -/
def histCtrlEffect (s : State) (q : Nat) (v : Word) : State := if bit v 0 then s.wrBits (R.IHM_HISTq_STAT q) 12 8 0 else s

/-- The collector finds a fault in itself (R391), and the heads it forces enter their safe states. -/
def selfFault (s : State) (b : Nat) : State := keeping [] s (withForce (fun s => selfFound s b) s)

/-- A sweep ends (R380, R391): a word that newly fails latches source 308; a SELF clear that waited for a full sweep is judged. -/
def sweepEnd (s : State) (failing : Option Nat) : State :=
  let s1 := match failing with
    | none => s
    | some w =>
      if s.col.bad.contains w then s
      else selfFault (({ s with col := { s.col with bad := w :: s.col.bad } }).wrBits R.IHM_FC_SELF 23 12 w) 0
  match s.col.selfWait with
  | 0 => s1
  | n + 1 =>
    let s2 := { s1 with col := { s1.col with selfWait := n } }
    if n ≠ 0 then s2
    else if s2.col.bad.isEmpty then updateForce (clearSource s2 308) 0x1FF
    else s2.setFlag R.IHM_FC_SELF 3

def execCollectorSweepEnd (failing : Option Nat) (s : State) : Host.Outcome State Fault Refusal :=
  runOn [] s (fun s => sweepEnd s failing)

def execCollectorCopyDisagree (s : State) : Host.Outcome State Fault Refusal := runOn [] s (fun s => selfFault s 1)

-- Injection (R394, R395).

/-- Disarm what is armed. -/
def disarm (s : State) : State :=
  match s.col.inj with
  | none => s
  | some _ =>
    let w := s.rd R.IHM_INJ_STAT
    ({ s with col := { s.col with inj := none } }).wr R.IHM_INJ_STAT (setBits (setBit (setBit w 31 false) 29 true) 23 20 0)

/-- UNIT as the checkers see it: targets and classes without instances have none (R394). -/
def injUnit (target unit : Nat) : Nat :=
  if target = 7 then 0
  else if target = 5 ∨ target = 6 then (if unit / 256 = 1 ∨ unit / 256 = 2 then unit else unit / 256 * 256)
  else unit

/-- IHM_INJ takes effect. -/
def injEffect (s : State) (v : Word) : State :=
  let t := bits v 27 24
  if bit v 30 then disarm s
  else if bit v 31 ∧ 1 ≤ t ∧ t ≤ 8 then
    let s1 := disarm s
    let n := max 1 (bits v 23 20)
    let w := s1.rd R.IHM_INJ_STAT
    ({ s1 with col := { s1.col with inj := some ⟨t, injUnit t (bits v 15 0), n⟩ } }).wr R.IHM_INJ_STAT
      (setBits (setBit w 31 true) 23 20 n)
  else s

-- Host CRC units (R396, R397).

/-- Width of unit `u` in bits. -/
def crcuWidth (s : State) (u : Nat) : Nat :=
  match bits (s.cfg (R.IHM_CRCUu_CTRL u)) 1 0 with
  | 0 => 8
  | 1 => 16
  | _ => 32

/-- A number's low `n` bits reversed. -/
def revBits (n v : Nat) : Nat := ((List.range n).map (fun i => if v.testBit i then 2 ^ (n - 1 - i) else 0)).sum

/-- One byte through the unit. -/
def crcuByte (w poly : Nat) (refin : Bool) (reg d : Nat) : Nat :=
  let d := if refin then revBits 8 d else d
  (List.range 8).foldl (fun r k =>
    let top := (r.testBit (w - 1)) != (d.testBit (7 - k))
    let r1 := r * 2 % 2 ^ w
    if top then r1 ^^^ poly else r1) reg

/-- The running register of unit `u`; it stands complemented in the unit word of RESULT, so that it is all ones at reset. -/
def crcuReg (s : State) (u : Nat) : Nat := (~~~(s.cfg (R.IHM_CRCUu_RESULT u))).toNat

def setCrcuReg (s : State) (u v : Nat) : State := s.setCfg (R.IHM_CRCUu_RESULT u) (~~~(word v))

/-- A settings word of unit `u`, its lower W bits. -/
def crcuSet (s : State) (u o : Nat) : Nat := (s.cfg o).toNat % 2 ^ crcuWidth s u

/-- IHM_CRCUu_CTRL takes effect. -/
def crcuCtrlEffect (s : State) (u : Nat) (v : Word) : State :=
  let s1 := s.setCfg (R.IHM_CRCUu_CTRL u) (v &&& 0x33#32)
  let st := R.IHM_CRCUu_STAT u
  let s2 := s1.wr st (merge (s1.rd st) v 0x33#32)
  if bit v 31 then (setCrcuReg s2 u (crcuSet s2 u (R.IHM_CRCUu_INIT u))).wrBits st 30 16 0 else s2

/-- A data write of `n` bytes takes effect. -/
def crcuDataEffect (s : State) (u n : Nat) (v : Word) : State :=
  let w := crcuWidth s u
  let refin := bit (s.cfg (R.IHM_CRCUu_CTRL u)) 4
  let reg := (leBytes n v.toNat).foldl (fun r b => crcuByte w (crcuSet s u (R.IHM_CRCUu_POLY u)) refin r b.toNat)
    (crcuReg s u % 2 ^ w)
  let st := R.IHM_CRCUu_STAT u
  (setCrcuReg s u reg).wrBits st 30 16 (bits (s.rd st) 30 16 + n)

/-- IHM_CRCUu_RESULT as it reads. -/
def crcuResult (s : State) (u : Nat) : Word :=
  let w := crcuWidth s u
  let r := crcuReg s u % 2 ^ w
  word ((if bit (s.cfg (R.IHM_CRCUu_CTRL u)) 5 then revBits w r else r) ^^^ crcuSet s u (R.IHM_CRCUu_XOROUT u))

/-- Whether a data write of unit `u` waits in a write queue (R397). -/
def crcuPending (s : State) (u : Nat) : Bool :=
  ([s.lmp, s.pf0, s.pf1] : List MState).any (fun m => m.wq.any (fun w => !w.indirect &&
    ([R.IHM_CRCUu_DATA8 u, R.IHM_CRCUu_DATA16 u, R.IHM_CRCUu_DATA32 u] : List Nat).contains w.at_))

-- Views (R387, R398).

/-- IHM_TALLY_SUM as it reads: regions with FAULT = 1, and the last to enter FAULT. -/
def tallySumWord (s : State) : Word :=
  let n := ((List.range 512).filter (fun r => bit (s.sp (tsKey r 1)) 7)).length
  setBits (s.rd R.IHM_TALLY_SUM) 25 16 n

end Sys2Proof.Machine
end

