-- ==== Sys2Proof/Machine/Health.lean ====
section
/-!
DEFINITION. Wear, spares and power management (R400 to R424, R456): cycle meters and self-tests, the commands of carries and
resets, power-gating, the voltage loop, temperature.
-/
namespace Sys2Proof.Machine

-- Jobs on units (R335).

/-- Whether a CAPTURE job records a head that the live table gives tile `t` (R30, R154). -/
def capturesTile (s : State) (t : Nat) (j : Job) : Bool :=
  j.typ == Typ.CAPTURE && match s.groupOf (byteAt j.head 16) with
    | some g => (s.group g).live.tiles.contains t
    | none => false

/-- Whether a job passes over a rod (R23): reads of surfaces over the fetch rods and writes of lines over the ingest rods, over which of them
a free bit says; an OFFLINE_COMPOSE over the rods of its scaler and its tile; a CAPTURE over the result rods of its head. -/
def overRod (s : State) (r q : Nat) (j : Job) : Bool :=
  match rodPurpose r with
  | .fetch => decide (j.typ = 5 ∨ j.typ = 8) && s.freeBit q
  | .layer => j.units.contains (scalerUnit s (rodScaler r))
  | .result => j.units.contains (tileUnit s (rodTile r)) || capturesTile s (rodTile r) j
  | .ingest => ([4, 5, 6, 8] : List Nat).contains j.typ && s.freeBit q

/-- Whether the commit a COMMIT job waits for is planned onto a tile or scaler. DEDUCED: R13 and R193 let such a job run again, and its commit
is the only thing through which it uses a unit. -/
def plannedOnto (s : State) (u q : Nat) (j : Job) : Bool :=
  let x := s.group (jobGroup j)
  decide (j.typ = Typ.COMMIT ∧ j.phase = .commit) && x.commit.any (fun c => c.job == some q) && match servedLogical s u with
    | some l => x.planned.any (fun p => if unitClass u = 1 then p.tiles.contains l else p.scalers.contains l)
    | none => false

/-- Whether a running job of a queue is served by a metered unit. -/
def boundTo (s : State) (u q : Nat) (j : Job) : Bool :=
  match unitClass u with
  | 0 => match servedLogical s u with
    | some r => overRod s r q j
    | none => false
  | 3 => j.typ == Typ.CAPTURE && byteAt j.head 16 == u - 538
  | _ => j.units.contains u || plannedOnto s u q j

/-- A unit is drained, carried or faulty: the jobs it serves run again, or halt their queues after a double fault (R335, R337). -/
def jobsOfUnit (s : State) (u : Nat) (second : Bool) : State := unitJobs s.bumpFresh.bumpFresh second (boundTo s u)

-- Meters and self-tests (R401, R403, R405).

/-- METER_WINDOW_END: a window of a unit that works, counted with 100,000 handshakes or more. -/
def meterEnd (s : State) (u period ring handshakes : Nat) : State :=
  if s.mgmt ∧ inService s u ∧ 100000 ≤ handshakes then meterWindow s u period ring true else s

def execMeterWindowEnd (u : Fin 570) (period ring handshakes : Nat) (s : State) : Host.Outcome State Fault Refusal :=
  runOn [.health] s (fun s => meterEnd s u period ring handshakes)

/-- A unit is found faulty (R406, R409, R456); `voids`: by the VOID beads it answers, which CMP_TILE_VOID reports of a tile that serves its
logical tile and does not drain (R122). -/
def faultUnit (s : State) (u : Nat) (voids : Bool) : State :=
  let e := (s.metered u).eff
  if ¬ s.mgmt ∨ e = 6 ∨ e = 7 then s
  else
    let s1 := if unitClass u = clsTile ∧ voids ∧ (logicalOf s u).isSome ∧ e ≠ 0 ∧ e ≠ 3 then raise s 72 else s
    let s2 := failUnit s1 u
    jobsOfUnit s2 u (decide (s.col.faults.length < s2.col.faults.length) && secondFault s2)

def execUnitFault (u : Fin 570) (voids : Bool) (s : State) : Host.Outcome State Fault Refusal :=
  runOn [.store, .force, .queues, .outputs, .compose, .health] s (fun s => faultUnit s u voids)

/-- Scalers whose bank copies gave uncorrectable words three times within 1 s are faulty (R406). Surface memory and its placement stay. -/
def copyFaults (s : State) : State :=
  keeping [.force, .queues, .outputs, .compose, .health] s <| forEach (((List.range 88).map (· + 450)).filter (fun u => decide (3 ≤ (s.metered u).copyUes.length))) s (fun s u =>
    faultUnit (s.setMetered u { s.metered u with copyUes := [] }) u false)

def execScalerLineArrival (l : Fin 80) (upsets : List Upset) (store : Ecc) (s : State) : Host.Outcome State Fault Refusal :=
  runOn [.store, .force, .queues, .outputs, .compose, .health] s (fun s => copyFaults (lineArrival s l upsets store))

def execOfflineCompose (q : Fin 64) (n : Nat) (upsets : List Upset) (s : State) : Host.Outcome State Fault Refusal :=
  runOn [.store, .force, .queues, .outputs, .compose, .health] s (fun s =>
    copyFaults (offlineLines q upsets n (startLines s q Typ.OFFLINE_COMPOSE (offlineCheck s))))

/-- SELF_TEST_RUN: an idle unit has been driven by the pattern for 1 ms; one that fails it is found faulty (R401, R456). -/
def selfTest (s : State) (u : Nat) (passed : Bool) (period ring : Nat) : State :=
  if ¬ s.mgmt ∨ [3, 4, 6, 7].contains (s.metered u).eff then s
  else if passed then meterWindow s u period ring true
  else
    let s1 := failUnit s u
    jobsOfUnit s1 u (decide (s.col.faults.length < s1.col.faults.length) && secondFault s1)

def execSelfTestRun (u : Fin 570) (passed : Bool) (period ring : Nat) (s : State) : Host.Outcome State Fault Refusal :=
  runOn [.store, .force, .queues, .outputs, .compose, .health] s (fun s => selfTest s u passed period ring)

/-- Replace a unit before release, with no switch-over sequence (R405); without a spare a FAILED unit's logical unit is lost (R456),
a worn unit works on (R404). -/
def startCarryOut (s : State) (u : Nat) : State :=
  let c := unitClass u
  match logicalOf s u with
  | none => checkExhausted s u
  | some l =>
    match chooseSpare s u with
    | some v =>
      let out := if (s.metered u).eff = 7 then 7 else 6
      let s1 := setReqEff (setReqEff (mapLogical s c l v) v 1) u out
      let s2 := (logCarry s1 u 3).setFlag R.IHM_CARRY_STAT 29
      checkExhausted (updateSpareStat s2 c (unitDomain u)) u
    | none =>
      let s1 := raise s (exhaustSource c)
      if (s.metered u).eff = 7 then loseLogical s1 c l else s1

/-- STARTUP_SELF_TEST_DONE: the units that fail are FAILED, those whose DRIFT is at or above CARRY are carried out, and each is
replaced from the spares (R405). A worn spare is not used; head output converters are never carried (R404). -/
def startupTest (s : State) (failed : List Nat) (windows : List (Nat × Nat × Nat)) : State :=
  if ¬ s.mgmt ∨ s.released then s
  else
    let s1 := forEach failed s (fun s u => if (s.metered u).eff = 7 then s else raise (setReqEff s u 7) 313)
    let s2 := forEach windows s1 (fun s w => meterWindow s w.1 w.2.1 w.2.2 false)
    let worn (u : Nat) : Bool := decide (unitClass u ≠ 3) && windows.any (fun w => w.1 == u) && decide (carryDrift s2 ≤ (s2.metered u).drift)
      && !([6, 7].contains (s2.metered u).eff)
    let out := (List.range 570).filter worn
    let s3 := forEach out s2 (fun s u => if (logicalOf s u).isNone then setReqEff s u 6 else s)
    let asked := (List.range 570).filter (fun u => decide (unitClass u ≠ 3) && (failed.contains u || out.contains u))
    forEach asked s3 startCarryOut

def execStartupSelfTestDone (failed : List (Fin 570)) (windows : List (Fin 570 × Nat × Nat)) (s : State) :
    Host.Outcome State Fault Refusal :=
  runOn [.health] s (fun s => startupTest s (failed.map Fin.val) (windows.map (fun w => (w.1.val, w.2.1, w.2.2))))

-- Commands (R406, R412, R423).

/-- The unit a command word names; none when it names none. -/
def commandUnit (v : Word) : Option Nat :=
  let c := bits v 26 24
  let n := bits v 8 0
  if n < classSize c then some (classBase c + n) else none

/-- Whether a carry of the unit is in progress. -/
def carriedNow (s : State) (u : Nat) : Bool := (s.carry (unitClass u)).any (fun x => x.unit == u)

/-- Whether a carry of the unit is in progress or waits. -/
def underCarry (s : State) (u : Nat) : Bool :=
  carriedNow s u || (s.waitingCarries (unitClass u)).any (fun x => x.unit == u)

/-- Whether IHM_CARRY_CMD may carry a unit (R406): it is active and its class has a free spare. -/
def carryable (s : State) (u : Nat) : Bool :=
  decide (unitClass u ≠ 3) && inService s u && (logicalOf s u).isSome && !underCarry s u && (chooseSpare s u).isSome

/-- IHM_CARRY_CMD takes effect (R406, R407, R408). -/
def carryCmdEffect (s : State) (v : Word) : State :=
  if ¬ bit v 31 then s
  else match commandUnit v with
    | some u => if carryable s u then triggerCarry s u 2 else s.setFlag R.IHM_CARRY_STAT 30
    | none => s.setFlag R.IHM_CARRY_STAT 30

/-- IHM_UNIT_CMD takes effect (R412, R421): the unit drains and is reset. -/
def unitCmdEffect (s : State) (v : Word) : State :=
  match commandUnit v with
  | none => s
  | some u =>
    if ¬ bit v 31 ∨ bits v 30 28 ≠ 1 ∨ [0, 6, 7].contains (s.metered u).eff ∨ carriedNow s u then s
    else jobsOfUnit (voidHeld (setEff s u 3) u) u false

/-- DRAIN_END (R411): a reset unit returns its state to reset, a failed unit's answer goes on. -/
def drainEnd (s : State) (u : Nat) : State :=
  match (s.metered u).eff with
  | 3 => setEff s u 4
  | 7 => failedDrained s u
  | _ => s

def execDrainEnd (u : Fin 570) (s : State) : Host.Outcome State Fault Refusal := runOn [.health] s (fun s => drainEnd s u)

/-- UNIT_RESET_DONE (R412): the unit is active again, a spare a spare. -/
def resetDone (s : State) (u : Nat) : State :=
  if (s.metered u).eff = 4 then setReqEff s u (if (logicalOf s u).isSome then 1 else 5) else s

def execUnitResetDone (u : Fin 570) (s : State) : Host.Outcome State Fault Refusal := runOn [.health] s (fun s => resetDone s u)

-- Steps of carries (R407, R408).

/-- CARRY_SPARE_READY (R407 step 2): without a serving group the mapping switches at once. -/
def spareReady (s : State) (c : Nat) : State :=
  match s.carry c with
  | none => s
  | some x =>
    if c = 0 ∨ x.ready ∨ x.reason = 1 then s
    else
      let s1 := match x.spare with
        | some v => setEff s v 1
        | none => s
      switchIdle none (s1.setCarry c (some { x with ready := true })) c

def execCarrySpareReady (c : UnitClass) (s : State) : Host.Outcome State Fault Refusal := runOn [.health] s (fun s => spareReady s (UnitClass.code c))

/-- The old unit becomes CARRIED, unless it has failed meanwhile. -/
def carriedOut (s : State) (u : Nat) : State := if (s.metered u).eff = 7 then s else setReqEff s u 6

/-- Whether an old unit still has a step or a job at hand, or one queued for it (R407 step 4). -/
def stillServes (s : State) (u : Nat) : Bool :=
  (List.range 32).any (fun t => let x := s.tile t
    (x.run.isSome && x.unit == u) || x.queue.any (fun st => tileFor s t st == u || st.entries.any (fun w => scalerFor s (tentryOf w).scaler st == u)))
    || (List.range 80).any (fun l => (s.scaler l).jobs.any (fun j => j.unit == u))

/-- CARRY_OLD_UNIT_DONE (R407 step 4): the old unit's last step of the old frame has delivered. -/
def oldUnitDone (s : State) (c : Nat) : State :=
  match s.carry c with
  | none => s
  | some x =>
    if c = 0 ∨ x.reason = 1 ∨ ¬ x.switched ∨ stillServes s x.unit then s
    else
      let s1 := jobsOfUnit (carriedOut s x.unit) x.unit false
      nextCarry 16 (endCarry s1 c x) c

def execCarryOldUnitDone (c : UnitClass) (s : State) : Host.Outcome State Fault Refusal := runOn [.force, .queues, .outputs, .compose, .health] s (fun s => oldUnitDone s (UnitClass.code c))

/-- ROD_SPARE_JOINED (R408 steps 2 and 3): new lines go to the spare. -/
def rodJoined (s : State) : State :=
  match s.carry clsRod with
  | none => s
  | some x => if x.switched then s else switchCarry s clsRod { x with ready := true } none 0

def execRodSpareJoined (s : State) : Host.Outcome State Fault Refusal := runOn [.health] s rodJoined

/-- ROD_CARRY_END (R408 step 5). -/
def rodCarryEnd (s : State) : State :=
  match s.carry clsRod with
  | none => s
  | some x =>
    if ¬ x.switched then s
    else
      let s1 := if x.reason = 1 then faultAnswered s 313 x.unit else carriedOut s x.unit
      let s2 := jobsOfUnit s1 x.unit false
      nextCarry 16 (endCarry s2 clsRod x) clsRod

def execRodCarryEnd (s : State) : Host.Outcome State Fault Refusal := runOn [.force, .queues, .outputs, .compose, .health] s rodCarryEnd

-- Power-gating and self-refresh (R413).

/-- A tile or scaler without a step or job at hand. -/
def unitIdle (s : State) (u : Nat) : Bool :=
  !((unitsOfOthers s 64).contains u) && match unitClass u, logicalOf s u with
    | 1, some t => (s.tile t).run.isNone && (s.tile t).queue.isEmpty
    | 2, some l => (s.scaler l).jobs.isEmpty
    | _, _ => true

/-- UNIT_POWER_GATE: a tile or scaler that no table names, or a spare, is gated. -/
def powerGate (s : State) (u : Nat) : State :=
  let c := unitClass u
  if ¬ s.mgmt ∨ ¬ bit (s.cfg R.IHM_PG_CTRL) 0 then s
  else match logicalOf s u with
    | none => if c ≠ 3 ∧ freeSpare s u then setReqEff s u 0 else s
    | some l =>
      if (c = 1 ∨ c = 2) ∧ inService s u ∧ ¬ namedInTable s c l ∧ unitIdle s u ∧ ¬ underCarry s u then setReqEff s u 0 else s

def execUnitPowerGate (u : Fin 570) (s : State) : Host.Outcome State Fault Refusal := runOn [.health] s (fun s => powerGate s u)

/-- Whether the stacks have nothing to do: no head runs, no receive stream is enabled, no queue has a job (R413). -/
def hbmQuiet (s : State) : Bool :=
  (List.range 32).all (fun h => !headRuns (s.head h)) && (List.range 256).all (fun i => decide ((s.rxs i).state = 0))
    && (List.range 64).all (fun q => (s.queue q).job.isNone)

def execHbmSelfRefreshEntry (s : State) : Host.Outcome State Fault Refusal :=
  runOn [.store] s (fun s => if bit (s.cfg R.IHM_PG_CTRL) 1 ∧ s.store.trained ∧ hbmQuiet s then
    { s with store := { s.store with selfRefresh := true } } else s)

-- Requested and effective state (R414).

/-- Units of a class whose states the meters show to differ. -/
def meterMismatch (s : State) (c : Nat) : Bool :=
  (List.range (classSize c)).any (fun i => reqState s (classBase c + i) != effState s (classBase c + i))

/-- Whether REQ_STATE and EFF_STATE of the units that raise a source differ, as far as the registers show; `none` for a source that
reports no mismatch. Units of SSP, FSH, TRS, HWQ and the sequencers have no state register: the command itself says so. -/
def mismatch (s : State) (src : Nat) : Option Bool :=
  if src = 77 then some (meterMismatch s 1 || meterMismatch s 3)
  else if src = 62 then some (meterMismatch s 2)
  else if src = 313 then some (meterMismatch s 0)
  else if ([38, 54, 278, 291] : List Nat).contains src ∨ (9 ≤ src ∧ src ≤ 23 ∧ src % 2 = 1) then some true
  else if 104 ≤ src ∧ src < 200 then
    (if (src - 104) % 3 = 2 then let x := s.head ((src - 104) / 3); some (x.req != x.state) else none)
  else if 200 ≤ src ∧ src < 264 then
    (if (src - 200) % 4 = 0 then let w := s.rd (R.NMP_Pnn_STATE ((src - 200) / 4)); some (bits w 7 0 != bits w 15 8) else none)
  else none

def execStateMismatchTimeout (src : Fin 320) (s : State) : Host.Outcome State Fault Refusal :=
  runOn [] s (fun s => if s.mgmt ∧ mismatch s src = some true then raise s src else s)

-- Adaptive voltage (R415 to R417).

/-- VLOW and VHIGH in mV (R415): with VMIN above VMAX both act as VMIN. -/
def avsWindow (s : State) : Nat × Nat :=
  let lo := bits (s.cfg R.IHM_AVS_VMIN) 9 0
  let hi := bits (s.cfg R.IHM_AVS_VMAX) 9 0
  (max 650 lo, min 850 (if hi < lo then lo else hi))

/-- min(max(target, VLOW), VHIGH). -/
def avsClamp (w : Nat × Nat) (t : Nat) : Nat := min (max t w.1) w.2

/-- P_HI and P_LO in force (R415). -/
def avsPeriods (s : State) : Nat × Nat :=
  let c := s.cfg R.IHM_AVS_CTRL
  let hi := min 1000 (bits c 25 16)
  let lo := bits c 9 0
  (hi, if hi ≤ lo then hi - 50 else lo)

/-- Largest PERIOD of any unit with EFF_STATE = ACTIVE. -/
def worstPeriod (s : State) : Nat :=
  (List.range 570).foldl (fun m u => if effState s u = 2 then max m (s.metered u).period else m) 0

/-- Whether the loop runs: from release, with EN = 1. -/
def avsRuns (s : State) : Bool := s.released && bit (s.cfg R.IHM_AVS_CTRL) 31

/-- The target an update asks for (R415, R417). A target below 700 mV is asked for only while worst ≤ P_HI. -/
def avsTarget (s : State) : Nat :=
  let w := avsWindow s
  let t := s.health.target
  if s.health.busErr then t
  else if ¬ s.released then avsClamp w 800
  else if ¬ bit (s.cfg R.IHM_AVS_CTRL) 31 then avsClamp w t
  else
    let (hi, lo) := avsPeriods s
    let worst := worstPeriod s
    avsClamp w (if hi < worst then max 700 (t + 5) else if worst < lo then t - 5 else t)

/-- IHM_AVS_STAT (R423). -/
def avsShow (s : State) (readback : Nat) : State :=
  let w := avsWindow s
  let t := s.health.target
  s.wr R.IHM_AVS_STAT (word ((if t = w.1 then 2147483648 else 0) + (if t = w.2 then 1073741824 else 0)
    + (if s.health.busErr then 536870912 else 0) + t % 1024 * 65536 + readback % 1024))

/-- A readback is judged (R417): the state, with the bus error it leaves. -/
def avsJudge (s : State) (readback : Option Nat) : State :=
  let h := s.health
  match readback with
  | none => { s with health := { h with busErr := true, offMs := 0 } }
  | some v =>
    if v ≤ h.target + 25 ∧ h.target ≤ v + 25 then { s with health := { h with busErr := false, offMs := 0 } }
    else { s with health := { h with busErr := h.busErr || decide (10 ≤ h.offMs + 1), offMs := h.offMs + 1 } }

/-- AVS_UPDATE (R415 to R417). -/
def avsUpdate (s : State) (readback : Option Nat) : State :=
  if ¬ s.mgmt then s
  else
    let t := avsTarget s
    let s1 := ({ s with health := { s.health with target := t } }).emit (.avs t)
    let now := avsRuns s && decide (t = (avsWindow s).2 ∧ 1000 < worstPeriod s)
    let s2 := avsJudge (setNotice s1 R.IHM_AVS_CONSTRAINED 316 now) readback
    let s3 := avsShow s2 (readback.getD (bits (s.rd R.IHM_AVS_STAT) 9 0))
    if s2.health.busErr ∧ ¬ s.health.busErr then raise s3 317 else s3

def execAvsUpdate (readback : Option Nat) (s : State) : Host.Outcome State Fault Refusal := runOn [.health] s (fun s => avsUpdate s readback)

-- Temperature (R418 to R420).

/-- A reading of a die sensor inside −55 °C to +150 °C, in 1/256 °C. -/
def sensorInRange (t : Int) : Bool := decide (-14080 ≤ t ∧ t ≤ 38400)

/-- Twice the median of readings in 1/256 °C. DEDUCED: of an even number, the mean of the middle two. -/
def twiceMedian (ts : List Int) : Int :=
  let xs := ts.mergeSort
  let n := xs.length
  xs.getD ((n - 1) / 2) 0 + xs.getD (n / 2) 0

/-- Faulty die sensors (R418). DEDUCED: the median is that of the sensors in range. -/
def faultySensors (die : List Int) : List Nat :=
  let m := twiceMedian (die.filter sensorInRange)
  (List.range 16).filter (fun k =>
    let t := die.getD k 0
    !sensorInRange t || decide (10240 < 2 * t - m) || decide (10240 < m - 2 * t))

/-- WARN, THROTTLE and CRIT in force, in °C (R419). -/
def thermThresholds (s : State) : Nat × Nat × Nat :=
  let c := s.cfg R.IHM_THERM_CTRL
  let w := min 120 (bits c 15 8)
  let t := min 120 (bits c 23 16)
  let k := min 120 (bits c 31 24)
  if w < t ∧ t < k then (w, t, k) else (100, 105, 115)

/-- HYST in force. -/
def thermHyst (s : State) : Nat := max 1 (bits (s.cfg R.IHM_THERM_CTRL) 3 0)

/-- Whether level `k` is entered, or is kept once entered (R419). -/
def thermAt (s : State) (k : Nat) (tDie : Int) (tHbm faulty : Nat) : Bool :=
  let (w, t, c) := thermThresholds s
  let th : Int := if k = 1 then w else if k = 2 then t else c
  let hbm := if k = 2 then 95 else 105
  let enter := decide (256 * th ≤ tDie) || (decide (k ≠ 1) && decide (hbm ≤ tHbm)) || (k == 2 && decide (8 < faulty))
  let leave := decide (tDie ≤ 256 * (th - thermHyst s)) && (k == 1 || decide (tHbm ≤ hbm - 5))
  enter || (decide (k ≤ s.health.level) && !leave)

/-- The thermal level (R419). -/
def thermLevel (s : State) (tDie : Int) (tHbm faulty : Nat) : Nat :=
  if thermAt s 3 tDie tHbm faulty then 3 else if thermAt s 2 tDie tHbm faulty then 2 else if thermAt s 1 tDie tHbm faulty then 1 else 0

/-- A level is entered: its bit and its event (R419, R424). -/
def enterLevel (s : State) (k : Nat) : State :=
  match k with
  | 1 => raise (s.setFlag R.IHM_THERM_STAT 26) 318
  | 2 => raise (s.setFlag R.IHM_THERM_STAT 27) 318
  | _ => raise (s.setFlag R.IHM_THERM_STAT 28) 319

/-- At THROTTLE the units of OFFLINE_COMPOSE jobs are released and gated; a layer in progress completes first (R419, R421). -/
def releaseOffline (s : State) : State :=
  forEach (List.range 64) s (fun s q => match (s.queue q).job with
    | some j => if j.pos = 0 then releaseUnits s q else s
    | none => s)

/-- The reading of a die sensor that brings none: outside every range, so the sensor is faulty (R418). -/
def noReading : Int := 65536

/-- T_die is `v`, read by sensor `k` (R419, R422). From 128 °C on IHM_TEMP_DIE has no code for it: what the field shows then is a free value. -/
def showDie (s : State) (k : Nat) (v : Int) : State :=
  let s1 := { s with health := { s.health with die := v } }
  if v < 32768 then s1.wr R.IHM_TEMP_DIE (word ((v % 65536).toNat * 65536 + k))
  else s1.bumpFresh.wr R.IHM_TEMP_DIE (setBits (Config.freeWord s.fresh) 15 0 k)

/-- THERMAL_UPDATE (R418, R419, R422). DESIGN CHOICE: with no valid die sensor T_die stays. -/
def thermalUpdate (s : State) (t : Temps) : State :=
  if ¬ s.mgmt then s
  else
    let bad := faultySensors t.die
    let fresh := bad.filter (fun k => !s.health.faulty.contains k)
    let s1 := s.wr R.IHM_THERM_STAT (setBits (s.rd R.IHM_THERM_STAT) 15 0 (bad.map (fun k => 2 ^ k)).sum)
    let s2 := forEach fresh ({ s1 with health := { s1.health with faulty := bad } }) (fun s _ => raise (s.setFlag R.IHM_THERM_STAT 25) 318)
    let valid := (List.range 16).filter (fun k => !bad.contains k)
    let hot := valid.foldl (fun (m : Option Nat) k => match m with
      | some i => if t.die.getD i 0 < t.die.getD k 0 then some k else some i
      | none => some k) none
    let s3 := match hot with
      | some k => showDie s2 k (t.die.getD k 0)
      | none => s2
    let s4 := if t.hbm = [] then s3 else s3.wr R.IHM_TEMP_HBM (word (leNat (t.hbm.map (BitVec.ofNat 8))))
    let s5 := s4.wr R.IHM_TEMP_BOARD (word (leNat ((t.board ++ List.replicate 4 0x80#8).take 4)))
    let hb := s5.rd R.IHM_TEMP_HBM
    let tHbm := max (max (bits hb 7 0) (bits hb 15 8)) (max (bits hb 23 16) (bits hb 31 24))
    let old := s5.health.level
    let now := thermLevel s5 s5.health.die tHbm bad.length
    let s6 := ({ s5 with health := { s5.health with level := now } }).wrBits R.IHM_THERM_STAT 31 30 now
    let s7 := forEach ([1, 2, 3].filter (fun k => decide (old < k ∧ k ≤ now))) s6 enterLevel
    if 2 ≤ now then releaseOffline s7 else pump s7

def execThermalUpdate (t : Temps) (s : State) : Host.Outcome State Fault Refusal :=
  runOn [.store, .queues, .health] s (fun s => thermalUpdate s { t with die := (t.die ++ List.replicate 16 noReading).take 16, hbm := t.hbm.take 4 })

/-- The DisplayPort links that emit go to SAFE_OFF (R420). -/
def dpAllOff (s : State) : State :=
  forEach (List.range 16) s (fun s d => if dpLink s d = 0 then s else s.wrBits (R.OWB_Ddd_STAT d) 31 29 Link.SAFE_OFF)

/-- The transmit streams go to OFF, what is queued for them discarded (R420). -/
def txAllOff (s : State) : State :=
  forEach (List.range 64) s (fun s st =>
    let t := s.txs st
    let s' := withForce (fun s => cutStream s st) (dropFrames s t.port (fun f => decide (f.stream ≠ some st)))
    txStatus (s'.setTxs st { s'.txs st with sending := false, state := 0, err := 0 }) st)

/-- The receive streams go to OFF (R420). -/
def rxAllOff (s : State) : State :=
  forEach (List.range 256) s (fun s i =>
    if (s.rxs i).state = 0 then s else rxStatus (s.setRxs i { s.rxs i with state := 0, err := 0, frames := [] }) i)

/-- The core's supply goes to its lowest value, the memory to self-refresh (R420). -/
def supplyOff (s : State) : State :=
  let w := avsWindow s
  let s1 := ({ s with health := { s.health with target := w.1 }, store := { s.store with selfRefresh := true } }).emit (.avs w.1)
  { (avsShow s1 (bits (s1.rd R.IHM_AVS_STAT) 9 0)).setFlag R.IHM_THERM_STAT 29 with dead := true }

/-- THERMAL_SHUTDOWN (R420). DEDUCED: a port in electrical idle shows SAFE_OFF, a stopped stream OFF. -/
def thermalShutdown (s : State) : State := supplyOff (rxAllOff (txAllOff (dpAllOff (raise s 319))))

def execThermalShutdown (s : State) : Host.Outcome State Fault Refusal :=
  runOn [.power, .store, .receive, .health] s (fun s => if s.mgmt then thermalShutdown s else s)

end Sys2Proof.Machine
end

