-- ==== Sys2Proof/Machine/Effects.lean ====
section
/-!
DEFINITION. What a write does when it takes effect in its unit (R353): one handler per register that does more than hold a value, one
per indirect space that can be written.
-/
namespace Sys2Proof.Machine

/-- A write takes effect in a register that has behaviour: where its instances lie, and what the unit does. The value is the one
the write leaves in RW fields, and the one written in WO fields. -/
structure Handler where
  base : Nat
  stride : Nat
  count : Nat
  /-- Parts of the state it may change beside the values in force. -/
  parts : List Part
  act : State → Writer → Nat → Word → State

/-- The instance of a handler at a byte offset. -/
def Handler.indexAt (h : Handler) (o : Nat) : Option Nat :=
  if h.base ≤ o ∧ (o - h.base) % h.stride = 0 ∧ (o - h.base) / h.stride < h.count then some ((o - h.base) / h.stride) else none

/-- The RW fields of a register come into force (R189). -/
def putRw (s : State) (o : Nat) (v : Word) : State :=
  match findRow o with
  | some r => s.setCfg o (v &&& r.rw)
  | none => s

/-- GLB, HWQ (R332, R339, R340, R317, R318). -/
def handlersHwq : List Handler := [
  ⟨R.GLB_FUNC_RESET, 4, 1, [.queues], fun s _ _ v => funcResetEffect s v⟩,
  ⟨R.HWQ_Fk_EVR_CFG 0, 0x80, 2, [], fun s _ k v => evrCfgEffect (putRw s (R.HWQ_Fk_EVR_CFG k) v) k v⟩,
  ⟨R.HWQ_Fk_EVR_CONS 0, 0x80, 2, [], fun s _ k v => evrConsEffect (putRw s (R.HWQ_Fk_EVR_CONS k) v) k⟩,
  ⟨R.HWQ_Qnn_CFG 0, 0x40, 64, [.queues], fun s _ q v => queueCfgEffect (putRw s (R.HWQ_Qnn_CFG q) v) (s.cfg (R.HWQ_Qnn_CFG q)) q⟩,
  ⟨R.HWQ_Qnn_PROD 0, 0x40, 16, [.queues], fun s _ q v => ringDoorbell (putRw s (R.HWQ_Qnn_PROD q) v) q⟩,
  ⟨R.HWQ_Qnn_DB 0, 0x40, 64, [.queues], fun s _ q _ => ringDoorbell s q⟩]

/-- IHM: collector, integrity, host CRC units, health (R366, R377, R380, R382, R391, R394, R396, R406, R412). -/
def handlersIhm : List Handler := [
  ⟨R.IHM_PHASE, 4, 1, [], fun s _ _ v => setPhase s (bits v 1 0)⟩,
  ⟨R.IHM_FC_CLEAR, 4, 1, [], fun s _ _ v => fcClearEffect s v⟩,
  ⟨R.IHM_SCOPE_MASKn 0, 4, 4, [], fun s _ n v => rewritten (putRw s (R.IHM_SCOPE_MASKn n) v) [320 + n]⟩,
  ⟨R.IHM_HISTq_CTRL 0, 8, 4, [], fun s _ q v => histCtrlEffect s q v⟩,
  ⟨R.IHM_INJ, 4, 1, [], fun s _ _ v => injEffect (putRw s R.IHM_INJ v) v⟩,
  ⟨R.IHM_CFGCRC_CTRL, 4, 1, [], fun s _ _ v => crcCtrlEffect (putRw s R.IHM_CFGCRC_CTRL v) v⟩,
  ⟨R.IHM_CFGCRC_REF, 4, 1, [], fun s _ _ v => crcRefEffect s v⟩,
  ⟨R.IHM_CRCUu_CTRL 0, 0x40, 4, [], fun s _ u v => crcuCtrlEffect s u v⟩,
  ⟨R.IHM_CRCUu_POLY 0, 0x40, 4, [], fun s _ u v => s.setCfg (R.IHM_CRCUu_POLY u) v⟩,
  ⟨R.IHM_CRCUu_INIT 0, 0x40, 4, [], fun s _ u v => s.setCfg (R.IHM_CRCUu_INIT u) v⟩,
  ⟨R.IHM_CRCUu_XOROUT 0, 0x40, 4, [], fun s _ u v => s.setCfg (R.IHM_CRCUu_XOROUT u) v⟩,
  ⟨R.IHM_CRCUu_DATA8 0, 0x40, 4, [], fun s _ u v => crcuDataEffect s u 1 v⟩,
  ⟨R.IHM_CRCUu_DATA16 0, 0x40, 4, [], fun s _ u v => crcuDataEffect s u 2 v⟩,
  ⟨R.IHM_CRCUu_DATA32 0, 0x40, 4, [], fun s _ u v => crcuDataEffect s u 4 v⟩,
  ⟨R.IHM_CARRY_CMD, 4, 1, [.health], fun s _ _ v => carryCmdEffect s v⟩,
  ⟨R.IHM_UNIT_CMD, 4, 1, [.store, .queues, .outputs, .compose, .health], fun s _ _ v => unitCmdEffect s v⟩]

/-- TRS (R279, R281, R284, R298, R299). -/
def handlersTrs : List Handler := [
  ⟨R.TRS_REF_CTRL, 4, 1, [.outputs, .timing], fun s _ _ v => refCtrlEffect (putRw s R.TRS_REF_CTRL v) v⟩,
  ⟨R.TRS_REF_PRIOk 0, 4, 3, [.outputs, .timing], fun s _ k v => evalRefs (putRw s (R.TRS_REF_PRIOk k) v)⟩,
  ⟨R.TRS_REFINx_CTRL 0, 8, 2, [.outputs, .timing], fun s _ i v => refinEffect (putRw s (R.TRS_REFINx_CTRL i) v) s i⟩,
  ⟨R.TRS_REFINx_PER 0, 8, 2, [.outputs, .timing], fun s _ i v => refinEffect (putRw s (R.TRS_REFINx_PER i) v) s i⟩,
  ⟨R.TRS_TOD_SET_LO, 4, 1, [.timing], fun s _ _ v => { s with trs := { s.trs with todLo := v } }⟩,
  ⟨R.TRS_TOD_SET_HI, 4, 1, [.timing], fun s _ _ v => todEffect s v⟩,
  ⟨R.TRS_SYNC_CTRL, 4, 1, [], fun s _ _ v => syncCtrlEffect (putRw s R.TRS_SYNC_CTRL v) v⟩,
  ⟨R.TRS_BSL_CTRL, 4, 1, [.outputs, .timing], fun s _ _ v => bslCtrlEffect (putRw s R.TRS_BSL_CTRL v)⟩]

/-- SEQ_Gn_COMMIT: CMD and TAG (R192, R195, R213). -/
def commitWrite (s : State) (w : Writer) (g : Nat) (v : Word) : State :=
  match bits v 1 0 with
  | 1 => commitEffect s w.priv g (bits v 31 16)
  | 2 => cancelEffect s w.m w.priv g (bits v 31 16)
  | _ => s

/-- SEQ, SSP and FSH (R93, R184, R192). -/
def handlersCore : List Handler := [
  ⟨R.FSH_RA_WM, 4, 1, [.compose], fun s _ _ v => raLevel (putRw s R.FSH_RA_WM v)⟩,
  ⟨R.SEQ_Gn_COMMIT 0, 0x40, 8, [.compose], commitWrite⟩,
  ⟨R.SSP_RETIRE_CMD, 4, 1, [.store, .queues, .outputs, .compose], fun s _ _ v => pcJobs (fun s => sspRetireEffect s v) s⟩]

/-- OWB_Hnn_SAFE_CTRL written (R240, R241). -/
def safeCtrlWrite (s : State) (h : Nat) (v : Word) : State :=
  safeCtrlEffect (putRw s (R.OWB_Hnn_SAFE_CTRL h) v) h (s.cfg (R.OWB_Hnn_SAFE_CTRL h)) (bit v 12)

/-- OWB: heads and DisplayPort ports (R221, R226, R229, R234, R240). -/
def handlersOwb : List Handler := [
  ⟨R.OWB_Hnn_RESET 0, 0x2000, 32, [.outputs, .compose], fun s _ h v => if bit v 0 then headResetEffect s h else s⟩,
  ⟨R.OWB_Hnn_SAFE_CTRL 0, 0x2000, 32, [], fun s _ h v => safeCtrlWrite s h v⟩,
  ⟨R.OWB_Hnn_WB_CTRL 0, 0x2000, 32, [.outputs], fun s _ h v =>
    let s1 := putRw s (R.OWB_Hnn_WB_CTRL h) v
    s1.setHead h { s1.head h with wb := { (s1.head h).wb with recheck := true } }⟩,
  ⟨R.OWB_Ddd_CTRL 0, 0x1000, 16, [.outputs], fun s _ d v => dpCtrlEffect (putRw s (R.OWB_Ddd_CTRL d) v) d (s.cfg (R.OWB_Ddd_CTRL d))⟩,
  ⟨R.OWB_Ddd_AUX_CMD 0, 0x1000, 16, [.outputs], fun s _ d v => auxCmdEffect s d v⟩]

/-- NMP (R248, R250, R266, R267, R270). -/
def handlersNmp : List Handler := [
  ⟨R.NMP_Pnn_CTRL 0, 0x4000, 16, [.outputs, .timing], fun s _ p v => portCtrlEffect (putRw s (R.NMP_Pnn_CTRL p) v) (s.cfg (R.NMP_Pnn_CTRL p)) p⟩,
  ⟨R.NMP_Pnn_RESET 0, 0x4000, 16, [.outputs, .timing], fun s _ p v => if bit v 0 then portReset s p else s⟩,
  ⟨R.NMP_Pnn_GCL_CTRL 0, 0x4000, 16, [], fun s _ p v => gclCtrlEffect s p v⟩,
  ⟨R.NMP_Pnn_GCL_BASE_LO 0, 0x4000, 16, [], fun s _ p v => s.setCfg (R.NMP_Pnn_GCL_BASE_LO p) v⟩,
  ⟨R.NMP_Pnn_GCL_BASE_HI 0, 0x4000, 16, [], fun s _ p v => s.setCfg (R.NMP_Pnn_GCL_BASE_HI p) v⟩,
  ⟨R.NMP_Pnn_PTP_CTRL 0, 0x4000, 16, [.outputs, .timing], fun s _ p v =>
    ptpCtrlEffect (putRw s (R.NMP_Pnn_PTP_CTRL p) v) (s.cfg (R.NMP_Pnn_PTP_CTRL p)) p⟩]

/-- Every register with behaviour of its own, LDR and the per-master registers apart. -/
def handlers : List Handler :=
  handlersHwq ++ handlersIhm ++ handlersTrs ++ handlersCore ++ handlersOwb ++ handlersNmp

/-- A write of a register takes effect: a decked setting in its pending deck, where it waits for a commit (R188, R189). -/
def regEffect (s : State) (w : Writer) (o : Nat) (v : Word) : State :=
  match handlers.findSome? (fun h => (h.indexAt o).map (fun i => (h, i))) with
  | some (h, i) => keeping (.force :: h.parts) s (h.act s w i v)
  | none =>
    match findRow o with
    | some r => if r.cls = .group ∨ r.cls = .disruptive then storeDeckReg s r o v else keeping [.force] s (putRw s o v)
    | none => s

-- Words of indirect spaces.

/-- A word of QRING is written: it reads clean again. -/
def qringWrite (s : State) (a : Nat) (v : Word) : State :=
  let k := skey Space.QRING a
  let s1 := s.setSp k v
  { s1 with failing := s1.failing.filter (· ≠ k) }

/-- Parts of the state that a write to a space may change. -/
def spaceParts (code : Nat) : List Part :=
  if code = Space.FENCE then [.compose] else if code = Space.NMP_RXS then [.store, .compose, .receive] else []

/-- A space whose words are decked (R188). -/
def deckedSpace (code : Nat) : Bool := match findSpace code with
  | some p => p.decked
  | none => false

/-- A write of a word of a space takes effect: of a decked space in its pending copy; read-only spaces never change so. -/
def spaceEffect (s : State) (code a : Nat) (v : Word) : State :=
  keeping (spaceParts code) s <|
  if deckedSpace code then storeDeckWord s code a v
  else if code = Space.FLASH_PAGE then s.setSpw code a v
  else if code = Space.FENCE then (if a % 2 = 0 then fenceWrite s (a / 2) v else s)
  else if code = Space.LAYER_SRC then (if a % 2 = 1 then s.setSpw code a 0#32 else s)
  else if code = Space.LAYER_CNT then layerCntEffect s a
  else if code = Space.COEF then coefEffect s a v
  else if code = Space.SAFE_FRAME then safeFrameEffect s a v
  else if code = Space.NMP_RXS then rxConfigEffect s a v
  else if code = Space.NMP_RXC then nmpClearEffect s false a
  else if code = Space.NMP_TXS then txConfigEffect s a v
  else if code = Space.NMP_TXC then nmpClearEffect s true a
  else if code = Space.NMP_GCL then
    (if 256 ≤ a % 512 then s else if (s.port (a / 512)).pend.isSome then gclDeny s (a / 512) else s.setSpw code a (v &&& 0xE0FFFFFF#32))
  else if code = Space.BAND then s.setSpw code a (if a % 2 = 1 then v &&& 0x1FF#32 else v)
  else if code = Space.QRING then qringWrite s a v
  else if code = Space.FC_SRC then fcSrcEffect s a v
  else s

end Sys2Proof.Machine
end

