-- ==== Sys2Proof/Machine/Accept.lean ====
section
/-!
DEFINITION. The acceptance of a register write (R188, R314, R317, R339, R347, R353, R354): what the mirror then shows, what is counted,
and the value that goes on to the unit.
-/
namespace Sys2Proof.Machine

/-- A gate-list application of port `p` is pending, or will be once the writer's earlier writes have taken effect (R266, R369). -/
def gclPendAhead (s : State) (w : Writer) (p : Nat) : Bool :=
  (s.master w.m).wq.foldl (fun pend q =>
    if q.indirect ∨ q.at_ ≠ R.NMP_Pnn_GCL_CTRL p then pend
    else if pend then !bit q.v 29
    else bit q.v 30 && gclLenOk (bits q.v 8 0)) (s.port p).pend.isSome

/-- The check of R366 is armed, or will be once the writer's earlier writes have taken effect. -/
def armAhead (s : State) (w : Writer) : Bool :=
  (s.master w.m).wq.foldl (fun armed q => if ¬ q.indirect ∧ q.at_ = R.IHM_CFGCRC_CTRL then bit q.v 0 else armed) s.col.armed

/-- Port of a gate-list register: its number, and whether it is GCL_CTRL rather than GCL_BASE. -/
def gclReg (o : Nat) : Option (Nat × Bool) :=
  (List.range 16).findSome? (fun p =>
    if o = R.NMP_Pnn_GCL_CTRL p then some (p, true)
    else if o = R.NMP_Pnn_GCL_BASE_LO p ∨ o = R.NMP_Pnn_GCL_BASE_HI p then some (p, false) else none)

/-- A write to a gate-list register (R266): what is ignored is decided as it is accepted (R38). -/
def gclHeld (s : State) (w : Writer) (p : Nat) (ctrl : Bool) (v wo : Word) : State × Option (Word × Word) :=
  if gclPendAhead s w p then
    if ¬ ctrl then (gclDeny s p, none)
    else
      let old := s.rd (R.NMP_Pnn_GCL_CTRL p)
      let x := gclFixed old v
      (if gclIgnored old (v ||| wo) then gclDeny s p else s, some (x, wo &&& 0x20000000#32))
  else (s, some (v, if ctrl then wo &&& ~~~0x20000000#32 else wo))

/-- The rules some registers add for the value a write leaves, and for what it writes to WO fields; none when the write is ignored (R266,
R314, R317, R339, R343, R366). -/
def heldValue (s : State) (w : Writer) (o : Nat) (v wo : Word) : State × Option (Word × Word) :=
  match regQueue o with
  | some q =>
    if (queueHeld o).isSome ∧ queueEn s q then (s.setFlag (R.HWQ_Qnn_STAT q) 2, none)
    else if o = R.HWQ_Qnn_PROD q ∧ ¬ boardQueue q then (s, none)
    else if o = R.HWQ_Qnn_BASE_LO q ∧ boardQueue q then (s, some (v &&& 0x3FFF#32, wo))
    else if o = R.HWQ_Qnn_CFG q then let r := queueCfgValue s q v; (r.2, some (r.1, wo))
    else (s, some (v, wo))
  | none =>
    if R.HWQ_QMAP0 ≤ o ∧ o ≤ R.HWQ_QMAP2 then (s, some (qmapValue s ((o - R.HWQ_QMAP0) / 4) (s.rd o) v, wo))
    else if o = R.IHM_CFGCRC_REF ∧ armAhead s w then (s.setFlag R.IHM_CFGCRC_STAT 26, none)
    else match gclReg o with
      | some (p, ctrl) => gclHeld s w p ctrl v wo
      | none => (s, some (v, wo))

/-- A write of `v` to the register `r` at `o` is accepted or refused: the state with the mirror and the counts, and the value for the
unit (RW fields as they then stand, WO fields as written), none when the write goes no further. -/
def acceptReg (s : State) (w : Writer) (r : RegRow) (o : Nat) (v : Word) : State × Option Word :=
  match regVerdict s w r o v with
  | .nothing => (s, none)
  | .owner => (denyOwner s, none)
  | .privilege => (denyPriv s w.m w.job (logOfReg o), none)
  | .deck g => (denyDeck s g false, none)
  | .store new =>
    match heldValue s w o new (v &&& r.wo) with
    | (s1, none) => (s1, none)
    | (s1, some (x, wo)) => (s1.wr o x, some ((x &&& r.rw) ||| wo))

end Sys2Proof.Machine
end

