-- ==== Sys2Proof/Machine/Loader.lean ====
section
/-!
DEFINITION. The loader (02_startup_image.md): the Lyside image, choosing and loading a copy, the release sequence, RELOAD, and the
flash update commands.
-/
namespace Sys2Proof.Machine

-- State and registers of the loader (R63, R64).

/-- LDR_STAT shows the loader's state and the copy in use. -/
def ldrShow (s : State) : State :=
  s.wr R.LDR_STAT (setBits (setBits (s.rd R.LDR_STAT) 3 0 s.ldr.state.code) 9 8 s.ldr.copy)

def setLdr (s : State) (x : Ldr) : State := ldrShow { s with ldr := x }

/-- The loader enters a state. -/
def ldrEnter (s : State) (st : LdrState) : State := setLdr s { s.ldr with state := st }

/-- Copy 1 A, 2 B. -/
def Ldr.info (x : Ldr) (i : Nat) : CopyInfo := if i = 1 then x.copyA else x.copyB
def Ldr.setInfo (x : Ldr) (i : Nat) (c : CopyInfo) : Ldr := if i = 1 then { x with copyA := c } else { x with copyB := c }
def genReg (i : Nat) : Nat := if i = 1 then R.LDR_A_GEN else R.LDR_B_GEN
def errReg (i : Nat) : Nat := if i = 1 then R.LDR_A_ERR else R.LDR_B_ERR

/-- A copy is found invalid: CODE, SECTION, and LDR_COPY_INVALID (R54, R60). -/
def copyInvalid (s : State) (i code typ : Nat) : State := raise (s.wr (errReg i) (word (typ * 256 + code))) 0

-- Header and section table (R49, R50, R53).

structure Section where
  typ : Nat
  off : Nat
  len : Nat
  crc : Nat
  /-- Bytes 1 to 3 of the entry are zero. -/
  clean : Bool
  deriving DecidableEq, Repr

def pageGeneration (page : List Byte) : Nat := le page 0x08 4
def pageFlags (page : List Byte) : Nat := le page 0x14 2
def startHoldMs (page : List Byte) : Nat := le page 0x16 2
def lockWaitMs (page : List Byte) : Nat := le page 0x18 2
def pageCrcRef (page : List Byte) : Nat := le page 0x1C 4

def sectionAt (page : List Byte) (i : Nat) : Section :=
  let e := slice page (0x40 + 16 * i) 16
  ⟨byteAt e 0, le e 4 4, le e 8 4, le e 12 4, allZero (slice e 1 3)⟩

/-- The entries of the section table. -/
def sectionsOf (page : List Byte) : List Section := (List.range (min 10 (le page 0x06 2))).map (sectionAt page)

/-- Conditions of R50 and R51 on one entry. -/
def sectionOk (copyLen : Nat) (x : Section) : Bool :=
  x.clean && decide (1 ≤ x.typ ∧ x.typ ≤ 10 ∧ x.off % 256 = 0 ∧ 0x100 ≤ x.off ∧ 1 ≤ x.len ∧ x.off + x.len ≤ copyLen)

/-- Conditions of R50 between entries: ascending types, no overlap. -/
def sectionsApart : List Section → Bool
  | [] => true
  | x :: xs => xs.all (fun y => decide (x.typ < y.typ) && !overlap x.off x.len y.off y.len) && sectionsApart xs

/-- The table meets R50 and its CRC (R49); `half` is half the density in bytes. -/
def tableOk (half : Nat) (page : List Byte) : Bool :=
  let n := le page 0x06 2
  let len := le page 0x0C 4
  decide (1 ≤ n ∧ n ≤ 10 ∧ len ≤ half) && crc32c (slice page 0x40 (16 * n)) == le page 0x2C 4
    && (sectionsOf page).all (sectionOk len) && sectionsApart (sectionsOf page)

/-- The image is for this device (R53). -/
def targetOk (s : State) (page : List Byte) : Bool :=
  decide (le page 0x10 2 = 0x5120 ∧ byteAt page 0x12 ≤ bits s.variant.deviceId 23 16)
    && (byteAt page 0x13).testBit (if s.variant.isH96 then 0 else 1)

/-- A header as R53 judges it: 0 for a candidate, else a code of R54. DESIGN CHOICE: a header that fails both TARGET and TABLE reports
TARGET. -/
def headerCode (s : State) (half : Nat) (page : List Byte) : Nat :=
  if ¬ (le page 0 4 = 0x4453594C ∧ le page 4 2 = 1) then 0x02
  else if crc32c (slice page 0 0x3C) ≠ le page 0x3C 4 then 0x03
  else if ¬ targetOk s page then 0x04
  else if ¬ tableOk half page then 0x05
  else 0

/-- A copy is judged by its page 0 (R53, R54, R63). -/
def judgeCopy (s : State) (half i : Nat) (page : List Byte) : State :=
  let c := headerCode s half page
  if c = 0 then
    ({ s with ldr := s.ldr.setInfo i ⟨true, false, pageGeneration page, page⟩ }.wr (genReg i)
      (word (pageGeneration page))).wr (errReg i) 1#32
  else copyInvalid ({ s with ldr := s.ldr.setInfo i ⟨false, false, 0, page⟩ }.wr (genReg i) 0#32) i c 0

-- Choosing a copy (R53).

/-- The copies still to try. -/
def Ldr.untried (x : Ldr) (i : Nat) : Bool := (x.info i).candidate && !(x.info i).tried

/-- The copy tried next: the higher GENERATION, A first when they are equal. -/
def Ldr.nextCopy (x : Ldr) : Option Nat :=
  if x.untried 1 ∧ (¬ x.untried 2 ∨ x.copyB.generation ≤ x.copyA.generation) then some 1
  else if x.untried 2 then some 2 else none

/-- No candidate remains (R53, R60). -/
def noImage (s : State) : State :=
  raise (setLdr s { s.ldr with state := .noImage, copy := 0, held := none, trsOn := true, crcWait := 0 }) 2

/-- The next candidate is loaded, or the loader enters NO_IMAGE. -/
def tryNext (s : State) : State :=
  match s.ldr.nextCopy with
  | none => noImage s
  | some i =>
    let second := s.ldr.copyA.tried || s.ldr.copyB.tried
    let c := s.ldr.info i
    let x := s.ldr.setInfo i { c with tried := true }
    let s1 := setLdr s { x with state := .load, copy := i, sec := 0, held := none, dirty := false, dqs := 0, crcWait := 0 }
    if second then raise s1 1 else s1

/-- Half the density in bytes; the density is log2 of Mbit (R47, R64). While SFDP has not been read (density 0: WAIT_HOST), it is that of
the flash attached, whichever that is. -/
def halfOfFlash (density : Nat) : Nat := if density = 0 then Config.flashHalf else 2 ^ density * 65536

/-- Both copies are invalid with code FLASH (R47). -/
def noFlash (s : State) : State :=
  let lose (s : State) (i : Nat) : State :=
    copyInvalid ({ s with ldr := s.ldr.setInfo i CopyInfo.reset }.wr (genReg i) 0#32) i 0x0A 0
  noImage (lose (lose (s.wrBits R.LDR_STAT 19 10 0) 1) 2)

/-- LDR_HEADERS_READ (R44 step 3, R46, R47, R53): a failed 8D entry is reported, and the loader goes on in 1S. -/
def headersRead (s : State) (density : Option Nat) (octal : Bool) (pageA pageB : List Byte) : State :=
  if s.ldr.state ≠ .probe ∨ s.ldr.reloading then s
  else match density with
    | none => noFlash s
    | some d =>
      if d < 9 ∨ 12 < d then noFlash s
      else
        let mode := if octal ∧ ¬ s.ldr.slow then 2 else 1
        let s1 := (s.wrBits R.LDR_STAT 19 16 d).wrBits R.LDR_STAT 11 10 mode
        let s2 := if octal ∨ s.ldr.slow then s1 else raise s1 3
        tryNext (judgeCopy (judgeCopy s2 (halfOfFlash d) 1 pageA) (halfOfFlash d) 2 pageB)

def execLdrHeadersRead (density : Option Nat) (octal : Bool) (pageA pageB : List Byte) (s : State) :
    Host.Outcome State Fault Refusal :=
  runOn [.loader] s (fun s => headersRead s density octal (sized 256 pageA) (sized 256 pageB))

-- Records (R51, R52).

/-- Who makes the loader's writes: they are privileged (R52). -/
def loaderWriter : Writer := ⟨.lmp, true, false, []⟩

/-- Registers a write record must not target (R52). -/
def recordBanned (o : Nat) : Bool :=
  decide (0x10000 ≤ o ∧ o < 0x20000) || decide (0x300000 ≤ o)
    || [R.GLB_FUNC_RESET, R.IHM_INJ, R.IHM_CFGCRC_REF, R.IHM_CFGCRC_CTRL].contains o
    || (List.range 8).any (fun g => o == R.SEQ_Gn_COMMIT g)
    || (match regQueue o with
      | some q => [R.HWQ_Qnn_PROD q, R.HWQ_Qnn_CONS q, R.HWQ_Qnn_DB q].contains o
      | none => false)

/-- The state after the records applied, and whether all of them kept R52: those ahead of a bad one have been applied (R55). -/
abbrev Applied := State × Bool

/-- Go on with the next record unless one has broken R52. -/
def Applied.next (r : Applied) (f : State → Applied) : Applied := if r.2 then f r.1 else r

/-- One write record (R52). Each master has its own GLB_VIEW, the loader has none. -/
def applyWriteRecord (s : State) (o : Nat) (v : Word) : Applied :=
  match findRow o with
  | none => (s, false)
  | some r =>
    if o % 4 ≠ 0 ∨ recordBanned o ∨ (r.rw ||| r.wo) = 0#32 then (s, false)
    else if o = R.GLB_VIEW then (s, true)
    else match acceptReg s loaderWriter r o v with
      | (s1, some x) => (regEffect s1 loaderWriter o x, true)
      | (s1, none) => (s1, true)

/-- Write records in order; `n` counts them. -/
def applyWriteRecords : Nat → List Byte → State → Applied
  | 0, _, s => (s, true)
  | n + 1, bs, s => (applyWriteRecord s (le bs 0 4) (word (le bs 4 4))).next (applyWriteRecords n (bs.drop 8))

/-- Spaces a section type allows (R51). -/
def sectionSpaces (typ : Nat) : List Nat :=
  match typ with
  | 2 => [Space.BAND]
  | 3 => [Space.COEF]
  | 4 => [Space.LUT_EOTF, Space.LUT_3D, Space.LUT_OETF]
  | 5 => [Space.SAFE_FRAME]
  | 8 => [Space.LAYER_DESC]
  | 9 => [Space.RECKON]
  | 10 => [Space.TALLY_REGION, Space.TALLY_EXP]
  | _ => []

/-- One word of an indirect record. -/
def applySpaceWord (s : State) (code a : Nat) (v : Word) : State :=
  match findSpace code with
  | some x => if x.decked then storeDeckWord s code a v else spaceEffect s code a v
  | none => s

/-- Indirect records one after another (R52). The first argument bounds their number. -/
def applySpaceRecords (typ : Nat) : Nat → List Byte → State → Applied
  | _, [], s => (s, true)
  | 0, _ :: _, s => (s, false)
  | n + 1, b :: bs, s =>
    let r := b :: bs
    let code := le r 0 2
    let a := le r 4 4
    let k := le r 8 4
    match findSpace code with
    | none => (s, false)
    | some x =>
      if r.length < 12 + 4 * k ∨ k = 0 ∨ le r 2 2 ≠ 0 ∨ ¬ (sectionSpaces typ).contains code ∨ x.words < a + k then (s, false)
      else applySpaceRecords typ n (r.drop (12 + 4 * k))
        (forEach (List.range k) s (fun s i => applySpaceWord s code (a + i) (word (le r (12 + 4 * i) 4))))

/-- One job entry of SURFACES (type 2) or PLACEMENT_PINS (type 10); it breaks R52 when it would complete with an error. The handle has no
owning job (R76). -/
def applyJobEntry (s : State) (typ : Nat) (e : List Byte) : Applied :=
  if ¬ (entryType e = typ ∧ entryFirst e ∧ entryLast e ∧ entryClean typ true e) then (s, false)
  else if typ = Typ.SURFACE_ALLOC then
    let r := allocSurface s (le e 16 2) (le e 18 2) (le e 20 2) (byteAt e 22) (pinRec (slice e 32 32)) 0 0 false
    if r.1 = Code.OK then (clearFence { r.2 with store := { r.2.store with owner := s.store.owner } } (le e 16 2), true) else (s, false)
  else
    let r := pinHintStart s (le e 16 2) (pinRec (slice e 32 32))
    if r.1 = Code.OK then (r.2, true) else (s, false)

/-- Job entries in order; `n` counts them. -/
def applyJobEntries (typ : Nat) : Nat → List Byte → State → Applied
  | 0, _, s => (s, true)
  | n + 1, bs, s => (applyJobEntry s typ (slice bs 0 64)).next (applyJobEntries typ n (bs.drop 64))

/-- The whole records of a section (R51, R52, R55); bytes left over make it break R52. -/
def applyRecords (s : State) (typ : Nat) (data : List Byte) : Applied :=
  let whole (n : Nat) (r : Applied) : Applied := (r.1, r.2 && decide (data.length % n = 0))
  if typ = 1 then whole 8 (applyWriteRecords (data.length / 8) data s)
  else if typ = 6 ∨ typ = 7 then
    whole 64 (applyJobEntries (if typ = 6 then Typ.SURFACE_ALLOC else Typ.PIN_HINT) (data.length / 64) data s)
  else applySpaceRecords typ data.length data s

-- Loading (R55, R56).

/-- TRS starts reference selection and pixel PLL band search with the loaded settings (R56). -/
def trsStart (s : State) : State :=
  if s.ldr.trsOn then s
  else
    forEach (List.range 8) (evalRefs { s with ldr := { s.ldr with trsOn := true } }) (fun s g =>
      let f := groupFreq s.dk g
      if (s.pll g).state = 0 ∧ 25000000 ≤ f ∧ f ≤ 4400000000 then startSearch s g else s)

/-- The loader gives a copy up and enters SCRUB (R55). -/
def failCopy (s : State) (code typ : Nat) : State :=
  let s1 := copyInvalid s s.ldr.copy code typ
  setLdr s1 { s1.ldr with state := .scrub, held := none, crcWait := 0 }

/-- The sections of the copy being loaded. -/
def loadSections (s : State) : List Section := sectionsOf (s.ldr.info s.ldr.copy).page

/-- The next section, or SETTLE after the last (R56, R57). -/
def sectionDone (s : State) (typ : Nat) : State :=
  let s1 := if typ = 2 then trsStart s else s
  let n := s1.ldr.sec + 1
  if n < (loadSections s1).length then { s1 with ldr := { s1.ldr with sec := n, dqs := 0 } }
  else let s2 := trsStart s1; setLdr s2 { s2.ldr with sec := n, dqs := 0, state := .settle }

/-- A section's records are applied, then its CRC is known (R52, R54, R55). -/
def applySection (s : State) (x : Section) (data : List Byte) : State :=
  let s0 := { s with ldr := { s.ldr with dirty := true, held := none } }
  let r := applyRecords s0 x.typ data
  if ¬ r.2 then failCopy r.1 0x07 x.typ
  else if crc32c data ≠ x.crc then failCopy r.1 0x06 x.typ
  else sectionDone r.1 x.typ

/-- LDR_SECTION_DONE: a section of the wrong length is no read of it; SURFACES waits for HBM training (R55, R56). -/
def sectionRead (s : State) (data : List Byte) : State :=
  match s.ldr.state, s.ldr.held, (loadSections s)[s.ldr.sec]? with
  | .load, none, some x =>
    if data.length ≠ x.len then s
    else if (x.typ = 6 ∨ x.typ = 7) ∧ ¬ s.store.trained then { s with ldr := { s.ldr with held := some data } }
    else applySection s x data
  | _, _, _ => s

def execLdrSectionDone (data : List Byte) (s : State) : Host.Outcome State Fault Refusal := runOn [.store, .force, .loader, .queues, .outputs, .compose, .receive, .timing, .health] s (fun s => sectionRead s data)

/-- HBM_TRAINING_DONE (R56, R70): it ends once after PORST_N; a section that waited is applied. -/
def hbmReady (s : State) (failed : List Nat) : State :=
  if s.store.trained ∨ ¬ s.mgmt then s
  else
    let s1 := hbmTrainingEffect s failed
    match s1.ldr.held, (loadSections s1)[s1.ldr.sec]? with
    | some data, some x => applySection s1 x data
    | _, _ => s1

def execHbmTrainingDone (failed : List (Fin 128)) (s : State) : Host.Outcome State Fault Refusal :=
  runOn [.store, .force, .loader, .queues, .outputs, .compose, .receive, .timing, .health] s (fun s => hbmReady s ((failed.map (·.val)).eraseDups))

-- Settings return to reset (R55, R454).

/-- Read-only registers, or fields of them, that show what settings drive: the bits of each that a return to reset keeps. -/
def stateRegs : List (Nat × Nat × Nat × Nat × Word) :=
  -- base, stride, instances, registers that follow, bits kept
  [(R.SEQ_Gn_COMMIT_STAT 0, 0x40, 8, 1, 0#32), (R.SEQ_Gn_TABLE_STAT 0, 0x40, 8, 1, 0xFFFF0000#32),
   (R.SEQ_Gn_LSET_USED 0, 0x40, 8, 1, 0#32), (R.NMP_Pnn_GCL_STAT 0, 0x4000, 16, 1, 0x10000000#32),
   (R.NMP_Pnn_GCL_CYCLE 0, 0x4000, 16, 1, 0#32), (R.NMP_Pnn_PTP_STAT 0, 0x4000, 16, 3, 0#32),
   (R.NMP_Pnn_PTP_GM_LO 0, 0x4000, 16, 2, 0#32), (R.NMP_Pnn_STAT 0, 0x4000, 16, 1, 0#32),
   (R.NMP_Pnn_STATE 0, 0x4000, 16, 1, 0#32), (R.NMP_Pnn_WM_TXQ 0, 0x4000, 16, 1, 0xFFFFFEFF#32),
   (R.OWB_Ddd_AUX_STAT 0, 0x1000, 16, 1, 0#32), (R.OWB_Hnn_WB_STAT 0, 0x2000, 32, 1, 0#32),
   (R.OWB_Hnn_WM_LOW 0, 0x2000, 32, 1, 0xFFFFFEFF#32), (R.HWQ_Qnn_STAT 0, 0x40, 64, 1, 0x1FFFFFFF#32),
   (R.HWQ_Fk_EVR_PROD 0, 0x80, 2, 1, 0#32), (R.FSH_Wc_CREDIT 0, 0x20, 4, 1, 0#32),
   (R.FSH_Wc_WM_BACKLOG 0, 0x20, 4, 1, 0xFFFFFEFF#32), (R.FSH_Wc_PENDING 0, 0x20, 4, 1, 0#32),
   (R.FSH_RA_LEVEL, 4, 1, 1, 0#32), (R.FSH_WM_RA, 4, 1, 1, 0xFFFFFEFF#32), (R.FSH_Gn_WM_SLACK 0, 0x20, 8, 1, 0xFFFFFEFF#32),
   (R.IHM_INJ_STAT, 4, 1, 1, 0x7F0FFFFF#32), (R.IHM_CFGCRC_STAT, 4, 1, 1, 0x3FFFFFFF#32), (R.IHM_PHASE, 4, 1, 1, 0#32),
   (R.IHM_CRCUu_STAT 0, 0x40, 4, 1, 0#32), (R.TRS_SYNC_STAT, 4, 1, 1, 0x40000000#32), (R.TRS_BSL_STAT, 4, 1, 1, 0#32),
   (R.TRS_Gn_PHASE_ERR 0, 0x40, 8, 2, 0#32)]

/-- Bits of the register at `o` that RELOAD keeps in the mirror (R454). -/
def keptBits (o : Nat) : Word :=
  match stateRegs.find? (fun e => decide (e.1 ≤ o) && decide ((o - e.1) / e.2.1 < e.2.2.1) && decide ((o - e.1) % e.2.1 < 4 * e.2.2.2.1)) with
  | some e => e.2.2.2.2
  | none => match findRow o with
    | some r => ~~~(r.rw)
    | none => 0#32

/-- The mirror after the return: settings at reset, records as they are. -/
def resetMirror (m : KMap Word) : KMap Word :=
  m.foldl (fun acc e => kset regReset acc e.1 (merge (regReset e.1) e.2 (keptBits e.1))) []

/-- A master's window, view and queue at reset; its writes not yet in effect are dropped, and count as done. -/
def resetMaster (x : MState) : MState :=
  { MState.reset with done := x.done + BitVec.ofNat 16 x.wq.length, berr := x.berr, timeHi := x.timeHi }

/-- A PCIe function: its event ring goes, its configuration space, its MSI-X table and a reset under way stay. -/
def resetFunc (x : Func) : Func := { x with phase := true, lost := 0, covered := false, holdoff := false }

/-- TRS stops following references: device time, the oscillator's records and the PLL mapping stay. -/
def resetTrs (x : Trs) : Trs :=
  { Trs.reset with
    learned := x.learned, learnedT := x.learnedT, recs := x.recs, age := x.age, c1 := x.c1, c2 := x.c2, t0 := x.t0,
    temp := x.temp, frozen := x.frozen, goodRun := x.goodRun, xoStopped := x.xoStopped, spareBy := x.spareBy,
    plls := (List.range 8).foldl (fun m g =>
      kset Pll.init m g { Pll.init g with phys := (kget Pll.init x.plls g).phys }) [] }

/-- The collector keeps latches, counts and its own faults; windows, injections and the check of R366 go. -/
def resetCollector (s : State) : State :=
  let s1 := forEach (List.range 320) s closeWindow
  { s1 with col := { s1.col with phase := 0, inj := none, armed := false, comparing := false, passArmed := false,
                                  changed := true } }

/-- Every surface is freed, its stripes to the scrub queues; carries end (R61, R454). -/
def freeAll (s : State) : State := forEach ((s.store.surfaces.map (·.1)).filter (· != metaHandle)) s dropSurface

/-- Words of indirect spaces that records hold: the history queues, and the counters MISS_TOTAL and FAULTS of each region, which only PORST_N
clears (R381, R387, R398, R454). -/
def keptWord (k : Nat) : Bool :=
  (decide (skey Space.FC_HIST 0 ≤ k) && decide (k < skey Space.FC_HIST 256)) ||
    (decide (skey Space.TALLY_STAT 0 ≤ k) && decide (k < skey Space.TALLY_STAT 2048) && decide (2 ≤ (k - skey Space.TALLY_STAT 0) % 4))

/-- Every register field and word that software or an image writes, and all they drive, at reset; what each master and the collector hold
of their own apart (R55, R454). -/
def drivenReset (s1 : State) : State :=
  let s2 := { s1 with
    regs := resetMirror s1.regs, unit := [], live := [], deck := [], failing := s1.failing.filter keptWord, failingPend := [], mended := [],
    spaces := s1.spaces.filter (fun e => keptWord e.1),
    queues := (List.range 64).foldl (fun m q =>
      kset (fun _ => Queue.reset) m q { Queue.reset with last := (s1.queue q).last, lastB := (s1.queue q).lastB }) [],
    f0 := resetFunc s1.f0, f1 := resetFunc s1.f1,
    store := { s1.store with owner := [], balCtrl := Store.reset.balCtrl },
    safe := (List.range 32).foldl (fun m h =>
      kset (fun _ => Safe.reset) m h { Safe.reset with line := (s1.safeOf h).line, cause := (s1.safeOf h).cause }) [],
    heads := [],
    dps := (List.range 16).foldl (fun m d =>
      kset (fun _ => Dp.reset) m d { Dp.reset with hpd := (s1.dp d).hpd, trainedOnce := (s1.dp d).trainedOnce }) [],
    groups := [], planQ := [], planning := none, tiles := [], scalers := [], signs := [], ports := [], rx := [], tx := [],
    fsh := { Fsh.reset with nextReq := s1.fsh.nextReq, perf := s1.fsh.perf }, trs := resetTrs s1.trs }
  let s3 := forEach (List.range 16) s2 (fun s d => dpShow s d Link.OFF)
  setWbFloor (publishDemand (updateForce s3 0x1FF))

/-- RELOAD: every setting returns to reset; records of the hardware stay (R454). -/
def settingsReset (s : State) : State :=
  let s1 := resetCollector (freeAll s)
  drivenReset { s1 with lmp := resetMaster s1.lmp, pf0 := resetMaster s1.pf0, pf1 := resetMaster s1.pf1 }

/-- SCRUB: what the attempt wrote, its phase among it, and the surfaces it allocated. The masters and the collector's windows are none of it
(R45, R52, R55). -/
def attemptReset (s : State) : State :=
  let s1 := freeAll s
  drivenReset { s1 with col := { s1.col with phase := 0, changed := true } }

/-- LDR_SCRUB_DONE (R53, R55): what the attempt wrote has returned to reset; the other candidate is tried. -/
def scrubDone (s : State) : State :=
  if s.ldr.state ≠ .scrub then s
  else
    let s1 := attemptReset s
    tryNext { s1 with ldr := { s1.ldr with trsOn := false, dirty := false } }

def execLdrScrubDone (s : State) : Host.Outcome State Fault Refusal := runOn [.store, .force, .loader, .queues, .outputs, .compose, .receive, .timing] s scrubDone

-- Release (R57, R58, R61).

/-- A group's pending table has been written: it is seeded. -/
def seeded (s : State) (g : Nat) : Bool :=
  !(krange s.spaces (skey Space.RECKON (0x10000 * g)) (skey Space.RECKON (0x10000 * (g + 1)))).isEmpty

/-- A group that is admitted: its plan and the words of its compiled table. -/
abbrev Admitted := Nat × Plan × List (Nat × Word)

/-- Admission of one group at release (R58 step 1, R164), over the pending decks. -/
def admitGroup (s : State) (g : Nat) : Except PlanErr (Plan × List (Nat × Word)) :=
  if bit (s.dk (R.SEQ_Gn_CTRL g)) 8 then
    match timingCheck s.dk g with
    | some h => .error (PlanErr.plain 3 h)
    | none => .ok (uncheckedPlan s g, [])
  else evaluate s g (seeded s g) s.failingPend

/-- Admission of groups in ascending order, each against those before it; the first refusal ends it. -/
def admitAll : List Nat → State → Except (Nat × PlanErr) (List Admitted)
  | [], _ => .ok []
  | g :: gs, s =>
    match admitGroup s g with
    | .error e => .error (g, e)
    | .ok (p, ws) =>
      let s1 := if bit (s.dk (R.SEQ_Gn_CTRL g)) 8 then s else s.setGroup g { s.group g with planned := some p }
      match admitAll gs s1 with
      | .error e => .error e
      | .ok rest => .ok ((g, p, ws) :: rest)

/-- A refusal at release (R58, R61, R161): reported with tag 0. -/
def refuseRelease (s : State) (g : Nat) (e : PlanErr) : State :=
  raise (((planReport s 0 (planResult g (.error e))).bump (R.SEQ_Gn_REFUSED g) 1).wr (R.SEQ_Gn_COMMIT_STAT g) 6#32) (8 + 2 * g)

/-- The release commit: seeded and compiled tables and every pending deck become live together (R58 step 2). A plan admitted at release is
reported with tag 0 (R161). -/
def releaseAll (s : State) (xs : List Admitted) : State :=
  let report (s : State) (x : Admitted) : State :=
    if bit (s.dk (R.SEQ_Gn_CTRL x.1)) 8 then s else planReport s 0 (planResult x.1 (.ok x.2))
  let s1 := forEach xs s (fun s x => report (forEach x.2.2 s (fun s w => (s.setSp w.1 w.2).cleanPend w.1)) x)
  forEach xs s1 (fun s x => releaseCommit s x.1 x.2.1)

/-- State RELEASED (R58 step 5): load time, event, and every port whose enable is set becomes active. -/
def doRelease (s : State) (byLoader : Bool) : State :=
  let s1 := setLdr s { s.ldr with state := .released, startHold := byLoader }
  let s2 := raise (s1.wr R.LDR_LOAD_TIME (word (min (s.up / 1000) 0xFFFFFFFF))) 4
  let s3 := forEach (List.range 16) s2 (fun s d => dpCtrlEffect s d 0#32)
  forEach (List.range 16) s3 (fun s p => portCtrlEffect s 0#32 p)

/-- A copy is loaded and released: VALID (R54). -/
def releaseCopy (s : State) : State := doRelease (s.wr (errReg s.ldr.copy) 0#32) true

/-- Every group with an enabled head has reached LOCKED with the loaded settings (R57). -/
def allLocked (s : State) : Bool :=
  (List.range 8).all (fun g => (plannedHeads s.dk g).isEmpty ||
    (decide ((s.pll g).state = 2) && (decide (alignSrc s.dk g = 4) || decide (s.trs.state = 2))))

/-- LDR_SETTLE_END (R57, R58): admission and the release commit; then passes of the configuration CRC are awaited. -/
def settleEnd (s : State) (expired : Bool) : State :=
  let wait := lockWaitMs (s.ldr.info s.ldr.copy).page
  if s.ldr.state ≠ .settle ∨ s.ldr.crcWait ≠ 0 then s
  else if wait ≠ 0 ∧ ¬ expired ∧ ¬ allLocked s then s
  else
    let s1 := if expired ∧ wait ≠ 0 then raise s 5 else s
    match admitAll (List.range 8) s1 with
    | .error (g, e) => failCopy (refuseRelease s1 g e) 0x09 0
    | .ok xs => let s2 := releaseAll s1 xs; { s2 with ldr := { s2.ldr with crcWait := 2 } }

def execLdrSettleEnd (expired : Bool) (s : State) : Host.Outcome State Fault Refusal := runOn [.force, .loader, .queues, .outputs, .compose, .timing, .health] s (fun s => settleEnd s expired)

/-- R58 steps 3 and 4: the pass is compared with the image; the reference is loaded, the check armed, the seal applied. -/
def crcCheck (s : State) : State :=
  let page := (s.ldr.info s.ldr.copy).page
  if s.rd R.IHM_CFGCRC_NOW ≠ word (pageCrcRef page) then failCopy s 0x08 0
  else
    let s1 := crcCtrlEffect ((s.force R.IHM_CFGCRC_REF (word (pageCrcRef page))).force R.IHM_CFGCRC_CTRL 1#32) 1#32
    let sealed := (pageFlags page).testBit 0
    let s2 := ({ s1 with ldr := { s1.ldr with sealed := sealed } }).wr R.LDR_SEAL_STAT (if sealed then 1#32 else 0#32)
    if s2.ldr.bootMode = 2 then ldrEnter s2 .held else releaseCopy s2

/-- CFGCRC_PASS_END (R365, R366); during the release sequence the first whole pass after the commit is judged (R58 step 3). -/
def crcPass (s : State) : State :=
  let s1 := passEnd s
  if s1.ldr.state = .settle ∧ s1.ldr.crcWait ≠ 0 then
    let s2 := { s1 with ldr := { s1.ldr with crcWait := s1.ldr.crcWait - 1 } }
    if s2.ldr.crcWait = 0 then crcCheck s2 else s2
  else s1

def execCfgcrcPassEnd (s : State) : Host.Outcome State Fault Refusal := runOn [.force, .loader, .outputs, .timing] s (fun s => if s.mgmt then crcPass s else s)

/-- START_HOLD_EXPIRY (R59): the loader sets RUN only where START still stands. DESIGN CHOICE: a privileged write of START before that instant
leaves START standing, and RUN is set. -/
def execStartHoldExpiry (s : State) : Host.Outcome State Fault Refusal :=
  runOn [.loader] s (fun s =>
    if s.ldr.startHold then
      let s1 := { s with ldr := { s.ldr with startHold := false } }
      if s1.col.phase = 0 then setPhase s1 1 else s1
    else s)

/-- A host releases from WAIT_HOST or NO_IMAGE (R61): steps 1, 2 and 5 of R58; no check is armed, no seal applied. -/
def hostRelease (s : State) : State :=
  match admitAll (List.range 8) s with
  | .error (g, e) => refuseRelease s g e
  | .ok xs =>
    let s1 := crcCtrlEffect ((releaseAll s xs).force R.IHM_CFGCRC_CTRL 0#32) 0#32
    doRelease s1 false

/-- LDR_CTRL.RELOAD (R61 steps 1 and 2). -/
def reload (s : State) : State :=
  let s1 := settingsReset (forEach (List.range 64) s endAtReset)
  setLdr s1 { s1.ldr with state := .probe, copy := 0, reloading := true, trsOn := false, startHold := false, held := none }

/-- LDR_CTRL takes effect (R64): a 1 in any other state is ignored; RELOAD takes precedence. -/
def ldrCtrlEffect (s : State) (v : Word) : State :=
  if bit v 1 ∧ s.hostStates then reload s
  else if bit v 0 ∧ s.ldr.state = .held then releaseCopy s
  else if bit v 0 ∧ s.hostStates then hostRelease s
  else s

/-- RELOAD_SCRUB_DONE (R61 step 3): the freed stripes are zeroed, and the loader starts again at step 3 of R44, which resets the flash, with
the straps of the last PORST_N. DEDUCED: it reads the flash under BOOT_MODE 01 too, since each copy may be loaded once more; the strap of R42
decides at PORST_N only. -/
def reloadScrubbed (s : State) : State :=
  if ¬ s.ldr.reloading ∨ scrubPending s ≠ 0 then s
  else
    let s1 := (s.wr R.LDR_A_ERR 1#32).wr R.LDR_B_ERR 1#32
    let x := { s1.ldr with
      reloading := false, xspi := true, copyA := CopyInfo.reset, copyB := CopyInfo.reset, copy := 0, sec := 0, dqs := 0, state := .probe,
      trsOn := false }
    (setLdr (s1.wrBits R.LDR_STAT 11 10 1) x).emit .xspiReset

def execReloadScrubDone (s : State) : Host.Outcome State Fault Refusal := runOn [.loader] s reloadScrubbed

-- Power-up (R42, R44).

/-- BOOT_MODE as it acts: 11 is 00 (R42). -/
def bootModeOf (gpio : BitVec 3) : Nat := let b := gpio.toNat % 4; if b = 3 then 0 else b

/-- PORST_N_RISE (R42, R44 step 1, R436): straps are sampled and start-up begins. -/
def execPorstNRise (gpio : BitVec 3) (bank33 : Bool) (s : State) : Host.Outcome State Fault Refusal :=
  if s.powered then .next s
  else .next (({ s with powered := true, ldr := { s.ldr with bootMode := bootModeOf gpio, slow := gpio.toNat.testBit 2,
                                                              bank33 := bank33 } }).wr R.LDR_STRAPS (word gpio.toNat))

/-- PORST_N_ASSERT (R436): the device is at reset; the voltage class of the management bank stays as the last rising edge found it. What has
left the device has left it. -/
def execPorstNAssert (s : State) : Host.Outcome State Fault Refusal :=
  .next { State.reset with
    variant := s.variant, pending := s.pending, out := s.out, fresh := s.fresh, ldr := { Ldr.init with bank33 := s.ldr.bank33 } }

/-- MGMT_CLOCK_READY (R44 steps 2 and 3, R415): the loader starts, with a reset pulse to the flash when it is to read it, and the core supply
is commanded for the first time. -/
def clockReady (s : State) : State :=
  if s.mgmt then s
  else
    let wait := decide (s.ldr.bootMode = 1)
    let s1 := setLdr { s with mgmt := true } { s.ldr with state := if wait then .waitHost else .probe, trsOn := wait, xspi := !wait }
    let s2 := s1.when (!wait) (fun s => (s.wrBits R.LDR_STAT 11 10 1).emit .xspiReset)
    let t := avsClamp (avsWindow s2) 800
    avsShow ({ s2 with health := { s2.health with target := t } }.emit (.avs t)) 0

def execMgmtClockReady (s : State) : Host.Outcome State Fault Refusal := runOn [.power, .loader, .health] s clockReady

-- Flash updates (R65).

/-- The update target. DESIGN CHOICE: a copy counts as the candidate, with the GENERATION, that the last reading of its header found, also
after an ERASE or a FINISH. -/
def updTarget (s : State) : Nat :=
  let x := s.ldr
  if x.copy = 1 then 2
  else if x.copy = 2 then 1
  else if x.copyA.candidate ≠ x.copyB.candidate then (if x.copyA.candidate then 2 else 1)
  else if x.copyA.generation ≤ x.copyB.generation then 1 else 2

/-- Flash address of a copy (R47). -/
def copyBase (s : State) (i : Nat) : Nat := if i = 2 then halfOfFlash (bits (s.rd R.LDR_STAT) 19 16) else 0

/-- The page buffer, 256 bytes. -/
def flashPage (s : State) : List Byte := (List.range 64).flatMap (fun w => leBytes 4 (s.spw Space.FLASH_PAGE w).toNat)

/-- LDR_UPD_STAT while a command runs. -/
def updBusy (s : State) (cmd result : Nat) : State :=
  let w := setBit (setBits (s.rd R.LDR_UPD_STAT) 9 8 (updTarget s)) 0 true
  { s.wr R.LDR_UPD_STAT w with ldr := { s.ldr with xspi := true, upd := cmd, updResult := result, dqs := 0, updPage := flashPage s } }

/-- A command ends with a RESULT (R60, R65). -/
def updEnd (s : State) (result : Nat) : State :=
  let w := setBits (setBits (s.rd R.LDR_UPD_STAT) 9 8 (updTarget s)) 7 4 result
  raise ({ s with ldr := { s.ldr with upd := 0, updResult := 0, dqs := 0, updPage := [] } }.wr R.LDR_UPD_STAT (setBit (setBit w 1 true) 0 false)) 6

/-- What FINISH finds (R65): 0, 2 ORDER, 3 CHECK or 4 NOT_NEWER; `crcs` tells whether the CRCs of a table's sections hold in flash. -/
def finishResult (s : State) (crcs : List Section → Bool) : Nat :=
  let page := flashPage s
  if ¬ s.ldr.erased then 2
  else if headerCode s (halfOfFlash (bits (s.rd R.LDR_STAT) 19 16)) page ≠ 0 ∨ ¬ crcs (sectionsOf page) then 3
  else if s.ldr.copy ≠ 0 ∧ pageGeneration page ≤ (s.ldr.info s.ldr.copy).generation then 4
  else 0

/-- PROGRAM (R65). A page past the target copy lies in no copy it may write: nothing is programmed, and RESULT, for which the spec states no
value, is free. -/
def updProgram (s : State) : State :=
  let page := bits (s.cfg R.LDR_UPD_ADDR) 27 8
  let i := updTarget s
  if page = 0 ∨ ¬ s.ldr.erased then updEnd s 2
  else if halfOfFlash (bits (s.rd R.LDR_STAT) 19 16) ≤ 256 * page then updEnd s.bumpFresh (bits (Config.freeWord s.fresh) 3 0)
  else (updBusy s 2 0).emit (.flashProgram (copyBase s i + 256 * page) (flashPage s))

/-- A LDR_UPD_CMD write takes effect (R65): a new command while one runs is ignored. DESIGN CHOICE: so is a write of 0 or of 4 to 15, with
neither DONE nor RESULT. FINISH reads the flash before it programs page 0. -/
def updCmdEffect (s : State) (cmd : Nat) (crcs : List Section → Bool) : State :=
  if ¬ (1 ≤ cmd ∧ cmd ≤ 3) ∨ s.ldr.upd ≠ 0 then s
  else if ¬ (s.released ∨ s.hostStates) then updEnd s 1
  else match cmd with
    | 1 => (updBusy s 1 0).emit (.flashErase (copyBase s (updTarget s)))
    | 2 => updProgram s
    | _ =>
      let r := finishResult s crcs
      if r = 2 then updEnd s 2 else updBusy s 3 r

/-- Whether the section CRCs hold for the bytes the copy holds in flash from its page 1 on. -/
def flashCrcs (flash : List Byte) (xs : List Section) : Bool :=
  xs.all (fun x => crc32c (slice flash (x.off - 256) x.len) == x.crc)

/-- LDR_UPD_DONE (R65): the flash has answered, or not. A FINISH whose checks have passed programs page 0 last. -/
def updDone (s : State) (flashOk : Bool) : State :=
  if s.ldr.upd = 0 then s
  else
    let r := if flashOk then s.ldr.updResult else 5
    let s1 := s.when (decide (s.ldr.upd = 3 ∧ r = 0)) (·.emit (.flashProgram (copyBase s (updTarget s)) s.ldr.updPage))
    let erased := if s.ldr.upd = 1 then s.ldr.erased || decide (r = 0)
      else if s.ldr.upd = 3 then s.ldr.erased && decide (r ≠ 0) else s.ldr.erased
    updEnd { s1 with ldr := { s1.ldr with erased := erased } } r

def execLdrUpdDone (flashOk : Bool) (s : State) : Host.Outcome State Fault Refusal := runOn [.loader] s (fun s => updDone s flashOk)

/-- XSPI_DQS_TIMEOUT (R46): three retries of the read, then the copy is invalid with code FLASH; a FINISH that reads its sections ends with
FLASH (R65). DESIGN CHOICE: a section is one read, and so are the sections of one FINISH, so that their timeouts add up. -/
def dqsTimeout (s : State) : State :=
  let loading := decide (s.ldr.state = .load) && s.ldr.held.isNone
  let finishing := decide (s.ldr.upd = 3)
  if bits (s.rd R.LDR_STAT) 11 10 ≠ 2 ∨ ¬ (loading ∨ finishing) then s
  else if s.ldr.dqs < 3 then raise { s with ldr := { s.ldr with dqs := s.ldr.dqs + 1 } } 3
  else if loading then failCopy s 0x0A 0
  else updDone s false

def execXspiDqsTimeout (s : State) : Host.Outcome State Fault Refusal := runOn [.loader] s dqsTimeout

end Sys2Proof.Machine
end

