-- ==== Sys2Proof/Machine/Access.lean ====
section
/-!
DEFINITION. The register map as its three masters reach it (13_register_access.md): reads from the mirror, writes through the write
queues, the indirect window, the local management port; and every command that is a write to a register or word with behaviour.
-/
namespace Sys2Proof.Machine

-- Bus errors and early writes (R45, R351, R354).

/-- A request of a PCIe function is answered with Unsupported Request (R309). -/
def logRequest (s : State) : Master → State
  | .lmp => s
  | .pf0 => logUnsupported s 0
  | .pf1 => logUnsupported s 1

/-- A bus error of a master: GLB_BERR_LOG, and the error answer. -/
def busError (s : State) (m : Master) (o : Nat) : State :=
  (logRequest (s.setMaster m { s.master m with berr := setBits (setBit (s.master m).berr 31 true) 23 0 o }) m).emit (.busError m)

/-- A bus error of the LMP with its cause: 2 both strobes, 1 byte enables, 0 a reserved location (R351). -/
def lmpError (s : State) (cause o : Nat) : State :=
  busError (s.wr R.HWQ_LMP_ERR (satField (setBit (s.rd R.HWQ_LMP_ERR) cause true) 31 16 1)) .lmp o

/-- A reserved location is accessed (R354). -/
def reservedError (s : State) (m : Master) (o : Nat) : State := if m = .lmp then lmpError s 0 o else busError s m o

/-- Whether R45 discards a write of master `m` to `o`. -/
def earlyWrite (s : State) (m : Master) (o : Nat) : Bool :=
  !s.released && !(s.priv m && (s.hostStates || (decide (s.ldr.state = .held) && o == R.LDR_CTRL)))

/-- A write is discarded under R45. -/
def noteEarly (s : State) : State := raise (s.wr R.LDR_EARLY_WR (satField (s.rd R.LDR_EARLY_WR) 15 0 1)) 7

-- Write queues (R353).

/-- Per-master registers that can be written (R359). -/
def perMaster (o : Nat) : Bool := [R.GLB_VIEW, R.GLB_IDX_SEL, R.GLB_IDX_ADDR, R.GLB_IDX_DATA].contains o

/-- Writes a queue holds. -/
def queueDepth : Nat := 64

/-- A write enters its master's queue. -/
def pushWrite (s : State) (m : Master) (w : QWrite) : State :=
  s.setMaster m { s.master m with wq := (s.master m).wq ++ [w] }

/-- A write that takes effect with no other write of its register waiting stands, and the mirror shows what it leaves (R369). -/
def showLast (s : State) (w : QWrite) : State :=
  let waits := [Master.lmp, .pf0, .pf1].any (fun m => (s.master m).wq.any (fun q => !q.indirect && q.at_ == w.at_))
  match findRow w.at_ with
  | some r =>
    let new := merge (s.rd w.at_) w.v r.rw
    if waits ∨ isWm w.at_ ∨ new = s.rd w.at_ then s else s.wr w.at_ new
  | none => s

/-- A write reaches its unit. `crcs` tells what FINISH finds in flash (R65). -/
def applyWrite (crcs : List Section → Bool) (s : State) (m : Master) (w : QWrite) : State :=
  if w.indirect then spaceEffect s (w.at_ / 16777216) (w.at_ % 16777216) w.v
  else if perMaster w.at_ then s
  else if w.at_ = R.LDR_CTRL then ldrCtrlEffect (showLast s w) w.v
  else if w.at_ = R.LDR_UPD_CMD then updCmdEffect (showLast s w) (bits w.v 3 0) crcs
  else regEffect (showLast s w) ⟨m, w.priv, false, []⟩ w.at_ w.v

/-- The write at the head of a master's queue takes effect (R353). -/
def takeEffect (crcs : List Section → Bool) (s : State) (m : Master) : State :=
  let x := s.master m
  match x.wq with
  | [] => s
  | w :: rest => applyWrite crcs (s.setMaster m { x with wq := rest, done := x.done + 1, ahead := x.ahead - 1 }) m w

/-- What FINISH finds when no command tells: a free value. -/
def freeCrcs (s : State) : List Section → Bool := fun _ => (Config.freeWord s.fresh).getLsbD 0

/-- Every write a master has queued takes effect, in order. -/
def drainWrites (crcs : List Section → Bool) (m : Master) : Nat → State → State
  | 0, s => s
  | n + 1, s => drainWrites crcs m n (takeEffect crcs s m)

/-- Groups of which the writes that a master has queued will make a commit PENDING (R192, R194). -/
def commitsAhead (s : State) (m : Master) : List Nat :=
  let gs := (List.range 8).filter (fun g => (s.master m).wq.any (fun q => !q.indirect && q.at_ == R.SEQ_Gn_COMMIT g && bits q.v 1 0 == 1))
  if gs = [] then []
  else
    let t := drainWrites (freeCrcs s) m (s.master m).wq.length s
    gs.filter (fun g => (t.group g).commit.isSome)

/-- A master as it writes now. -/
def writerOf (s : State) (m : Master) : Writer := ⟨m, s.priv m, false, commitsAhead s m⟩

-- The indirect window (R360, R361).

/-- A fetch of the word at the window's address starts; it waits for the writes accepted so far. -/
def startFetch (s : State) (m : Master) : State :=
  let x := s.master m
  s.setMaster m { x with ready := false, fetchLive := bit x.view 0, ahead := x.wq.length }

/-- The address moves on after an access, with flags set by it. -/
def advance (s : State) (m : Master) (bad range denied : Bool) : State :=
  let x := s.master m
  startFetch (s.setMaster m { x with addr := word ((x.addr.toNat + 1) % 16777216), badSpace := x.badSpace || bad,
                                     range := x.range || range, denied := x.denied || denied }) m

/-- Whether an access by a master finds the space, the word inside it, and the privilege: the flags it sets. -/
def windowFlags (s : State) (m : Master) (write : Bool) : Bool × Bool × Bool :=
  let x := s.master m
  match findSpace (bits x.sel 6 0) with
  | none => (true, false, false)
  | some p =>
    if p.words ≤ bits x.addr 23 0 then (false, true, false)
    else if write ∧ (p.readOnly ∨ wordReserved p.code (bits x.addr 23 0)) then (false, false, false)
    else (false, false, !(if write then p.writeOpen else p.readOpen) && !s.priv m)

/-- A word of an indirect space as a fetch finds it (R361, R428); `live` is GLB_VIEW when the fetch started. -/
def spaceWord (s : State) (code a : Nat) (live : Bool) : Word :=
  if code = Space.RECKON_LIVE then s.lvw Space.RECKON a
  else if code = Space.LSET_LIVE then s.lvw Space.LSET a
  else if code = Space.LAYER_LIVE then s.lvw Space.LAYER_DESC a
  else if code = Space.SURF_ATTR then surfAttrWord s a
  else if code = Space.SURF_PLACE then surfPlaceWord s a
  else if code = Space.FC_STATE then s.fcState a
  else if code = Space.CMETER then meterWord s a
  else if live ∧ [Space.LUT_EOTF, Space.LUT_3D, Space.LUT_OETF, Space.TALLY_REGION, Space.TALLY_EXP].contains code then s.lvw code a
  else s.spw code a

/-- Board queues whose rings hold a word of QRING. -/
def queuesOnWord (s : State) (a : Nat) : List Nat :=
  (List.range 16).filter (fun q => queueEn s q && decide ((boardRing s q).1 ≤ a / 16 ∧ a / 16 < (boardRing s q).1 + (boardRing s q).2))

/-- The space that holds the words of a space: its own, or the one of which it shows the live deck. -/
def heldIn (code : Nat) : Nat :=
  if code = Space.LAYER_LIVE then Space.LAYER_DESC
  else if code = Space.RECKON_LIVE then Space.RECKON
  else if code = Space.LSET_LIVE then Space.LSET
  else code

/-- Whether a fetch reads a live copy: of a space with a _LIVE twin that twin's, of another what GLB_VIEW said as it started (R361). -/
def fetchesLive (code : Nat) (view : Bool) : Bool :=
  heldIn code != code || (view && [Space.LUT_EOTF, Space.LUT_3D, Space.LUT_OETF, Space.TALLY_REGION, Space.TALLY_EXP].contains code)

/-- SRAM class that a fetch from a space reads (R394). -/
def fetchClass (code : Nat) : Option Nat :=
  if [Space.LAYER_DESC, Space.LUT_EOTF, Space.LUT_3D, Space.LUT_OETF].contains (heldIn code) then some 0
  else if [Space.RECKON, Space.LSET].contains (heldIn code) then some 4
  else if code = Space.SAFE_FRAME then some 5
  else if code = Space.QRING then some 7
  else none

/-- Whether the words of a space that read as uncorrectable do so until they are written. -/
def fetchMarks (code : Nat) : Bool :=
  (fetchClass code).isSome || [Space.TALLY_REGION, Space.TALLY_EXP, Space.TALLY_STAT].contains code

/-- What the owner of a word that a fetch finds with an error does: CMP counts and reports it (R119), the collector reports it (R391), HWQ halts
the queue whose ring it lies in (R337). DESIGN CHOICE: other owners do nothing. -/
def fetchReport (inj : Bool) (s : State) (code a : Nat) (ecc : Ecc) : State :=
  if fetchClass code = some 0 then tableReport inj s ⟨heldIn code, a, ecc⟩
  else if ecc ≠ .ue then s
  else if [Space.FC_HIST, Space.TALLY_STAT, Space.TALLY_REGION, Space.TALLY_EXP].contains code then collectorUpset s
  else if code = Space.QRING then forEach (queuesOnWord s a) (raiseInj s 290 inj) (fun s q => haltQueue s q Code.STATE_LOST)
  else s

/-- A fetch finds a word with an error: an uncorrectable one fails, in the copy that was read, until it is written. -/
def fetchUpset (s : State) (code a : Nat) (live : Bool) (ecc : Ecc) : State :=
  let s1 := if ecc ≠ .ue ∨ ¬ fetchMarks code then s
    else if deckedSpace (heldIn code) ∧ ¬ live then s.failPend code a else s.fail (heldIn code) a
  fetchReport false s1 code a ecc

/-- Whether a word is one that fails already. -/
def fetchFails (s : State) (code a : Nat) (live : Bool) : Bool :=
  (if deckedSpace (heldIn code) && !live then s.failingPend else s.failing).contains (skey (heldIn code) a)

/-- An armed injection acts on the check of a fetch (R394): the stored word stays as it is. -/
def fetchInject (s : State) (code a : Nat) : State :=
  match fetchClass code with
  | none => s
  | some c => let (e, s1) := sramCheck s c 0; if e = .good then s1 else fetchReport true s1 code a e

/-- A fetch of a collector's word checks its parity (R391). -/
def fetchParity (s : State) (code a : Nat) : State :=
  if code = Space.FC_SRC then wordsUsed s [a]
  else if code = Space.FC_STATE then wordsUsed s (latchWords a)
  else s

/-- The prefetch of a master's window completes (R361), once the writes before it have taken effect. A word found uncorrectable is delivered
as stored, a free value. -/
def prefetchDone (s : State) (m : Master) (ecc : Ecc) : State :=
  let x := s.master m
  if x.ready ∨ x.ahead ≠ 0 then s
  else
    let f := windowFlags s m false
    if f.1 ∨ f.2.1 ∨ f.2.2 then s.setMaster m { x with ready := true, buf := 0#32 }
    else
      let code := bits x.sel 6 0
      let a := bits x.addr 23 0
      let live := fetchesLive code x.fetchLive
      let found := if fetchFails s code a live then .ue else ecc
      let v := if found = .ue then Config.freeWord s.fresh else spaceWord s code a x.fetchLive
      let s1 := fetchParity (fetchInject (fetchUpset s.bumpFresh code a live found) code a) code a
      s1.setMaster m { x with ready := true, buf := v }

/-- GLB_IDX_DATA read (R360, R361): the word read, and the state after. -/
def windowRead (s : State) (m : Master) : Word × State :=
  let x := s.master m
  if ¬ x.ready then (x.last, s.setMaster m { x with miss := true })
  else
    let f := windowFlags s m false
    let v := if f.2.2 then 0#32 else x.buf
    (v, advance (s.setMaster m { x with last := v }) m f.1 f.2.1 f.2.2)

/-- A write of the word the window points to is judged at acceptance (R38, R194, R360), and changes the word when it takes effect. -/
def windowStore (s : State) (m : Master) (v : Word) : State :=
  let x := s.master m
  let code := bits x.sel 6 0
  let a := bits x.addr 23 0
  let none_ : QWrite := ⟨false, R.GLB_IDX_DATA, v, s.priv m⟩
  match findSpace code with
  | none => pushWrite s m none_
  | some p =>
    let f := windowFlags s m true
    if f.2.1 ∨ p.readOnly ∨ wordReserved code a then pushWrite s m none_
    else if f.2.2 then pushWrite (denyPriv s m false (logOfSpace code a)) m none_
    else if p.decked then
      match committing s (writerOf s m) (wordGroups s x.wq code a) with
      | some g => pushWrite (denyDeck s g (code == Space.RECKON || code == Space.LSET)) m none_
      | none => pushWrite s m ⟨true, skey code a, v, s.priv m⟩
    else pushWrite s m ⟨true, skey code a, v, s.priv m⟩

/-- GLB_IDX_DATA written (R360): the address advances whatever becomes of the write. -/
def windowWrite (s : State) (m : Master) (v : Word) : State :=
  let f := windowFlags s m true
  advance (windowStore s m v) m f.1 f.2.1 f.2.2

/-- A write to a per-master register (R191, R360, R361). -/
def masterWrite (s : State) (m : Master) (o : Nat) (v : Word) : State :=
  let x := s.master m
  let q : QWrite := ⟨false, o, v, s.priv m⟩
  let clear (x : MState) : MState := { x with miss := false, range := false, badSpace := false, denied := false }
  if o = R.GLB_VIEW then startFetch (pushWrite (s.setMaster m { x with view := v &&& 1#32 }) m q) m
  else if o = R.GLB_IDX_SEL then startFetch (pushWrite (s.setMaster m (clear { x with sel := v &&& 0x7F#32 })) m q) m
  else if o = R.GLB_IDX_ADDR then startFetch (pushWrite (s.setMaster m (clear { x with addr := v &&& 0xFFFFFF#32 })) m q) m
  else windowWrite s m v

-- Writes.

/-- A master writes a register (R45, R346, R353, R354). A write refused whole, or to a register that cannot be written, does not enter
the queue; while the queue is full the write waits outside the device. -/
def acceptWrite (s : State) (m : Master) (o : Nat) (v : Word) : State :=
  if ¬ s.reaches m then logRequest s m
  else if queueDepth ≤ (s.master m).wq.length then s
  else if earlyWrite s m o then noteEarly s
  else match findRow o with
    | none => reservedError s m o
    | some r =>
      if perMaster o then masterWrite s m o v
      else
        let w := writerOf s m
        match acceptReg s w r o v with
        | (s1, some x) => pushWrite s1 m ⟨false, o, x, w.priv⟩
        | (s1, none) => s1

/-- A write is accepted and takes effect, after the writes before it (R353). A write that is not accepted moves no other. -/
def settle (crcs : List Section → Bool) (m : Master) (s t : State) : State :=
  if (s.master m).wq.length < (t.master m).wq.length then drainWrites crcs m (t.master m).wq.length t else t

/-- A master writes a register, and the write takes effect. -/
def writeNow (s : State) (m : Master) (o : Nat) (v : Word) : State := settle (freeCrcs s) m s.bumpFresh (acceptWrite s.bumpFresh m o v)

/-- A master writes a word of an indirect space through its window, and the write takes effect. The window points to the word; a write
that R45 discards leaves it where it was. -/
def wordNow (s : State) (m : Master) (code a : Nat) (v : Word) : State :=
  if ¬ s.reaches m ∨ earlyWrite s m R.GLB_IDX_DATA then acceptWrite s m R.GLB_IDX_DATA v
  else
    let s1 := s.setMaster m { s.master m with sel := word code, addr := word a }
    settle (freeCrcs s) m s1 (acceptWrite s1 m R.GLB_IDX_DATA v)

-- Reads (R347, R350, R352, R357).

/-- A safe-state status word (R244). -/
def safeStatWord (s : State) (h : Nat) : Word :=
  let x := s.safeOf h
  setBits (setBits (setBit (setBit (s.rd (R.OWB_Hnn_SAFE_STAT h)) 31 x.active) 30 x.line) 26 24 x.frame) 23 22 x.mode

/-- SSP_RESERVE_STAT (R92). -/
def reserveStatWord (s : State) : Word :=
  setBits (setBits (setBit (s.rd R.SSP_RESERVE_STAT) 16 s.store.headroomUsed) 15 8 (outCount s)) 7 0 (rowsPct s)

/-- GLB_IDX_STAT (R363). -/
def idxStatWord (x : MState) : Word :=
  word ((if x.ready then 2147483648 else 0) + (if x.miss then 1073741824 else 0) + (if x.range then 536870912 else 0)
    + (if x.badSpace then 268435456 else 0) + (if x.denied then 134217728 else 0))

/-- Registers that exist once per master, and what else depends on who reads (R62, R278, R353, R359). -/
def masterWord (s : State) (m : Master) (o : Nat) : Option Word :=
  let x := s.master m
  if o = R.GLB_VIEW then some x.view
  else if o = R.GLB_WRQ then some (word (x.wq.length * 65536 + x.done.toNat))
  else if o = R.GLB_BERR_LOG then some x.berr
  else if o = R.GLB_IDX_SEL then some x.sel
  else if o = R.GLB_IDX_ADDR then some x.addr
  else if o = R.GLB_IDX_STAT then some (idxStatWord x)
  else if o = R.LDR_MASTER_PRIV then some (if s.priv m then 1#32 else 0#32)
  else if o = R.TRS_TIME_LO then some (word s.time64)
  else if o = R.TRS_TIME_HI then some x.timeHi
  else none

/-- Instance of a register named by `base`, `stride` and `count`. -/
def instanceOf (o base stride count : Nat) : Option Nat :=
  if base ≤ o ∧ (o - base) % stride = 0 ∧ (o - base) / stride < count then some ((o - base) / stride) else none

/-- Status words that the device makes from its state. -/
def deviceWord (s : State) (o : Nat) : Option Word :=
  if o = R.GLB_DEVICE_ID then some s.variant.deviceId
  else if o = R.SSP_CAPACITY then some (word (capacity s))
  else if o = R.SSP_ALLOCATED then some (word (allocated s))
  else if o = R.SSP_FREE then some (word (freeStripes s))
  else if o = R.SSP_SCRUB_PENDING then some (word (scrubPending s))
  else if o = R.SSP_RESERVE_STAT then some (reserveStatWord s)
  else if o = R.SCA_BANK_BUSY then some (bankBusyWord s)
  else if o = R.IHM_FC_SUMMARY then some s.fcSummary
  else if o = R.IHM_TALLY_SUM then some (tallySumWord s)
  else (trsRead s o)
    <|> (instanceOf o (R.SSP_PC_STATEn 0) 4 8).map (pcStateWord s)
    <|> (instanceOf o (R.IHM_FC_SRCn 0) 4 10).map s.fcSrcn
    <|> (instanceOf o (R.OWB_Hnn_STATE 0) 0x2000 32).map (fun h => word ((s.head h).state.code * 256 + (s.head h).req.code))
    <|> (instanceOf o (R.OWB_Hnn_SAFE_STAT 0) 0x2000 32).map (safeStatWord s)
    <|> (instanceOf o (R.HWQ_Qnn_STAT 0) 0x40 64).map (queueStatWord s)
    <|> (instanceOf o (R.IHM_CRCUu_RESULT 0) 0x40 4).map (crcuResult s)
    <|> (instanceOf o (R.IHM_CRCUu_STAT 0) 0x40 4).map (fun u => setBit (s.rd o) 31 (crcuPending s u))

/-- What the mirror holds at `o` for a master: the live deck for decked settings when its GLB_VIEW says so (R191). -/
def mirrorWord (s : State) (m : Master) (r : RegRow) (o : Nat) : Word :=
  match masterWord s m o with
  | some w => w
  | none => match deviceWord s o with
    | some w => w
    | none => if (r.cls = .group ∨ r.cls = .disruptive) ∧ bit (s.master m).view 0 then s.cfg o else s.rd o

/-- What a master is shown of a word (R347, R354, R357): privileged-only fields and RC fields are zero for an ordinary master, WO fields
for all. -/
def shownTo (s : State) (m : Master) (r : RegRow) (o : Nat) (v : Word) : Word :=
  let w := v &&& ~~~(r.wo &&& ~~~(r.rw))
  if s.priv m then w else if privOnly s r o then 0#32 else w &&& ~~~(r.rc)

/-- What a master reads of a sound word. -/
def readWord_ (s : State) (m : Master) (r : RegRow) (o : Nat) : Word := shownTo s m r o (mirrorWord s m r o)

/-- The mirror's own word check (R352, R394): a word found uncorrectable is returned as stored. -/
def mirrorCheck (s : State) (ecc : Ecc) : State :=
  let (e, s1) := sramCheck s 8 0
  if e = .ue then raiseInj (s1.bump R.HWQ_MIRROR_UE 1) 290 true
  else if ecc = .ue then raise (s1.bump R.HWQ_MIRROR_UE 1) 290
  else s1

/-- What leaves with a read: a word found uncorrectable is returned as stored (R352), which no other copy tells any more, so it is free. -/
def answerWord (s : State) (m : Master) (r : RegRow) (o : Nat) (ecc : Ecc) : Word :=
  shownTo s m r o (if ecc = .ue then Config.freeWord s.fresh else mirrorWord s m r o)

/-- Side effects of a read that answered `v`: the latch of TRS_TIME_HI (R278), and the RC bits returned as 1 cleared for a privileged master
(R357, R358). -/
def readEffect (s : State) (m : Master) (r : RegRow) (o : Nat) (v : Word) : State :=
  if o = R.TRS_TIME_LO then s.setMaster m { s.master m with timeHi := word (s.time64 / 4294967296) }
  else if r.rc ≠ 0#32 ∧ s.priv m then s.wr o (s.rd o &&& ~~~(r.rc &&& v))
  else s

/-- A master reads a register: the answer leaves the device (R350, R352, R354). -/
def readReg (s : State) (m : Master) (o : Nat) (ecc : Ecc) : State :=
  if ¬ s.mgmt then s
  else if ¬ s.reaches m then (logRequest s m).emit (.unsupported m)
  else match findRow o with
    | none => (reservedError s m o).emit (.read m 0#32)
    | some r =>
      let s1 := mirrorCheck s.bumpFresh ecc
      if o = R.GLB_IDX_DATA then let x := windowRead s1 m; x.2.emit (.read m x.1)
      else
        let v := answerWord s1 m r o ecc
        (readEffect s1 m r o v).emit (.read m v)

-- The commands of the map itself.

/-- A read of `n` words from offset `o` on (R310): one (a read of none reads as one) or two are read in ascending order, more are an Unsupported Request. -/
def readRegs (s : State) (m : Master) (o n : Nat) (ecc : Ecc) : State :=
  let s1 := readReg s m o ecc
  if n ≤ 1 ∨ ¬ s.reaches m then s1
  else if n = 2 then readReg s1 m (o + 4) .good
  else if s.mgmt then (logRequest s m).emit (.unsupported m)
  else s

def execRcRegisterRead (m : Master) (off : BitVec 24) (dws : Nat) (ecc : Ecc) (s : State) : Host.Outcome State Fault Refusal :=
  runMirror s (fun s => keeping [.masters] s (readRegs s m (wordOffset off) (if m = .lmp then 1 else dws) ecc))

/-- TIME_LO_READ (R278). -/
def execTimeLoRead (m : Master) (s : State) : Host.Outcome State Fault Refusal :=
  runMirror s (fun s => keeping [.masters] s (readReg s m R.TRS_TIME_LO .good))

def execIdxDataRead (m : Master) (s : State) : Host.Outcome State Fault Refusal :=
  runMirror s (fun s => keeping [.masters] s (readReg s m R.GLB_IDX_DATA .good))

/-- LMP_READ_CYCLE (R350, R351). -/
def execLmpReadCycle (a : BitVec 22) (wrLow : Bool) (ecc : Ecc) (s : State) : Host.Outcome State Fault Refusal :=
  runMirror s (fun s => keeping [.masters] s (if ¬ s.mgmt then s else if wrLow then lmpError s 2 (4 * a.toNat) else readReg s .lmp (4 * a.toNat) ecc))

/-- LMP_WRITE_CYCLE (R351): partial byte enables discard the write. -/
def execLmpWriteCycle (a : BitVec 22) (be : BitVec 4) (v : Word) (rdLow : Bool) (s : State) : Host.Outcome State Fault Refusal :=
  runOn [.masters] s (fun s =>
    if s.mgmt ∧ rdLow then lmpError s 2 (4 * a.toNat)
    else if s.mgmt ∧ be ≠ 15#4 ∧ ¬ earlyWrite s .lmp (4 * a.toNat) then lmpError s 1 (4 * a.toNat)
    else acceptWrite s .lmp (4 * a.toNat) v)

/-- REGISTER_WRITE (R310, R351, R353): a PCIe write with partial byte enables is discarded and reported. -/
def execRegisterWrite (m : Master) (off : BitVec 24) (be : BitVec 4) (v : Word) (s : State) : Host.Outcome State Fault Refusal :=
  runOn [.masters] s (fun s =>
    if s.mgmt ∧ s.reaches m ∧ be ≠ 15#4 ∧ ¬ earlyWrite s m (wordOffset off) then (if m = .lmp then lmpError s 1 (wordOffset off) else raise s 288)
    else acceptWrite s m (wordOffset off) v)

def execWriteTakeEffect (m : Master) (s : State) : Host.Outcome State Fault Refusal :=
  runOn Part.device s (fun s => takeEffect (freeCrcs s) s.bumpFresh m)

def execWmRegisterWrite (m : Master) (k : Fin 4) (v : Word) (s : State) : Host.Outcome State Fault Refusal :=
  runOn [.masters] s (fun s => acceptWrite s m (R.GLB_FLAGSn k) v)

def execIdxSelWrite (m : Master) (v : Word) (s : State) : Host.Outcome State Fault Refusal :=
  runOn [.masters] s (fun s => acceptWrite s m R.GLB_IDX_SEL v)

def execIdxAddrWrite (m : Master) (v : Word) (s : State) : Host.Outcome State Fault Refusal :=
  runOn [.masters] s (fun s => acceptWrite s m R.GLB_IDX_ADDR v)

def execIdxDataWrite (m : Master) (v : Word) (s : State) : Host.Outcome State Fault Refusal :=
  runOn [.masters] s (fun s => acceptWrite s m R.GLB_IDX_DATA v)

def execIdxPrefetchDone (m : Master) (ecc : Ecc) (s : State) : Host.Outcome State Fault Refusal :=
  runOn [.masters, .force, .queues, .outputs, .compose] s (fun s => prefetchDone s m ecc)

end Sys2Proof.Machine
end

