-- ==== Sys2Proof/Machine/Commands.lean ====
section
/-!
DEFINITION. The commands that are a write to one register, or to one word of an indirect space, that does more than hold a value: the
write is accepted (R346, R347, R353) and takes effect in its unit.
-/
namespace Sys2Proof.Machine

-- Loader (R61, R65).

def execLdrRelease (m : Master) (s : State) : Host.Outcome State Fault Refusal := runOn Part.device s (fun s => writeNow s m R.LDR_CTRL 1#32)
def execLdrReload (m : Master) (s : State) : Host.Outcome State Fault Refusal := runOn Part.device s (fun s => writeNow s m R.LDR_CTRL 2#32)
def execLdrUpdErase (m : Master) (s : State) : Host.Outcome State Fault Refusal := runOn Part.device s (fun s => writeNow s m R.LDR_UPD_CMD 1#32)
def execLdrUpdProgram (m : Master) (s : State) : Host.Outcome State Fault Refusal :=
  runOn Part.device s (fun s => writeNow s m R.LDR_UPD_CMD 2#32)
def execLdrUpdFinish (m : Master) (flash : List Byte) (s : State) : Host.Outcome State Fault Refusal :=
  runOn Part.device s (fun s => settle (flashCrcs flash) m s (acceptWrite s m R.LDR_UPD_CMD 3#32))

-- Store, scalers, layers, fences (R93, R137, R182, R201, R205).

def execSspRetireCmd (m : Master) (v : Word) (s : State) : Host.Outcome State Fault Refusal :=
  runOn Part.device s (fun s => writeNow s m R.SSP_RETIRE_CMD v)
def execCoefWrite (m : Master) (addr : BitVec 12) (v : Word) (s : State) : Host.Outcome State Fault Refusal :=
  runOn Part.device s (fun s => wordNow s m Space.COEF addr.toNat v)
def execLayerCntClear (m : Master) (desc : Fin 4096) (w : Fin 4) (s : State) : Host.Outcome State Fault Refusal :=
  runOn Part.device s (fun s => wordNow s m Space.LAYER_CNT (4 * desc + w) 0#32)
def execFenceSignalWrite (m : Master) (handle : BitVec 16) (s : State) : Host.Outcome State Fault Refusal :=
  runOn Part.device s (fun s => wordNow s m Space.FENCE (2 * handle.toNat) 0x80000000#32)
def execFenceWritingWrite (m : Master) (handle : BitVec 16) (s : State) : Host.Outcome State Fault Refusal :=
  runOn Part.device s (fun s => wordNow s m Space.FENCE (2 * handle.toNat) 0x40000000#32)
def execLayerSrcClear (m : Master) (desc : Fin 4096) (s : State) : Host.Outcome State Fault Refusal :=
  runOn Part.device s (fun s => wordNow s m Space.LAYER_SRC (2 * desc + 1) 0#32)

-- Commits (R192, R195).

def execSeqCommit (m : Master) (g : Fin 8) (tag : BitVec 16) (s : State) : Host.Outcome State Fault Refusal :=
  runOn Part.device s (fun s => writeNow s m (R.SEQ_Gn_COMMIT g) (word (tag.toNat * 65536 + 1)))
def execSeqCancel (m : Master) (g : Fin 8) (tag : BitVec 16) (s : State) : Host.Outcome State Fault Refusal :=
  runOn Part.device s (fun s => writeNow s m (R.SEQ_Gn_COMMIT g) (word (tag.toNat * 65536 + 2)))

-- Heads, DisplayPort, safe state (R221, R226, R229, R240, R241).

def execHeadReset (m : Master) (h : Fin 32) (s : State) : Host.Outcome State Fault Refusal :=
  runOn Part.device s (fun s => writeNow s m (R.OWB_Hnn_RESET h) 1#32)
def execDpCtrlWrite (m : Master) (d : Fin 16) (v : Word) (s : State) : Host.Outcome State Fault Refusal :=
  runOn Part.device s (fun s => writeNow s m (R.OWB_Ddd_CTRL d) v)
def execAuxNativeRead (m : Master) (d : Fin 16) (len : Fin 16) (addr : BitVec 20) (s : State) : Host.Outcome State Fault Refusal :=
  runOn Part.device s (fun s => writeNow s m (R.OWB_Ddd_AUX_CMD d) (auxWord 0 len addr.toNat))
def execAuxNativeWrite (m : Master) (d : Fin 16) (len : Fin 16) (addr : BitVec 20) (s : State) : Host.Outcome State Fault Refusal :=
  runOn Part.device s (fun s => writeNow s m (R.OWB_Ddd_AUX_CMD d) (auxWord 1 len addr.toNat))
def execAuxI2cRead (m : Master) (d : Fin 16) (len : Fin 16) (addr : BitVec 20) (s : State) : Host.Outcome State Fault Refusal :=
  runOn Part.device s (fun s => writeNow s m (R.OWB_Ddd_AUX_CMD d) (auxWord 2 len addr.toNat))
def execAuxI2cWrite (m : Master) (d : Fin 16) (len : Fin 16) (addr : BitVec 20) (s : State) : Host.Outcome State Fault Refusal :=
  runOn Part.device s (fun s => writeNow s m (R.OWB_Ddd_AUX_CMD d) (auxWord 3 len addr.toNat))
def execSafeForceWrite (m : Master) (h : Fin 32) (v : Word) (s : State) : Host.Outcome State Fault Refusal :=
  runOn Part.device s (fun s => writeNow s m (R.OWB_Hnn_SAFE_CTRL h) (setBit v 11 true))
def execSafeReleaseWrite (m : Master) (h : Fin 32) (v : Word) (s : State) : Host.Outcome State Fault Refusal :=
  runOn Part.device s (fun s => writeNow s m (R.OWB_Hnn_SAFE_CTRL h) (setBit v 12 true))
def execSafeCtrlWrite (m : Master) (h : Fin 32) (v : Word) (s : State) : Host.Outcome State Fault Refusal :=
  runOn Part.device s (fun s => writeNow s m (R.OWB_Hnn_SAFE_CTRL h) (setBits v 12 11 0))
def execSafeFrameWrite (m : Master) (addr : BitVec 18) (v : Word) (s : State) : Host.Outcome State Fault Refusal :=
  runOn Part.device s (fun s => wordNow s m Space.SAFE_FRAME addr.toNat v)

-- Network (R252, R257, R266, R270, R275).

def execRxStreamConfigWrite (m : Master) (addr : BitVec 12) (v : Word) (s : State) : Host.Outcome State Fault Refusal :=
  runOn Part.device s (fun s => wordNow s m Space.NMP_RXS addr.toNat v)
def execTxStreamConfigWrite (m : Master) (addr : BitVec 10) (v : Word) (s : State) : Host.Outcome State Fault Refusal :=
  runOn Part.device s (fun s => wordNow s m Space.NMP_TXS addr.toNat v)
def execNmpCounterClear (m : Master) (tx : Bool) (addr : BitVec 12) (s : State) : Host.Outcome State Fault Refusal :=
  runOn Part.device s (fun s => wordNow s m (if tx then Space.NMP_TXC else Space.NMP_RXC) addr.toNat 0#32)
def execGclApply (m : Master) (p : Fin 16) (v : Word) (s : State) : Host.Outcome State Fault Refusal :=
  runOn Part.device s (fun s => writeNow s m (R.NMP_Pnn_GCL_CTRL p) (setBit v 30 true))
def execGclCancel (m : Master) (p : Fin 16) (v : Word) (s : State) : Host.Outcome State Fault Refusal :=
  runOn Part.device s (fun s => writeNow s m (R.NMP_Pnn_GCL_CTRL p) (setBit v 29 true))
def execNmpPortReset (m : Master) (p : Fin 16) (s : State) : Host.Outcome State Fault Refusal :=
  runOn Part.device s (fun s => writeNow s m (R.NMP_Pnn_RESET p) 1#32)

-- Timing (R279, R281, R284, R298).

def execTodSetHiWrite (m : Master) (v : Word) (s : State) : Host.Outcome State Fault Refusal :=
  runOn Part.device s (fun s => writeNow s m R.TRS_TOD_SET_HI v)
def execRefCtrlWrite (m : Master) (reg : Fin 4) (v : Word) (s : State) : Host.Outcome State Fault Refusal :=
  runOn Part.device s (fun s => if reg.val = 0 then writeNow s m R.TRS_REF_CTRL (setBit v 31 false) else writeNow s m (R.TRS_REF_PRIOk (reg - 1)) v)
def execTrsStepNow (m : Master) (v : Word) (s : State) : Host.Outcome State Fault Refusal :=
  runOn Part.device s (fun s => writeNow s m R.TRS_REF_CTRL (setBit v 31 true))
def execSyncInArm (m : Master) (v : Word) (s : State) : Host.Outcome State Fault Refusal :=
  runOn Part.device s (fun s => writeNow s m R.TRS_SYNC_CTRL (setBit v 31 true))

/-- GLB_FUNC_RESET with only BOARD, only PF0 or only PF1 set (R344). -/
def funcResetBoard : Word := 1#32
def funcResetPf0 : Word := 2#32
def funcResetPf1 : Word := 4#32

-- Queues and functions (R317, R318, R332, R339, R340).

def execDoorbell (m : Master) (q : Fin 64) (s : State) : Host.Outcome State Fault Refusal :=
  runOn Part.device s (fun s => writeNow s m (R.HWQ_Qnn_DB q) 0#32)
def execBoardProdWrite (m : Master) (q : Fin 16) (v : Word) (s : State) : Host.Outcome State Fault Refusal :=
  runOn Part.device s (fun s => writeNow s m (R.HWQ_Qnn_PROD q) v)
def execGlbFuncResetPf0 (m : Master) (s : State) : Host.Outcome State Fault Refusal :=
  runOn Part.device s (fun s => writeNow s m R.GLB_FUNC_RESET funcResetPf0)
def execGlbFuncResetPf1 (m : Master) (s : State) : Host.Outcome State Fault Refusal :=
  runOn Part.device s (fun s => writeNow s m R.GLB_FUNC_RESET funcResetPf1)
def execGlbFuncResetBoard (m : Master) (s : State) : Host.Outcome State Fault Refusal :=
  runOn Part.device s (fun s => writeNow s m R.GLB_FUNC_RESET funcResetBoard)
def execQueueCfgWrite (m : Master) (q : Fin 64) (v : Word) (s : State) : Host.Outcome State Fault Refusal :=
  runOn Part.device s (fun s => writeNow s m (R.HWQ_Qnn_CFG q) v)
def execEvrEnable (m : Master) (k : Fin 2) (v : Word) (s : State) : Host.Outcome State Fault Refusal :=
  runOn Part.device s (fun s => writeNow s m (R.HWQ_Fk_EVR_CFG k) (setBit v 31 true))
def execEvrConsWrite (m : Master) (k : Fin 2) (v : Word) (s : State) : Host.Outcome State Fault Refusal :=
  runOn Part.device s (fun s => writeNow s m (R.HWQ_Fk_EVR_CONS k) v)

-- Integrity (R366, R375, R377, R380, R382, R394 to R396).

def execCfgcrcArm (m : Master) (s : State) : Host.Outcome State Fault Refusal := runOn Part.device s (fun s => writeNow s m R.IHM_CFGCRC_CTRL 1#32)
def execCfgcrcDisarm (m : Master) (s : State) : Host.Outcome State Fault Refusal :=
  runOn Part.device s (fun s => writeNow s m R.IHM_CFGCRC_CTRL 0#32)
def execCfgcrcRefWrite (m : Master) (v : Word) (s : State) : Host.Outcome State Fault Refusal :=
  runOn Part.device s (fun s => writeNow s m R.IHM_CFGCRC_REF v)
def execPhaseSet (m : Master) (v : Word) (s : State) : Host.Outcome State Fault Refusal := runOn Part.device s (fun s => writeNow s m R.IHM_PHASE v)
def execFcSrcWrite (m : Master) (src : Fin 320) (v : Word) (s : State) : Host.Outcome State Fault Refusal :=
  runOn Part.device s (fun s => wordNow s m Space.FC_SRC src v)
def execFcClearSource (m : Master) (src : BitVec 9) (s : State) : Host.Outcome State Fault Refusal :=
  runOn Part.device s (fun s => writeNow s m R.IHM_FC_CLEAR (word (536870912 + src.toNat)))
def execFcClearAll (m : Master) (s : State) : Host.Outcome State Fault Refusal :=
  runOn Part.device s (fun s => writeNow s m R.IHM_FC_CLEAR 0x80000000#32)
def execFcClearSelf (m : Master) (s : State) : Host.Outcome State Fault Refusal :=
  runOn Part.device s (fun s => writeNow s m R.IHM_FC_CLEAR 0x40000000#32)
def execHistClear (m : Master) (q : Fin 4) (s : State) : Host.Outcome State Fault Refusal :=
  runOn Part.device s (fun s => writeNow s m (R.IHM_HISTq_CTRL q) 1#32)
def execInjGo (m : Master) (v : Word) (s : State) : Host.Outcome State Fault Refusal :=
  runOn Part.device s (fun s => writeNow s m R.IHM_INJ (setBits v 31 30 2))
def execInjCancel (m : Master) (v : Word) (s : State) : Host.Outcome State Fault Refusal :=
  runOn Part.device s (fun s => writeNow s m R.IHM_INJ (setBit v 30 true))
def execCrcuLoad (m : Master) (u : Fin 4) (v : Word) (s : State) : Host.Outcome State Fault Refusal :=
  runOn Part.device s (fun s => writeNow s m (R.IHM_CRCUu_CTRL u) (setBit v 31 true))
def execCrcuData8 (m : Master) (u : Fin 4) (v : Word) (s : State) : Host.Outcome State Fault Refusal :=
  runOn Part.device s (fun s => writeNow s m (R.IHM_CRCUu_DATA8 u) v)
def execCrcuData16 (m : Master) (u : Fin 4) (v : Word) (s : State) : Host.Outcome State Fault Refusal :=
  runOn Part.device s (fun s => writeNow s m (R.IHM_CRCUu_DATA16 u) v)
def execCrcuData32 (m : Master) (u : Fin 4) (v : Word) (s : State) : Host.Outcome State Fault Refusal :=
  runOn Part.device s (fun s => writeNow s m (R.IHM_CRCUu_DATA32 u) v)

-- Health (R406, R412).

def execCarryCmd (m : Master) (v : Word) (s : State) : Host.Outcome State Fault Refusal :=
  runOn Part.device s (fun s => writeNow s m R.IHM_CARRY_CMD (setBit v 31 true))
def execUnitReset (m : Master) (v : Word) (s : State) : Host.Outcome State Fault Refusal :=
  runOn Part.device s (fun s => writeNow s m R.IHM_UNIT_CMD (setBits v 31 28 9))

end Sys2Proof.Machine
end

