-- ==== Sys2Proof/Machine/Power.lean ====
section
/-!
DEFINITION. What reaches the whole device from its supplies, its oscillator and its fabric: SUPPLY_EXCURSION (R12, R437), XO_IN_STOP
(R453), PCIE_PERST_N_ASSERT (R439) and beads on rods (R25, R26, R40).
-/
namespace Sys2Proof.Machine

-- Supplies and clocks.

/-- The codes that complete with an error (R331). -/
def errorCodes : List Nat :=
  [0x11, 0x12, 0x13, 0x20, 0x21, 0x22, 0x23, 0x24, 0x25, 0x26, 0x30, 0x31, 0x32, 0x33, 0x34, 0x35, 0x36, 0x37, 0x38, 0x39, 0x3A, 0x3B, 0x3C,
   0x3D, 0x40, 0x41, 0x42, 0x43, 0x44, 0x45]

/-- A job after an event that R10 does not survive: it goes on, is completed with an error code, or is left neither completed nor re-run
(R12). Which is a free value. -/
def loseJob (s : State) (q : Nat) : State :=
  if (s.queue q).job.isNone then s
  else
    let v := (Config.freeWord s.fresh).toNat
    let s1 := s.bumpFresh
    match v % 3 with
    | 0 => s1
    | 1 => jobAbort s1 q (errorCodes.getD (v / 3 % errorCodes.length) Code.DOUBLE_FAULT) false
    | _ =>
      let s2 := jobRelease s1 q
      s2.setQueue q { s2.queue q with job := none }

/-- A commit after such an event: it goes on, or is left without a final state (R12). -/
def loseCommit (s : State) (g : Nat) : State :=
  let x := s.group g
  if x.commit.isNone then s
  else
    let s1 := s.bumpFresh
    if (Config.freeWord s.fresh).getLsbD 0 then
      { s1.setGroup g { x with commit := none, planned := none } with
        planQ := s1.planQ.filter (· != g)
        planning := s1.planning.filter (fun r => r.group != g) }
    else s1

/-- SUPPLY_EXCURSION (R12, R437). -/
def supplyLost (s : State) : State := forEach (List.range 8) (forEach (List.range 64) s loseJob) loseCommit

def execSupplyExcursion (s : State) : Host.Outcome State Fault Refusal := runOn [.force, .queues, .outputs, .compose] s supplyLost

/-- The trained DisplayPort links lose lock: their source heads' OWB_Hnn_OUT is raised (R226, R247, R453). -/
def dpAllLost (s : State) : State :=
  forEach (List.range 16) s (fun s d => if dpEn s d ∧ (s.dp d).trained then dpRaise (dpLost s d) d else s)

/-- XO_IN_STOP (R307, R453): the pixel PLLs and the serial links (DisplayPort, Ethernet and PCIe) lose lock and raise their events. -/
def xoStop (s : State) : State :=
  if s.trs.xoStopped then s
  else
    let s1 := raise { s with trs := { s.trs with xoStopped := true } } 277
    pcieDown (forEach (List.range 16) (dpAllLost (forEach (List.range 8) s1 pllLost)) linkDown)

def execXoInStop (s : State) : Host.Outcome State Fault Refusal := runOn [.outputs, .compose, .timing] s xoStop

/-- PCIE_PERST_N_ASSERT (R439): the link is reset, and both functions as by a function-level reset. -/
def perstAssert (s : State) : State := startReset (startReset (pcieDown s) 1 true) 2 true

def execPciePerstNAssert (s : State) : Host.Outcome State Fault Refusal := runOn [.force, .queues] s perstAssert

-- Beads on rods.

/-- A parity error of the receiving block (R26); `inj` marks an injected one (R395). -/
def beadError (inj : Bool) (s : State) : BeadDst → State
  | .fetchSwitch .. | .offline _ .fetchSwitch _ _ => raiseInj (s.bump R.FSH_PAR_CNT 1) 55 inj
  | .scaler .. | .offline _ .scaler _ _ => raiseInj s 56 inj
  | .hwqJob .. | .hwqAperture .. => raiseInj s 292 inj
  | .tile .. | .converter .. | .writeBack .. | .offline _ .tile _ _ => raiseInj s 73 inj
  | .ssp .. | .offline _ .ssp _ _ => raiseInj s 39 inj

/-- What a bead is of: the numbers of the line it belongs to, its place in the line, the beads of the line, ST of its request, and RA. A line
that cannot be told from a later one has no numbers. -/
structure BeadSite where
  line : List Nat
  bead : Nat
  beads : Nat
  st : Bool
  ra : Bool
  deriving DecidableEq, Repr

/-- Beads of a stored line of a handle, and those of its payload, which is what a writer sends (R28, R78). -/
def beadsOf (s : State) (h : Nat) : Nat := ((s.surface h).map (fun x => x.pitch / 16)).getD 0
def writtenBeads (s : State) (h : Nat) : Nat := ceilDiv (linePayload s h) 16

/-- The request with a number: its scaler, the job it serves and the request (R170). -/
def findReq (s : State) (req : Nat) : Option (Nat × ScaleJob × LineReq) :=
  (List.range 80).findSome? (fun l => (s.scaler l).jobs.findSome? (fun j => (j.reqs.find? (fun r => r.id == req)).map (fun r => (l, j, r))))

/-- The run-ahead line with a request's number (R177). -/
def findRa (s : State) (req : Nat) : Option (Nat × RaLine) :=
  (List.range 8).findSome? (fun g => ((s.group g).ra.find? (fun r => r.id == req)).map (fun r => (g, r)))

/-- A fetch bead of a scaler's request; `ahead`: or of a run-ahead request, whose beads end in the store at the fetch switch. -/
def reqSite (s : State) (req bead : Nat) (ahead : Bool) : Option BeadSite :=
  match findReq s req with
  | some e =>
    let st := ((s.viewFor e.2.1.step.group e.2.1.step.frame).desc e.2.1.desc).safety || tallied s e.2.1.step.head
    some ⟨[0, req], bead, beadsOf s e.2.2.handle, st, false⟩
  | none =>
    if ahead then (findRa s req).map (fun e =>
      let d := (if e.2.tag then s.pendView else s.viewFor e.1 e.2.frame).desc e.2.desc
      ⟨[0, req], bead, beadsOf s e.2.handle, e.2.s0 || tallied s d.head, e.2.tag⟩)
    else none

/-- A result bead of the first line `y` among lines under way at a head. -/
def resultSite (s : State) (h y pair : Nat) (ls : List ResLine) : Option BeadSite :=
  (ls.find? (fun l => l.y == y)).map (fun l => ⟨[3, h, l.frame, y], pair, ceilDiv l.px.length 2, tallied s h, false⟩)

/-- An ingest bead of a line of a handle: beads that have come are behind it (R26). -/
def ingestSite (s : State) (rod h i k : Nat) : Option BeadSite :=
  if rodPurpose rod = .ingest ∧ nextIngest s h i ≤ k then some ⟨[], k, writtenBeads s h, false, false⟩ else none

/-- A bead of the line that an OFFLINE_COMPOSE job composes next, of the layer in progress (R327): its scaler and tile have rods of their own;
the last layer's result goes to the destination. -/
def offlineSite (s : State) (rod q : Nat) (at_ : OfflineStage) (layer k : Nat) : Option BeadSite :=
  match s.jobIn q Typ.OFFLINE_COMPOSE .running with
  | none => none
  | some j =>
    let id := [q, j.seq.toNat, j.seg, j.pos]
    match (offlineDescs j)[j.seg]? with
    | none => none
    | some d =>
      if layer ≠ j.seg ∨ j.units = [] then none
      else match at_ with
        | .ssp => if j.seg + 1 = (offlineDescs j).length then ingestSite s rod (le j.head 16 2) j.pos k else none
        | .tile =>
          match s.surface (le j.head 16 2) with
          | none => none
          | some x => match clipBox d x.width x.height with
            | none => none
            | some (x0, x1, y0, y1) =>
              if d.kind = 0 ∧ y0 ≤ j.pos ∧ j.pos < y1 ∧ (scalerRods ((servedLogical s (450 + j.scaler)).getD 0)).contains rod then
                some ⟨6 :: id, k, (x1 - 1) / 2 + 1 - x0 / 2, false, false⟩
              else none
        | _ =>
          let n := max 1 (beadsOf s d.handle)
          if rodPurpose rod = .fetch ∧ d.kind = 0 then
            some ⟨(if at_ = .scaler then 7 else 5) :: k / n :: id, k, n * (k / n + 1), false, false⟩
          else none

/-- The line a bead is of; none when nothing under way sends it over this rod (R23, R24). -/
def beadSite (s : State) (rod : Nat) : BeadDst → Option BeadSite
  | .fetchSwitch req k => if rodPurpose rod = .fetch then reqSite s req k true else none
  | .scaler req k => if rodPurpose rod = .fetch then reqSite s req k false else none
  | .hwqJob q k =>
    if rodPurpose rod ≠ .fetch then none
    else (s.jobIn q Typ.SURFACE_COPY .running).map (fun j => ⟨[1, q, j.seq.toNat, j.pos, j.voids], k, beadsOf s (le j.head 16 2), false, false⟩)
  | .hwqAperture n k => if rodPurpose rod = .fetch ∧ (s.func n).apNext ≤ k then some ⟨[], k, 0, false, false⟩ else none
  | .tile t i y pair =>
    let x := s.tile t
    match x.run, x.entries[i]? with
    | some st, some e =>
      let d := (s.viewFor st.group st.frame).desc (tentryOf e.word).desc
      let (x0, x1, _, _) := entryBox (s.viewFor st.group st.frame) st e.word
      if rodPurpose rod = .layer ∧ rodScaler rod = (tentryOf e.word).scaler ∧ x.y ≤ y ∧ x0 < x1 ∧ d.kind = 0 then
        some ⟨[2, t, st.group, st.frame, st.index, i, y], pair - x0 / 2, (x1 - 1) / 2 + 1 - x0 / 2, d.safety || tallied s st.head, false⟩
      else none
    | _, _ => none
  | .converter h y pair =>
    if rodPurpose rod = .result then
      resultSite s h y pair ((s.head h).results.filter (fun l => l.tile == rodTile rod))
    else none
  | .writeBack h y pair =>
    if rodPurpose rod = .result then
      resultSite s h y pair (((s.head h).wbq.filter (fun l => l.line.tile == rodTile rod && decide (l.got ≤ pair))).map (·.line))
    else none
  | .ssp h i k => ingestSite s rod h i k
  | .offline q at_ layer k => offlineSite s rod q at_ layer k

/-- Whether a rod can carry the bead next: it keeps the order of the line it is in, and a stored line stays on its rod (R26, R408). -/
def inOrder (s : State) (rod : Nat) (b : BeadSite) : Bool :=
  let x := s.rod rod
  (b.line == [] || x.line != b.line || decide (x.next ≤ b.bead))
    && (!([0, 5, 7].contains (b.line.headD 9)) || s.rods.all (fun e => e.1 == rod || e.2.line != b.line))

/-- Bits that change in a bead of a request for a stored line, or of a run-ahead line. -/
def flipReq (s : State) (req k : Nat) (flip : BitVec 137) : State :=
  match findReq s req with
  | some (l, _, _) => s.setScaler l ⟨(s.scaler l).jobs.map (fun j =>
      { j with reqs := j.reqs.map (fun r => if r.id = req then { r with flips := (k, flip) :: r.flips } else r) })⟩
  | none => match findRa s req with
    | some (g, _) => s.setGroup g { s.group g with ra := (s.group g).ra.map (fun r =>
        if r.id = req then { r with flips := (k, flip) :: r.flips } else r) }
    | none => s

/-- Bits that change in a bead of an OFFLINE_COMPOSE job; of its result they change in the ingest bead of the destination's line. -/
def flipOffline (s : State) (q : Nat) (at_ : OfflineStage) (k : Nat) (flip : BitVec 137) : State :=
  match s.jobIn q Typ.OFFLINE_COMPOSE .running with
  | none => s
  | some j => if at_ = .ssp then ingestFlip s (le j.head 16 2) j.pos k flip
    else s.setJob q { j with flips := if flip = 0 then j.flips else ((at_, j.seg), k, flip) :: j.flips }

/-- Bits that change in a layer bead: of a line at the tile, or one that is still to come. -/
def flipLayer (s : State) (t i y pair : Nat) (flip : BitVec 137) : State :=
  let x := s.tile t
  match x.run, x.entries[i]? with
  | some st, some e =>
    let x0 := (entryBox (s.viewFor st.group st.frame) st e.word).1
    let e1 : Entry :=
      if e.got.any (fun l => l.y == y) then
        { e with got := e.got.map (fun l => if l.y = y then { l with px := carryPixels x0 l.px false [(pair, flip)] } else l) }
      else { e with flips := (y, pair, flip) :: e.flips }
    s.setTile t { x with entries := setAt x.entries i e1 }
  | _, _ => s

/-- Bits that change in a result bead of the first line `y` among those that pass `p`. -/
def flipResult (p : ResLine → Bool) (y pair : Nat) (flip : BitVec 137) : List ResLine → List ResLine
  | [] => []
  | l :: ls => if l.y = y ∧ p l then { l with px := carryPixels 0 l.px false [(pair, flip)] } :: ls else l :: flipResult p y pair flip ls

/-- A bead reaches its receiver with some bits changed (R26, R40): the unit takes a VOID bead for one that fails, and the bits as received else.
A fetch bead at HWQ that is VOID or changed repeats the read: the line's tail does not pass (R28). Ingest and aperture beads are noted whole ones
too: they keep their order. -/
def takeFlip (s : State) (rod : Nat) (flip : BitVec 137) (bad : Bool) : BeadDst → State
  | .ssp h line k => ingestFlip s h line k flip
  | .offline q at_ _ k => flipOffline s q at_ k flip
  | .hwqAperture n k =>
    let s1 := s.setFunc n { s.func n with apNext := k + 1 }
    if bad ∨ beadData flip ≠ 0 then apVoid s1 n else s1
  | dst =>
    if flip = 0 then s
    else match dst with
    | .fetchSwitch req k => flipReq s req k flip
    | .scaler req k => flipReq s req k flip
    | .hwqJob q _ => if bad ∨ beadData flip ≠ 0 then jobVoid s q else s
    | .tile t i y pair => flipLayer s t i y pair flip
    | .converter h y pair => s.setHead h { s.head h with results := flipResult (fun l => l.tile == rodTile rod) y pair flip (s.head h).results }
    | .writeBack h y pair =>
      let x := s.head h
      let ls := flipResult (fun l => l.tile == rodTile rod) y pair flip (x.wbq.map (·.line))
      s.setHead h { x with wbq := (x.wbq.zip ls).map (fun e => { e.1 with line := e.2 }) }
    | _ => s

/-- ROD_BEAD_RECEIVE (R25, R26, R39, R40): the next bead of a line comes over a rod. Its sender gives it its tags and parity; `flip`: the bits
that changed on the way. A bead whose bits all arrive is part of its line, which other commands move whole. An armed BEAD injection inverts PAR[0]
(R394). Four beads that fail parity within 1 ms are a fault of the rod (R406). -/
def beadReceive (s : State) (rod : Nat) (flip : BitVec 137) (dst : BeadDst) : State :=
  match beadSite s rod dst with
  | none => s
  | some b =>
    if ¬ inOrder s rod b then s
    else
      let (inj, s1) := injectCheck s 4 rod
      let f := if inj then flip ^^^ (1#137 <<< 132) else flip
      let sent := mkBead 0 b.st b.ra (b.bead + 1 == b.beads) false
      let got := received (sent ^^^ f)
      let good := beadGood (sent ^^^ f)
      let s2 := if good then s1 else beadError inj s1 dst
      let old := (s1.rod rod).errs
      let errs := if good then old else s.within 1000000 old
      let x : Rod := ⟨b.line, b.bead + 1, beadSt got, beadRa got, beadEol got, beadVoid got, if 4 ≤ errs.length then [] else errs⟩
      let s4 := takeFlip (s2.setRod rod x) rod f (beadVoid got) dst
      if 4 ≤ errs.length then faultUnit s4 (kget rodMapReset s4.health.rodMap rod) false else s4

def execRodBeadReceive (rod : Fin 400) (flip : BitVec 137) (dst : BeadDst) (s : State) : Host.Outcome State Fault Refusal :=
  runOn [.store, .force, .queues, .outputs, .compose, .health] s (fun s => beadReceive s rod flip dst)

end Sys2Proof.Machine
end

