-- ==== Sys2Proof/Machine/Dispatch.lean ====
section
/-!
DEFINITION. The meaning of each command, one arm per constructor of `Instr`.
-/
namespace Sys2Proof.Machine

def exec (i : Instr) (s : State) : Host.Outcome State Fault Refusal :=
  match i with
  | .porstNAssert => Sys2Proof.Machine.execPorstNAssert s
  | .porstNRise gpio bank33 => Sys2Proof.Machine.execPorstNRise gpio bank33 s
  | .mgmtClockReady => Sys2Proof.Machine.execMgmtClockReady s
  | .supplyExcursion => Sys2Proof.Machine.execSupplyExcursion s
  | .xoInStop => Sys2Proof.Machine.execXoInStop s
  | .pciePerstNAssert => Sys2Proof.Machine.execPciePerstNAssert s
  | .xspiDqsTimeout => Sys2Proof.Machine.execXspiDqsTimeout s
  | .ldrHeadersRead density octal pageA pageB => Sys2Proof.Machine.execLdrHeadersRead density octal pageA pageB s
  | .ldrSectionDone data => Sys2Proof.Machine.execLdrSectionDone data s
  | .ldrScrubDone => Sys2Proof.Machine.execLdrScrubDone s
  | .hbmTrainingDone failed => Sys2Proof.Machine.execHbmTrainingDone failed s
  | .ldrSettleEnd expired => Sys2Proof.Machine.execLdrSettleEnd expired s
  | .startHoldExpiry => Sys2Proof.Machine.execStartHoldExpiry s
  | .ldrRelease m => Sys2Proof.Machine.execLdrRelease m s
  | .ldrReload m => Sys2Proof.Machine.execLdrReload m s
  | .reloadScrubDone => Sys2Proof.Machine.execReloadScrubDone s
  | .ldrUpdErase m => Sys2Proof.Machine.execLdrUpdErase m s
  | .ldrUpdProgram m => Sys2Proof.Machine.execLdrUpdProgram m s
  | .ldrUpdFinish m flash => Sys2Proof.Machine.execLdrUpdFinish m flash s
  | .ldrUpdDone flashOk => Sys2Proof.Machine.execLdrUpdDone flashOk s
  | .surfaceAlloc q => Sys2Proof.Machine.execSurfaceAlloc q s
  | .surfaceFree q => Sys2Proof.Machine.execSurfaceFree q s
  | .pinHint q => Sys2Proof.Machine.execPinHint q s
  | .stripeScrubDone pc => Sys2Proof.Machine.execStripeScrubDone pc s
  | .patrolScrubRead pc site ecc => Sys2Proof.Machine.execPatrolScrubRead pc site ecc s
  | .memoryWordGrant pc ready runAhead site ecc => Sys2Proof.Machine.execMemoryWordGrant pc ready runAhead site ecc s
  | .heatWindowEnd => Sys2Proof.Machine.execHeatWindowEnd s
  | .stripeCarryCopyDone => Sys2Proof.Machine.execStripeCarryCopyDone s
  | .pcRetrainTimeout pc => Sys2Proof.Machine.execPcRetrainTimeout pc s
  | .sspRetireCmd m v => Sys2Proof.Machine.execSspRetireCmd m v s
  | .rodBeadReceive rod flip dst => Sys2Proof.Machine.execRodBeadReceive rod flip dst s
  | .scalerLineRequest l ecc => Sys2Proof.Machine.execScalerLineRequest l ecc s
  | .scalerLineArrival l upsets store => Sys2Proof.Machine.execScalerLineArrival l upsets store s
  | .fetchDeadline req => Sys2Proof.Machine.execFetchDeadline req s
  | .coefWrite m addr v => Sys2Proof.Machine.execCoefWrite m addr v s
  | .planStart upsets => Sys2Proof.Machine.execPlanStart upsets s
  | .planDone us => Sys2Proof.Machine.execPlanDone us s
  | .seqStepIssue g upsets => Sys2Proof.Machine.execSeqStepIssue g upsets s
  | .tileStepStart t upsets => Sys2Proof.Machine.execTileStepStart t upsets s
  | .tileStepDone t => Sys2Proof.Machine.execTileStepDone t s
  | .tileVoidBead t entry => Sys2Proof.Machine.execTileVoidBead t entry s
  | .resultBeadArrival h upsets => Sys2Proof.Machine.execResultBeadArrival h upsets s
  | .lineDue h ueCols upsets => Sys2Proof.Machine.execLineDue h ueCols upsets s
  | .lineLeft h => Sys2Proof.Machine.execLineLeft h s
  | .fshRefillTick pending peak => Sys2Proof.Machine.execFshRefillTick pending peak s
  | .runAheadRequest g => Sys2Proof.Machine.execRunAheadRequest g s
  | .layerCntClear m desc w => Sys2Proof.Machine.execLayerCntClear m desc w s
  | .seqCommit m g tag => Sys2Proof.Machine.execSeqCommit m g tag s
  | .seqCancel m g tag => Sys2Proof.Machine.execSeqCancel m g tag s
  | .commitJob q => Sys2Proof.Machine.execCommitJob q s
  | .commitJobSlotTaken g => Sys2Proof.Machine.execCommitJobSlotTaken g s
  | .frameBoundary g => Sys2Proof.Machine.execFrameBoundary g s
  | .fenceSignalWrite m handle => Sys2Proof.Machine.execFenceSignalWrite m handle s
  | .fenceWritingWrite m handle => Sys2Proof.Machine.execFenceWritingWrite m handle s
  | .layerSrcClear m desc => Sys2Proof.Machine.execLayerSrcClear m desc s
  | .headGapStart h => Sys2Proof.Machine.execHeadGapStart h s
  | .outputDividerLoad h => Sys2Proof.Machine.execOutputDividerLoad h s
  | .groupFrameStart g => Sys2Proof.Machine.execGroupFrameStart g s
  | .headLine0 h => Sys2Proof.Machine.execHeadLine0 h s
  | .headEndOfFrame h => Sys2Proof.Machine.execHeadEndOfFrame h s
  | .headReset m h => Sys2Proof.Machine.execHeadReset m h s
  | .wbBeadArrival h beads storeFull => Sys2Proof.Machine.execWbBeadArrival h beads storeFull s
  | .capture q => Sys2Proof.Machine.execCapture q s
  | .dpHpdPlug d => Sys2Proof.Machine.execDpHpdPlug d s
  | .dpHpdUnplug d => Sys2Proof.Machine.execDpHpdUnplug d s
  | .dpIrqHpd d lost lane => Sys2Proof.Machine.execDpIrqHpd d lost lane s
  | .dpCtrlWrite m d v => Sys2Proof.Machine.execDpCtrlWrite m d v s
  | .dpTrainingDone d sink trains => Sys2Proof.Machine.execDpTrainingDone d sink trains s
  | .dpTrainingRetry d => Sys2Proof.Machine.execDpTrainingRetry d s
  | .auxNativeRead m d len addr => Sys2Proof.Machine.execAuxNativeRead m d len addr s
  | .auxNativeWrite m d len addr => Sys2Proof.Machine.execAuxNativeWrite m d len addr s
  | .auxI2cRead m d len addr => Sys2Proof.Machine.execAuxI2cRead m d len addr s
  | .auxI2cWrite m d len addr => Sys2Proof.Machine.execAuxI2cWrite m d len addr s
  | .auxReply d r => Sys2Proof.Machine.execAuxReply d r s
  | .auxTimeout d => Sys2Proof.Machine.execAuxTimeout d s
  | .safeForceWrite m h v => Sys2Proof.Machine.execSafeForceWrite m h v s
  | .safeReleaseWrite m h v => Sys2Proof.Machine.execSafeReleaseWrite m h v s
  | .safeCtrlWrite m h v => Sys2Proof.Machine.execSafeCtrlWrite m h v s
  | .safeFrameWrite m addr v => Sys2Proof.Machine.execSafeFrameWrite m addr v s
  | .ethRxFrame p frame note => Sys2Proof.Machine.execEthRxFrame p frame note s
  | .rxFrameClose st ts => Sys2Proof.Machine.execRxFrameClose st ts s
  | .rxStreamSilence st => Sys2Proof.Machine.execRxStreamSilence st s
  | .rxPathLivenessTimeout st pathB => Sys2Proof.Machine.execRxPathLivenessTimeout st pathB s
  | .rxStreamConfigWrite m addr v => Sys2Proof.Machine.execRxStreamConfigWrite m addr v s
  | .txStreamConfigWrite m addr v => Sys2Proof.Machine.execTxStreamConfigWrite m addr v s
  | .egressLineFree p stampLost => Sys2Proof.Machine.execEgressLineFree p stampLost s
  | .nmpCounterClear m tx addr => Sys2Proof.Machine.execNmpCounterClear m tx addr s
  | .gclApply m p v => Sys2Proof.Machine.execGclApply m p v s
  | .gclCancel m p v => Sys2Proof.Machine.execGclCancel m p v s
  | .gclSwitch p => Sys2Proof.Machine.execGclSwitch p s
  | .gclEntryEnd p => Sys2Proof.Machine.execGclEntryEnd p s
  | .ptpSyncTx p => Sys2Proof.Machine.execPtpSyncTx p s
  | .ptpAnnounceTx p => Sys2Proof.Machine.execPtpAnnounceTx p s
  | .ptpDelayReqTx p => Sys2Proof.Machine.execPtpDelayReqTx p s
  | .ptpAnnounceTimeout p => Sys2Proof.Machine.execPtpAnnounceTimeout p s
  | .nmpPortReset m p => Sys2Proof.Machine.execNmpPortReset m p s
  | .ethLinkUp p => Sys2Proof.Machine.execEthLinkUp p s
  | .ethLinkDown p lane => Sys2Proof.Machine.execEthLinkDown p lane s
  | .timeLoRead m => Sys2Proof.Machine.execTimeLoRead m s
  | .todSetHiWrite m v => Sys2Proof.Machine.execTodSetHiWrite m v s
  | .refinEdge idx => Sys2Proof.Machine.execRefinEdge idx s
  | .refinWindowEnd idx cycles => Sys2Proof.Machine.execRefinWindowEnd idx cycles s
  | .refEdgeTimeout idx => Sys2Proof.Machine.execRefEdgeTimeout idx s
  | .ptpSyncTimeout p => Sys2Proof.Machine.execPtpSyncTimeout p s
  | .refQualified c => Sys2Proof.Machine.execRefQualified c s
  | .trsLockAchieved => Sys2Proof.Machine.execTrsLockAchieved s
  | .trsPhaseErrorTimeout => Sys2Proof.Machine.execTrsPhaseErrorTimeout s
  | .trsWtrExpiry => Sys2Proof.Machine.execTrsWtrExpiry s
  | .holdoverLimitExpiry => Sys2Proof.Machine.execHoldoverLimitExpiry s
  | .refCtrlWrite m reg v => Sys2Proof.Machine.execRefCtrlWrite m reg v s
  | .trsStepNow m v => Sys2Proof.Machine.execTrsStepNow m v s
  | .buildoutBleedStep => Sys2Proof.Machine.execBuildoutBleedStep s
  | .holdoverLearnTick => Sys2Proof.Machine.execHoldoverLearnTick s
  | .holdoverUpdateTick => Sys2Proof.Machine.execHoldoverUpdateTick s
  | .tempConversionEnd c => Sys2Proof.Machine.execTempConversionEnd c s
  | .pllLockTryEnd g r => Sys2Proof.Machine.execPllLockTryEnd g r s
  | .pllUnlock g => Sys2Proof.Machine.execPllUnlock g s
  | .syncInArm m v => Sys2Proof.Machine.execSyncInArm m v s
  | .syncInEdge => Sys2Proof.Machine.execSyncInEdge s
  | .bslMessageTx => Sys2Proof.Machine.execBslMessageTx s
  | .bslMessageRx msg => Sys2Proof.Machine.execBslMessageRx msg s
  | .bslLinkAlign => Sys2Proof.Machine.execBslLinkAlign s
  | .doorbell m q => Sys2Proof.Machine.execDoorbell m q s
  | .boardProdWrite m q v => Sys2Proof.Machine.execBoardProdWrite m q v s
  | .prodIndexRead q host => Sys2Proof.Machine.execProdIndexRead q host s
  | .queueEntryRead q host ecc badL => Sys2Proof.Machine.execQueueEntryRead q host ecc badL s
  | .surfaceUpload q lines => Sys2Proof.Machine.execSurfaceUpload q lines s
  | .surfaceCopy q n => Sys2Proof.Machine.execSurfaceCopy q n s
  | .fill q n => Sys2Proof.Machine.execFill q n s
  | .offlineCompose q n upsets => Sys2Proof.Machine.execOfflineCompose q n upsets s
  | .tallyQuery q upsets => Sys2Proof.Machine.execTallyQuery q upsets s
  | .pcieFlr pf1 => Sys2Proof.Machine.execPcieFlr pf1 s
  | .glbFuncResetPf0 m => Sys2Proof.Machine.execGlbFuncResetPf0 m s
  | .glbFuncResetPf1 m => Sys2Proof.Machine.execGlbFuncResetPf1 m s
  | .glbFuncResetBoard m => Sys2Proof.Machine.execGlbFuncResetBoard m s
  | .funcResetJobsEnded owner => Sys2Proof.Machine.execFuncResetJobsEnded owner s
  | .queueCfgWrite m q v => Sys2Proof.Machine.execQueueCfgWrite m q v s
  | .evrEnable m k v => Sys2Proof.Machine.execEvrEnable m k v s
  | .evrConsWrite m k v => Sys2Proof.Machine.execEvrConsWrite m k v s
  | .msixHoldoffExpiry k => Sys2Proof.Machine.execMsixHoldoffExpiry k s
  | .msixUnmask k vec addr data => Sys2Proof.Machine.execMsixUnmask k vec addr data s
  | .apertureRead k off len => Sys2Proof.Machine.execApertureRead k off len s
  | .apertureWrite k off data => Sys2Proof.Machine.execApertureWrite k off data s
  | .pcieLaneFail width speed => Sys2Proof.Machine.execPcieLaneFail width speed s
  | .lmpReadCycle a wrLow ecc => Sys2Proof.Machine.execLmpReadCycle a wrLow ecc s
  | .lmpWriteCycle a be v rdLow => Sys2Proof.Machine.execLmpWriteCycle a be v rdLow s
  | .registerWrite m off be v => Sys2Proof.Machine.execRegisterWrite m off be v s
  | .writeTakeEffect m => Sys2Proof.Machine.execWriteTakeEffect m s
  | .rcRegisterRead m off dws ecc => Sys2Proof.Machine.execRcRegisterRead m off dws ecc s
  | .wmRegisterWrite m k v => Sys2Proof.Machine.execWmRegisterWrite m k v s
  | .idxSelWrite m v => Sys2Proof.Machine.execIdxSelWrite m v s
  | .idxAddrWrite m v => Sys2Proof.Machine.execIdxAddrWrite m v s
  | .idxDataRead m => Sys2Proof.Machine.execIdxDataRead m s
  | .idxDataWrite m v => Sys2Proof.Machine.execIdxDataWrite m v s
  | .idxPrefetchDone m ecc => Sys2Proof.Machine.execIdxPrefetchDone m ecc s
  | .cfgcrcArm m => Sys2Proof.Machine.execCfgcrcArm m s
  | .cfgcrcDisarm m => Sys2Proof.Machine.execCfgcrcDisarm m s
  | .cfgcrcRefWrite m v => Sys2Proof.Machine.execCfgcrcRefWrite m v s
  | .cfgcrcPassEnd => Sys2Proof.Machine.execCfgcrcPassEnd s
  | .sourceRaise src => Sys2Proof.Machine.execSourceRaise src s
  | .countWindowEnd src => Sys2Proof.Machine.execCountWindowEnd src s
  | .phaseSet m v => Sys2Proof.Machine.execPhaseSet m v s
  | .fcSrcWrite m src v => Sys2Proof.Machine.execFcSrcWrite m src v s
  | .fcClearSource m src => Sys2Proof.Machine.execFcClearSource m src s
  | .fcClearAll m => Sys2Proof.Machine.execFcClearAll m s
  | .fcClearSelf m => Sys2Proof.Machine.execFcClearSelf m s
  | .histClear m q => Sys2Proof.Machine.execHistClear m q s
  | .tallyCompare r upsets => Sys2Proof.Machine.execTallyCompare r upsets s
  | .collectorSweepEnd failing => Sys2Proof.Machine.execCollectorSweepEnd failing s
  | .collectorCopyDisagree => Sys2Proof.Machine.execCollectorCopyDisagree s
  | .injGo m v => Sys2Proof.Machine.execInjGo m v s
  | .injCancel m v => Sys2Proof.Machine.execInjCancel m v s
  | .crcuLoad m u v => Sys2Proof.Machine.execCrcuLoad m u v s
  | .crcuData8 m u v => Sys2Proof.Machine.execCrcuData8 m u v s
  | .crcuData16 m u v => Sys2Proof.Machine.execCrcuData16 m u v s
  | .crcuData32 m u v => Sys2Proof.Machine.execCrcuData32 m u v s
  | .meterWindowEnd u period ring handshakes => Sys2Proof.Machine.execMeterWindowEnd u period ring handshakes s
  | .selfTestRun u passed period ring => Sys2Proof.Machine.execSelfTestRun u passed period ring s
  | .startupSelfTestDone failed windows => Sys2Proof.Machine.execStartupSelfTestDone failed windows s
  | .carryCmd m v => Sys2Proof.Machine.execCarryCmd m v s
  | .unitFault u voids => Sys2Proof.Machine.execUnitFault u voids s
  | .carrySpareReady c => Sys2Proof.Machine.execCarrySpareReady c s
  | .carryOldUnitDone c => Sys2Proof.Machine.execCarryOldUnitDone c s
  | .rodSpareJoined => Sys2Proof.Machine.execRodSpareJoined s
  | .rodCarryEnd => Sys2Proof.Machine.execRodCarryEnd s
  | .drainEnd u => Sys2Proof.Machine.execDrainEnd u s
  | .unitReset m v => Sys2Proof.Machine.execUnitReset m v s
  | .unitResetDone u => Sys2Proof.Machine.execUnitResetDone u s
  | .unitPowerGate u => Sys2Proof.Machine.execUnitPowerGate u s
  | .hbmSelfRefreshEntry => Sys2Proof.Machine.execHbmSelfRefreshEntry s
  | .stateMismatchTimeout src => Sys2Proof.Machine.execStateMismatchTimeout src s
  | .avsUpdate readback => Sys2Proof.Machine.execAvsUpdate readback s
  | .thermalUpdate t => Sys2Proof.Machine.execThermalUpdate t s
  | .thermalShutdown => Sys2Proof.Machine.execThermalShutdown s
  | .pcieLinkDown => Sys2Proof.Machine.execPcieLinkDown s
  | .pcieLinkUp width speed pf0 pf1 => Sys2Proof.Machine.execPcieLinkUp width speed pf0 pf1 s
  | .hbmPcTrainingLost pc => Sys2Proof.Machine.execHbmPcTrainingLost pc s
  | .hbmPcRetrainDone pc => Sys2Proof.Machine.execHbmPcRetrainDone pc s
  | .hbmRefreshDue pc => Sys2Proof.Machine.execHbmRefreshDue pc s
  | .bslLinkLost => Sys2Proof.Machine.execBslLinkLost s
  | .bslMessageMissing => Sys2Proof.Machine.execBslMessageMissing s
  | .txqWmIntervalEnd p => Sys2Proof.Machine.execTxqWmIntervalEnd p s

end Sys2Proof.Machine
end

