-- ==== Sys2Proof/Safety.lean ====
section
/-!
DEFINITION. The invariants that claims are stated in: the device with PORST_N low is the device at reset, and the sparse maps
that hold registers and memory keep their canonical form.
-/
namespace Sys2Proof.Machine

/-- While PORST_N is low the device is at reset (R43, R436): only the part it is, the voltage class of its management bank, the commands that
wait, what has left it and the count of free values drawn differ. -/
def State.quiet (s : State) : Prop :=
  s.powered = false → s = { State.reset with
    variant := s.variant, pending := s.pending, out := s.out, fresh := s.fresh, ldr := { Ldr.init with bank33 := s.ldr.bank33 } }

/-- Surface memory is in canonical form. -/
def State.memoryWf (s : State) : Bool := kwf (fun _ => 0#8) s.hbm

/-- The register mirror and the registers in force are in canonical form. -/
def State.registersWf (s : State) : Bool := kwf regReset s.regs && kwf regReset s.unit

/-- The indirect spaces, pending and live, are in canonical form. -/
def State.spacesWf (s : State) : Bool := kwf spaceReset s.spaces && kwf spaceReset s.live

end Sys2Proof.Machine

namespace Sys2Proof.Claims
open Sys2Proof.Machine

/-- PORST_N is high and no thermal shutdown has taken place. -/
def Runs (s : State) : Prop := s.powered = true ∧ s.dead = false

/-- The command answers a next state: `u`, but for the parts outside `ps` and what no command changes, which stay as in `s`. -/
def Gives (i : Instr) (s : State) (ps : List Part) (u : State) : Prop := exec i s = .next (hold s (keeping ps s u))

/-- The command answers a next state that meets `P`. -/
def Ends (i : Instr) (s : State) (P : State → Prop) : Prop := ∃ t, exec i s = .next t ∧ P t

/-- A device that runs and that the loader has released, whose master `m` reaches it and has no write in its queue. -/
def Writes (s : State) (m : Master) : Prop := Runs s ∧ s.ldr.state = .released ∧ (s.master m).wq = [] ∧ s.reaches m = true

/-- Master `m` may write the register at `o` (R314, R347). -/
def mayWrite (s : State) (m : Master) (o : Nat) : Bool :=
  match findRow o with
  | some r => ownerOk s o ⟨m, s.priv m, false, []⟩ && (s.priv m || !privOnly s r o)
  | none => false

/-- Master `m` may write words of the space (R347, R428). -/
def mayWriteSpace (s : State) (m : Master) (code : Nat) : Bool :=
  match findSpace code with
  | some p => p.writeOpen || s.priv m
  | none => false

/-- A register that is neither decked nor per-master, nor one of R210's and R356's. -/
def singleReg (o : Nat) : Bool :=
  (match findRow o with
    | some r => decide ((r.rw ||| r.wo) ≠ 0#32) && decide (¬ (r.cls = .group ∨ r.cls = .disruptive))
    | none => false) &&
  !perMaster o && !isWm o && ((List.range 8).find? (fun g => o = R.SEQ_Gn_HEADS g)).isNone

/-- A single register that no command of its own rule refuses or alters (R266, R314, R317, R343, R366). -/
def plainReg (o : Nat) : Bool :=
  singleReg o && (regQueue o).isNone && decide (¬ (R.HWQ_QMAP0 ≤ o ∧ o ≤ R.HWQ_QMAP2)) &&
  decide (o ≠ R.IHM_CFGCRC_REF) && (gclReg o).isNone

/-- The bits of the register at `o` that software writes and reads back. -/
def rwBits (o : Nat) : Word :=
  match findRow o with
  | some r => r.rw
  | none => 0#32

/-- The bits of a value written to the register at `o` that reach its unit: RW and WO fields. -/
def unitBits (o : Nat) (v : Word) : Word :=
  match findRow o with
  | some r => v &&& (r.rw ||| r.wo)
  | none => 0#32

/-- The write of `v` to the register at `o` as the unit meets it (R353): the mirror shows the bits the register holds, and the write is done. -/
def stored (s : State) (m : Master) (o : Nat) (v : Word) : State :=
  (s.bumpFresh.wr o (merge (s.rd o) v (rwBits o))).setMaster m
    { s.master m with done := (s.master m).done + 1#16, ahead := (s.master m).ahead - 1 }

/-- The write of word `a` of a space through the window of `m` as the unit meets it (R353, R360): the window has moved on to the next word. -/
def storedWord (s : State) (m : Master) (code a : Nat) : State :=
  s.setMaster m { s.master m with sel := word code, addr := word ((a + 1) % 16777216), ready := false,
                                  fetchLive := bit (s.master m).view 0, done := (s.master m).done + 1#16, ahead := 0 }

/-- The write of `v` to the register at `o` by master `m` takes effect at once, as `f` says, in the parts `ps` and the values in force. -/
def Acts (i : Instr) (s : State) (m : Master) (o : Nat) (v : Word) (ps : List Part) (f : State → State) : Prop :=
  Gives i s Part.device (keeping (.force :: ps) (stored s m o v) (f (stored s m o v)))

/-- The write of word `a` of a space by master `m` takes effect at once, as `f` says, in the parts `ps`. -/
def ActsWord (i : Instr) (s : State) (m : Master) (code a : Nat) (ps : List Part) (f : State → State) : Prop :=
  Gives i s Part.device (keeping ps (storedWord s m code a) (f (storedWord s m code a)))

/-- The state after commands that follow one another, one step each; where none comes, a period of the clock passes. -/
def later : List (Option Instr) → State → Option State
  | [], s => some s
  | none :: cs, s => later cs (tick s)
  | some c :: cs, s => match exec c s with
    | .next t => later cs t
    | _ => none

/-- Whether the byte `off` of surface memory of a handle lies in line `i` of the handle `h`, which holds the surface `x` (R72). -/
def inLine (h : Nat) (x : Surface) (i h' off : Nat) : Prop :=
  skeyByte h (i * x.pitch) ≤ skeyByte h' off ∧ skeyByte h' off < skeyByte h (i * x.pitch) + x.pitch

/-- Every byte of surface memory outside the lines `ls` of the handle `h`, which holds the surface `x`, is the same in both. -/
def sameBut (h : Nat) (x : Surface) (ls : List Nat) (s t : State) : Prop :=
  ∀ h' off : Nat, (∀ i ∈ ls, ¬ inLine h x i h' off) → t.byte h' off = s.byte h' off

/-- A part of the state is the same in both. -/
def same (p : Part) (s t : State) : Prop :=
  match p with
  | .power => t.mgmt = s.mgmt ∧ t.dead = s.dead
  | .store => t.hbm = s.hbm ∧ t.store = s.store
  | .force => t.unit = s.unit ∧ t.live = s.live
  | .loader => t.ldr = s.ldr
  | .masters => t.lmp = s.lmp ∧ t.pf0 = s.pf0 ∧ t.pf1 = s.pf1
  | .queues => t.queues = s.queues
  | .outputs => t.heads = s.heads ∧ t.dps = s.dps
  | .compose => t.groups = s.groups ∧ t.planQ = s.planQ ∧ t.planning = s.planning ∧ t.tiles = s.tiles ∧ t.scalers = s.scalers ∧
      t.fsh = s.fsh ∧ t.rods = s.rods ∧ t.signs = s.signs
  | .receive => t.rx = s.rx
  | .timing => t.trs = s.trs ∧ t.time = s.time
  | .health => t.health = s.health

/-- The commands by which PORST_N changes. -/
def porst : Instr → Bool
  | .porstNAssert .. | .porstNRise .. => true
  | _ => false

/-- The reads that the mirror answers even after a thermal shutdown (R420). -/
def mirrorReads : Instr → Bool
  | .rcRegisterRead .. | .lmpReadCycle .. | .idxDataRead .. | .timeLoRead .. => true
  | _ => false

/-- The parts of the state that a command can change at most. -/
def reaches : Instr → List Part
  | .porstNAssert .. | .porstNRise .. => .power :: Part.device
  | .mgmtClockReady .. => [.power, .loader, .health]
  | .supplyExcursion .. | .groupFrameStart .. | .headEndOfFrame .. | .queueEntryRead .. => [.force, .queues, .outputs, .compose]
  | .xoInStop .. | .refinEdge .. | .refQualified .. | .pllLockTryEnd .. | .pllUnlock .. | .bslMessageRx .. => [.outputs, .compose, .timing]
  | .pciePerstNAssert .. | .tallyQuery .. | .pcieFlr .. => [.force, .queues]
  | .xspiDqsTimeout .. | .ldrHeadersRead .. | .startHoldExpiry .. | .reloadScrubDone .. | .ldrUpdDone .. => [.loader]
  | .ldrSectionDone .. | .hbmTrainingDone .. => [.store, .force, .loader, .queues, .outputs, .compose, .receive, .timing, .health]
  | .ldrScrubDone .. => [.store, .force, .loader, .queues, .outputs, .compose, .receive, .timing]
  | .ldrSettleEnd .. => [.force, .loader, .queues, .outputs, .compose, .timing, .health]
  | .ldrRelease .. | .ldrReload .. | .ldrUpdErase .. | .ldrUpdProgram .. | .ldrUpdFinish .. | .sspRetireCmd .. | .coefWrite ..
  | .layerCntClear .. | .seqCommit .. | .seqCancel .. | .fenceSignalWrite .. | .fenceWritingWrite .. | .layerSrcClear ..
  | .headReset .. | .dpCtrlWrite .. | .auxNativeRead .. | .auxNativeWrite .. | .auxI2cRead .. | .auxI2cWrite .. | .safeForceWrite ..
  | .safeReleaseWrite .. | .safeCtrlWrite .. | .safeFrameWrite .. | .rxStreamConfigWrite .. | .txStreamConfigWrite ..
  | .nmpCounterClear .. | .gclApply .. | .gclCancel .. | .nmpPortReset .. | .todSetHiWrite .. | .refCtrlWrite .. | .trsStepNow ..
  | .syncInArm .. | .doorbell .. | .boardProdWrite .. | .glbFuncResetPf0 .. | .glbFuncResetPf1 .. | .glbFuncResetBoard ..
  | .queueCfgWrite .. | .evrEnable .. | .evrConsWrite .. | .writeTakeEffect .. | .cfgcrcArm .. | .cfgcrcDisarm ..
  | .cfgcrcRefWrite .. | .phaseSet .. | .fcSrcWrite .. | .fcClearSource .. | .fcClearAll .. | .fcClearSelf .. | .histClear ..
  | .injGo .. | .injCancel .. | .crcuLoad .. | .crcuData8 .. | .crcuData16 .. | .crcuData32 .. | .carryCmd .. | .unitReset .. => Part.device
  | .surfaceAlloc .. | .pinHint .. | .stripeCarryCopyDone .. => [.store, .force, .queues]
  | .surfaceFree .. => [.store, .force, .queues, .compose, .receive]
  | .stripeScrubDone .. | .heatWindowEnd .. | .apertureWrite .. | .hbmSelfRefreshEntry .. | .hbmPcTrainingLost ..
  | .hbmPcRetrainDone .. | .hbmRefreshDue .. => [.store]
  | .patrolScrubRead .. | .memoryWordGrant .. | .pcRetrainTimeout .. | .surfaceUpload .. | .surfaceCopy .. | .fill .. => [.store, .force, .queues, .outputs, .compose]
  | .rodBeadReceive .. | .scalerLineArrival .. | .offlineCompose .. | .selfTestRun .. | .unitFault .. => [.store, .force, .queues, .outputs, .compose, .health]
  | .scalerLineRequest .. | .fetchDeadline .. | .tileStepStart .. | .tileVoidBead .. | .outputDividerLoad .. | .headLine0 .. => [.outputs, .compose]
  | .planStart .. | .seqStepIssue .. | .tileStepDone .. | .fshRefillTick .. | .runAheadRequest .. | .tallyCompare .. => [.compose]
  | .planDone .. | .carryOldUnitDone .. | .rodCarryEnd .. => [.force, .queues, .outputs, .compose, .health]
  | .resultBeadArrival .. | .lineLeft .. | .dpHpdPlug .. | .dpHpdUnplug .. | .dpIrqHpd .. | .dpTrainingDone .. | .dpTrainingRetry ..
  | .auxTimeout .. => [.outputs]
  | .lineDue .. => [.store, .outputs, .compose]
  | .commitJob .. | .commitJobSlotTaken .. => [.force, .masters, .queues, .compose]
  | .frameBoundary .. => [.force, .queues, .outputs, .compose, .timing, .health]
  | .headGapStart .. => [.force, .queues, .outputs, .compose, .timing]
  | .wbBeadArrival .. => [.store, .outputs]
  | .capture .. => [.force, .queues, .outputs]
  | .auxReply .. => [.force, .outputs]
  | .ethRxFrame .. => [.store, .outputs, .compose, .receive, .timing]
  | .rxFrameClose .. | .rxStreamSilence .. | .rxPathLivenessTimeout .. => [.store, .compose, .receive]
  | .egressLineFree .. | .gclSwitch .. | .gclEntryEnd .. | .ptpSyncTx .. | .ptpAnnounceTx .. | .ptpDelayReqTx ..
  | .msixHoldoffExpiry .. | .msixUnmask .. | .apertureRead .. | .pcieLaneFail .. | .sourceRaise .. | .countWindowEnd ..
  | .collectorSweepEnd .. | .collectorCopyDisagree .. | .stateMismatchTimeout .. | .pcieLinkDown .. | .pcieLinkUp ..
  | .txqWmIntervalEnd .. => []
  | .ptpAnnounceTimeout .. | .ethLinkUp .. | .ethLinkDown .. | .refinWindowEnd .. | .refEdgeTimeout .. | .ptpSyncTimeout ..
  | .trsPhaseErrorTimeout .. | .trsWtrExpiry .. | .bslMessageMissing .. => [.outputs, .timing]
  | .timeLoRead .. | .lmpReadCycle .. | .lmpWriteCycle .. | .registerWrite .. | .rcRegisterRead .. | .wmRegisterWrite ..
  | .idxSelWrite .. | .idxAddrWrite .. | .idxDataRead .. | .idxDataWrite .. => [.masters]
  | .trsLockAchieved .. | .holdoverLimitExpiry .. | .buildoutBleedStep .. | .holdoverLearnTick .. | .holdoverUpdateTick ..
  | .tempConversionEnd .. | .bslMessageTx .. | .bslLinkAlign .. | .bslLinkLost .. => [.timing]
  | .syncInEdge .. => [.force, .outputs, .timing]
  | .prodIndexRead .. => [.queues]
  | .funcResetJobsEnded .. => [.store, .force, .queues, .outputs, .compose, .receive]
  | .idxPrefetchDone .. => [.masters, .force, .queues, .outputs, .compose]
  | .cfgcrcPassEnd .. => [.force, .loader, .outputs, .timing]
  | .meterWindowEnd .. | .startupSelfTestDone .. | .carrySpareReady .. | .rodSpareJoined .. | .drainEnd .. | .unitResetDone ..
  | .unitPowerGate .. | .avsUpdate .. => [.health]
  | .thermalUpdate .. => [.store, .queues, .health]
  | .thermalShutdown .. => [.power, .store, .receive, .health]

/-- What a command that is one register write, or one word written through a window, can change beside its master and the values in force; none
for a command that is no such write, or one that can change everything (the loader's). -/
def writeReaches : Instr → Option (List Part)
  | .evrEnable .. | .evrConsWrite .. | .phaseSet .. | .fcClearSource .. | .fcClearAll .. | .fcClearSelf .. | .histClear .. | .injGo .. | .injCancel ..
  | .cfgcrcArm .. | .cfgcrcDisarm .. | .cfgcrcRefWrite .. | .crcuLoad .. | .crcuData8 .. | .crcuData16 .. | .crcuData32 .. | .safeForceWrite ..
  | .safeReleaseWrite .. | .safeCtrlWrite .. | .gclApply .. | .gclCancel .. | .syncInArm .. | .coefWrite .. | .layerCntClear .. | .layerSrcClear ..
  | .safeFrameWrite .. | .txStreamConfigWrite .. | .nmpCounterClear .. | .fcSrcWrite .. => some []
  | .doorbell .. | .boardProdWrite .. | .glbFuncResetPf0 .. | .glbFuncResetPf1 .. | .glbFuncResetBoard .. | .queueCfgWrite .. => some [.queues]
  | .seqCommit .. | .seqCancel .. | .fenceSignalWrite .. | .fenceWritingWrite .. => some [.compose]
  | .todSetHiWrite .. => some [.timing]
  | .refCtrlWrite .. | .trsStepNow .. | .nmpPortReset .. => some [.outputs, .timing]
  | .dpCtrlWrite .. | .auxNativeRead .. | .auxNativeWrite .. | .auxI2cRead .. | .auxI2cWrite .. => some [.outputs]
  | .headReset .. => some [.outputs, .compose]
  | .sspRetireCmd .. => some [.store, .queues, .outputs, .compose]
  | .carryCmd .. => some [.health]
  | .unitReset .. => some [.store, .queues, .outputs, .compose, .health]
  | .rxStreamConfigWrite .. => some [.store, .compose, .receive]
  | _ => none

end Sys2Proof.Claims
end

