-- ==== Sys2Proof/Certificates/Slice0/Obligations.lean ====
section
/-!
DEFINITION. The statements about the model. Those on commands name, for a device that runs, the next state a command gives: its first effect
written out, then the shared operations the rules of spec/ go on with; `hold` and `keeping` say which parts of the state stay. The frame
statements say the same over all commands, part by part.
-/
open Sys2Proof Sys2Proof.Machine Sys2Proof.Claims

/-- PORST_N rises (R42, R44): the straps are sampled, BOOT_MODE 11 acting as 00, and start-up begins. PORST_N falls (R436): the
device is at reset, and the voltage class of the management bank stays as the last rising edge found it. The model's choices: the commands that
wait, what has left the device and the count of free values stay (log entries 1, 8 and 9), and every register without a stated reset value holds
one the model names (log entries 5 and 6). -/
def Obligations.PorstEdges : Prop :=
  (∀ (gpio : BitVec 3) (b : Bool) (s : State), s.powered = false →
    exec (.porstNRise gpio b) s = .next (({ s with powered := true, ldr := { s.ldr with bootMode := if gpio.toNat % 4 = 3 then 0 else gpio.toNat % 4, slow := gpio.toNat.testBit 2, bank33 := b } }).wr R.LDR_STRAPS (word gpio.toNat))) ∧
  (∀ s : State, exec .porstNAssert s =
    .next { State.reset with
      variant := s.variant, pending := s.pending, out := s.out, fresh := s.fresh, ldr := { Ldr.init with bank33 := s.ldr.bank33 } })

/-- Commands of start-up in the states in which they act (R44, R46, R47, R53, R55, R57, R59, R61, R65, R70, R365). The model's readings: RELOAD
reads the flash also under BOOT_MODE 01 (log entry 25); no wait and no event with LOCK_WAIT_MS 0 (28); groups are admitted in ascending order and
the first refusal ends the copy (30, 31, 33); a section is one read for the three retries (175); START written while the hold runs still stands (176);
a flash command's own checks decide ERASED (35); what SCRUB resets (24). -/
def Obligations.LoaderEvents : Prop :=
  (∀ s : State, Runs s → s.mgmt = false →
    Ends .mgmtClockReady s (fun t => t.mgmt = true ∧ t.ldr.state = (if s.ldr.bootMode = 1 then .waitHost else .probe) ∧
      t.ldr.xspi = !decide (s.ldr.bootMode = 1))) ∧
  (∀ (oct : Bool) (a b : List Byte) (s : State), Runs s → s.ldr.state = .probe → s.ldr.reloading = false →
    Gives (.ldrHeadersRead none oct a b) s [.loader] (noFlash s)) ∧
  (∀ (d : Nat) (oct : Bool) (a b : List Byte) (s : State), Runs s → a.length = 256 → b.length = 256 → 9 ≤ d → d ≤ 12 → s.ldr.state = .probe →
    s.ldr.reloading = false → s.ldr.slow = true →
    Gives (.ldrHeadersRead (some d) oct a b) s [.loader]
      (tryNext (judgeCopy (judgeCopy ((s.wrBits R.LDR_STAT 19 16 d).wrBits R.LDR_STAT 11 10 1) (halfOfFlash d) 1 a) (halfOfFlash d) 2 b))) ∧
  (∀ (x : Section) (data : List Byte) (s : State), Runs s → s.ldr.state = .load → s.ldr.held = none → (loadSections s)[s.ldr.sec]? = some x →
    data.length = x.len → s.store.trained = true →
    Gives (.ldrSectionDone data) s [.store, .force, .loader, .queues, .outputs, .compose, .receive, .timing, .health] (applySection s x data)) ∧
  (∀ s : State, Runs s → s.ldr.state = .scrub →
    Gives .ldrScrubDone s [.store, .force, .loader, .queues, .outputs, .compose, .receive, .timing]
      (tryNext { attemptReset s with ldr := { (attemptReset s).ldr with trsOn := false, dirty := false } })) ∧
  (∀ (failed : List (Fin 128)) (s : State), Runs s → s.mgmt = true → s.store.trained = false →
    s.ldr.held = none →
    Gives (.hbmTrainingDone failed) s [.store, .force, .loader, .queues, .outputs, .compose, .receive, .timing, .health]
      (hbmTrainingEffect s ((failed.map (·.val)).eraseDups))) ∧
  (∀ s : State, Runs s → s.ldr.state = .load → s.ldr.held = none → bits (s.rd R.LDR_STAT) 11 10 = 2 → s.ldr.dqs < 3 →
    Gives .xspiDqsTimeout s [.loader] (raise { s with ldr := { s.ldr with dqs := s.ldr.dqs + 1 } } 3)) ∧
  (∀ s : State, Runs s → s.ldr.state = .load → s.ldr.held = none → bits (s.rd R.LDR_STAT) 11 10 = 2 → 3 ≤ s.ldr.dqs →
    Gives .xspiDqsTimeout s [.loader] (failCopy s 0x0A 0)) ∧
  (∀ s : State, Runs s → s.ldr.state = .settle → s.ldr.crcWait = 0 → lockWaitMs (s.ldr.info s.ldr.copy).page = 0 →
    Gives (.ldrSettleEnd true) s [.force, .loader, .queues, .outputs, .compose, .timing, .health]
      (match admitAll (List.range 8) s with
        | .error (g, e) => failCopy (refuseRelease s g e) 0x09 0
        | .ok xs => { releaseAll s xs with ldr := { (releaseAll s xs).ldr with crcWait := 2 } })) ∧
  (∀ s : State, Runs s → s.ldr.startHold = true → s.col.phase = 0 →
    Gives .startHoldExpiry s [.loader] (setPhase { s with ldr := { s.ldr with startHold := false } } 1)) ∧
  (∀ s : State, Runs s → s.ldr.reloading = true → scrubPending s = 0 →
    Ends .reloadScrubDone s (fun t => t.ldr.reloading = false ∧ t.ldr.state = .probe ∧ bits (t.rd R.LDR_STAT) 11 10 = 1 ∧
      t.out = .xspiReset :: s.out)) ∧
  (∀ (s : State), Runs s → s.ldr.upd = 1 →
    Ends (.ldrUpdDone true) s (fun t => t.ldr.upd = 0 ∧ t.ldr.erased = (s.ldr.erased || decide (s.ldr.updResult = 0)))) ∧
  (∀ s : State, Runs s → s.mgmt = true → s.ldr.state = .released → Gives .cfgcrcPassEnd s [.force, .loader, .outputs, .timing] (passEnd s))

/-- What the supplies, the oscillator and the link do (R437, R439, R453). The model's choices: R437 leaves open what an excursion loses, so that a
free value says it for each job and each commit (log entry 113); the serial links that lose lock with XO_IN are those of DisplayPort, of the media
ports and of PCIe, and the board sync link is left to its messages (114); PERST_N acts as a function-level reset of both functions (105). -/
def Obligations.SupplyAndClockEvents : Prop :=
  (∀ s : State, Runs s → Gives .supplyExcursion s [.force, .queues, .outputs, .compose] (forEach (List.range 8) (forEach (List.range 64) s loseJob) loseCommit)) ∧
  (∀ s : State, Runs s → s.trs.xoStopped = false →
    Gives .xoInStop s [.outputs, .compose, .timing]
      (let unlocked := forEach (List.range 8) (raise { s with trs := { s.trs with xoStopped := true } } 277) pllLost
       let noDp := forEach (List.range 16) unlocked (fun s d => if dpEn s d ∧ (s.dp d).trained then dpRaise (dpLost s d) d else s)
       pcieDown (forEach (List.range 16) noDp linkDown))) ∧
  (∀ s : State, Runs s → Gives .pciePerstNAssert s [.force, .queues] (startReset (startReset (pcieDown s) 1 true) 2 true))

/-- The surface jobs (R72 to R76, R80, R82, R201): what each answers in every case, and the surface that stands where the rules allow it.
SURFACE_ALLOC places the surface with the layout of R72 and clears its fence; SURFACE_FREE of an allocated handle that nothing uses leaves none,
sends each of its stripes to the scrub queue of its channel, clears its fence and leaves every other surface and its bytes; PIN_HINT changes the
placement record; the queue's job ends. The model's choices: the eligible set of R81 is formed anew for each stripe (log entry 144), a handle named
as APART alone is not in use (148), and a free of a surface with a running carry ends the carry (178), which the clause leaves out by asking for none. -/
def Obligations.SurfaceJobs : Prop :=
  (∀ (q : Fin 64) (j : Job) (s : State), Runs s → s.store.trained = true → s.jobIn q Typ.SURFACE_ALLOC .act = some j →
    Gives (.surfaceAlloc q) s [.store, .force, .queues]
      (let r := allocSurface s (le j.head 16 2) (le j.head 18 2) (le j.head 20 2) (byteAt j.head 22) (pinRec (slice j.head 32 32)) q j.seq j.rerun
       completeJob (if r.1 = Code.OK then clearFence r.2 (le j.head 16 2) else r.2) q r.1)) ∧
  (∀ (q : Fin 64) (j : Job) (ps ts : List Nat) (u s : State), Runs s → s.store.trained = true → s.jobIn q Typ.SURFACE_ALLOC .act = some j →
    (let h := le j.head 16 2
     let r := pinRec (slice j.head 32 32)
     let x := wantedSurface (le j.head 18 2) (le j.head 20 2) (byteAt j.head 22) r
     let need := if x.duplex then 2 * x.stripes else x.stripes
     formatKnown (byteAt j.head 22) = true → sizeOk (byteAt j.head 22) (le j.head 18 2) (le j.head 20 2) = true → pinOk s r = true →
     h ≠ 0 → s.surface h = none → need ≤ freeInside s x.mask → need ≤ freeStripes s →
     placeSurface s x.mask x.apart x.heat x.stripes x.duplex = some (ps, ts, u) →
     Ends (.surfaceAlloc q) s (fun t => t.surface h = some { x with place := ps, twins := ts } ∧ (t.queue q).job = none ∧
       (∀ k : Nat, k ≠ h → t.surface k = s.surface k) ∧ t.hbm = s.hbm ∧ t.sp (fence0 h) = 0#32 ∧ t.sp (fence1 h) = 0#32))) ∧
  (∀ (q : Fin 64) (j : Job) (s : State), Runs s → s.store.trained = true → s.jobIn q Typ.SURFACE_FREE .act = some j →
    Gives (.surfaceFree q) s [.store, .force, .queues, .compose, .receive] (completeJob (freeJob s q j).2 q (freeJob s q j).1)) ∧
  (∀ (q : Fin 64) (j : Job) (x : Surface) (s : State), Runs s → s.store.trained = true → s.jobIn q Typ.SURFACE_FREE .act = some j →
    (let h := le j.head 16 2
     s.surface h = some x → handleInUse s h q = false → s.store.carries = [] → (∀ st : Nat, ∀ f ∈ (s.rxs st).frames, f.handle ≠ some h) →
     Ends (.surfaceFree q) s (fun t => t.surface h = none ∧ (∀ k : Nat, k ≠ h → t.surface k = s.surface k) ∧ (t.queue q).job = none ∧
       (∀ p : Nat, (s.pc p).state = .active → (t.pc p).scrub = (s.pc p).scrub + (x.place ++ x.twins).count p ∧ (t.pc p).free = (s.pc p).free) ∧
       t.sp (fence0 h) = 0#32 ∧ t.sp (fence1 h) = 0#32 ∧
       (∀ k o : Nat, k ≠ h → o < 4294967296 → kget (fun _ => 0#8) t.hbm (skeyByte k o) = kget (fun _ => 0#8) s.hbm (skeyByte k o))))) ∧
  (∀ (q : Fin 64) (j : Job) (x : Surface) (s : State), Runs s → s.store.trained = true → s.jobIn q Typ.SURFACE_FREE .act = some j →
    s.surface (le j.head 16 2) = some x → handleInUse s (le j.head 16 2) q = true →
    Gives (.surfaceFree q) s [.store, .force, .queues, .compose, .receive] (completeJob s q Code.IN_USE)) ∧
  (∀ (q : Fin 64) (j : Job) (s : State), Runs s → s.store.trained = true → s.jobIn q Typ.SURFACE_FREE .act = some j → j.rerun = false →
    s.surface (le j.head 16 2) = none →
    Gives (.surfaceFree q) s [.store, .force, .queues, .compose, .receive] (completeJob s q Code.HANDLE_FREE)) ∧
  (∀ (q : Fin 64) (j : Job) (s : State), Runs s → s.store.trained = true → s.jobIn q Typ.PIN_HINT .act = some j →
    Gives (.pinHint q) s [.store, .force, .queues]
      (let r := pinHintStart s (le j.head 16 2) (pinRec (slice j.head 32 32))
       if r.1 = Code.OK then settlePin (r.2.setJob q { j with phase := .running }) q else completeJob r.2 q r.1)) ∧
  (∀ (q : Fin 64) (j : Job) (x : Surface) (s : State), Runs s → s.store.trained = true → s.jobIn q Typ.PIN_HINT .act = some j →
    (let h := le j.head 16 2
     let r := pinRec (slice j.head 32 32)
     s.surface h = some x → pinOk s r = true → r.duplex = x.duplex → fitsMask s x r.mask = true →
     (∀ p ∈ x.place ++ x.twins, permits r.mask p = true) → s.store.carries = [] →
     Ends (.pinHint q) s (fun t => t.surface h = some { x with mask := r.mask, apart := r.apart, heat := r.heat, fixed := r.fixed } ∧
       (∀ k : Nat, k ≠ h → t.surface k = s.surface k) ∧ (t.queue q).job = none ∧ t.hbm = s.hbm)))

/-- Pseudo-channels and their stripes (R69, R70, R75, R84, R86, R89, R91, R169, R413): each command's own effect on the store. The model's choices:
of several carries in progress the one started first is complete (log entry 177), heat counts and their ties (126), a landing stripe that may not
stay is carried on (125); what else waits at a pseudo-channel comes with its grant (56). -/
def Obligations.StoreEvents : Prop :=
  (∀ (p : Fin 128) (s : State), Runs s → (s.pc p).scrub ≠ 0 → Ends (.stripeScrubDone p) s (fun t =>
    (t.pc p).scrub = (s.pc p).scrub - 1 ∧ (t.pc p).free = (if (s.pc p).state = .active then (s.pc p).free + 1 else (s.pc p).free) ∧ t.hbm = s.hbm ∧
    ∀ p' : Nat, p' ≠ p → t.pc p' = s.pc p')) ∧
  (∀ (p : Fin 128) (s : State), Runs s → (s.pc p).lostTraining = false → (s.pc p).state = .active → Ends (.hbmPcTrainingLost p) s (fun t =>
    t.pc p = { s.pc p with lostTraining := true } ∧ t.hbm = s.hbm ∧ ∀ p' : Nat, p' ≠ p → t.pc p' = s.pc p')) ∧
  (∀ (p : Fin 128) (s : State), Runs s → Ends (.hbmPcRetrainDone p) s (fun t =>
    t.pc p = { s.pc p with lostTraining := false } ∧ t.hbm = s.hbm ∧ t.regs = s.regs ∧ ∀ p' : Nat, p' ≠ p → t.pc p' = s.pc p')) ∧
  (∀ (p : Fin 128) (s : State), Runs s → Ends (.hbmRefreshDue p) s (fun t =>
    t.pc p = { s.pc p with refresh := true } ∧ t.hbm = s.hbm ∧ t.regs = s.regs ∧ ∀ p' : Nat, p' ≠ p → t.pc p' = s.pc p')) ∧
  (∀ s : State, Runs s → bit (s.cfg R.IHM_PG_CTRL) 1 = true → s.store.trained = true → hbmQuiet s = true →
    Ends .hbmSelfRefreshEntry s (fun t => t.store = { s.store with selfRefresh := true } ∧ t.hbm = s.hbm ∧ t.regs = s.regs)) ∧
  (∀ (p : Fin 128) (s : State), Runs s → (s.pc p).lostTraining = true →
    Gives (.pcRetrainTimeout p) s [.store, .force, .queues, .outputs, .compose] (pcJobs (fun s => failPc s p) s)) ∧
  (∀ (p : Fin 128) (s : State), Runs s → (s.pc p).lostTraining = true → (s.pc p).state = .active → s.store.carries = [] → stripesOn s p = [] →
    (∀ q : Nat, q ≠ p → (s.pc q).state = .active) → s.queues = [] →
    Ends (.pcRetrainTimeout p) s (fun t => (t.pc p).state = .retired ∧ (t.pc p).lostTraining = false ∧ (t.pc p).free = 0 ∧
      t.hbm = s.hbm ∧ (∀ h : Nat, t.surface h = s.surface h) ∧ ∀ q : Nat, q ≠ p → t.pc q = s.pc q)) ∧
  (∀ (p : Fin 128) (site : WordSite) (ecc : Ecc) (s : State), Runs s → s.store.selfRefresh = false → s.health.level < 2 → readable s p = true →
    Gives (.patrolScrubRead p site ecc) s [.store, .force, .queues, .outputs, .compose] (pcJobs (fun s => readWord s p site ecc) s)) ∧
  (∀ (p : Fin 128) (r : Ready) (ra : Bool) (site : WordSite) (ecc : Ecc) (s : State), Runs s → readable s p = true → s.store.trained = true → r.s0 = true →
    Gives (.memoryWordGrant p r ra site ecc) s [.store, .force, .queues, .outputs, .compose] (pcJobs (fun s =>
      let s1 := s.setPc p { s.pc p with refresh := false }
      strictGrant { s1 with store := { s1.store with selfRefresh := false } } p true ra site ecc) s)) ∧
  (∀ (p : Fin 128) (site : WordSite) (s : State), Runs s → s.col.inj = none → s.queues = [] →
    Ends (.patrolScrubRead p site .good) s (fun t => t.store = s.store ∧ t.hbm = s.hbm ∧ t.regs = s.regs)) ∧
  (∀ (p : Fin 128) (site : WordSite) (x : Surface) (s : State), Runs s → s.store.selfRefresh = false → s.health.level < 2 → readable s p = true →
    s.col.inj = none → s.queues = [] → s.surface site.handle = some x → x.duplex = false →
    4 * ((s.pc p).spared.length + 1) ≤ 3 * s.variant.spareRows → (s.pc p).ues = [] →
    Ends (.patrolScrubRead p site .ue) s (fun t => (t.pc p).spared = site.row :: (s.pc p).spared ∧
      t.hbm = (forEach (wordLines x site.stripe site.word) s (fun s i => poisonLine s site.handle i)).hbm ∧
      ∀ h : Nat, t.surface h = s.surface h)) ∧
  (∀ (s : State), Runs s → Ends .heatWindowEnd s (fun t =>
    t.store.heats = [] ∧ t.store.balCtrl = s.cfg R.SSP_BAL_CTRL ∧ t.hbm = s.hbm ∧ (∀ h : Nat, t.surface h = s.surface h) ∧
    (∀ p : Nat, p < 128 → (t.pc p).load = (s.pc p).bytes ∧ (t.pc p).bytes = 0) ∧
    (bit s.store.balCtrl 0 = false → t.store.carries = s.store.carries))) ∧
  (∀ s : State, Runs s → Gives .stripeCarryCopyDone s [.store, .force, .queues] (forEach (List.range 64) (carryCopyDone s) settlePin)) ∧
  (∀ (c : Carry) (x : Surface) (p : Nat) (s : State), Runs s → s.queues = [] → s.store.carries = [c] → c.target = some p →
    (c.reason = .balance → s.health.level < 2) → s.surface c.handle = some x → (s.pc p).state = .active → permits x.mask p = true →
    (let src := (x.copy c.twin).getD c.stripe 0; scrubPending (s.setPc src { s.pc src with scrub := (s.pc src).scrub + 1 }) ≤ 65536) →
    Ends .stripeCarryCopyDone s (fun t => t.surface c.handle = some (setPlace x c.twin c.stripe p) ∧
      (∀ h : Nat, h ≠ c.handle → t.surface h = s.surface h) ∧ t.store.carries = [] ∧ t.hbm = s.hbm ∧
      t.regs = (s.bump (carryCounter c.reason) 1).regs ∧
      (let src := (x.copy c.twin).getD c.stripe 0
       (s.pc src).state = .active → (t.pc src).scrub = (s.pc src).scrub + 1)))
/-- Line requests of the scalers and the words they wait for (R26, R40, R125, R170, R171, R173, R176 to R178, R187): which line is asked for,
which request leaves, what a bead that fails its parity becomes. The model's readings: a bead whose bits all arrive is part of the line that other
commands move, and ROD_BEAD_RECEIVE only keeps the order of its rod (log entries 115 and 129); a line that comes late acts as abandoned, and one that
memory cannot give does not arrive (54); the order of run-ahead and scaler requests (130); over which rod a line travels is free (128). -/
def Obligations.FetchEvents : Prop :=
  (∀ (l : Fin 80) (ecc : Ecc) (j : ScaleJob) (rest : List ScaleJob) (n v : Nat) (more : List (Nat × Nat)) (s : State), Runs s →
    (s.scaler l).jobs = j :: rest → jobVoided s l j = false → j.needs = (n, v) :: more → j.reqs.length < 2 →
    bufferChosen s j ((s.viewFor j.step.group j.step.frame).desc j.desc) = true →
    Ends (.scalerLineRequest l ecc) s (fun t => ∃ r : LineReq, (t.scaler l).jobs = { j with needs := more, reqs := j.reqs ++ [r] } :: rest ∧
      r.line = n ∧ r.v = v ∧ (raHit s j n = none → r.handle = j.handle ∧ r.held = none) ∧
      (∀ x, raHit s j n = some x → r.handle = x.handle ∧ r.deadline = x.deadline) ∧ (ecc = .ue → r.void = true))) ∧
  (∀ (l : Fin 80) (us : List Upset) (e : Ecc) (j : ScaleJob) (rest : List ScaleJob) (r : LineReq) (more : List LineReq) (s : State), Runs s →
    (s.scaler l).jobs = j :: rest → j.reqs = r :: more → r.deadline < s.time →
    Gives (.scalerLineArrival l us e) s [.store, .force, .queues, .outputs, .compose, .health] (copyFaults (abandon s l j rest r))) ∧
  (∀ (l : Fin 80) (us : List Upset) (e : Ecc) (j : ScaleJob) (rest : List ScaleJob) (r : LineReq) (more : List LineReq) (s : State), Runs s →
    (s.scaler l).jobs = j :: rest → j.reqs = r :: more → s.time ≤ r.deadline → r.void = true → r.held = none →
    Gives (.scalerLineArrival l us e) s [.store, .force, .queues, .outputs, .compose, .health]
      (let u := coefUpsets s (j.unit - 450) us ((jobCoefs s j).take 15)
       copyFaults (storeArrival u.2 l j rest r more none (lowArrival s j r) u.1))) ∧
  (∀ (l : Fin 80) (us : List Upset) (e : Ecc) (j : ScaleJob) (rest : List ScaleJob) (r : LineReq) (more : List LineReq) (b : List Byte) (s : State), Runs s →
    (s.scaler l).jobs = j :: rest → j.reqs = r :: more → s.time ≤ r.deadline → r.void = false → r.held = none → r.flips = [] →
    memLine s r.handle r.line = some b →
    Gives (.scalerLineArrival l us e) s [.store, .force, .queues, .outputs, .compose, .health]
      (let u := coefUpsets s (j.unit - 450) us ((jobCoefs s j).take 15)
       let f := checkLine u.2 r.handle r.line (linePayload u.2 r.handle) b
       copyFaults (storeArrival f.2.2 l j rest r more (if f.1 = .good then some f.2.1 else none) (lowArrival s j r) u.1))) ∧
  (∀ (l : Fin 80) (us : List Upset) (j : ScaleJob) (rest : List ScaleJob) (r : LineReq) (more : List LineReq) (b : List Byte) (s : State), Runs s →
    (s.scaler l).jobs = j :: rest → j.reqs = r :: more → s.time ≤ r.deadline → r.held = some b →
    Gives (.scalerLineArrival l us .ue) s [.store, .force, .queues, .outputs, .compose, .health]
      (let u := coefUpsets s (j.unit - 450) us ((jobCoefs s j).take 15)
       copyFaults (storeArrival (raise u.2 53) l j rest r more none (lowArrival s j r) u.1))) ∧
  (∀ (id l : Nat) (j : ScaleJob) (rest : List ScaleJob) (r : LineReq) (s : State), Runs s →
    (List.range 80).find? (fun l => (s.scaler l).jobs.any (fun j => j.reqs.any (fun r => r.id == id))) = some l →
    (s.scaler l).jobs = j :: rest → j.reqs.find? (fun r => r.id == id) = some r →
    Gives (.fetchDeadline id) s [.outputs, .compose] (abandon s l j rest r)) ∧
  (∀ (rod : Fin 400) (dst : BeadDst) (b : BeadSite) (s : State), Runs s → s.col.inj = none → beadSite s rod dst = some b → inOrder s rod b = true →
    (s.rod rod).errs.length < 4 →
    Ends (.rodBeadReceive rod 0#137 dst) s (fun t => t.rod rod = ⟨b.line, b.bead + 1, b.st, b.ra, decide (b.bead + 1 = b.beads), false, (s.rod rod).errs⟩ ∧
      (∀ k : Nat, k ≠ rod → t.rod k = s.rod k) ∧ t.regs = s.regs)) ∧
  (∀ (rod : Fin 400) (flip : BitVec 137) (dst : BeadDst) (b : BeadSite) (s : State), Runs s → s.col.inj = none → beadSite s rod dst = some b →
    inOrder s rod b = true → (s.within 1000000 (s.rod rod).errs).length < 4 →
    (let sent := mkBead 0 b.st b.ra (b.bead + 1 == b.beads) false
     let got := voidOf (sent ^^^ flip)
     beadGood (sent ^^^ flip) = false →
     Gives (.rodBeadReceive rod flip dst) s [.store, .force, .queues, .outputs, .compose, .health]
       (takeFlip ((beadError false s dst).setRod rod ⟨b.line, b.bead + 1, beadSt got, beadRa got, beadEol got, true,
         s.within 1000000 (s.rod rod).errs⟩) rod flip true dst))) ∧
  (∀ (pending peak : List Nat) (s : State), Runs s →
    Ends (.fshRefillTick pending peak) s (fun t => (∀ c : Nat, c < 4 → (t.wclass c).s = 0 ∧ (t.wclass c).held = false) ∧
      (∀ g : Nat, g < 8 → (t.group g).slackHit = false) ∧ t.fsh.raHigh = false ∧ t.store = s.store)) ∧
  (∀ (pending peak : List Nat) (s : State), Runs s →
    (∀ c : Nat, c < 4 → max (pending.getD c 0) (peak.getD c 0) ≤ bits (s.cfg (R.FSH_Wc_BACKLOG c)) 23 0) →
    Ends (.fshRefillTick pending peak) s (fun t => ∀ c : Nat, c < 4 →
      (t.wclass c).credit =
        (let rest := (s.wclass c).credit - (s.wclass c).s
         if 0 < max (pending.getD c 0) (peak.getD c 0) then
           min (rest + rateOf s c) (max (rateOf s c) (bits (s.rd (R.FSH_Wc_LIMIT c)) 16 0) : Nat)
         else if rest < 0 then min (rest + rateOf s c) 0 else 0))) ∧
  (∀ (g : Fin 8) (c : Commit) (n : RaNeed) (i : Nat) (more : List (RaNeed × Nat)) (s : State), Runs s → (s.group g).commit = some c →
    (c.state = 2 ∨ c.state = 3) →
    ((raNeeds s g).zipIdx.filter (fun e => !(s.group g).ra.any (fun r => r.tag && r.pos == e.2) && !(fenced s e.1.desc && !s.sig e.1.handle)))
      = (n, i) :: more →
    raAsked s g + n.beads ≤ raQuota s g → ((List.range 8).map (raAsked s)).sum + n.beads ≤ 1048576 →
    Ends (.runAheadRequest g) s (fun t => (t.group g).ra = (s.group g).ra ++
        [⟨n.desc, n.handle, n.line, n.beads, 0, [], rodsVoid s (rodsFor .fetch) 0, [], n.s0, n.deadline, s.time, i, true, s.fsh.nextReq, undecided s g, []⟩] ∧
      t.regs = s.regs ∧ ∀ g' : Nat, g' ≠ g → t.group g' = s.group g'))

/-- Plans (R152, R159, R161, R164): the planner judges the oldest commit that waits, as every input then stands; a plan that is done is reported with its
tag, and the commit is refused or PLANNED. The model's choices: which of several failures a report names (log entries 41, 149 and 179), and a step
without entries whose LSET is out of range (181). -/
def Obligations.PlanEvents : Prop :=
  (∀ (us : List Upset) (g : Nat) (rest : List Nat) (s : State), Runs s → s.planning = none → s.planQ = g :: rest →
    Ends (.planStart us) s (fun t => t.planQ = rest ∧ t.planning = some (planResult g (evaluate (pendUpsets s us) g false (pendUpsets s us).failingPend)) ∧ t.regs = s.regs ∧
      t.groups = s.groups)) ∧
  (∀ (us : Nat) (r : PlanResult) (c : Commit) (s : State), Runs s → s.planning = some r → (s.group r.group).commit = some c → r.reason ≠ 0 →
    Gives (.planDone us) s [.force, .queues, .outputs, .compose, .health]
      (finishCommit (planReport (forEach r.words (({ s with planning := none } : State).wr R.SEQ_PLAN_TIME (word us)) (fun s w => (s.setSp w.1 w.2).cleanPend w.1)) c.tag r) r.group c 6)) ∧
  (∀ (us : Nat) (r : PlanResult) (c : Commit) (s : State), Runs s → s.planning = some r → (s.group r.group).commit = some c → r.reason = 0 →
    c.cancelled = false →
    Gives (.planDone us) s [.force, .queues, .outputs, .compose, .health]
      (reachPlanned (planReport (forEach r.words (({ s with planning := none } : State).wr R.SEQ_PLAN_TIME (word us)) (fun s w => (s.setSp w.1 w.2).cleanPend w.1)) c.tag r)
        r.group c r.plan))

/-- Steps of the tables at their tiles, and lines at the heads (R40, R149, R150, R181, R198). The model's readings: pixels are handled a line at a time
(log entry 50), when the sequencer reads ahead (51), steps of heads that do not compose (52, 53), lines composed twice (55), slots of steps that wait
(132), what an armed injection meets (184). -/
def Obligations.CompositionEvents : Prop :=
  (∀ (g : Fin 8) (i : Nat) (x : Group) (s : State), Runs s → s.ldr.state = .released → (s.group g).live.steps ≠ 0 → seqNext s g = some (i, x) →
    s.col.inj = none →
    let v := s.viewFor g x.seqFrame
    let t := v.step g i
    stepUe v g i t = false → t.op ≠ 1 → stepBad v g t = false → headComposes s g t.head x.seqFrame = true → (s.tile t.tile).queue.length < 4 →
    Ends (.seqStepIssue g []) s (fun u => (u.tile t.tile).queue = (s.tile t.tile).queue ++ [⟨g, x.seqFrame, i, t.head, t.y0, t.lines, v.entries g t⟩] ∧
      u.regs = s.regs ∧ ∀ k : Nat, k ≠ t.tile → u.tile k = s.tile k)) ∧
  (∀ (t : Fin 32) (us : List Upset) (st : Step) (rest : List Step) (s : State), Runs s → (s.tile t).run = none → (s.tile t).queue = st :: rest →
    slotsUsed s st.head + slotsAhead s st + st.lines ≤ 131072 / max 1 (activeSize (s.viewFor st.group st.frame) st.head).1 →
    (s.metered (tileFor s t st)).eff ≠ 7 → unitVoid s (tileFor s t st) = true →
    Gives (.tileStepStart t us) s [.outputs, .compose] (voidStep (s.setTile t ({ s.tile t with queue := rest, run := some st, y := st.y0 + st.lines, entries := [], unit := tileFor s t st, bad := [] })) t (s.viewFor st.group st.frame) st)) ∧
  (∀ (t : Fin 32) (us : List Upset) (st : Step) (rest : List Step) (s : State), Runs s → (s.tile t).run = none → (s.tile t).queue = st :: rest →
    slotsUsed s st.head + slotsAhead s st + st.lines ≤ 131072 / max 1 (activeSize (s.viewFor st.group st.frame) st.head).1 →
    (s.metered (tileFor s t st)).eff ≠ 7 → unitVoid s (tileFor s t st) = false → s.health.lostTiles.contains t.val = false →
    Gives (.tileStepStart t us) s [.outputs, .compose]
      (let v := s.viewFor st.group st.frame
       let u := tableUpsets s us (st.entries.flatMap (fun w => descWords (tentryOf w).desc))
       let s1 := u.2.setTile t { s.tile t with
         queue := rest, run := some st, y := st.y0, unit := tileFor s t st, bad := u.1,
         entries := st.entries.map (fun w => ⟨w, [], 0, 0, false, 0, [], []⟩) }
       let jobs := st.entries.zipIdx.filterMap (fun e => scaleJob s1 v t st e.2 e.1)
       let s2 := forEach jobs s1 (fun s j => s.setScaler j.1 ⟨(s.scaler j.1).jobs ++ [j.2]⟩)
       forEach (jobs.map (·.1)).eraseDups (tileAdvance 64 s2 t) (fun s l => scalerAdvance scalerFuel s l))) ∧
  (∀ (t : Fin 32) (st : Step) (s : State), Runs s → (s.tile t).run = some st → st.y0 + st.lines ≤ (s.tile t).y →
    Ends (.tileStepDone t) s (fun u => u.tile t = { s.tile t with run := none, entries := [] } ∧ u.regs = s.regs ∧
      ∀ k : Nat, k ≠ t → u.tile k = s.tile k)) ∧
  (∀ (t : Fin 32) (i : Nat) (st : Step) (e : Entry) (l : LayAt) (s : State), Runs s → (s.tile t).run = some st → (s.tile t).entries[i]? = some e →
    layAt s ((s.viewFor st.group st.frame).withBad (s.tile t).bad) st (s.tile t).y e = some (some l) → l.holed = true → e.rung = 0 → (s.tile t).y < st.y0 + st.lines →
    Gives (.tileVoidBead t i) s [.outputs, .compose] (tileAdvance 64 (s.setTile t { s.tile t with entries := setAt (s.tile t).entries i { e with rung := rungOf ((s.viewFor st.group st.frame).withBad (s.tile t).bad) st e l (s.tile t).y } }) t)) ∧
  (∀ (h : Fin 32) (us : List Upset) (l : ResLine) (rest : List ResLine) (s : State), Runs s → (s.head h).results = l :: rest →
    unitVoid s (converterUnit h) = true →
    Gives (.resultBeadArrival h us) s [.outputs] (bufferLine (s.setHead h { s.head h with results := rest }) h { l with px := l.px.map (fun _ => none) })) ∧
  (∀ (h : Fin 32) (us : List Upset) (l : ResLine) (rest : List ResLine) (s : State), Runs s → (s.head h).results = l :: rest →
    unitVoid s (converterUnit h) = false →
    Gives (.resultBeadArrival h us) s [.outputs]
      (let s1 := s.setHead h { s.head h with results := rest }
       let view (s : State) : DeckView := match s.headGroup h with | some g => s.viewFor g l.frame | none => s.view
       let u := tableUpsets s1 us (match (l.px.filterMap id).head? with | some p => convertReads (view s1) h (unpack4 p) | none => [])
       let c := (convertLine (view u.2) h (frameCount u.2 h l.frame) l u.1).run 0
       if (s.head h).past l.frame l.y then countSat u.2 c.2 else bufferLine (countSat u.2 c.2) h { l with px := c.1 })) ∧
  (∀ (h : Fin 32) (ue : List Nat) (us : List Upset) (s : State), Runs s → (s.head h).scanning = true → (s.head h).due = false →
    (s.head h).line < (activeSize (s.headView h) h).2 → Ends (.lineDue h ue us) s (fun t => (t.head h).due = true ∧ t.live = s.live)) ∧
  (∀ (h : Fin 32) (s : State), Runs s → (s.head h).scanning = true → (s.head h).due = true →
    Ends (.lineLeft h) s (fun t => (t.head h).line = (s.head h).line + 1 ∧ (t.head h).due = false ∧ t.regs = s.regs ∧
      ∀ k : Nat, k ≠ h → t.head k = s.head k))

/-- Commits asked for or cancelled, by a write or a job (R192, R193, R195): with a tag and a free slot the commit is taken and waits for its plan,
otherwise it is counted as refused; a cancel marks the commit that its tag names, and is counted as refused when its tag names none. The model's
readings: what a request that is not accepted counts (log entry 45), the TARGET words of a job's records (49), a COMMIT job that runs again (90). -/
def Obligations.CommitRequests : Prop :=
  (∀ (m : Master) (g : Fin 8) (tag : BitVec 16) (s : State), Writes s m → mayWrite s m (R.SEQ_Gn_COMMIT g) = true → tag ≠ 0#16 →
    (s.group g).commit = none → (s.group g).waiters = [] →
    Acts (.seqCommit m g tag) s m (R.SEQ_Gn_COMMIT g) (word (tag.toNat * 65536 + 1)) [.compose] (fun u => takeSlot u g tag.toNat none (s.priv m))) ∧
  (∀ (m : Master) (g : Fin 8) (tag : BitVec 16) (s : State), Writes s m → mayWrite s m (R.SEQ_Gn_COMMIT g) = true →
    (tag = 0#16 ∨ (s.group g).commit ≠ none ∨ (s.group g).waiters ≠ []) →
    Acts (.seqCommit m g tag) s m (R.SEQ_Gn_COMMIT g) (word (tag.toNat * 65536 + 1)) [.compose] (fun u => commitRejected u g)) ∧
  (∀ (m : Master) (g : Fin 8) (tag : BitVec 16) (c : Commit) (s : State), Writes s m → mayWrite s m (R.SEQ_Gn_COMMIT g) = true →
    (s.group g).commit = some c → c.tag = tag.toNat → (c.priv = true → s.priv m = true) →
    Acts (.seqCancel m g tag) s m (R.SEQ_Gn_COMMIT g) (word (tag.toNat * 65536 + 2)) [.compose]
      (fun u => u.setGroup g { u.group g with commit := some { c with cancelled := true } })) ∧
  (∀ (m : Master) (g : Fin 8) (tag : BitVec 16) (c : Commit) (s : State), Writes s m → mayWrite s m (R.SEQ_Gn_COMMIT g) = true →
    (s.group g).commit = some c → c.tag ≠ tag.toNat →
    Acts (.seqCancel m g tag) s m (R.SEQ_Gn_COMMIT g) (word (tag.toNat * 65536 + 2)) [.compose] (fun u => commitRejected u g)) ∧
  (∀ (q : Fin 64) (j : Job) (s : State), Runs s → s.jobIn q Typ.COMMIT .act = some j →
    (∀ st, (s.group (jobGroup j)).lastJob = some (q.val, j.seq, st) → j.rerun = false) →
    ((commitRecords j).all (fun r => recordOk s (jobGroup j) r.1) = true → (s.group (jobGroup j)).commit = none → (s.group (jobGroup j)).waiters = [] →
      Gives (.commitJob q) s [.force, .masters, .queues, .compose] (takeJobSlot s q j)) ∧
    ((commitRecords j).all (fun r => recordOk s (jobGroup j) r.1) = true →
      ((s.group (jobGroup j)).commit ≠ none ∨ (s.group (jobGroup j)).waiters ≠ []) →
      Ends (.commitJob q) s (fun t => t.group (jobGroup j) = { s.group (jobGroup j) with waiters := (s.group (jobGroup j)).waiters ++ [q.val] } ∧
        (t.queue q).job = some { j with phase := .slot } ∧ t.regs = s.regs ∧ t.out = s.out)) ∧
    ((commitRecords j).all (fun r => recordOk s (jobGroup j) r.1) = false →
      Gives (.commitJob q) s [.force, .masters, .queues, .compose] (completeJob s q Code.BAD_WRITE))) ∧
  (∀ (q : Fin 64) (j : Job) (st : Nat) (s : State), Runs s → s.jobIn q Typ.COMMIT .act = some j → j.rerun = true →
    (s.group (jobGroup j)).lastJob = some (q.val, j.seq, st) →
    (st = 0 → Ends (.commitJob q) s (fun t => (t.queue q).job = some { j with phase := .commit } ∧ t.groups = s.groups ∧ t.regs = s.regs)) ∧
    (st ≠ 0 → Gives (.commitJob q) s [.force, .masters, .queues, .compose] (completeJob s q (finalCode st)))) ∧
  (∀ (g : Fin 8) (q : Nat) (rest : List Nat) (j : Job) (s : State), Runs s → (s.group g).waiters = q :: rest → (s.group g).commit = none →
    s.jobIn q Typ.COMMIT .slot = some j → Gives (.commitJobSlotTaken g) s [.force, .masters, .queues, .compose] (takeJobSlot s q j))

/-- The loader's own registers (R61, R64, R65): RELEASE while the loader holds or waits for the host, RELOAD, and the update commands. The model's
readings: a release by the host leaves IHM_PHASE at START (log entry 27), what RELOAD resets and keeps (23, 24), what FINISH finds (35), which copy
is the target (139), the page field of LDR_UPD_ADDR (140), a flash not yet read (142). -/
def Obligations.LoaderWrites : Prop :=
  (∀ (m : Master) (s : State), Runs s → (s.master m).wq = [] → s.reaches m = true → s.priv m = true → s.ldr.state = .held →
    Gives (.ldrRelease m) s Part.device (releaseCopy (stored s m R.LDR_CTRL 1#32))) ∧
  (∀ (m : Master) (s : State), Runs s → (s.master m).wq = [] → s.reaches m = true → s.priv m = true → s.hostStates = true →
    Gives (.ldrRelease m) s Part.device (hostRelease (stored s m R.LDR_CTRL 1#32))) ∧
  (∀ (m : Master) (s : State), Runs s → (s.master m).wq = [] → s.reaches m = true → s.priv m = true → s.hostStates = true →
    Gives (.ldrReload m) s Part.device (reload (stored s m R.LDR_CTRL 2#32))) ∧
  (∀ (m : Master) (s : State), Runs s → (s.master m).wq = [] → s.reaches m = true → s.priv m = true → s.released = true ∨ s.hostStates = true → s.ldr.upd = 0 →
    Gives (.ldrUpdErase m) s Part.device
      (let u := stored s m R.LDR_UPD_CMD 1#32
       (updBusy u 1 0).emit (.flashErase (copyBase u (updTarget u))))) ∧
  (∀ (m : Master) (s : State), Runs s → (s.master m).wq = [] → s.reaches m = true → s.priv m = true → s.released = true ∨ s.hostStates = true → s.ldr.upd = 0 →
    bits (s.cfg R.LDR_UPD_ADDR) 27 8 ≠ 0 → s.ldr.erased = true →
    256 * bits (s.cfg R.LDR_UPD_ADDR) 27 8 < halfOfFlash (bits (s.rd R.LDR_STAT) 19 16) →
    Gives (.ldrUpdProgram m) s Part.device
      (let u := stored s m R.LDR_UPD_CMD 2#32
       (updBusy u 2 0).emit (.flashProgram (copyBase u (updTarget u) + 256 * bits (s.cfg R.LDR_UPD_ADDR) 27 8) (flashPage s)))) ∧
  (∀ (m : Master) (flash : List Byte) (s : State), Runs s → (s.master m).wq = [] → s.reaches m = true → s.priv m = true → s.released = true ∨ s.hostStates = true →
    s.ldr.upd = 0 → s.ldr.erased = true →
    Ends (.ldrUpdFinish m flash) s (fun t => t.ldr.upd = 3 ∧ t.ldr.updResult = finishResult s (flashCrcs flash) ∧ t.ldr.updPage = flashPage s ∧
      t.out = s.out))

/-- What the loader's commands leave (R61, R63 to R65): a copy that was held is released, RELOAD starts the loader again once the freed stripes are
zeroed, an update command that may run erases or programs the target copy's flash and stays busy until the flash has answered, and a PROGRAM or a
FINISH that comes out of order ends at once with DONE and RESULT 2. The model's readings: a FINISH that fails keeps ERASED (log entry 35), the
target copy (139), a flash not yet read (142). -/
def Obligations.LoaderCommandsComplete : Prop :=
  (∀ (m : Master) (s : State), Runs s → (s.master m).wq = [] → s.reaches m = true → s.priv m = true → s.ldr.state = .held →
    Ends (.ldrRelease m) s (fun t => t.ldr.state = .released ∧ t.ldr.startHold = true ∧ t.ldr.copy = s.ldr.copy)) ∧
  (∀ (m : Master) (s : State), Runs s → (s.master m).wq = [] → s.reaches m = true → s.priv m = true → s.hostStates = true →
    Ends (.ldrReload m) s (fun t => t.ldr.state = .probe ∧ t.ldr.reloading = true ∧ t.ldr.copy = 0 ∧ t.ldr.startHold = false)) ∧
  (∀ (m : Master) (s : State), Runs s → (s.master m).wq = [] → s.reaches m = true → s.priv m = true → s.released = true ∨ s.hostStates = true → s.ldr.upd = 0 →
    Ends (.ldrUpdErase m) s (fun t => t.ldr.upd = 1 ∧ bit (t.rd R.LDR_UPD_STAT) 0 = true ∧ t.ldr.erased = s.ldr.erased ∧
      t.out = .flashErase (copyBase s (updTarget s)) :: s.out)) ∧
  (∀ (m : Master) (s : State), Runs s → (s.master m).wq = [] → s.reaches m = true → s.priv m = true → s.released = true ∨ s.hostStates = true → s.ldr.upd = 0 →
    bits (s.cfg R.LDR_UPD_ADDR) 27 8 ≠ 0 → s.ldr.erased = true →
    256 * bits (s.cfg R.LDR_UPD_ADDR) 27 8 < halfOfFlash (bits (s.rd R.LDR_STAT) 19 16) →
    Ends (.ldrUpdProgram m) s (fun t => t.ldr.upd = 2 ∧ bit (t.rd R.LDR_UPD_STAT) 0 = true ∧
      t.out = .flashProgram (copyBase s (updTarget s) + 256 * bits (s.cfg R.LDR_UPD_ADDR) 27 8) (flashPage s) :: s.out)) ∧
  (∀ (m : Master) (s : State), Runs s → (s.master m).wq = [] → s.reaches m = true → s.priv m = true → s.released = true ∨ s.hostStates = true → s.ldr.upd = 0 →
    bits (s.cfg R.LDR_UPD_ADDR) 27 8 = 0 ∨ s.ldr.erased = false →
    Gives (.ldrUpdProgram m) s Part.device (updEnd (stored s m R.LDR_UPD_CMD 2#32) 2)) ∧
  (∀ (m : Master) (flash : List Byte) (s : State), Runs s → (s.master m).wq = [] → s.reaches m = true → s.priv m = true → s.released = true ∨ s.hostStates = true →
    s.ldr.upd = 0 → s.ldr.erased = false →
    Ends (.ldrUpdFinish m flash) s (fun t => t.ldr.upd = 0 ∧ t.ldr.erased = false ∧ t.ldr.copy = s.ldr.copy ∧ t.store = s.store)) ∧
  (∀ (m : Master) (flash : List Byte) (s : State), Runs s → (s.master m).wq = [] → s.reaches m = true → s.priv m = true →
    s.released = true ∨ s.hostStates = true → s.ldr.upd = 0 → s.ldr.erased = false →
    Gives (.ldrUpdFinish m flash) s Part.device
      (let u := stored s m R.LDR_UPD_CMD 3#32
       let x : State := { u with ldr := { u.ldr with upd := 0, updResult := 0, dqs := 0, updPage := [] } }
       raise (x.wr R.LDR_UPD_STAT (setBit (setBit (setBits (setBits (u.rd R.LDR_UPD_STAT) 9 8 (updTarget u)) 7 4 2) 1 true) 0 false)) 6)) ∧
  (∀ s : State, Runs s → s.ldr.upd = 3 → s.ldr.updResult = 0 →
    Gives (.ldrUpdDone true) s [.loader]
      (updEnd { s.emit (.flashProgram (copyBase s (updTarget s)) s.ldr.updPage) with ldr := { s.ldr with erased := false } } 0))

/-- Writes of the store, the coefficients, the fences and the layers' words (R93, R137, R182, R201, R205). The model's readings: such a command is
the write through its master's window (log entry 16), a bank that a FILL job uses is not busy (58), GO = 0 asks for nothing (147), what a software
write of a fence puts into WRITER and STAMP (118). -/
def Obligations.CompositionWrites : Prop :=
  (∀ (m : Master) (v : Word) (s : State), Writes s m → mayWrite s m R.SSP_RETIRE_CMD = true →
    Acts (.sspRetireCmd m v) s m R.SSP_RETIRE_CMD v [.store, .queues, .outputs, .compose]
      (pcJobs (fun s => sspRetireEffect s (v &&& 0x8000007F#32)))) ∧
  (∀ (m : Master) (addr : BitVec 12) (v : Word) (s : State), Writes s m → mayWriteSpace s m Space.COEF = true → bankInUse s (addr.toNat / 256) = false →
    Ends (.coefWrite m addr v) s (fun t => t.sp (skey Space.COEF addr.toNat) = v &&& 0x0FFF0FFF#32 ∧
      ∀ k : Nat, k ≠ skey Space.COEF addr.toNat → t.sp k = s.sp k)) ∧
  (∀ (m : Master) (desc : Fin 4096) (w : Fin 4) (s : State), Writes s m → mayWriteSpace s m Space.LAYER_CNT = true →
    Ends (.layerCntClear m desc w) s (fun t => t.sp (skey Space.LAYER_CNT (4 * desc + w)) = 0#32 ∧
      ∀ k : Nat, k ≠ skey Space.LAYER_CNT (4 * desc + w) → t.sp k = s.sp k)) ∧
  (∀ (m : Master) (handle : BitVec 16) (s : State), Writes s m → mayWriteSpace s m Space.FENCE = true → (s.surface handle.toNat).isSome = true →
    Ends (.fenceSignalWrite m handle) s (fun t => t.rd R.SEQ_FENCE_STAMP = s.rd R.SEQ_FENCE_STAMP + 1#32 ∧
      t.sp (skey Space.FENCE (2 * handle.toNat)) = fenceWord true false writerSoft ∧
      t.sp (skey Space.FENCE (2 * handle.toNat) + 1) = s.rd R.SEQ_FENCE_STAMP + 1#32)) ∧
  (∀ (m : Master) (handle : BitVec 16) (s : State), Writes s m → mayWriteSpace s m Space.FENCE = true → (s.surface handle.toNat).isSome = true →
    ActsWord (.fenceWritingWrite m handle) s m Space.FENCE (2 * handle.toNat) [.compose] (fun u => putFence u handle.toNat
      (setBits (setBit (s.sp (skey Space.FENCE (2 * handle.toNat))) 31 false) 18 16 writerSoft))) ∧
  (∀ (m : Master) (desc : Fin 4096) (s : State), Writes s m → mayWriteSpace s m Space.LAYER_SRC = true →
    Ends (.layerSrcClear m desc) s (fun t => t.sp (skey Space.LAYER_SRC (2 * desc + 1)) = 0#32 ∧
      ∀ k : Nat, k ≠ skey Space.LAYER_SRC (2 * desc + 1) → t.sp k = s.sp k))

/-- Writes to heads, DisplayPort ports and the safe state (R221, R226, R229, R240, R241). The model's readings: a head reset in a gap (log entry
194), an enable with HPD high and what retrains (64), ports that do not emit (65), a force line that is high as SAFE_EN is written (66, 138), the
words of SAFE_FRAME written through the window (16). -/
def Obligations.OutputWrites : Prop :=
  (∀ (m : Master) (h : Fin 32) (s : State), Writes s m → mayWrite s m (R.OWB_Hnn_RESET h) = true → (s.head h).state ≠ .dark → (s.head h).state ≠ .gap →
    Acts (.headReset m h) s m (R.OWB_Hnn_RESET h) 1#32 [.outputs, .compose] (fun u => headResetEffect u h)) ∧
  (∀ (m : Master) (d : Fin 16) (v : Word) (s : State), Writes s m → mayWrite s m (R.OWB_Ddd_CTRL d) = true →
    Acts (.dpCtrlWrite m d v) s m (R.OWB_Ddd_CTRL d) v [.outputs] (fun u => dpCtrlEffect (u.setCfg (R.OWB_Ddd_CTRL d) (v &&& 0x80006DFF#32)) d
      (s.cfg (R.OWB_Ddd_CTRL d)))) ∧
  (∀ (m : Master) (d len : Fin 16) (addr : BitVec 20) (s : State), Writes s m → mayWrite s m (R.OWB_Ddd_AUX_CMD d) = true → dpEn s d = true →
    (s.dp d).hpd = true → (s.dp d).aux = none →
    (let f (typ : Nat) (u : State) : State := auxSend ((u.setDp d { s.dp d with aux := some (typ, len, addr.toNat), defers := 0 }).wr
       (R.OWB_Ddd_AUX_STAT d) 0x80000000#32) d
     Acts (.auxNativeRead m d len addr) s m (R.OWB_Ddd_AUX_CMD d) (auxWord 0 len addr.toNat) [.outputs] (f 0) ∧
     Acts (.auxNativeWrite m d len addr) s m (R.OWB_Ddd_AUX_CMD d) (auxWord 1 len addr.toNat) [.outputs] (f 1) ∧
     Acts (.auxI2cRead m d len addr) s m (R.OWB_Ddd_AUX_CMD d) (auxWord 2 len addr.toNat) [.outputs] (f 2) ∧
     Acts (.auxI2cWrite m d len addr) s m (R.OWB_Ddd_AUX_CMD d) (auxWord 3 len addr.toNat) [.outputs] (f 3))) ∧
  (∀ (m : Master) (h : Fin 32) (v : Word) (s : State), Writes s m → mayWrite s m (R.OWB_Hnn_SAFE_CTRL h) = true →
    (let act (release : Bool) (w : Word) (u : State) : State := safeCtrlEffect (u.setCfg (R.OWB_Hnn_SAFE_CTRL h) (w &&& rwBits (R.OWB_Hnn_SAFE_CTRL h))) h
       (s.cfg (R.OWB_Hnn_SAFE_CTRL h)) release
     Acts (.safeForceWrite m h v) s m (R.OWB_Hnn_SAFE_CTRL h) (setBit v 11 true) [] (act (bit v 12) (setBit v 11 true)) ∧
     Acts (.safeReleaseWrite m h v) s m (R.OWB_Hnn_SAFE_CTRL h) (setBit v 12 true) [] (act true (setBit v 12 true)) ∧
     Acts (.safeCtrlWrite m h v) s m (R.OWB_Hnn_SAFE_CTRL h) (setBits v 12 11 0) [] (act false (setBits v 12 11 0)))) ∧
  (∀ (m : Master) (addr : BitVec 18) (v : Word) (s : State), Writes s m → mayWriteSpace s m Space.SAFE_FRAME = true →
    safeFrameHeld s (addr.toNat / 32768) = [] → 64 ≤ addr.toNat % 32768 →
    Ends (.safeFrameWrite m addr v) s (fun t => t.sp (skey Space.SAFE_FRAME addr.toNat) = v ∧
      ∀ k : Nat, k ≠ skey Space.SAFE_FRAME addr.toNat → t.sp k = s.sp k)) ∧
  (∀ (m : Master) (addr : BitVec 18) (v : Word) (s : State), Writes s m → mayWriteSpace s m Space.SAFE_FRAME = true →
    safeFrameHeld s (addr.toNat / 32768) ≠ [] → Ends (.safeFrameWrite m addr v) s (fun t => t.spaces = s.spaces))

/-- Writes to the streams and ports of the network (R252, R257, R266, R270, R275): an enabled stream begins again, a cleared counter is 0, a gate list
that keeps the limits becomes pending. The model's readings: EN written with a refused APPLY acts at once (log entry 77), APPLY and CANCEL are judged by PENDING as the
writes before leave it (161), the status of a stream (69, 158), such a command is the write through its master's window (16). -/
def Obligations.NetworkWrites : Prop :=
  (∀ (m : Master) (addr : BitVec 12) (v : Word) (s : State), Writes s m → mayWriteSpace s m Space.NMP_RXS = true →
    ActsWord (.rxStreamConfigWrite m addr v) s m Space.NMP_RXS addr.toNat [.store, .compose, .receive] (fun u => rxConfigEffect u addr.toNat v)) ∧
  (∀ (m : Master) (addr : BitVec 10) (v : Word) (s : State), Writes s m → mayWriteSpace s m Space.NMP_TXS = true →
    ActsWord (.txStreamConfigWrite m addr v) s m Space.NMP_TXS addr.toNat [] (fun u => txConfigEffect u addr.toNat v)) ∧
  (∀ (m : Master) (addr : BitVec 12) (s : State), Writes s m → mayWriteSpace s m Space.NMP_RXC = true → addr.toNat % 16 < 14 →
    Ends (.nmpCounterClear m false addr) s (fun t => t.sp (skey Space.NMP_RXC addr.toNat) = 0#32 ∧
      ∀ k : Nat, k ≠ skey Space.NMP_RXC addr.toNat → t.sp k = s.sp k)) ∧
  (∀ (m : Master) (addr : BitVec 12) (s : State), Writes s m → mayWriteSpace s m Space.NMP_TXC = true → addr.toNat < 512 → addr.toNat % 8 < 4 →
    Ends (.nmpCounterClear m true addr) s (fun t => t.sp (skey Space.NMP_TXC addr.toNat) = 0#32 ∧
      ∀ k : Nat, k ≠ skey Space.NMP_TXC addr.toNat → t.sp k = s.sp k)) ∧
  (∀ (m : Master) (p : Fin 16) (v : Word) (s : State), Writes s m → mayWrite s m (R.NMP_Pnn_GCL_CTRL p) = true → (s.port p).pend = none →
    1 ≤ bits v 8 0 → bits v 8 0 ≤ 256 →
    Ends (.gclApply m p v) s (fun t => t.port p = { s.port p with pend := some ⟨bits v 8 0, hostAddr (s.cfg (R.NMP_Pnn_GCL_BASE_LO p))
      (s.cfg (R.NMP_Pnn_GCL_BASE_HI p)), bit v 31⟩ } ∧ t.cfg (R.NMP_Pnn_GCL_CTRL p) = v &&& 0x800001FF#32 ∧ ∀ p' : Nat, p' ≠ p → t.port p' = s.port p')) ∧
  (∀ (m : Master) (p : Fin 16) (v : Word) (s : State), Writes s m → mayWrite s m (R.NMP_Pnn_GCL_CTRL p) = true → (s.port p).pend.isSome = true →
    Ends (.gclCancel m p v) s (fun t => t.port p = { s.port p with pend := none, operEn := bit v 31 } ∧
      bits (t.cfg (R.NMP_Pnn_GCL_CTRL p)) 8 0 = bits (s.rd (R.NMP_Pnn_GCL_CTRL p)) 8 0 ∧ bit (t.cfg (R.NMP_Pnn_GCL_CTRL p)) 31 = bit v 31 ∧
      ∀ p' : Nat, p' ≠ p → t.port p' = s.port p')) ∧
  (∀ (m : Master) (p : Fin 16) (v : Word) (s : State), Writes s m → mayWrite s m (R.NMP_Pnn_GCL_CTRL p) = true → (s.port p).pend.isSome = true →
    Ends (.gclApply m p v) s (fun t => t.port p = { s.port p with pend := if bit v 29 then none else (s.port p).pend, operEn := bit v 31 } ∧
      bit (t.rd (R.NMP_Pnn_GCL_STAT p)) 28 = true ∧ ∀ p' : Nat, p' ≠ p → t.port p' = s.port p')) ∧
  (∀ (m : Master) (p : Fin 16) (v : Word) (s : State), Writes s m → mayWrite s m (R.NMP_Pnn_GCL_CTRL p) = true → (s.port p).pend = none →
    bit v 30 = false →
    Ends (.gclCancel m p v) s (fun t => t.port p = { s.port p with operEn := bit v 31 } ∧
      t.cfg (R.NMP_Pnn_GCL_CTRL p) = v &&& 0x800001FF#32 ∧ ∀ p' : Nat, p' ≠ p → t.port p' = s.port p')) ∧
  (∀ (m : Master) (p : Fin 16) (s : State), Writes s m → mayWrite s m (R.NMP_Pnn_RESET p) = true →
    Acts (.nmpPortReset m p) s m (R.NMP_Pnn_RESET p) 1#32 [.outputs, .timing] (fun u => portReset u p))

/-- Writes to the timing unit (R279, R281, R284, R298). The model's reading: STEP_NOW stays pending while no reference is selected (log entry
78). -/
def Obligations.TimingWrites : Prop :=
  (∀ (m : Master) (v : Word) (s : State), Writes s m → mayWrite s m R.TRS_TOD_SET_HI = true →
    Ends (.todSetHiWrite m v) s (fun t => t.trs = { s.trs with tod := some (v.toNat * 4294967296 + s.trs.todLo.toNat) } ∧ t.time = s.time)) ∧
  (∀ (m : Master) (v : Word) (s : State), Writes s m → mayWrite s m R.TRS_REF_CTRL = true →
    Acts (.refCtrlWrite m 0 v) s m R.TRS_REF_CTRL (setBit v 31 false) [.outputs, .timing]
      (fun u => evalRefs (u.setCfg R.TRS_REF_CTRL (v &&& 0x1FF#32)))) ∧
  (∀ (m : Master) (k : Fin 3) (v : Word) (s : State), Writes s m → mayWrite s m (R.TRS_REF_PRIOk k) = true →
    Acts (.refCtrlWrite m k.succ v) s m (R.TRS_REF_PRIOk k) v [.outputs, .timing] (fun u => evalRefs (u.setCfg (R.TRS_REF_PRIOk k) v))) ∧
  (∀ (m : Master) (v : Word) (s : State), Writes s m → mayWrite s m R.TRS_REF_CTRL = true →
    Acts (.trsStepNow m v) s m R.TRS_REF_CTRL (setBit v 31 true) [.outputs, .timing] (fun u =>
      let u1 := stepDevice (u.setCfg R.TRS_REF_CTRL (v &&& 0x1FF#32)) (-s.trs.b)
      evalRefs { u1 with trs := { u1.trs with b := 0, stepNow := u1.trs.sel.isNone } })) ∧
  (∀ (m : Master) (v : Word) (s : State), Writes s m → mayWrite s m R.TRS_SYNC_CTRL = true →
    Ends (.syncInArm m v) s (fun t => t.rd R.TRS_SYNC_STAT = setBit (s.rd R.TRS_SYNC_STAT) 31 true ∧
      t.cfg R.TRS_SYNC_CTRL = setBit v 31 true &&& 0xE0000FFF#32 ∧ t.trs = s.trs))

/-- Doorbells, producer indexes, functions' resets, queue and event-ring settings (R317, R318, R332, R339, R340). The model's readings: a queue that is
enabled is idle at CONS (log entry 94), an event ring whose size or base lies outside R339 (104), what a reset stops at once (97). -/
def Obligations.QueueWrites : Prop :=
  (∀ (m : Master) (q : Fin 64) (s : State), Writes s m → mayWrite s m (R.HWQ_Qnn_DB q) = true → bit (s.cfg (R.HWQ_Qnn_CFG q)) 31 = true →
    (s.queue q).stopping = false →
    Acts (.doorbell m q) s m (R.HWQ_Qnn_DB q) 0#32 [.queues] (fun u => pollQueue (u.setQueue q { s.queue q with bell := true }) q)) ∧
  (∀ (m : Master) (q : Fin 16) (v : Word) (s : State), Writes s m → mayWrite s m (R.HWQ_Qnn_PROD q) = true → bit (s.cfg (R.HWQ_Qnn_CFG q)) 31 = true →
    (s.queue q).stopping = false →
    Acts (.boardProdWrite m q v) s m (R.HWQ_Qnn_PROD q) v [.queues]
      (fun u => pollQueue ((u.setCfg (R.HWQ_Qnn_PROD q) v).setQueue q { s.queue q with bell := true }) q)) ∧
  (∀ (m : Master) (s : State), Writes s m → mayWrite s m R.GLB_FUNC_RESET = true →
    Acts (.glbFuncResetBoard m) s m R.GLB_FUNC_RESET 1#32 [.queues] (fun u => startReset u 0 false) ∧
    Acts (.glbFuncResetPf0 m) s m R.GLB_FUNC_RESET 2#32 [.queues] (fun u => startReset u 1 false) ∧
    Acts (.glbFuncResetPf1 m) s m R.GLB_FUNC_RESET 4#32 [.queues] (fun u => startReset u 2 false)) ∧
  (∀ (m : Master) (q : Fin 64) (v : Word) (s : State), Writes s m → mayWrite s m (R.HWQ_Qnn_CFG q) = true → bit (s.rd (R.HWQ_Qnn_CFG q)) 31 = false →
    bit (s.cfg (R.HWQ_Qnn_CFG q)) 31 = false → bit v 31 = true → enableOk s q (merge (s.rd (R.HWQ_Qnn_CFG q)) v 0x80FF001F#32) = true →
    Ends (.queueCfgWrite m q v) s (fun t => t.queue q = { s.queue q with bell := false, reading := false, prod := s.rd (R.HWQ_Qnn_CONS q) } ∧
      t.cfg (R.HWQ_Qnn_CFG q) = v &&& 0x80FF001F#32 ∧ ∀ q' : Nat, q' ≠ q → t.queue q' = s.queue q')) ∧
  (∀ (m : Master) (q : Fin 64) (v : Word) (s : State), Writes s m → mayWrite s m (R.HWQ_Qnn_CFG q) = true → bit (s.rd (R.HWQ_Qnn_CFG q)) 31 = false →
    bit v 31 = true → enableOk s q (merge (s.rd (R.HWQ_Qnn_CFG q)) v 0x80FF001F#32) = false →
    Ends (.queueCfgWrite m q v) s (fun t => t.queues = s.queues ∧ t.rd (R.HWQ_Qnn_STAT q) = setBit (s.rd (R.HWQ_Qnn_STAT q)) 1 true ∧
      bit (t.rd (R.HWQ_Qnn_CFG q)) 31 = false ∧ bit (t.cfg (R.HWQ_Qnn_CFG q)) 31 = false)) ∧
  (∀ (m : Master) (k : Fin 2) (v : Word) (s : State), Writes s m → mayWrite s m (R.HWQ_Fk_EVR_CFG k) = true →
    Ends (.evrEnable m k v) s (fun t => t.func k = { s.func k with phase := true, covered := false } ∧ t.rd (R.HWQ_Fk_EVR_PROD k) = 0#32 ∧
      t.cfg (R.HWQ_Fk_EVR_CFG k) = setBit v 31 true &&& 0x80FFFF1F#32)) ∧
  (∀ (m : Master) (k : Fin 2) (v : Word) (s : State), Writes s m → mayWrite s m (R.HWQ_Fk_EVR_CONS k) = true →
    Acts (.evrConsWrite m k v) s m (R.HWQ_Fk_EVR_CONS k) v [] (fun u => evrConsEffect (u.setCfg (R.HWQ_Fk_EVR_CONS k) v) k))

/-- Writes to the collector, the configuration check, the injector and the host CRC units (R366, R375, R377, R380, R382, R394 to R396), and to the
carry and reset commands of the units (R406, R412). The model's readings: unit numbers without an instance and target 7 of an injection (log entries 60 and 109),
a second ARM (108), source 308 (106), a counting window of code 15 (120), the pending CRC units (110), carries asked for twice and the reset of a unit
that waits for a carry (88, 171). -/
def Obligations.IntegrityWrites : Prop :=
  (∀ (m : Master) (s : State), Writes s m → mayWrite s m R.IHM_CFGCRC_CTRL = true → s.col.armed = false →
    Ends (.cfgcrcArm m) s (fun t => t.col.armed = true ∧ t.col.comparing = false ∧ t.col.passArmed = false ∧ t.col.src = s.col.src ∧ t.col.inj = s.col.inj)) ∧
  (∀ (m : Master) (s : State), Writes s m → mayWrite s m R.IHM_CFGCRC_CTRL = true →
    Ends (.cfgcrcDisarm m) s (fun t => t.col.armed = false ∧ t.col.comparing = false ∧ t.col.passArmed = false ∧ t.col.src = s.col.src ∧ t.col.inj = s.col.inj)) ∧
  (∀ (m : Master) (v : Word) (s : State), Writes s m → mayWrite s m R.IHM_CFGCRC_REF = true → s.col.armed = false →
    Ends (.cfgcrcRefWrite m v) s (fun t => t.cfg R.IHM_CFGCRC_REF = v ∧ t.rd R.IHM_CFGCRC_REF = v ∧ t.col.armed = false)) ∧
  (∀ (m : Master) (v : Word) (s : State), Writes s m → mayWrite s m R.IHM_CFGCRC_REF = true → s.col.armed = true →
    Ends (.cfgcrcRefWrite m v) s (fun t => t.cfg R.IHM_CFGCRC_REF = s.cfg R.IHM_CFGCRC_REF ∧ t.rd R.IHM_CFGCRC_REF = s.rd R.IHM_CFGCRC_REF ∧
      t.rd R.IHM_CFGCRC_STAT = setBit (s.rd R.IHM_CFGCRC_STAT) 26 true ∧ t.col = s.col)) ∧
  (∀ (m : Master) (v : Word) (s : State), Writes s m → mayWrite s m R.IHM_PHASE = true →
    Acts (.phaseSet m v) s m R.IHM_PHASE v [] (fun u => setPhase u (bits v 1 0))) ∧
  (∀ (m : Master) (src : Fin 320) (v : Word) (s : State), Writes s m → mayWriteSpace s m Space.FC_SRC = true → src.val ≠ 308 →
    Ends (.fcSrcWrite m src v) s (fun t => t.sp (skey Space.FC_SRC src) = v &&& 0xFFFB3003#32 ∧
      ∀ k : Nat, k ≠ skey Space.FC_SRC src → t.sp k = s.sp k)) ∧
  (∀ (m : Master) (src : BitVec 9) (s : State), Writes s m → mayWrite s m R.IHM_FC_CLEAR = true → src.toNat < 320 → src.toNat ≠ 308 →
    Acts (.fcClearSource m src) s m R.IHM_FC_CLEAR (word (536870912 + src.toNat)) [] (fun u => updateForce (clearOne u src.toNat) 0x1FF)) ∧
  (∀ (m : Master) (s : State), Writes s m → mayWrite s m R.IHM_FC_CLEAR = true →
    Acts (.fcClearAll m) s m R.IHM_FC_CLEAR 0x80000000#32 []
      (fun u => updateForce (forEach ((List.range 320).filter (· ≠ 308)) u clearOne) 0x1FF)) ∧
  (∀ (m : Master) (s : State), Writes s m → mayWrite s m R.IHM_FC_CLEAR = true →
    Acts (.fcClearSelf m) s m R.IHM_FC_CLEAR 0x40000000#32 [] (fun u => updateForce { u with col := { u.col with selfWait := 2 } } 0x1FF)) ∧
  (∀ (m : Master) (q : Fin 4) (s : State), Writes s m → mayWrite s m (R.IHM_HISTq_CTRL q) = true →
    Ends (.histClear m q) s (fun t => t.rd (R.IHM_HISTq_STAT q) = setBits (s.rd (R.IHM_HISTq_STAT q)) 12 8 0 ∧ t.col = s.col)) ∧
  (∀ (m : Master) (v : Word) (s : State), Writes s m → mayWrite s m R.IHM_INJ = true → 1 ≤ bits v 27 24 → bits v 27 24 ≤ 8 →
    Ends (.injGo m v) s (fun t => t.col.inj = some ⟨bits v 27 24, injUnit (bits v 27 24) (bits v 15 0), max 1 (bits v 23 20)⟩)) ∧
  (∀ (m : Master) (v : Word) (s : State), Writes s m → mayWrite s m R.IHM_INJ = true → Ends (.injCancel m v) s (fun t => t.col.inj = none)) ∧
  (∀ (m : Master) (u : Fin 4) (v : Word) (s : State), Writes s m → mayWrite s m (R.IHM_CRCUu_CTRL u) = true →
    Acts (.crcuLoad m u v) s m (R.IHM_CRCUu_CTRL u) (setBit v 31 true) [] (fun x => crcuCtrlEffect x u (setBit v 31 true &&& 0x80000033#32))) ∧
  (∀ (m : Master) (u : Fin 4) (v : Word) (s : State), Writes s m →
    (mayWrite s m (R.IHM_CRCUu_DATA8 u) = true → Acts (.crcuData8 m u v) s m (R.IHM_CRCUu_DATA8 u) v [] (fun x => crcuDataEffect x u 1 (v &&& 0xFF#32))) ∧
    (mayWrite s m (R.IHM_CRCUu_DATA16 u) = true → Acts (.crcuData16 m u v) s m (R.IHM_CRCUu_DATA16 u) v [] (fun x => crcuDataEffect x u 2 (v &&& 0xFFFF#32))) ∧
    (mayWrite s m (R.IHM_CRCUu_DATA32 u) = true → Acts (.crcuData32 m u v) s m (R.IHM_CRCUu_DATA32 u) v [] (fun x => crcuDataEffect x u 4 v))) ∧
  (∀ (m : Master) (v : Word) (x : Nat) (s : State), Writes s m → mayWrite s m R.IHM_CARRY_CMD = true → commandUnit v = some x → carryable s x = true →
    Acts (.carryCmd m v) s m R.IHM_CARRY_CMD (setBit v 31 true) [.health] (fun u => triggerCarry u x 2)) ∧
  (∀ (m : Master) (v : Word) (x : Nat) (s : State), Writes s m → mayWrite s m R.IHM_UNIT_CMD = true → commandUnit v = some x →
    [0, 6, 7].contains (s.metered x).eff = false → carriedNow s x = false →
    Acts (.unitReset m v) s m R.IHM_UNIT_CMD (setBits v 31 28 9) [.store, .queues, .outputs, .compose, .health]
      (fun u => jobsOfUnit (voidHeld (setEff u x 3) x) x false))

/-- Frame boundaries and frame starts (R194, R197, R198, R206, R218, R290): decisions of the boundary before the switch, the frame that starts,
line 0, the gap and the end of a frame of each head. The model's readings: a frame start with no boundary before it advances the frame number (log entry 47), T_f is the
nearest point of the grid (62), heads at the edge of a frame and heads adrift (61, 63), boundaries without a reference head (150), streams and ports of
a head that does not emit (65, 158). -/
def Obligations.FrameEvents : Prop :=
  (∀ (g : Fin 8) (s : State), Runs s → s.released = true → hasBoundary s g = true →
    Gives (.frameBoundary g) s [.force, .queues, .outputs, .compose, .timing, .health]
      (let d := boundaryVerdict s g
       let s1 := decideCommit (raBoundary (keepDecks s g) g d) g d
       let s2 := if (s1.group g).started then s1.setGroup g { s1.group g with frame := (s1.group g).frame + 1, started := false } else s1
       let s3 := rebindLatest (selectBuffers s2 g s.view (if d = 4 then s.movedDescs g else [])) g
       releaseOld (boundaryCarry (rejoin s3 g) g) g)) ∧
  (∀ (g : Fin 8) (s : State), Runs s → s.released = true →
    Gives (.groupFrameStart g) s [.force, .queues, .outputs, .compose]
      (let x : Group := { s.group g with frame := if (s.group g).started then (s.group g).frame + 1 else (s.group g).frame, started := true,
                                         tf := gridTime s g }
       let s1 := showPhase (s.setGroup g x) g (gridTime s g)
       let s2 := forEach (s1.groupHeads g) s1 (fun s h => if startsNow (s.head h) then headStart s g h
         else if headRuns (s.head h) ∧ (s.head h).group.getD g = g ∧ jumpMode s g ∧ ¬ nearGrid s g h then headJump s g h else s)
       forEach (s2.groupHeads g) s2 (fun s h => if headRuns (s.head h) then (if (s.head h).group.getD g = g then wbFrameStart s h x.frame else s)
         else if (s.head h).state = .dark then captureDark s h else s))) ∧
  (∀ (h : Fin 32) (g f : Nat) (s : State), Runs s → s.headGroup h = some g → headRuns (s.head h) = true → (s.head h).scanning = false →
    nextFrame s g h = some f →
    Gives (.headLine0 h) s [.outputs, .compose]
      (let x := s.head h
       let en := bit (s.cfg (R.OWB_Hnn_OUT_EN h)) 0
       let s1 := s.setHead h { x with state := .running, frame := f, line := 0, due := false, scanning := true, first := false, emits := en, inGap := false }
       let s2 := if x.first then s1 else s1.wr (R.OWB_Hnn_FRAME h) (s.rd (R.OWB_Hnn_FRAME h) + 1#32)
       let s3 := dpLine0 (safeLine0 (measureDrift s2 g h) h x.emits) h
       let v := s3.headView h
       signStart (streamsLine0 (portStreams s3 h v) h (encOf v.cfg h) (depthOf v.cfg h) (en && !((s3.safeOf h).active && (s3.safeOf h).mode == 3))
         (frameTime s3 g f (geoOf v.cfg g h).frame)) h)) ∧
  (∀ (h : Fin 32) (g : Nat) (s : State), Runs s → s.headGroup h = some g → headRuns (s.head h) = true → (s.head h).gapDue = true →
    (s.head h).scanning = false → ((s.head h).gapAt ≤ (s.head h).frame ∨ (s.head h).first = true) →
    Gives (.headGapStart h) s [.force, .queues, .outputs, .compose, .timing]
      (let s1 := if (s.head h).req = .dark then goDark s h
         else (headStops s h .gap).setHead h { (headStops s h .gap).head h with divWait := true, req := .running }
       let s2 := searchWhenQuiet (releaseOld s1 g) g
       match s2.groupOf h with
       | some g2 => if g2 = g then s2 else searchWhenQuiet s2 g2
       | none => s2)) ∧
  (∀ (h : Fin 32) (s : State), Runs s → (s.head h).divWait = true →
    Ends (.outputDividerLoad h) s (fun t => t.head h = { s.head h with divWait := false, divZero := s.up } ∧ ∀ k : Nat, k ≠ h → t.head k = s.head k)) ∧
  (∀ (h : Fin 32) (s : State), Runs s → (s.head h).scanning = true → (activeSize (s.headView h) h).2 = (s.head h).line →
    (let s1 := wbEnd (compareMalformed s h) h
     let s2 := s1.setHead h { s1.head h with scanning := false }
     (s2.headGroup h = none → Gives (.headEndOfFrame h) s [.force, .queues, .outputs, .compose] s2) ∧
     (∀ g : Nat, s2.headGroup h = some g → Gives (.headEndOfFrame h) s [.force, .queues, .outputs, .compose]
       (releaseOld (if (s2.head h).gapDue ∧ (s2.head h).req = .dark ∧ (s2.head h).gapAt ≤ (s2.head h).frame then goDark s2 h else s2) g))))

/-- Write-back and captures (R233 to R235, R237): beads that find the store full, beads written as one part of their line, a CAPTURE job taken
and refused. The model's readings: parts of a line (log entry 133), a handle another writer has taken (134), CAPTURE acts at the end of a head's
frame (61). -/
def Obligations.WriteBackEvents : Prop :=
  (∀ (h : Fin 32) (n : Nat) (l : WbLine) (rest : List WbLine) (s : State), Runs s → (s.head h).wbq = l :: rest →
    (s.head h).wb.dropped.contains (l.line.frame, l.line.y) = false →
    Ends (.wbBeadArrival h n true) s (fun t => t.head h = { s.head h with wbq := wbNext l (max 1 n) true rest, wb := { (s.head h).wb with dropped := (l.line.frame, l.line.y) :: (s.head h).wb.dropped } } ∧
      (∀ k : Nat, k ≠ h → t.head k = s.head k) ∧ t.hbm = s.hbm)) ∧
  (∀ (h : Fin 32) (n c : Nat) (l : WbLine) (rest : List WbLine) (s : State), Runs s → (s.head h).wbq = l :: rest → (s.head h).wb.cur = some c →
    l.line.frame = (s.head h).wb.frame → (s.head h).wb.done.contains l.line.y = false →
    Gives (.wbBeadArrival h n false) s [.store, .outputs]
      (wbPart (s.setHead h { s.head h with wbq := wbNext l (max 1 n) false rest }) h c l.line.frame l.line.y (2 * l.got)
        ((l.line.px.drop (2 * l.got)).take (2 * max 1 n)) (decide (l.line.px.length ≤ 2 * (l.got + max 1 n))) (!l.lost))) ∧
  (∀ (q : Fin 64) (j : Job) (s : State), Runs s → s.store.trained = true → s.jobIn q Typ.CAPTURE .act = some j →
    Gives (.capture q) s [.force, .queues, .outputs]
      (let r := captureStart s q (byteAt j.head 16) (le j.head 18 2) (byteAt j.head 17) (le j.head 20 2)
       if r.1 = 0 then r.2.setJob q { j with phase := .running } else completeJob r.2 q r.1)) ∧
  (∀ (q : Fin 64) (j : Job) (s : State), Runs s → s.store.trained = true → s.jobIn q Typ.CAPTURE .act = some j →
    (let h := byteAt j.head 16
     wbCheck s h (le j.head 18 2) (byteAt j.head 17) = 0 → (s.head h).wb.run = false → (s.head h).wb.recheck = false → (s.headGroup h).isSome = true →
     Ends (.capture q) s (fun t => (t.head h).wb = { (s.head h).wb with capture := some ⟨q, le j.head 18 2, byteAt j.head 17, le j.head 20 2, false⟩ } ∧
       (t.queue q).job = some { j with phase := .running } ∧ (∀ k : Nat, k ≠ h → t.head k = s.head k) ∧ t.out = s.out))) ∧
  (∀ (q : Fin 64) (j : Job) (s : State), Runs s → s.store.trained = true → s.jobIn q Typ.CAPTURE .act = some j →
    wbCheck s (byteAt j.head 16) (le j.head 18 2) (byteAt j.head 17) = 1 →
    Gives (.capture q) s [.force, .queues, .outputs] (completeJob s q Code.BAD_HANDLE))

/-- DisplayPort ports and their AUX channels (R226, R229). The model's readings: training and retraining (log entry 64), ports that do not emit (65), a port whose head is in PORT_OFF
(136), faults of lanes (162). -/
def Obligations.DisplayPortEvents : Prop :=
  (∀ (d : Fin 16) (s : State), Runs s → dpEn s d = true →
    Gives (.dpHpdPlug d) s [.outputs] (dpTrain ((s.setDp d { s.dp d with hpd := true }).setFlag (R.OWB_Ddd_EVT d) 0) d)) ∧
  (∀ (d : Fin 16) (s : State), Runs s →
    Ends (.dpHpdUnplug d) s (fun t => t.dp d = { s.dp d with hpd := false, trained := false, rate := 0, lanes := 0 } ∧
      ∀ k : Nat, k ≠ d → t.dp k = s.dp k)) ∧
  (∀ (d : Fin 16) (s : State), Runs s → dpEn s d = true → (s.dp d).trained = true →
    Gives (.dpIrqHpd d true false) s [.outputs] (dpTrain ((s.setFlag (R.OWB_Ddd_EVT d) 0).setFlag (R.OWB_Ddd_EVT d) 1) d) ∧
    Gives (.dpIrqHpd d true true) s [.outputs] (dpLaneFault (dpTrain ((s.setFlag (R.OWB_Ddd_EVT d) 0).setFlag (R.OWB_Ddd_EVT d) 1) d) d)) ∧
  (∀ (d : Fin 16) (lane : Bool) (s : State), Runs s → Ends (.dpIrqHpd d false lane) s (fun t => t.rd (R.OWB_Ddd_EVT d) = setBit (s.rd (R.OWB_Ddd_EVT d)) 0 true ∧
    t.dps = s.dps)) ∧
  (∀ (d : Fin 16) (sink trains : List DpConfig) (c : DpConfig) (s : State), Runs s → dpLink s d = Link.TRAINING →
    (let ok := sink.filter (fun c => decide (c.rate ≤ dpMaxRate s d ∧ c.lanes ≤ dpMaxLanes s d))
     let good := candidates (ok.filter (carries s (dpSrc s d)))
     (good ++ candidates (ok.filter (fun c => !carries s (dpSrc s d) c))).find? trains.contains = some c →
     good.contains c = true →
     Gives (.dpTrainingDone d sink trains) s [.outputs]
       (auxSend (dpUpdate ((dpAnswered s d).setDp d { s.dp d with trained := true, rate := c.rate, lanes := c.lanes }) d) d))) ∧
  (∀ (d : Fin 16) (sink : List DpConfig) (s : State), Runs s → dpLink s d = Link.TRAINING →
    Gives (.dpTrainingDone d sink []) s [.outputs] (auxSend (dpRaise ((dpShow (dpAnswered s d) d Link.FAILED).setFlag (R.OWB_Ddd_EVT d) 2) d) d)) ∧
  (∀ (d : Fin 16) (s : State), Runs s → dpEn s d = true → (s.dp d).hpd = true → dpLink s d = Link.FAILED →
    Gives (.dpTrainingRetry d) s [.outputs] (dpTrain s d)) ∧
  (∀ (d : Fin 16) (x : Nat × Nat × Nat) (s : State), Runs s → (s.dp d).aux = some x →
    Gives (.auxReply d .nack) s [.force, .outputs] (auxEnd s d 1) ∧
    (7 ≤ (s.dp d).defers → Gives (.auxReply d .defer) s [.force, .outputs] (auxEnd s d 2)) ∧
    ((s.dp d).defers < 7 → Gives (.auxReply d .defer) s [.force, .outputs] (auxSend (s.setDp d { s.dp d with defers := (s.dp d).defers + 1 }) d)) ∧
    (∀ data : List Byte, Gives (.auxReply d (.ack data)) s [.force, .outputs]
      (auxEnd (if x.1 % 2 = 0 then forEach (data.take (x.2.1 + 1)).zipIdx s (fun s b => setAuxByte s d b.2 b.1) else s) d 0)) ∧
    Ends (.auxTimeout d) s (fun t => t.dp d = { s.dp d with aux := none, defers := 0 } ∧ t.rd (R.OWB_Ddd_AUX_STAT d) = 3#32))

/-- Frames received and the receive streams (R248, R249, R259, R261, R273, R276): FEC codewords are counted with the frame, then the table of R249
takes its first row that applies. The model's choices: FEC codewords, a full FIFO, a lost timestamp and the reading of the assembly store come as operands of
ETH_RX_FRAME (log entry 160); frames no stream takes (73), states of streams (74), two paths (75), closed timestamps (188), an uncorrectable word of the
assembly store (157). -/
def Obligations.ReceiveEvents : Prop :=
  (∀ (p : Fin 16) (frame : List Byte) (note : RxNote) (s : State), Runs s → ((s.port p).link = false ∨ (s.port p).resetting = true) →
    Ends (.ethRxFrame p frame note) s (fun t => t = s)) ∧
  (∀ (p : Fin 16) (note : RxNote) (s : State), Runs s → (s.port p).link = true → (s.port p).resetting = false →
    Gives (.ethRxFrame p [] note) s [.store, .outputs, .compose, .receive, .timing] (fecCount s p note)) ∧
  (∀ (p : Fin 16) (note : RxNote) (s : State), note.fecUncorr ≠ 0 → fecCount s p note =
    raiseN (((s.bump (R.NMP_Pnn_FEC_CORR p) note.fecCorr).bump (R.NMP_Pnn_FEC_UNCORR p) note.fecUncorr).setFlag (R.NMP_Pnn_EVT p) 3) (200 + 4 * p)
      note.fecUncorr) ∧
  (∀ (p : Fin 16) (frame : List Byte) (note : RxNote) (s : State), Runs s → (s.port p).link = true → (s.port p).resetting = false → frame ≠ [] →
    note.fifoFull = true →
    Gives (.ethRxFrame p frame note) s [.store, .outputs, .compose, .receive, .timing] (raise ((fecCount s p note).bump (R.NMP_Pnn_RX_OVF p) 1) (201 + 4 * p))) ∧
  (∀ (p : Fin 16) (frame : List Byte) (note : RxNote) (s : State), Runs s → (s.port p).link = true → (s.port p).resetting = false → frame ≠ [] →
    note.fifoFull = false → (9216 < frame.length ∨ crcEth (frame.take (frame.length - 4)) ≠ leNat (frame.drop (frame.length - 4))) →
    Gives (.ethRxFrame p frame note) s [.store, .outputs, .compose, .receive, .timing] ((fecCount s p note).bump (R.NMP_Pnn_RX_BAD p) 1)) ∧
  (∀ (p : Fin 16) (frame : List Byte) (note : RxNote) (s : State), Runs s → (s.port p).link = true → (s.port p).resetting = false → frame ≠ [] →
    note.fifoFull = false → frame.length < 64 → crcEth (frame.take (frame.length - 4)) = leNat (frame.drop (frame.length - 4)) →
    Gives (.ethRxFrame p frame note) s [.store, .outputs, .compose, .receive, .timing] (rxOther (fecCount s p note) p)) ∧
  (∀ (p : Fin 16) (frame : List Byte) (note : RxNote) (s : State), Runs s → (s.port p).link = true → (s.port p).resetting = false →
    note.fifoFull = false → 64 ≤ frame.length → frame.length ≤ 9216 →
    crcEth (frame.take (frame.length - 4)) = leNat (frame.drop (frame.length - 4)) →
    (be frame 12 2 = 0x8100 → be frame 14 2 % 4096 ≠ bits ((fecCount s p note).cfg (R.NMP_Pnn_VLAN p)) 11 0 →
      Gives (.ethRxFrame p frame note) s [.store, .outputs, .compose, .receive, .timing] (rxOther (fecCount s p note) p)) ∧
    (be frame 12 2 = 0x0800 →
      Gives (.ethRxFrame p frame note) s [.store, .outputs, .compose, .receive, .timing]
        (rxIpv4 (fecCount s p note) p frame.length ((frame.take (frame.length - 4)).drop 14) note))) ∧
  (∀ (st : Fin 256) (ts : Word) (f : RxFrame) (s : State), Runs s → getRxFrame s st ts = some f → f.closing = true →
    Gives (.rxFrameClose st ts) s [.store, .compose, .receive] (closeRxFrame s st f false)) ∧
  (∀ (st : Fin 256) (s : State), Runs s →
    Gives (.rxStreamSilence st) s [.store, .compose, .receive] (forEach (s.rxs st).frames s (fun s f => closeRxFrame s st f false))) ∧
  (∀ (st : Fin 256) (b : Bool) (s : State), Runs s → (if b then (s.rxs st).liveB else (s.rxs st).liveA) = true →
    (if b then (s.rxs st).liveA else (s.rxs st).liveB) = true →
    Gives (.rxPathLivenessTimeout st b) s [.store, .compose, .receive]
      (rxRaise (rxStatus (s.setRxs st (if b then { s.rxs st with liveB := false } else { s.rxs st with liveA := false })) st) st))

/-- The egress line, gate lists and PTP of a port, and its link (R263, R264, R266, R267, R269 to R271, R274). The model's choices: messages and states
of PTP are those of IEEE 1588-2019 (log entry 71), frames queued when a link goes and its events (76, 191), a lost timestamp as an operand (160), a
blocked master (159), the offset of UTC as a free value (116). -/
def Obligations.PortEvents : Prop :=
  (∀ (p : Fin 16) (lost : Bool) (s : State), Runs s → (s.port p).link = true → (s.port p).resetting = false → (s.port p).wire = none →
    Gives (.egressLineFree p lost) s [] (match nextClass s p with
      | some (k, x) => startFrame s p k x lost
      | none => s)) ∧
  (∀ (p : Fin 16) (x : GclPend) (s : State), Runs s → (s.port p).pend = some x →
    Ends (.gclSwitch p) s (fun t => t.port p = { s.port p with operEn := x.en, operLen := x.len, operBase := x.base, entry := 0, pend := none } ∧
      ∀ k : Nat, k ≠ p → t.port k = s.port k)) ∧
  (∀ (p : Fin 16) (s : State), Runs s → (s.port p).operLen ≠ 0 →
    Ends (.gclEntryEnd p) s (fun t => t.port p = { s.port p with entry := ((s.port p).entry + 1) % (s.port p).operLen } ∧
      ∀ k : Nat, k ≠ p → t.port k = s.port k)) ∧
  (∀ (p : Fin 16) (s : State), Runs s → ptpMaySend s p = true →
    Gives (.ptpSyncTx p) s [] (ptpSend (setPtp s p { ptpOf s p with syncSeq := ((ptpOf s p).syncSeq + 1) % 65536 }) p true
      (ptpMessage s p 0 0x0200 0 (ptpOf s p).syncSeq 0 (logSync s p) (List.replicate 10 0#8)))) ∧
  (∀ (p : Fin 16) (s : State), Runs s → ptpMaySend s p = true →
    (let prio := s.cfg (R.NMP_Pnn_PTP_PRIO p)
     let utc := beBytes 2 (Config.freeWord s.fresh).toNat
     let quality := [0#8, BitVec.ofNat 8 (bits prio 15 8), BitVec.ofNat 8 (ownClass s), 0xFE#8, 0xFF#8, 0xFF#8, BitVec.ofNat 8 (bits prio 7 0)]
     let body := List.replicate 10 0#8 ++ utc ++ quality ++ clockId s p ++ [0#8, 0#8, 0xA0#8]
     Gives (.ptpAnnounceTx p) s [] (ptpSend (setPtp s.bumpFresh p { ptpOf s p with annSeq := ((ptpOf s p).annSeq + 1) % 65536 }) p false
       (ptpMessage s p 11 0x0008 0 (ptpOf s p).annSeq 5 (logAnnounce s p) body)))) ∧
  (∀ (p : Fin 16) (s : State), Runs s → ((ptpOf s p).state = 8 ∨ (ptpOf s p).state = 9) →
    Gives (.ptpDelayReqTx p) s [] (ptpSend (setPtp s p { ptpOf s p with delaySeq := ((ptpOf s p).delaySeq + 1) % 65536 }) p true
      (ptpMessage s p 1 0 0 (ptpOf s p).delaySeq 1 0x7F (List.replicate 10 0#8)))) ∧
  (∀ (p : Fin 16) (s : State), Runs s → 4 ≤ (ptpOf s p).state → (ptpOf s p).state ≠ 6 → ptpRole s p = 1 →
    Gives (.ptpAnnounceTimeout p) s [.outputs, .timing]
      (ptpEnter (raise (setPtp s p { ptpOf s p with best := none, sync := none, lastSync := none, rateOk := false, offset := none }) (203 + 4 * p)) p 4)) ∧
  (∀ (p : Fin 16) (s : State), Runs s → portOn s p = true → ((s.port p).link = false ∨ (s.port p).resetting = true) →
    Gives (.ethLinkUp p) s [.outputs, .timing] (ptpStart (portState ((s.setPort p { s.port p with link := true, resetting := false }).wr (R.NMP_Pnn_STAT p)
      (word (3221225472 + portMode s p * 134217728))) p 2 2) p)) ∧
  (∀ (p : Fin 16) (s : State), Runs s → (s.port p).link = true → (s.port p).resetting = true →
    Gives (.ethLinkDown p false) s [.outputs, .timing]
      (let s0 := wireCut s p (macRate s p)
       let s1 := (dropQueued (s0.setPort p { s0.port p with link := false, wire := none, wireBits := 0 }) p).wr (R.NMP_Pnn_STAT p) 0#32
       let s2 := s1.wr (R.NMP_Pnn_EVT p) (setBit (satField (s1.rd (R.NMP_Pnn_EVT p)) 31 16 1) 2 true)
       disqualify (ptpStart (raise s2 (200 + 4 * p)) p) p)) ∧
  (∀ (p : Fin 16) (s : State), Runs s → (s.port p).link = true →
    Gives (.ethLinkDown p true) s [.outputs, .timing] (faultAnswered (partFault (linkDown s p) (200 + 4 * p) p) (200 + 4 * p) p)) ∧
  (∀ (p : Fin 16) (s : State), Runs s →
    Gives (.txqWmIntervalEnd p) s [] (setNotice (s.setPort p { s.port p with tc6Max := queueBytes ((s.port p).queue 6) }) (R.NMP_Pnn_WM_TXQ p) (202 + 4 * p)
      (decide (bits (s.cfg (R.NMP_Pnn_TXQ_WM p)) 20 0 < (s.port p).tc6Max))))

/-- References and the loop of the timing unit (R280, R282, R284): edges and windows of a reference, its loss, the states of the loop. The
model's readings: a missing cycle of 10 MHz is 100 ns, and the FRAME phase accumulates (log entry 79), the choice of a reference (78), the gains of the
loop (80), limits of the correction (81). -/
def Obligations.ReferenceEvents : Prop :=
  (∀ (i : Fin 2) (s : State), Runs s → s.trs.tod = none → s.trs.sel ≠ some (16 + i.val) → (refIn s i).last = none →
    (refType s i = 1 ∨ (refType s i = 3 ∧ s.trs.qual.contains (16 + i.val) = false)) →
    Ends (.refinEdge i) s (fun t => t.regs = s.regs ∧ t.trs.qual = s.trs.qual ∧
      refIn t i = ⟨some s.up, s.time, false, if refType s i = 1 then intCentre s.time 1000000000 else (refIn s i).delta⟩)) ∧
  (∀ (i : Fin 2) (l : Nat) (s : State), Runs s → s.trs.tod = none → refType s i = 1 → (refIn s i).last = some l →
    9999 * 1000000000 ≤ 10000 * (s.up - l) → 10000 * (s.up - l) ≤ 10001 * 1000000000 →
    (let s1 := setRefIn s i ⟨some s.up, s.time, true, intCentre s.time 1000000000⟩
     Gives (.refinEdge i) s [.outputs, .compose, .timing] (if s.trs.sel = some (16 + i.val) then loopRun s1 else s1))) ∧
  (∀ (i : Fin 2) (l : Nat) (s : State), Runs s → s.trs.tod = none → refType s i = 1 → (refIn s i).last = some l →
    (10000 * (s.up - l) < 9999 * 1000000000 ∨ 10001 * 1000000000 < 10000 * (s.up - l)) → s.trs.sel ≠ some (16 + i.val) →
    s.trs.qual.contains (16 + i.val) = false →
    Ends (.refinEdge i) s (fun t => refIn t i = ⟨some s.up, s.time, false, intCentre s.time 1000000000⟩ ∧ t.trs.qual = s.trs.qual)) ∧
  (∀ (i : Fin 2) (l : Nat) (s : State), Runs s → s.trs.tod = none → refType s i = 1 → (refIn s i).last = some l →
    (10000 * (s.up - l) < 9999 * 1000000000 ∨ 10001 * 1000000000 < 10000 * (s.up - l)) → s.trs.sel ≠ some (16 + i.val) →
    Gives (.refinEdge i) s [.outputs, .compose, .timing]
      (disqualify (setRefIn s i ⟨some s.up, s.time, false, intCentre s.time 1000000000⟩) (16 + i))) ∧
  (∀ (i : Fin 2) (l num den : Nat) (s : State), Runs s → s.trs.tod = none → refType s i = 3 → (refIn s i).last = some l →
    refPeriod s i = (num, den) → s.trs.sel ≠ some (16 + i.val) → s.trs.qual.contains (16 + i.val) = false →
    Ends (.refinEdge i) s (fun t => t.trs.qual = s.trs.qual ∧ refIn t i = ⟨some s.up, s.time,
      decide (9999 * num ≤ 10000 * ((s.up - l) * den) ∧ 10000 * ((s.up - l) * den) ≤ 10001 * num),
      (refIn s i).delta + intCentre ((s.time - (refIn s i).at_) * den) num⟩)) ∧
  (∀ (i : Fin 2) (n : Nat) (s : State), Runs s → refType s i = 2 → 9999 ≤ n → n ≤ 10001 → s.trs.sel ≠ some (16 + i.val) →
    Ends (.refinWindowEnd i n) s (fun t => refIn t i = { refIn s i with good := true, delta := (refIn s i).delta + 100 * (10000 - (n : Int)) } ∧
      t.trs.qual = s.trs.qual ∧ t.regs = s.regs)) ∧
  (∀ (i : Fin 2) (n : Nat) (s : State), Runs s → refType s i = 2 → (n < 9999 ∨ 10001 < n) → s.trs.qual.contains (16 + i.val) = false →
    s.trs.sel ≠ some (16 + i.val) →
    Ends (.refinWindowEnd i n) s (fun t => (refIn t i).good = false)) ∧
  (∀ (i : Fin 2) (s : State), Runs s → (refType s i = 1 ∨ refType s i = 3) →
    Gives (.refEdgeTimeout i) s [.outputs, .timing] (disqualify (setRefIn s i { refIn s i with last := none, good := false }) (16 + i))) ∧
  (∀ (p : Fin 16) (s : State), Runs s →
    Gives (.ptpSyncTimeout p) s [.outputs, .timing]
      (disqualify (s.setPort p { s.port p with ptp := { (s.port p).ptp with sync := none, offset := none, lastSync := none, rateOk := false } }) p)) ∧
  (∀ (c : Fin 19) (s : State), Runs s → s.trs.qual.contains c.val = false → refReady s c = true →
    Gives (.refQualified c) s [.outputs, .compose, .timing]
      (let s1 : State := { s with trs := { s.trs with qual := c :: s.trs.qual } }
       evalRefs (if c.val = 16 ∨ c.val = 17 then forEach (List.range 8) s1 (fun s g =>
         if alignSrc s.cfg g = c.val - 15 then s.setGroup g { s.group g with refEdges := none } else s) else s1))) ∧
  (∀ s : State, Runs s → s.trs.state = 1 → s.trs.e.natAbs ≤ trsThresh s →
    Ends .trsLockAchieved s (fun t => t.trs.state = 2 ∧ t.trs.sel = s.trs.sel ∧ t.trs.y = s.trs.y)) ∧
  (∀ (c : Nat) (s : State), Runs s → s.trs.sel = some c → s.trs.state = 2 → 8 * trsThresh s < s.trs.e.natAbs →
    Gives .trsPhaseErrorTimeout s [.outputs, .timing] (measureRef (enterTrs s 1) c s.trs.stepNow)) ∧
  (∀ (c : Nat) (s : State), Runs s → bestRef s = some c → s.trs.state = 2 → bit (s.cfg R.TRS_REF_CTRL) 1 = true → s.trs.sel ≠ some c →
    Gives .trsWtrExpiry s [.outputs, .timing] (measureRef (setSel s (some c)) c false)) ∧
  (∀ s : State, Runs s → s.trs.state = 3 → bits (s.cfg R.TRS_HO_CTRL) 31 16 ≠ 0 →
    Ends .holdoverLimitExpiry s (fun t => t.trs.state = 4 ∧ t.trs.lostY = s.trs.y)) ∧
  (∀ s : State, Runs s → bits (s.cfg R.TRS_BLEED) 6 0 ≠ 0 → s.trs.b ≠ 0 →
    Ends .buildoutBleedStep s (fun t => t.trs.b.natAbs + 1 = s.trs.b.natAbs ∧ t.regs = s.regs ∧ t.trs.y = s.trs.y))

/-- Holdover, the temperature, the pixel PLLs, SYNC_IN and the board sync link (R278, R280, R285, R286, R289, R295, R298 to R300). The model's
readings: the fit of the holdover model (log entry 154), the conversion of OSCTEMP (155), the searches of the pixel PLLs (82), when a message of the
board sync link counts as missing (83, 156), the kept error of a grid (152). -/
def Obligations.TimingEvents : Prop :=
  (∀ s : State, Runs s → s.trs.state = 2 →
    Ends .holdoverLearnTick s (fun t => t.trs.learned = s.trs.learned + 10 ∧
      t.trs.recs = (⟨s.time64 / 10000000000, s.up, meanY s, meanTemp s⟩ :: s.trs.recs).take recordsKept)) ∧
  (∀ s : State, Runs s → s.trs.state = 3 →
    Ends .holdoverUpdateTick s (fun t => t.trs.y = max (s.trs.y - 65536) (min (s.trs.y + 65536) (ratRound (holdoverY s))) ∧ t.trs.state = 3)) ∧
  (∀ (vs : List Rat) (x : Int) (s : State), Runs s → tempSrc s = 0 → vs ≠ [] → sampleFaults (bits (s.cfg R.TRS_TEMP_CTRL) 31 16) vs = [] →
    ntcTemp (bits (s.cfg R.TRS_TEMP_CTRL) 31 16) (vs.sum / (vs.length : Rat)) = some x →
    Gives (.tempConversionEnd (.samples vs)) s [.timing] (tempGood s x)) ∧
  (∀ (vs : List Rat) (v : Rat) (s : State), Runs s → tempSrc s = 0 → v ∈ vs → (99 / 100 < v ∨ v < 5 / 1000) →
    Gives (.tempConversionEnd (.samples vs)) s [.timing] (tempFault s (sampleFaults (bits (s.cfg R.TRS_TEMP_CTRL) 31 16) vs)) ∧
    (99 / 100 < v → 2 ∈ sampleFaults (bits (s.cfg R.TRS_TEMP_CTRL) 31 16) vs) ∧ (v < 5 / 1000 → 1 ∈ sampleFaults (bits (s.cfg R.TRS_TEMP_CTRL) 31 16) vs)) ∧
  (∀ (hi lo : Byte) (s : State), Runs s → tempSrc s = 1 →
    (let read := s.emit (.i2cRead (bits (s.cfg R.TRS_TEMP_CTRL) 15 9) 0)
     Gives (.tempConversionEnd (.i2c hi lo)) s [.timing] (tempGood read (signed 16 (hi.toNat * 256 + lo.toNat))) ∧
     Gives (.tempConversionEnd .noAck) s [.timing] (tempFault read [0]))) ∧
  (∀ (g : Fin 8) (s : State), Runs s → (s.pll g).state = 1 → (s.pll g).tried ≠ [] →
    Gives (.pllLockTryEnd g .locked) s [.outputs, .compose, .timing] (pllLocked s g) ∧
    (∀ (r : PllTry) (b : Nat), r ≠ .locked → nextBand (s.pll g).band (decide (r = .upperRail)) (s.pll g).tried = some b →
      Ends (.pllLockTryEnd g r) s (fun t => t.pll g = { s.pll g with band := b, tried := b :: (s.pll g).tried, code := bandSeed s (s.pll g).phys b } ∧
        t.regs = s.regs)) ∧
    (∀ r : PllTry, r ≠ .locked → nextBand (s.pll g).band (decide (r = .upperRail)) (s.pll g).tried = none →
      Gives (.pllLockTryEnd g r) s [.outputs, .compose, .timing] (pllFailed s g))) ∧
  (∀ (g : Fin 8) (s : State), Runs s → (s.pll g).state = 2 →
    Gives (.pllUnlock g) s [.outputs, .compose, .timing] (pllFault (searchWhenQuiet
      (pllGap (unsetGrid (raise (s.setPll g { s.pll g with state := 1, tried := [], onSpare := true }) 270) g) g) g) 270 (s.pll g).phys)) ∧
  (∀ s : State, Runs s → s.trs.syncAt = none → bit (s.cfg R.TRS_SYNC_CTRL) 30 = true →
    Ends .syncInEdge s (fun t => t.rd R.TRS_SYNC_TS_LO = word s.time64 ∧ t.rd R.TRS_SYNC_TS_HI = word (s.time64 / 4294967296) ∧
      t.trs = { s.trs with syncAt := some s.up })) ∧
  (∀ (at_ : Nat) (s : State), Runs s → s.trs.syncAt = some at_ → s.up < at_ + 1000 →
    Ends .syncInEdge s (fun t => t.regs = s.regs ∧ t.trs = { s.trs with syncAt := some s.up })) ∧
  (∀ s : State, Runs s → s.trs.syncAt = none → bit (s.cfg R.TRS_SYNC_CTRL) 30 = false → bit (s.rd R.TRS_SYNC_STAT) 31 = true →
    Ends .syncInEdge s (fun t => (∀ g : Nat, g < 8 → bit (s.cfg R.TRS_SYNC_CTRL) g = true → (t.pll g).zeroAt = s.up ∧
        ∀ h ∈ s.groupHeads g, (t.head h).divZero = s.up) ∧ t.cfg R.TRS_SYNC_CTRL = setBit (s.cfg R.TRS_SYNC_CTRL) 31 false)) ∧
  (∀ s : State, Runs s → bit (s.cfg R.TRS_BSL_CTRL) 31 = false →
    Ends .bslMessageTx s (fun t => t.out = s.out ∧ t.trs = s.trs ∧ bit (t.rd R.TRS_BSL_STAT) 30 = false)) ∧
  (∀ s : State, Runs s → bit ((bslRate s).cfg R.TRS_BSL_CTRL) 31 = true → bit ((bslRate s).rd R.TRS_BSL_STAT) 30 = false →
    ((bslRate s).pll (bits ((bslRate s).cfg R.TRS_BSL_CTRL) 18 16)).state = 2 →
    Ends .bslMessageTx s (fun t => t.out = .bsl (bslMessage (bslRate s)) :: (bslRate s).out ∧ t.trs.bslSeq = ((bslRate s).trs.bslSeq + 1) % 65536)) ∧
  (∀ (msg : List Byte) (s : State), Runs s → s.trs.bslLink = true → s.trs.bslFirst = true →
    Ends (.bslMessageRx msg) s (fun t => t.trs = { s.trs with bslRef := le msg 2 2, bslSkip := 0, bslFirst := false } ∧ t.regs = s.regs)) ∧
  (∀ (msg : List Byte) (s : State), Runs s → s.trs.bslLink = true → s.trs.bslFirst = false →
    (msg.length ≠ 52 ∨ crc32c (slice msg 1 47) ≠ le msg 48 4) →
    Gives (.bslMessageRx msg) s [.outputs, .compose, .timing] (bslErrors s 1)) ∧
  (∀ s : State, Runs s → Ends .bslLinkAlign s (fun t => t.trs = { s.trs with bslLink := true, bslFirst := true } ∧ bit (t.rd R.TRS_BSL_STAT) 31 = true)) ∧
  (∀ s : State, Runs s → Ends .bslLinkLost s (fun t => t.trs = { s.trs with bslLink := false, bslFirst := false } ∧ bit (t.rd R.TRS_BSL_STAT) 31 = false)) ∧
  (∀ s : State, Runs s → (s.trs.bslLink = true ∨ s.trs.qual.contains 18 = true) → Gives .bslMessageMissing s [.outputs, .timing] (bslErrors s 1)) ∧
  (∀ (m : Master) (s : State), s.powered = true → s.mgmt = true → s.reaches m = true → s.col.inj = none →
    Ends (.timeLoRead m) s (fun t => t.out = .read m (word s.time64) :: s.out ∧ (t.master m).timeHi = word (s.time64 / 4294967296) ∧ t.regs = s.regs))

/-- Reads and writes of registers by their masters (R310, R346, R347, R350 to R357): a read is answered from the mirror, a write is stored in the
mirror and enters the queue of its master, what takes effect, and what is refused. `findRow` is the register map, `singleReg` and `plainReg`
are the registers with no rule of a deck, a queue or a mask. The model's readings: the mirror shows a write at its acceptance, its unit
has it from its effect (log entry 13), what enters the queue (14), Memory Space Enable (190), a read of more than two words is an Unsupported Request of
R310 (167). R310 stands in spec/12_work_queues.md. -/
def Obligations.RegisterAccess : Prop :=
  (∀ (m : Master) (off : BitVec 24) (r : RegRow) (s : State), s.powered = true → s.mgmt = true → s.reaches m = true → s.col.inj = none → off.toNat % 4 = 0 →
    findRow off.toNat = some r → off.toNat ≠ R.GLB_IDX_DATA → off.toNat ≠ R.TRS_TIME_LO →
    Ends (.rcRegisterRead m off 1 .good) s (fun t => t.out = .read m (readWord_ s m r off.toNat) :: s.out ∧
      (s.priv m = true → r.rc ≠ 0#32 → t.rd off.toNat = s.rd off.toNat &&& ~~~(r.rc &&& readWord_ s m r off.toNat)) ∧
      ((s.priv m = false ∨ r.rc = 0#32) → t.regs = s.regs) ∧ t.unit = s.unit ∧ t.spaces = s.spaces)) ∧
  (∀ (a : BitVec 22) (r : RegRow) (s : State), s.powered = true → s.mgmt = true → s.col.inj = none →
    findRow (4 * a.toNat) = some r → 4 * a.toNat ≠ R.GLB_IDX_DATA → 4 * a.toNat ≠ R.TRS_TIME_LO →
    Ends (.lmpReadCycle a false .good) s (fun t => t.out = .read .lmp (readWord_ s .lmp r (4 * a.toNat)) :: s.out ∧
      (r.rc ≠ 0#32 → t.rd (4 * a.toNat) = s.rd (4 * a.toNat) &&& ~~~(r.rc &&& readWord_ s .lmp r (4 * a.toNat))) ∧ (r.rc = 0#32 → t.regs = s.regs) ∧ t.unit = s.unit)) ∧
  (∀ (k : Fin 2) (off : BitVec 24) (dws : Nat) (s : State), s.powered = true → s.mgmt = true → (s.func k).cfg.memory = true → 2 < dws →
    Gives (.rcRegisterRead (if k = 0 then .pf0 else .pf1) off dws .good) s [.masters]
      ((raise (s.setFunc k { s.func k with cfg := { (s.func k).cfg with aer := setBit (s.func k).cfg.aer 20 true } }) 288).emit
        (.unsupported (if k = 0 then .pf0 else .pf1)))) ∧
  (∀ (m : Master) (off : BitVec 24) (v : Word) (s : State), Runs s → s.ldr.state = .released → s.reaches m = true → off.toNat % 4 = 0 →
    (s.master m).wq.length < 64 → plainReg off.toNat = true → mayWrite s m off.toNat = true →
    Ends (.registerWrite m off 15#4 v) s (fun t => t.rd off.toNat = merge (s.rd off.toNat) v (rwBits off.toNat) ∧
      (∀ o, o ≠ off.toNat → t.rd o = s.rd o) ∧ t.unit = s.unit ∧ t.out = s.out ∧
      t.master m = { s.master m with wq := (s.master m).wq ++ [⟨false, off.toNat, unitBits off.toNat v, s.priv m⟩] })) ∧
  (∀ (a : BitVec 22) (v : Word) (s : State), Runs s → s.ldr.state = .released →
    (s.master .lmp).wq.length < 64 → plainReg (4 * a.toNat) = true → mayWrite s .lmp (4 * a.toNat) = true →
    Ends (.lmpWriteCycle a 15#4 v false) s (fun t => t.rd (4 * a.toNat) = merge (s.rd (4 * a.toNat)) v (rwBits (4 * a.toNat)) ∧
      (∀ o, o ≠ 4 * a.toNat → t.rd o = s.rd o) ∧ t.unit = s.unit ∧ t.out = s.out ∧
      (t.master .lmp) = { (s.master .lmp) with wq := (s.master .lmp).wq ++ [⟨false, 4 * a.toNat, unitBits (4 * a.toNat) v, true⟩] })) ∧
  (∀ (m : Master) (k : Fin 4) (v : Word) (s : State), Runs s → s.ldr.state = .released → s.reaches m = true → (s.master m).wq.length < 64 →
    Ends (.wmRegisterWrite m k v) s (fun t =>
      (∀ i, i < 16 → bit (t.rd (R.GLB_FLAGSn k)) i = if bit v (i + 16) then bit v i else bit (s.rd (R.GLB_FLAGSn k)) i) ∧
      (∀ i, 16 ≤ i → i < 32 → bit (t.rd (R.GLB_FLAGSn k)) i = bit (s.rd (R.GLB_FLAGSn k)) i) ∧
      (∀ o, o ≠ R.GLB_FLAGSn k → t.rd o = s.rd o) ∧ t.unit = s.unit ∧ t.out = s.out)) ∧
  (∀ (m : Master) (w : QWrite) (rest : List QWrite) (s : State), Runs s → (s.master m).wq = w :: rest →
    Gives (.writeTakeEffect m) s Part.device (applyWrite (freeCrcs s) (s.bumpFresh.setMaster m
      { s.master m with wq := rest, done := (s.master m).done + 1#16, ahead := (s.master m).ahead - 1 }) m w))

/-- The indirect window of a master (R359 to R363): selection and address, the prefetch, and reads and writes of the word it points to. The
model's readings: a decked word enters the pending deck when its write takes effect (log entry 38), flags and the prefetch (19, 20). -/
def Obligations.WindowAccess : Prop :=
  (∀ (m : Master) (v : Word) (s : State), Runs s → s.ldr.state = .released → s.reaches m = true → (s.master m).wq.length < 64 →
    Ends (.idxSelWrite m v) s (fun t => (t.master m).sel = v &&& 0x7F#32 ∧ (t.master m).addr = (s.master m).addr ∧
      (t.master m).ready = false ∧ (t.master m).miss = false ∧ (t.master m).range = false ∧ (t.master m).badSpace = false ∧
      (t.master m).denied = false ∧ t.regs = s.regs ∧ t.spaces = s.spaces ∧ (∀ n, n ≠ m → t.master n = s.master n))) ∧
  (∀ (m : Master) (v : Word) (s : State), Runs s → s.ldr.state = .released → s.reaches m = true → (s.master m).wq.length < 64 →
    Ends (.idxAddrWrite m v) s (fun t => (t.master m).addr = v &&& 0xFFFFFF#32 ∧ (t.master m).sel = (s.master m).sel ∧
      (t.master m).ready = false ∧ (t.master m).miss = false ∧ (t.master m).range = false ∧ (t.master m).badSpace = false ∧
      (t.master m).denied = false ∧ t.regs = s.regs ∧ t.spaces = s.spaces ∧ (∀ n, n ≠ m → t.master n = s.master n))) ∧
  (∀ (m : Master) (s : State), Runs s → (s.master m).ready = false → (s.master m).ahead = 0 → s.col.inj = none → s.col.bad = [] →
    (let code := bits (s.master m).sel 6 0
     let a := bits (s.master m).addr 23 0
     fetchFails s code a (fetchesLive code (s.master m).fetchLive) = false →
     Ends (.idxPrefetchDone m .good) s (fun t => (t.master m).ready = true ∧ (t.master m).addr = (s.master m).addr ∧
       (windowFlags s m false = (false, false, false) → (t.master m).buf = spaceWord s code a (s.master m).fetchLive) ∧
       (windowFlags s m false ≠ (false, false, false) → (t.master m).buf = 0#32) ∧ t.regs = s.regs ∧ t.spaces = s.spaces))) ∧
  (∀ (m : Master) (s : State), Runs s → (s.master m).ready = false → (s.master m).ahead = 0 → windowFlags s m false = (false, false, false) →
    (let code := bits (s.master m).sel 6 0
     let a := bits (s.master m).addr 23 0
     let live := fetchesLive code (s.master m).fetchLive
     fetchFails s code a live = true →
     Gives (.idxPrefetchDone m .good) s [.masters, .force, .queues, .outputs, .compose]
       ((fetchParity (fetchInject (fetchUpset s.bumpFresh code a live .ue) code a) code a).setMaster m
         { s.master m with ready := true, buf := Config.freeWord s.fresh }))) ∧
  (∀ (m : Master) (s : State), s.powered = true → s.mgmt = true → s.reaches m = true → s.col.inj = none → (s.master m).ready = true →
    windowFlags s m false = (false, false, false) →
    Ends (.idxDataRead m) s (fun t => t.out = .read m (s.master m).buf :: s.out ∧ (t.master m).last = (s.master m).buf ∧
      (t.master m).addr = word (((s.master m).addr.toNat + 1) % 16777216) ∧ (t.master m).ready = false ∧ t.regs = s.regs ∧ t.spaces = s.spaces)) ∧
  (∀ (m : Master) (s : State), s.powered = true → s.mgmt = true → s.reaches m = true → s.col.inj = none → (s.master m).ready = false →
    Ends (.idxDataRead m) s (fun t => t.out = .read m (s.master m).last :: s.out ∧ t.master m = { s.master m with miss := true } ∧
      t.regs = s.regs ∧ t.spaces = s.spaces)) ∧
  (∀ (m : Master) (p : SpaceRow) (v : Word) (s : State), Runs s → s.ldr.state = .released → s.reaches m = true → (s.master m).wq.length < 64 →
    findSpace (bits (s.master m).sel 6 0) = some p → bits (s.master m).addr 23 0 < p.words → p.readOnly = false →
    wordReserved p.code (bits (s.master m).addr 23 0) = false → mayWriteSpace s m p.code = true →
    (p.decked = true → committing s (writerOf s m) (wordGroups s (s.master m).wq p.code (bits (s.master m).addr 23 0)) = none) →
    Ends (.idxDataWrite m v) s (fun t =>
      (t.master m).addr = word (((s.master m).addr.toNat + 1) % 16777216) ∧ (t.master m).ready = false ∧
      (t.master m).wq = (s.master m).wq ++ [⟨true, skey p.code (bits (s.master m).addr 23 0), v, s.priv m⟩] ∧
      t.spaces = s.spaces ∧ t.regs = s.regs ∧ t.live = s.live ∧ t.out = s.out)) ∧
  (∀ (m : Master) (w : QWrite) (rest : List QWrite) (p : SpaceRow) (s : State), Runs s → (s.master m).wq = w :: rest → w.indirect = true →
    findSpace (w.at_ / 16777216) = some p → p.decked = true → wordReserved (w.at_ / 16777216) (w.at_ % 16777216) = false →
    Ends (.writeTakeEffect m) s (fun t => t.sp (skey (w.at_ / 16777216) (w.at_ % 16777216)) = w.v &&& deckMask (w.at_ / 16777216) (w.at_ % 16777216) ∧
      (∀ k, k ≠ skey (w.at_ / 16777216) (w.at_ % 16777216) → t.sp k = s.sp k) ∧ t.live = s.live ∧ t.unit = s.unit ∧
      (t.master m).wq = rest))

/-- Accesses that are refused (R45, R347, R350, R351, R353, R354, R360): a location with no register answers a bus error, a write before release is
discarded and counted, a write without the privilege changes nothing but the counts, and a full write queue takes no more. A write through the window
to no space, beyond a space or without the privilege sets its flag, changes no word and moves the address on. The model's readings: a full queue
changes nothing (log entry 15), an early write only counts (17), a write to a register with no writable bit (18), flags of the window (19), partial
writes over PCIe (22), a write on the LMP before release (12), a function with Memory Space Enable clear (190). -/
def Obligations.RefusedAccess : Prop :=
  (∀ (k : Fin 2) (off : BitVec 24) (s : State), s.powered = true → s.mgmt = true → (s.func k).cfg.memory = true → off.toNat % 4 = 0 →
    findRow off.toNat = none →
    (let m : Master := if k = 0 then .pf0 else .pf1
     let s1 := s.setMaster m { s.master m with berr := setBits (setBit (s.master m).berr 31 true) 23 0 off.toNat }
     Gives (.rcRegisterRead m off 1 .good) s [.masters]
       (((raise (s1.setFunc k { s.func k with cfg := { (s.func k).cfg with aer := setBit (s.func k).cfg.aer 20 true } }) 288).emit
         (.busError m)).emit (.read m 0#32)))) ∧
  (∀ (a : BitVec 22) (s : State), s.powered = true → s.mgmt = true → findRow (4 * a.toNat) = none →
    Ends (.lmpReadCycle a false .good) s (fun t => t.out = .read .lmp 0#32 :: .busError .lmp :: s.out ∧
      bit (t.rd R.HWQ_LMP_ERR) 0 = true ∧ bits (t.master .lmp).berr 23 0 = 4 * a.toNat ∧ (∀ o, o ≠ R.HWQ_LMP_ERR → t.rd o = s.rd o))) ∧
  (∀ (a : BitVec 22) (s : State), s.powered = true → s.mgmt = true →
    Ends (.lmpReadCycle a true .good) s (fun t => t.out = .busError .lmp :: s.out ∧ bit (t.rd R.HWQ_LMP_ERR) 2 = true ∧
      (∀ o, o ≠ R.HWQ_LMP_ERR → t.rd o = s.rd o) ∧ t.unit = s.unit)) ∧
  (∀ (a : BitVec 22) (be : BitVec 4) (v : Word) (s : State), Runs s → s.mgmt = true → be ≠ 15#4 → s.ldr.state = .released →
    Ends (.lmpWriteCycle a be v false) s (fun t => t.out = .busError .lmp :: s.out ∧ bit (t.rd R.HWQ_LMP_ERR) 1 = true ∧
      (∀ o, o ≠ R.HWQ_LMP_ERR → t.rd o = s.rd o) ∧ t.unit = s.unit ∧ (t.master .lmp).wq = (s.master .lmp).wq)) ∧
  (∀ (m : Master) (off : BitVec 24) (v : Word) (s : State), Runs s → s.reaches m = true → off.toNat % 4 = 0 → 64 ≤ (s.master m).wq.length →
    exec (.registerWrite m off 15#4 v) s = .next s) ∧
  (∀ (m : Master) (off : BitVec 24) (be : BitVec 4) (v : Word) (s : State), Runs s → s.reaches m = true → off.toNat % 4 = 0 → (s.master m).wq.length < 64 →
    s.ldr.state ≠ .released → s.ldr.state ≠ .waitHost → s.ldr.state ≠ .noImage → s.ldr.state ≠ .held →
    Gives (.registerWrite m off be v) s [.masters] (noteEarly s)) ∧
  (∀ (m : Master) (off : BitVec 24) (be : BitVec 4) (v : Word) (s : State), m ≠ .lmp → Runs s → s.mgmt = true → s.reaches m = true → s.ldr.state = .released → be ≠ 15#4 →
    Gives (.registerWrite m off be v) s [.masters] (raise s 288)) ∧
  (∀ (m : Master) (off : BitVec 24) (r : RegRow) (v : Word) (s : State), Runs s → s.ldr.state = .released → s.reaches m = true → off.toNat % 4 = 0 →
    (s.master m).wq.length < 64 → findRow off.toNat = some r → r.priv = .priv → s.priv m = false → (r.rw ||| r.wo) ≠ 0#32 →
    perMaster off.toNat = false → ownerOk s off.toNat (writerOf s m) = true →
    Gives (.registerWrite m off 15#4 v) s [.masters] (denyPriv s m false (word off.toNat))) ∧
  (∀ (m : Master) (off : BitVec 24) (r : RegRow) (v : Word) (s : State), Runs s → s.ldr.state = .released → s.reaches m = true → off.toNat % 4 = 0 →
    (s.master m).wq.length < 64 → findRow off.toNat = some r → (r.rw ||| r.wo) = 0#32 → perMaster off.toNat = false →
    ownerOk s off.toNat (writerOf s m) = true →
    exec (.registerWrite m off 15#4 v) s = .next s) ∧
  (∀ (m : Master) (off : BitVec 24) (r : RegRow) (v : Word) (s : State), Runs s → s.ldr.state = .released → s.reaches m = true → off.toNat % 4 = 0 →
    (s.master m).wq.length < 64 → findRow off.toNat = some r → perMaster off.toNat = false → ownerOk s off.toNat (writerOf s m) = false →
    Gives (.registerWrite m off 15#4 v) s [.masters] (denyOwner s)) ∧
  (∀ (m : Master) (v : Word) (s : State), Runs s → s.ldr.state = .released → s.reaches m = true → (s.master m).wq.length < 64 →
    findSpace (bits (s.master m).sel 6 0) = none →
    Ends (.idxDataWrite m v) s (fun t => (t.master m).badSpace = true ∧ (t.master m).addr = word (((s.master m).addr.toNat + 1) % 16777216) ∧
      t.spaces = s.spaces ∧ t.regs = s.regs ∧ t.out = s.out)) ∧
  (∀ (m : Master) (p : SpaceRow) (v : Word) (s : State), Runs s → s.ldr.state = .released → s.reaches m = true → (s.master m).wq.length < 64 →
    findSpace (bits (s.master m).sel 6 0) = some p → p.words ≤ bits (s.master m).addr 23 0 →
    Ends (.idxDataWrite m v) s (fun t => (t.master m).range = true ∧ (t.master m).addr = word (((s.master m).addr.toNat + 1) % 16777216) ∧
      t.spaces = s.spaces ∧ t.regs = s.regs ∧ t.out = s.out)) ∧
  (∀ (m : Master) (p : SpaceRow) (v : Word) (s : State), Runs s → s.ldr.state = .released → s.reaches m = true → (s.master m).wq.length < 64 →
    findSpace (bits (s.master m).sel 6 0) = some p → bits (s.master m).addr 23 0 < p.words → p.readOnly = false →
    wordReserved p.code (bits (s.master m).addr 23 0) = false → p.writeOpen = false → s.priv m = false →
    Gives (.idxDataWrite m v) s [.masters]
      (advance (pushWrite (denyPriv s m false (word (2147483648 + bits (s.master m).sel 6 0 * 16777216 + bits (s.master m).addr 23 0))) m
        ⟨false, R.GLB_IDX_DATA, v, false⟩) m false false true)) ∧
  (∀ (k : Fin 2) (off : BitVec 24) (be : BitVec 4) (v : Word) (s : State), Runs s → (s.func k).cfg.memory = false →
    Gives (.registerWrite (if k = 0 then .pf0 else .pf1) off be v) s [.masters]
      (raise (s.setFunc k { s.func k with cfg := { (s.func k).cfg with aer := setBit (s.func k).cfg.aer 20 true } }) 288))

/-- The fault collector and the tallies (R373, R376, R377, R384, R385, R391, R414): a raise, the end of a counting window, a comparison, and the collector's
own checks. The model's choices: the numbers of the collector's words and one raise of 308 for each newly failing word (log entry 107), counting
windows (120), when a region is compared and what an error does there (121, 166), source 308 (106). -/
def Obligations.CollectorEvents : Prop :=
  (∀ (src : Fin 320) (s : State), Runs s → sourceReserved src = false → historyOf src = none → Gives (.sourceRaise src) s [] (raise s src)) ∧
  (∀ (s : State), Runs s → Gives (.sourceRaise 306) s []
    (raise (history s.bumpFresh.bumpFresh 3 (Config.freeWord s.fresh) (Config.freeWord (s.fresh + 1))) 306)) ∧
  (∀ (src : Fin 320) (s : State), Runs s → (s.src src).win = true → s.col.bad.contains (1024 + src.val) = false →
    Ends (.countWindowEnd src) s (fun t => t.src src = { s.src src with win := false, count := 0 } ∧ (∀ k, k ≠ src.val → t.src k = s.src k) ∧
      t.regs = s.regs)) ∧
  (∀ (r : Fin 512) (h : Nat) (s : State), Runs s →
    (List.range 32).find? (fun h => (regionOf (s.headView h).lv r.val).en && (regionOf (s.headView h).lv r.val).head == h) = some h →
    regionMalformed (s.headView h) r (regionOf (s.headView h).lv r) = false → (s.sign r).done = false →
    (s.sign r).rows = (regionOf (s.headView h).lv r).h →
    Gives (.tallyCompare r []) s [.compose]
      (compareRegion s (s.headView h) r (regionOf (s.headView h).lv r) false ((s.sign r).crc ^^^ 0xFFFFFFFF))) ∧
  (∀ (w : Nat) (s : State), Runs s → s.col.bad.contains w = false → s.col.selfWait = 0 →
    Gives (.collectorSweepEnd (some w)) s []
      (selfFault (({ s with col := { s.col with bad := w :: s.col.bad } }).wrBits R.IHM_FC_SELF 23 12 w) 0)) ∧
  (∀ s : State, Runs s → s.col.selfWait = 2 → s.col.bad = [] →
    Gives (.collectorSweepEnd none) s [] { s with col := { s.col with selfWait := 1 } }) ∧
  (∀ s : State, Runs s → s.col.selfWait = 1 → s.col.bad = [] →
    Gives (.collectorSweepEnd none) s [] (updateForce (clearSource { s with col := { s.col with selfWait := 0 } } 308) 0x1FF)) ∧
  (∀ s : State, Runs s → s.col.selfWait = 1 → s.col.bad ≠ [] →
    Ends (.collectorSweepEnd none) s (fun t => t.rd R.IHM_FC_SELF = setBit (s.rd R.IHM_FC_SELF) 3 true ∧ t.src 308 = s.src 308 ∧ t.col.selfWait = 0)) ∧
  (∀ s : State, Runs s → Gives .collectorCopyDisagree s []
    (raise (s.wr R.IHM_FC_SELF (satField (setBit (s.rd R.IHM_FC_SELF) 1 true) 31 24 1)) 308)) ∧
  (∀ (src : Fin 320) (s : State), Runs s → s.mgmt = true → mismatch s src = some true → Gives (.stateMismatchTimeout src) s [] (raise s src))

/-- Wear meters and self-tests (R401, R405): the end of a window of a unit in service, the condition it leads to, and what a test found. The model's readings: BASE of a
metered unit is any value (log entry 117), a replacement at start-up (88). -/
def Obligations.MeterEvents : Prop :=
  (∀ (u : Fin 570) (p r n : Nat) (s : State), Runs s → s.mgmt = true → inService s u = true → 100000 ≤ n →
    (s.metered u).cond = 0 → (s.metered u).overs < 15 → driftOf u (ratioOf p r) < warnDrift s →
    Ends (.meterWindowEnd u p r n) s (fun t => t.metered u = { s.metered u with
        period := min 65535 p, periodMax := max (s.metered u).periodMax (min 65535 p), ratio := ratioOf p r,
        drift := driftOf u (ratioOf p r),
        overs := if carryDrift s ≤ driftOf u (ratioOf p r) then (s.metered u).overs + 1 else 0,
        quiet := (s.metered u).quiet + 1, windows := min 65535 ((s.metered u).windows + 1) } ∧
      (∀ v, v ≠ u.val → t.metered v = s.metered v) ∧ t.regs = s.regs ∧ t.out = s.out)) ∧
  (∀ (u : Fin 570) (p r n : Nat) (s : State), Runs s → s.mgmt = true → inService s u = true → 100000 ≤ n →
    (s.metered u).cond = 0 → (s.metered u).overs < 15 → warnDrift s ≤ driftOf u (ratioOf p r) →
    Ends (.meterWindowEnd u p r n) s (fun t => (t.metered u).cond = 1 ∧ (t.metered u).quiet = 0 ∧
      (t.metered u).windows = min 65535 ((s.metered u).windows + 1) ∧ (∀ v, v ≠ u.val → t.metered v = s.metered v))) ∧
  (∀ (u : Fin 570) (p r n : Nat) (s : State), Runs s → (inService s u = false ∨ n < 100000) → exec (.meterWindowEnd u p r n) s = .next s) ∧
  (∀ (u : Fin 570) (p r : Nat) (s : State), Runs s → s.mgmt = true → [3, 4, 6, 7].contains (s.metered u).eff = false →
    (s.metered u).cond = 0 → (s.metered u).overs < 15 → warnDrift s ≤ driftOf u (ratioOf p r) →
    Ends (.selfTestRun u true p r) s (fun t => (t.metered u).cond = 1 ∧ (∀ v, v ≠ u.val → t.metered v = s.metered v))) ∧
  (∀ (u : Fin 570) (p r : Nat) (s : State), Runs s → s.mgmt = true → [3, 4, 6, 7].contains (s.metered u).eff = false →
    Gives (.selfTestRun u false p r) s [.store, .force, .queues, .outputs, .compose, .health]
      (jobsOfUnit (failUnit s u) u (decide (s.col.faults.length < (failUnit s u).col.faults.length) && secondFault (failUnit s u)))) ∧
  (∀ (u : Fin 570) (s : State), Runs s → s.mgmt = true → s.released = false → (s.metered u).eff = 5 → logicalOf (raise (setReqEff s u 7) 313) u = none →
    unitClass u ≠ 3 →
    Gives (.startupSelfTestDone [u] []) s [.health] (checkExhausted (raise (setReqEff s u 7) 313) u))

/-- Faults of units and the carry to a spare (R404, R406 to R408, R411 to R413): a unit fails, the spare is ready, the units change places, and the old one is drained,
reset and gated. The model's readings: which jobs a rod serves (log entry 89), VOID beads of a faulty tile as an operand (163), when a carry shows (87), faults of
parts (162), spares in use (135), jobs that run again (90, 185). -/
def Obligations.CarryEvents : Prop :=
  (∀ (u : Fin 570) (voids : Bool) (s : State), Runs s → s.mgmt = true → (s.metered u).eff ≠ 6 → (s.metered u).eff ≠ 7 →
    (unitClass u ≠ 1 ∨ voids = false ∨ logicalOf s u = none ∨ (s.metered u).eff = 0 ∨ (s.metered u).eff = 3) →
    Gives (.unitFault u voids) s [.store, .force, .queues, .outputs, .compose, .health]
      (jobsOfUnit (failUnit s u) u (decide (s.col.faults.length < (failUnit s u).col.faults.length) && secondFault (failUnit s u)))) ∧
  (∀ (u : Fin 570) (s : State), Runs s → s.mgmt = true → unitClass u = 1 → logicalOf s u ≠ none →
    [0, 3, 6, 7].contains (s.metered u).eff = false →
    Gives (.unitFault u true) s [.store, .force, .queues, .outputs, .compose, .health]
      (let t := failUnit (raise s 72) u
       jobsOfUnit t u (decide (s.col.faults.length < t.col.faults.length) && secondFault t))) ∧
  (∀ (c : UnitClass) (v : Nat) (x : UnitCarry) (s : State), Runs s → (UnitClass.code c) ≠ 0 → s.carry (UnitClass.code c) = some x → x.ready = false → x.reason ≠ 1 →
    x.spare = some v →
    Gives (.carrySpareReady c) s [.health] (switchIdle none ((setEff s v 1).setCarry (UnitClass.code c) (some { x with ready := true })) (UnitClass.code c))) ∧
  (∀ (c : UnitClass) (x : UnitCarry) (s : State), Runs s → (UnitClass.code c) ≠ 0 → s.carry (UnitClass.code c) = some x → x.reason ≠ 1 → x.switched = true →
    stillServes s x.unit = false →
    Gives (.carryOldUnitDone c) s [.force, .queues, .outputs, .compose, .health]
      (nextCarry 16 (endCarry (jobsOfUnit (carriedOut s x.unit) x.unit false) (UnitClass.code c) x) (UnitClass.code c))) ∧
  (∀ (x : UnitCarry) (v : Nat) (s : State), Runs s → s.carry 0 = some x → x.switched = false → x.spare = some v →
    Gives .rodSpareJoined s [.health] ((setReqEff (mapLogical s 0 x.logical v) v 1).setCarry 0 (some { x with ready := true, switched := true, group := none, frame := 0 }))) ∧
  (∀ (x : UnitCarry) (s : State), Runs s → s.carry 0 = some x → x.switched = true → x.reason ≠ 1 →
    Gives .rodCarryEnd s [.force, .queues, .outputs, .compose, .health]
      (nextCarry 16 (endCarry (jobsOfUnit (carriedOut s x.unit) x.unit false) 0 x) 0)) ∧
  (∀ (u : Fin 570) (s : State), Runs s → (s.metered u).eff = 3 →
    Ends (.drainEnd u) s (fun t => t.metered u = { s.metered u with eff := 4 } ∧ (∀ v, v ≠ u.val → t.metered v = s.metered v) ∧ t.regs = s.regs)) ∧
  (∀ (u : Fin 570) (s : State), Runs s → (s.metered u).eff = 4 →
    Ends (.unitResetDone u) s (fun t => (t.metered u).eff = (if (logicalOf s u).isSome then 1 else 5) ∧ (t.metered u).req = (t.metered u).eff ∧
      (∀ v, v ≠ u.val → t.metered v = s.metered v) ∧ t.regs = s.regs)) ∧
  (∀ (u : Fin 570) (s : State), Runs s → s.mgmt = true → bit (s.cfg R.IHM_PG_CTRL) 0 = true → logicalOf s u = none → unitClass u ≠ 3 → freeSpare s u = true →
    Ends (.unitPowerGate u) s (fun t => t.metered u = { s.metered u with req := 0, eff := 0 } ∧ (∀ v, v ≠ u.val → t.metered v = s.metered v))) ∧
  (∀ (u : Fin 570) (s : State), Runs s → bit (s.cfg R.IHM_PG_CTRL) 0 = false → exec (.unitPowerGate u) s = .next s)

/-- Supply voltage and temperature (R415, R417, R419, R420): the target an update asks for, what a readback says, the level a reading of the sensors
gives, and what a shutdown leaves. The model's readings: sensors far from the median (log entry 112), SURPLUS of W3 in THROTTLE (111), the layer that
OFFLINE_COMPOSE finishes (151), which link state a port in electrical idle shows (65), the state at a shutdown (11), a T_die that
IHM_TEMP_DIE has no code for (198). -/
def Obligations.SupplyEvents : Prop :=
  (∀ (r : Option Nat) (w : Nat) (s : State), Runs s → s.mgmt = true → s.released = true → bit (s.cfg R.IHM_AVS_CTRL) 31 = true → s.health.busErr = false →
    (∀ u, u < 570 → effState s u = 2 → (s.metered u).period ≤ w) → (w = 0 ∨ ∃ u, u < 570 ∧ effState s u = 2 ∧ (s.metered u).period = w) →
    (let c := s.cfg R.IHM_AVS_CTRL
     let pHi := min 1000 (bits c 25 16)
     let pLo := if pHi ≤ bits c 9 0 then pHi - 50 else bits c 9 0
     let lo := bits (s.cfg R.IHM_AVS_VMIN) 9 0
     let hi := if bits (s.cfg R.IHM_AVS_VMAX) 9 0 < lo then lo else bits (s.cfg R.IHM_AVS_VMAX) 9 0
     let asked := if pHi < w then max 700 (s.health.target + 5) else if w < pLo then s.health.target - 5 else s.health.target
     Ends (.avsUpdate r) s (fun t => t.health.target = min (max asked (max 650 lo)) (min 850 hi)))) ∧
  (∀ (r : Option Nat) (s : State), Runs s → s.mgmt = true → s.health.busErr = false → (s.released = false ∨ bit (s.cfg R.IHM_AVS_CTRL) 31 = false) →
    (let lo := bits (s.cfg R.IHM_AVS_VMIN) 9 0
     let hi := if bits (s.cfg R.IHM_AVS_VMAX) 9 0 < lo then lo else bits (s.cfg R.IHM_AVS_VMAX) 9 0
     Ends (.avsUpdate r) s (fun t => t.health.target = min (max (if s.released then s.health.target else 800) (max 650 lo)) (min 850 hi)))) ∧
  (∀ (r : Option Nat) (s : State), Runs s → s.mgmt = true → s.health.busErr = true →
    Ends (.avsUpdate r) s (fun t => t.health.target = s.health.target)) ∧
  (∀ (v : Nat) (s : State), Runs s → s.mgmt = true → (∀ u, u < 570 → effState s u = 2 → (s.metered u).period ≤ 1000) →
    Ends (.avsUpdate (some v)) s (fun t =>
      t.health = { s.health with target := t.health.target, busErr := t.health.busErr, offMs := t.health.offMs } ∧
      (v ≤ t.health.target + 25 ∧ t.health.target ≤ v + 25 → t.health.busErr = false ∧ t.health.offMs = 0 ∧
        t.out = .avs t.health.target :: s.out ∧ bits (t.rd R.IHM_AVS_STAT) 25 16 = t.health.target % 1024 ∧ bits (t.rd R.IHM_AVS_STAT) 9 0 = v % 1024) ∧
      (¬ (v ≤ t.health.target + 25 ∧ t.health.target ≤ v + 25) → t.health.offMs = s.health.offMs + 1 ∧
        t.health.busErr = (s.health.busErr || decide (10 ≤ s.health.offMs + 1))))) ∧
  (∀ s : State, Runs s → s.mgmt = true → Ends (.avsUpdate none) s (fun t => t.health.busErr = true ∧ t.health.offMs = 0)) ∧
  (∀ (x : Temps) (k a b c d warn thr crit : Nat) (s : State), Runs s → s.mgmt = true → x.die.length = 16 → k < 16 →
    (∀ j, j < 16 → -14080 ≤ x.die.getD j 0 ∧ x.die.getD j 0 ≤ 38400) → (∀ i j, i < 16 → j < 16 → x.die.getD i 0 ≤ x.die.getD j 0 + 5120) →
    (∀ j, j < 16 → x.die.getD j 0 ≤ x.die.getD k 0) → x.hbm = [a, b, c, d] → a < 256 → b < 256 → c < 256 → d < 256 →
    bits (s.cfg R.IHM_THERM_CTRL) 15 8 = warn → bits (s.cfg R.IHM_THERM_CTRL) 23 16 = thr → bits (s.cfg R.IHM_THERM_CTRL) 31 24 = crit →
    warn < thr → thr < crit → crit ≤ 120 →
    (let die := x.die.getD k 0
     let hbm := max (max a b) (max c d)
     let hyst : Int := max 1 (bits (s.cfg R.IHM_THERM_CTRL) 3 0)
     Ends (.thermalUpdate x) s (fun t => t.health.faulty = [] ∧ t.health.die = die ∧ t.health.level =
       if (256 * (crit : Int) ≤ die ∨ 105 ≤ hbm) ∨ (3 ≤ s.health.level ∧ ¬ (die ≤ 256 * (crit - hyst) ∧ hbm ≤ 100)) then 3
       else if (256 * (thr : Int) ≤ die ∨ 95 ≤ hbm) ∨ (2 ≤ s.health.level ∧ ¬ (die ≤ 256 * (thr - hyst) ∧ hbm ≤ 90)) then 2
       else if 256 * (warn : Int) ≤ die ∨ (1 ≤ s.health.level ∧ ¬ die ≤ 256 * (warn - hyst)) then 1
       else 0))) ∧
  (∀ (x : Temps) (s : State), Runs s → s.mgmt = true → x.die.length = 16 →
    Ends (.thermalUpdate x) s (fun t =>
      (∀ j, j < 16 → (x.die.getD j 0 < -14080 ∨ 38400 < x.die.getD j 0) → j ∈ t.health.faulty) ∧ (8 < t.health.faulty.length → 2 ≤ t.health.level))) ∧
  (∀ (x : Temps) (k a b c d : Nat) (s : State), Runs s → s.mgmt = true → x.die.length = 16 → k < 16 →
    (∀ j, j < 16 → -14080 ≤ x.die.getD j 0 ∧ x.die.getD j 0 ≤ 38400) → (∀ i j, i < 16 → j < 16 → x.die.getD i 0 ≤ x.die.getD j 0 + 5120) →
    (∀ j, j < 16 → x.die.getD j 0 ≤ x.die.getD k 0) → (∀ j, j < k → x.die.getD j 0 < x.die.getD k 0) → x.hbm = [a, b, c, d] → x.board = [] →
    a < 85 → b < 85 → c < 85 → d < 85 → s.health.level = 0 → s.cfg R.IHM_THERM_CTRL = 0x73696405#32 →
    25600 ≤ x.die.getD k 0 → x.die.getD k 0 < 26880 →
    (let s1 := s.wr R.IHM_THERM_STAT (setBits (s.rd R.IHM_THERM_STAT) 15 0 0)
     let s2 := ({ s1 with health := { s1.health with faulty := [], die := x.die.getD k 0 } }).wr R.IHM_TEMP_DIE (word ((x.die.getD k 0).toNat * 65536 + k))
     let s3 := (s2.wr R.IHM_TEMP_HBM (word (a + 256 * b + 65536 * c + 16777216 * d))).wr R.IHM_TEMP_BOARD 0x80808080#32
     let s4 := ({ s3 with health := { s3.health with level := 1 } }).wrBits R.IHM_THERM_STAT 31 30 1
     Gives (.thermalUpdate x) s [.store, .queues, .health] (pump (raise (s4.setFlag R.IHM_THERM_STAT 26) 318)))) ∧
  (∀ s : State, Runs s → s.mgmt = true →
    (let off := forEach (List.range 16) (raise s 319) (fun s d => if dpLink s d = 0 then s else s.wrBits (R.OWB_Ddd_STAT d) 31 29 Link.SAFE_OFF)
     Gives .thermalShutdown s [.power, .store, .receive, .health] (supplyOff (rxAllOff (txAllOff off))))) ∧
  (∀ s : State, Runs s → s.mgmt = true →
    Ends .thermalShutdown s (fun t => t.dead = true ∧ t.store = { s.store with selfRefresh := true } ∧ t.hbm = s.hbm ∧ t.unit = s.unit ∧
      t.heads = s.heads ∧ t.groups = s.groups ∧ t.queues = s.queues ∧ t.health.target = max 650 (bits (s.cfg R.IHM_AVS_VMIN) 9 0) ∧
      bit (t.rd R.IHM_THERM_STAT) 29 = true ∧ (∀ k, k < 64 → (t.txs k).state = 0 ∧ (t.txs k).sending = false) ∧
      (∀ i, i < 256 → (t.rxs i).state = 0 ∧ ((s.rxs i).state ≠ 0 → (t.rxs i).frames = []))))
/-- Jobs that move lines of surfaces, and TALLY_QUERY (R78, R325 to R328): a job that may act passes its checks or ends with the code they find; each
line a command moves is read and written, the line after it is next, and with the last line the fence is signalled and the job ends. An upload's
lines come from host memory at the segment's address plus its stride for each line before. The model's readings: the order of job checks (log entry
95), VOID reads of a copy (98), OFFLINE_COMPOSE, its units and the order of its lines (92, 93, 151, 186), TALLY_QUERY (99). -/
def Obligations.LineJobs : Prop :=
  (∀ (q : Fin 64) (j : Job) (s : State), Runs s → s.store.trained = true → s.jobIn q Typ.SURFACE_UPLOAD .act = some j →
    (uploadCheck s q j = none → Ends (.surfaceUpload q []) s (fun t => (t.queue q).job = some { j with phase := .running } ∧ t.hbm = s.hbm ∧ t.out = s.out)) ∧
    (∀ c, uploadCheck s q j = some c → Gives (.surfaceUpload q []) s [.store, .force, .queues, .outputs, .compose] (jobFail s q c))) ∧
  (∀ (q : Fin 64) (k : Nat) (data : List Byte) (j : Job) (s : State), Runs s → s.jobIn q Typ.SURFACE_UPLOAD .running = some j →
    queueOwner s q = some k → s.busMaster k = true →
    (let g := (uploadSegments j).getD j.seg []
     let n := le g 2 2
     let read := s.emit (.hostRead k (uploadAddr g j.pos) (((s.surface (le j.head 16 2)).map Surface.payload).getD 0))
     let put := jobWrite read q j (le j.head 16 2) writerUpload (le g 0 2 + j.pos) data false
     (j.pos + 1 < n → Gives (.surfaceUpload q [.ok data]) s [.store, .force, .queues, .outputs, .compose]
       (put.setJob q { j with wrote := true, pos := j.pos + 1 })) ∧
     (n ≤ j.pos + 1 → j.seg + 1 < (uploadSegments j).length → Gives (.surfaceUpload q [.ok data]) s [.store, .force, .queues, .outputs, .compose]
       (put.setJob q { j with wrote := true, pos := 0, seg := j.seg + 1 })) ∧
     (n ≤ j.pos + 1 → (uploadSegments j).length ≤ j.seg + 1 → Gives (.surfaceUpload q [.ok data]) s [.store, .force, .queues, .outputs, .compose]
       (jobDone put q (le j.head 16 2) writerUpload Code.OK)) ∧
     Gives (.surfaceUpload q [.error]) s [.store, .force, .queues, .outputs, .compose] (jobFail read q Code.HOST_READ_ERR))) ∧
  (∀ (q : Fin 64) (k : Nat) (r : HostRead) (j : Job) (s : State), Runs s → s.jobIn q Typ.SURFACE_UPLOAD .running = some j →
    queueOwner s q = some k → s.busMaster k = false →
    Gives (.surfaceUpload q [r]) s [.store, .force, .queues, .outputs, .compose] (jobFail s q Code.NO_BUS)) ∧
  (∀ (q : Fin 64) (j : Job) (s : State), Runs s → s.store.trained = true → s.jobIn q Typ.SURFACE_COPY .act = some j → s.health.level < 3 →
    (copyCheck s j = none → Ends (.surfaceCopy q 0) s (fun t => (t.queue q).job = some { j with phase := .running } ∧ t.hbm = s.hbm ∧ t.out = s.out)) ∧
    (∀ c, copyCheck s j = some c → Gives (.surfaceCopy q 0) s [.store, .force, .queues, .outputs, .compose] (jobFail s q c))) ∧
  (∀ (q : Fin 64) (j : Job) (s : State), Runs s → s.jobIn q Typ.SURFACE_COPY .running = some j →
    (let r := fetchLine s (le j.head 16 2) (le j.head 20 2 + j.pos) []
     let put := jobWrite r.2.2 q j (le j.head 18 2) writerCopy (le j.head 22 2 + j.pos) r.2.1 (decide (r.1 ≠ .good))
     Gives (.surfaceCopy q 1) s [.store, .force, .queues, .outputs, .compose]
       (if r.1 = .void then copyVoid r.2.2 q j
        else if le j.head 24 2 ≤ j.pos + 1 then jobDone put q (le j.head 18 2) writerCopy Code.OK
        else put.setJob q { j with wrote := true, pos := j.pos + 1, voids := 0 }))) ∧
  (∀ (q : Fin 64) (j : Job) (s : State), Runs s → s.store.trained = true → s.jobIn q Typ.FILL .act = some j → s.health.level < 3 →
    (fillCheck s j = none → Ends (.fill q 0) s (fun t => (t.queue q).job = some { j with phase := .running } ∧ t.hbm = s.hbm ∧ t.out = s.out)) ∧
    (∀ c, fillCheck s j = some c → Gives (.fill q 0) s [.store, .force, .queues, .outputs, .compose] (jobFail s q c))) ∧
  (∀ (q : Fin 64) (j : Job) (x : Surface) (s : State), Runs s → s.jobIn q Typ.FILL .running = some j → s.surface (le j.head 16 2) = some x →
    (let put := jobWrite s q j (le j.head 16 2) writerCopy (le j.head 18 2 + j.pos) (fillPayload j.head x.payload) false
     Gives (.fill q 1) s [.store, .force, .queues, .outputs, .compose]
       (if le j.head 20 2 ≤ j.pos + 1 then jobDone put q (le j.head 16 2) writerCopy Code.OK
        else put.setJob q { j with wrote := true, pos := j.pos + 1 }))) ∧
  (∀ (q : Fin 64) (j : Job) (s : State), Runs s → s.store.trained = true → s.jobIn q Typ.OFFLINE_COMPOSE .act = some j → s.health.level < 3 →
    (offlineCheck s j = none →
      Gives (.offlineCompose q 0 []) s [.store, .force, .queues, .outputs, .compose, .health] (copyFaults (s.setJob q { j with phase := .running }))) ∧
    (∀ c, offlineCheck s j = some c → Gives (.offlineCompose q 0 []) s [.store, .force, .queues, .outputs, .compose, .health] (copyFaults (jobFail s q c)))) ∧
  (∀ (q : Fin 64) (j : Job) (x : Surface) (d : Desc) (n : List Nat) (u s : State), Runs s → s.jobIn q Typ.OFFLINE_COMPOSE .running = some j →
    s.surface (le j.head 16 2) = some x → (offlineDescs j)[j.seg]? = some d → ¬ (j.pos = 0 ∧ 2 ≤ s.health.level) → offlineUnits s q j = some (n, u) →
    (let r := offlineLine [] u { offlineStarts u [] j with units := n } d x.width x.height
     let put := jobWrite r.2.2 q r.2.1 (le j.head 16 2) writerCopy j.pos (r.1.flatMap (fun p => leBytes 8 p.toNat))
       (rodVoid r.2.2 (tileRod ((servedLogical r.2.2 r.2.1.tile).getD 0)))
     Gives (.offlineCompose q 1 []) s [.store, .force, .queues, .outputs, .compose, .health]
       (copyFaults (if j.seg + 1 < (offlineDescs j).length then offlineNext r.2.2 q r.2.1 r.1 x.height
         else if x.height ≤ j.pos + 1 then jobDone put q (le j.head 16 2) writerCopy (if r.2.1.subst then Code.OK_SUBST else Code.OK)
         else put.setJob q { r.2.1 with wrote := true, pos := j.pos + 1 })))) ∧
  (∀ (q : Fin 64) (n : Nat) (j : Job) (x : Surface) (d : Desc) (s : State), Runs s → s.jobIn q Typ.OFFLINE_COMPOSE .running = some j →
    s.surface (le j.head 16 2) = some x → (offlineDescs j)[j.seg]? = some d → j.pos = 0 → 2 ≤ s.health.level →
    Gives (.offlineCompose q n []) s [.store, .force, .queues, .outputs, .compose, .health] (copyFaults s)) ∧
  (∀ (q : Fin 64) (us : List Upset) (j : Job) (s : State), Runs s → s.jobIn q Typ.TALLY_QUERY .act = some j →
    (let r := tallyJob (us.filter (fun u => u.space == Space.TALLY_STAT)) s q j
     Gives (.tallyQuery q us) s [.force, .queues] (completeJob r.2 q r.1))) ∧
  (∀ (q : Fin 64) (us : List Upset) (j : Job) (s : State), Runs s → s.jobIn q Typ.TALLY_QUERY .act = some j →
    Ends (.tallyQuery q us) s (fun t => (t.queue q).job = none ∧ (t.queue q).last = j.seq ∧ t.hbm = s.hbm))

/-- Queues and functions (R44, R308, R309, R318 to R322, R333 to R336, R342, R345): the producer's index and the entries, a reset of a function,
MSI-X, and the link. A read of host memory leaves the device as a request of the queue's owner, and fails without Bus Master Enable. The model's
choices: the configuration of a function at reset, after FLR and with Memory Space Enable clear (log entries 101, 172, 189, 190), MSI-X vectors (102), writes
a host does not take (168), host errors on an entry (96), the second copy of L (169), the event ring (104), board queues (103), the link (105), a COMMIT cut by
a reset (187), cuts and resets (97). -/
def Obligations.QueueEvents : Prop :=
  (∀ (q : Fin 64) (k : Nat) (data : List Byte) (s : State), Runs s → data.length = 4 → (s.queue q).reading = true → queueFetches s q = true →
    boardQueue q = false → queueOwner s q = some k → s.busMaster k = true →
    (let r := s.emit (.hostRead k (hostAddr (s.cfg (R.HWQ_Qnn_IDX_LO q)) (s.cfg (R.HWQ_Qnn_IDX_HI q))) 4)
     Gives (.prodIndexRead q (.ok data)) s [.queues] (takeIndex (r.wr (R.HWQ_Qnn_PROD q) (word (leNat data))) q (word (leNat data))))) ∧
  (∀ (q : Fin 64) (k : Nat) (data : List Byte) (s : State), Runs s → data.length = 4 → (s.queue q).reading = true → queueFetches s q = true →
    boardQueue q = false → queueOwner s q = some k → s.busMaster k = true →
    (word (leNat data) - s.rd (R.HWQ_Qnn_CONS q)).toNat ≤ ringSize s q → s.rd (R.HWQ_Qnn_CONS q) ≠ word (leNat data) →
    Ends (.prodIndexRead q (.ok data)) s (fun t => (t.queue q).prod = word (leNat data) ∧ (t.queue q).reading = false ∧
      t.rd (R.HWQ_Qnn_PROD q) = word (leNat data) ∧
      t.out = .hostRead k (hostAddr (s.cfg (R.HWQ_Qnn_IDX_LO q)) (s.cfg (R.HWQ_Qnn_IDX_HI q))) 4 :: s.out ∧ (∀ k, k ≠ q.val → t.queue k = s.queue k))) ∧
  (∀ (q : Fin 64) (host : HostRead) (s : State), Runs s → (s.queue q).reading = true → queueFetches s q = true → boardQueue q = true →
    Gives (.prodIndexRead q host) s [.queues] (takeIndex s q (s.cfg (R.HWQ_Qnn_PROD q)))) ∧
  (∀ (q : Fin 64) (host : HostRead) (ecc : Ecc) (s : State), Runs s → boardQueue q = true → s.col.inj = none → queueFetches s q = true →
    (rereads s q = true ∨ s.rd (R.HWQ_Qnn_CONS q) ≠ (s.queue q).prod) →
    (let broken := (entryWords q (slotAddr s q (nextEntry s q))).any (fun w => s.failing.contains (skey w.1 w.2))
     (ecc ≠ .ue → broken = false →
       Gives (.queueEntryRead q host ecc none) s [.force, .queues, .outputs, .compose] (takeEntry s q (qringEntry s (slotAddr s q (nextEntry s q))))) ∧
     (broken = true →
       Gives (.queueEntryRead q host ecc none) s [.force, .queues, .outputs, .compose] (haltQueue (raise s 290) q Code.STATE_LOST)))) ∧
  (∀ (q : Fin 64) (k : Nat) (data : List Byte) (ecc : Ecc) (s : State), Runs s → data.length = 64 → boardQueue q = false → ecc ≠ .ue →
    s.col.inj = none → queueFetches s q = true → (rereads s q = true ∨ s.rd (R.HWQ_Qnn_CONS q) ≠ (s.queue q).prod) →
    queueOwner s q = some k → s.busMaster k = true →
    Gives (.queueEntryRead q (.ok data) ecc none) s [.force, .queues, .outputs, .compose]
      (takeEntry (s.emit (.hostRead k (slotAddr s q (nextEntry s q)) 64)) q data)) ∧
  (∀ (q : Fin 64) (ecc : Ecc) (s : State), Runs s → boardQueue q = false → ecc ≠ .ue → s.col.inj = none → queueFetches s q = true →
    (rereads s q = true ∨ s.rd (R.HWQ_Qnn_CONS q) ≠ (s.queue q).prod) →
    Ends (.queueEntryRead q .error ecc none) s (fun t => bit (t.rd (R.HWQ_Qnn_STAT q)) 4 = true ∧ t.rd (R.HWQ_Qnn_CONS q) = s.rd (R.HWQ_Qnn_CONS q) ∧
      t.queues = s.queues)) ∧
  (∀ (q : Fin 64) (host : HostRead) (s : State), Runs s → s.col.inj = none → queueFetches s q = true →
    (rereads s q = true ∨ s.rd (R.HWQ_Qnn_CONS q) ≠ (s.queue q).prod) →
    Gives (.queueEntryRead q host .ue none) s [.force, .queues, .outputs, .compose] (haltQueue (raise s 290) q Code.STATE_LOST)) ∧
  (∀ (pf1 : Bool) (s : State), Runs s → Gives (.pcieFlr pf1) s [.force, .queues] (startReset s (if pf1 then 2 else 1) true)) ∧
  (∀ (pf1 : Bool) (s : State), Runs s → Ends (.pcieFlr pf1) s (fun t =>
    (t.func (if pf1 then 1 else 0)).resetting = true ∧ (t.func (if pf1 then 1 else 0)).flr = true ∧ t.hbm = s.hbm ∧ t.heads = s.heads)) ∧
  (∀ (o : Fin 3) (s : State), Runs s → Gives (.funcResetJobsEnded o) s [.store, .force, .queues, .outputs, .compose, .receive] (resetJobsEnded s o)) ∧
  (∀ (k : Fin 2) (s : State), Runs s → (∀ q, q < 64 → (ownedQueues s (k + 1)).contains q = true → (s.queue q).stopping = false) → (s.func k).resetting = true →
    (s.func k).flr = true →
    Ends (.funcResetJobsEnded (Fin.succ k)) s (fun t => (t.func k).cfg = { PciCfg.reset with mps := (s.func k).cfg.mps, aspmL1 := (s.func k).cfg.aspmL1, aer := (s.func k).cfg.aer } ∧
      (t.func k).unmasked = [] ∧ (t.func k).table = [] ∧ (t.func k).pba = [] ∧
      (t.func k).resetting = false ∧ t.queues = s.queues ∧ bit (t.rd (R.HWQ_Fk_EVR_CFG k)) 31 = false)) ∧
  (∀ (k : Fin 2) (s : State), Runs s → (s.func k).holdoff = true → (s.func k).covered = false →
    Gives (.msixHoldoffExpiry k) s [] (s.setFunc k { s.func k with holdoff := false })) ∧
  (∀ (k : Fin 2) (s : State), Runs s → (s.func k).holdoff = true → (s.func k).covered = true →
    Gives (.msixHoldoffExpiry k) s [] (evrMessage (s.setFunc k { s.func k with holdoff := false }) k)) ∧
  (∀ (k : Fin 2) (v : Fin 128) (a : BitVec 64) (d : Word) (s : State), Runs s → (s.func k).cfg.memory = true → v.val < vectorCount k →
    (s.func k).unmasked.contains v.val = false → (s.func k).pba = [v.val] → (s.func k).cfg.msix = true → (s.func k).cfg.busMaster = true → (s.func k).cfg.functionMask = false →
    Ends (.msixUnmask k v a d) s (fun t => t.out = .msix k v :: s.out ∧ (t.func k).unmasked = v.val :: (s.func k).unmasked ∧ (t.func k).pba = [] ∧
      kget (fun _ => (0, 0)) (t.func k).table v = (a.toNat, d.toNat) ∧ t.regs = s.regs)) ∧
  (∀ (k : Fin 2) (v : Fin 128) (a : BitVec 64) (d : Word) (s : State), Runs s → (s.func k).cfg.memory = true → v.val < vectorCount k →
    (s.func k).unmasked.contains v.val = false → (s.func k).pba = [] →
    Ends (.msixUnmask k v a d) s (fun t => t.out = s.out ∧ (t.func k).unmasked = v.val :: (s.func k).unmasked ∧
      kget (fun _ => (0, 0)) (t.func k).table v = (a.toNat, d.toNat) ∧ t.regs = s.regs ∧
      bar4Word t k (16 * v) = word (a.toNat % 4294967296) ∧ bar4Word t k (16 * v + 4) = word (a.toNat / 4294967296) ∧
      bar4Word t k (16 * v + 8) = d ∧ bar4Word t k (16 * v + 12) = 0#32)) ∧
  (∀ (k : Fin 2) (v : Fin 128) (a : BitVec 64) (d : Word) (s : State), Runs s → (s.func k).cfg.memory = false →
    Gives (.msixUnmask k v a d) s [] (raise (s.setFunc k { s.func k with cfg := { (s.func k).cfg with aer := setBit (s.func k).cfg.aer 20 true } }) 288)) ∧
  (∀ (w sp : Nat) (s : State), Runs s → Gives (.pcieLaneFail w sp) s []
    (faultAnswered (partFault (raise (s.wr R.HWQ_PCIE_STAT (pcieStat w sp)) 287) 287 0) 287 0)) ∧
  (∀ s : State, Runs s → bit (s.rd R.HWQ_PCIE_STAT) 16 = true → Gives .pcieLinkDown s [] (raise (s.wr R.HWQ_PCIE_STAT (pcieStat 0 0)) 287)) ∧
  (∀ (w sp : Nat) (c0 c1 : HostConfig) (s : State), Runs s → s.mgmt = true → bit (s.rd R.HWQ_PCIE_STAT) 16 = false → (s.func 0).pba = [] → (s.func 1).pba = [] →
    Ends (.pcieLinkUp w sp c0 c1) s (fun t => t.rd R.HWQ_PCIE_STAT = pcieStat w sp ∧ (∀ o, o ≠ R.HWQ_PCIE_STAT → t.rd o = s.rd o) ∧ t.unit = s.unit ∧
      (t.func 0).cfg.busMaster = c0.busMaster ∧ (t.func 1).cfg.busMaster = c1.busMaster ∧ (t.func 0).cfg.msix = c0.msix ∧ (t.func 1).cfg.msix = c1.msix ∧
      t.out = .config 1 (configHeader t 1) (msixCapability t 1) :: .config 0 (configHeader t 0) (msixCapability t 0) :: s.out)) ∧
  (∀ (w sp : Nat) (c0 c1 : HostConfig) (s : State), Runs s → s.mgmt = true → bit (s.rd R.HWQ_PCIE_STAT) 16 = true →
    (w % 64 < bits (s.rd R.HWQ_PCIE_STAT) 9 4 ∨ sp % 16 < bits (s.rd R.HWQ_PCIE_STAT) 3 0) →
    (let t := hostConfig (hostConfig (raise (s.wr R.HWQ_PCIE_STAT (pcieStat w sp)) 287) 0 c0) 1 c1
     Gives (.pcieLinkUp w sp c0 c1) s [] ((t.emit (.config 0 (configHeader t 0) (msixCapability t 0))).emit
       (.config 1 (configHeader t 1) (msixCapability t 1)))))

/-- The aperture (R40, R78, R313): a read answers the bytes of the surface, a write merges into its lines, and what lies outside is unsupported. A read
answers nothing but ones, poisoned, when a line is not good, or when its repeats have all met VOID beads. The model's readings: a read or write that crosses the surface's end is refused whole (log entry 100); with Memory Space Enable clear
a function answers no request (190). -/
def Obligations.ApertureAccess : Prop :=
  (∀ (k : Fin 2) (off : BitVec 30) (n h b : Nat) (x : Surface) (s : State), Runs s → (s.func k).cfg.memory = true → apSite s k off.toNat = some (h, x, b) →
    b + n ≤ x.lines * x.pitch →
    (let r := (apLines x b n).foldl (fun (a : State × Bool) i => let r := fetchLine a.1 h i []; (r.2.2, a.2 && decide (r.1 = .good)))
       (s.setFunc k { s.func k with apVoids := 0, apNext := 0 }, decide ((s.func k).apVoids ≤ 3))
     Gives (.apertureRead k off n) s [] (if r.2 then r.1.emit (.aperture k (r.1.bytes h b n) false)
       else (raise (r.1.bump R.HWQ_AP_ERR 1) 289).emit (.aperture k (List.replicate n 0xFF#8) true)))) ∧
  (∀ (k : Fin 2) (off : BitVec 30) (n : Nat) (s : State), Runs s → (s.func k).cfg.memory = true →
    (∀ h x b, apSite s k off.toNat = some (h, x, b) → x.lines * x.pitch < b + n) →
    (let f := { s.func k with apVoids := 0, apNext := 0 }
     Gives (.apertureRead k off n) s [] ((raise (((s.setFunc k f).bump R.HWQ_AP_ERR 1).setFunc k { f with
       cfg := { f.cfg with aer := setBit f.cfg.aer 20 true } }) 288).emit (.aperture k [] false)))) ∧
  (∀ (k : Fin 2) (off : BitVec 30) (n : Nat) (data : List Byte) (s : State), Runs s → (s.func k).cfg.memory = false →
    (let t := raise (s.setFunc k { s.func k with cfg := { (s.func k).cfg with aer := setBit (s.func k).cfg.aer 20 true } }) 288
     Gives (.apertureRead k off n) s [] (t.emit (.aperture k [] false)) ∧ Gives (.apertureWrite k off data) s [.store] t)) ∧
  (∀ (k : Fin 2) (off : BitVec 30) (data : List Byte) (h b : Nat) (x : Surface) (s : State), Runs s → (s.func k).cfg.memory = true → data ≠ [] →
    apSite s k off.toNat = some (h, x, b) → b + data.length ≤ x.lines * x.pitch → b / x.pitch = (b + data.length - 1) / x.pitch →
    b < b / x.pitch * x.pitch + x.payload →
    (rodsVoid s (rodsFor .ingest) (b / x.pitch) = false →
      Gives (.apertureWrite k off data) s [.store] (mergeLine s h (b / x.pitch) (b - b / x.pitch * x.pitch)
        (data.take (min (b + data.length) (b / x.pitch * x.pitch + x.payload) - b)))) ∧
    (rodsVoid s (rodsFor .ingest) (b / x.pitch) = true →
      Gives (.apertureWrite k off data) s [.store] (ingestEnds (poisonLine (s.drawn (b / x.pitch + 1)) h (b / x.pitch)) (· == (h, b / x.pitch))))) ∧
  (∀ (k : Fin 2) (off : BitVec 30) (data : List Byte) (h b : Nat) (x : Surface) (s : State), Runs s → (s.func k).cfg.memory = true → data ≠ [] →
    apSite s k off.toNat = some (h, x, b) → b + data.length ≤ x.lines * x.pitch → b / x.pitch = (b + data.length - 1) / x.pitch →
    b / x.pitch * x.pitch + x.payload ≤ b → exec (.apertureWrite k off data) s = .next s) ∧
  (∀ (k : Fin 2) (off : BitVec 30) (data : List Byte) (s : State), Runs s → (s.func k).cfg.memory = true →
    (∀ h x b, apSite s k off.toNat = some (h, x, b) → x.lines * x.pitch < b + data.length) →
    Ends (.apertureWrite k off data) s (fun t => t.hbm = s.hbm ∧ t.rd R.HWQ_AP_ERR = satAdd32 (s.rd R.HWQ_AP_ERR) 1 ∧
      (∀ o, o ≠ R.HWQ_AP_ERR → t.rd o = s.rd o) ∧ t.out = s.out))

/-- Surface memory under the commands that write the lines of jobs, of write-backs and of the aperture (R72, R78, R234, R313, R326, R327): every
byte outside the lines a command addresses is as before. A line of a job is that its fields name: of an upload LINE0 of the segment, of a copy its
destination line, of a fill LINE, each plus the lines done; of OFFLINE_COMPOSE the line it composes. A command that moves several lines stays within
the surface it writes; one with no job, no frame in progress or no surface under its window changes no byte. The order of
the lines of OFFLINE_COMPOSE is the model's choice (log entry 186). -/
def Obligations.FrameOfLineCommands : Prop :=
  (∀ (q : Fin 64) (data : List Byte) (j : Job) (x : Surface) (s t : State), Runs s → s.jobIn q Typ.SURFACE_UPLOAD .running = some j →
    s.surface (le j.head 16 2) = some x → 4 ≤ x.pitch → exec (.surfaceUpload q [.ok data]) s = .next t →
    sameBut (le j.head 16 2) x [le ((uploadSegments j).getD j.seg []) 0 2 + j.pos] s t) ∧
  (∀ (q : Fin 64) (j : Job) (x : Surface) (s t : State), Runs s → s.jobIn q Typ.SURFACE_COPY .running = some j →
    s.surface (le j.head 18 2) = some x → 4 ≤ x.pitch → exec (.surfaceCopy q 1) s = .next t →
    sameBut (le j.head 18 2) x [le j.head 22 2 + j.pos] s t) ∧
  (∀ (q : Fin 64) (j : Job) (x : Surface) (s t : State), Runs s → s.jobIn q Typ.FILL .running = some j →
    s.surface (le j.head 16 2) = some x → 4 ≤ x.pitch → exec (.fill q 1) s = .next t →
    sameBut (le j.head 16 2) x [le j.head 18 2 + j.pos] s t) ∧
  (∀ (q : Fin 64) (us : List Upset) (j : Job) (x : Surface) (s t : State), Runs s → s.jobIn q Typ.OFFLINE_COMPOSE .running = some j →
    s.surface (le j.head 16 2) = some x → 4 ≤ x.pitch → exec (.offlineCompose q 1 us) s = .next t →
    sameBut (le j.head 16 2) x [j.pos] s t) ∧
  (∀ (q : Fin 64) (n : Nat) (us : List Upset) (lines : List HostRead) (j : Job) (h : Nat) (x : Surface) (s t : State), Runs s →
    (s.queue q).job = some j → (jobDst j).map (·.1) = some h → s.surface h = some x → 4 ≤ x.pitch →
    (exec (.surfaceUpload q lines) s = .next t ∨ exec (.surfaceCopy q n) s = .next t ∨ exec (.fill q n) s = .next t ∨
      exec (.offlineCompose q n us) s = .next t) →
    sameBut h x (List.range x.lines) s t) ∧
  (∀ (q : Fin 64) (n : Nat) (us : List Upset) (lines : List HostRead) (s t : State), Runs s → (∀ j, (s.queue q).job = some j → jobDst j = none) →
    (exec (.surfaceUpload q lines) s = .next t ∨ exec (.surfaceCopy q n) s = .next t ∨ exec (.fill q n) s = .next t ∨
      exec (.offlineCompose q n us) s = .next t) → t.hbm = s.hbm) ∧
  (∀ (h : Fin 32) (n : Nat) (full : Bool) (l : WbLine) (rest : List WbLine) (c : Nat) (x : Surface) (s t : State), Runs s → (s.head h).wbq = l :: rest →
    (s.head h).wb.cur = some c → s.surface c = some x → 4 ≤ x.pitch → exec (.wbBeadArrival h n full) s = .next t → sameBut c x [l.line.y] s t) ∧
  (∀ (h : Fin 32) (n : Nat) (full : Bool) (s t : State), Runs s → ((s.head h).wbq = [] ∨ (s.head h).wb.cur = none ∨ full = true) →
    exec (.wbBeadArrival h n full) s = .next t → t.hbm = s.hbm) ∧
  (∀ (k : Fin 2) (off : BitVec 30) (data : List Byte) (h b : Nat) (x : Surface) (s t : State), Runs s → apSite s k off.toNat = some (h, x, b) →
    x.payload + 4 ≤ x.pitch → exec (.apertureWrite k off data) s = .next t → sameBut h x (apLines x b data.length) s t) ∧
  (∀ (k : Fin 2) (off : BitVec 30) (data : List Byte) (s t : State), Runs s → (apSite s k off.toNat = none ∨ (s.func k).cfg.memory = false) →
    exec (.apertureWrite k off data) s = .next t → t.hbm = s.hbm)

/-- Surface memory under reception (R40, R78, R260, R261, R406): a bead that an ingest rod brings poisons its own line at most, and a fault it shows
of the rod the lines that receive streams assemble; a received frame writes only lines of its streams' rings and of their open frames. That the
lines such a fault poisons are those in assembly is the model's choice (log 128). -/
def Obligations.FrameOfReception : Prop :=
  (∀ (rod : Fin 400) (flip : BitVec 137) (h i k : Nat) (s t : State), Runs s → exec (.rodBeadReceive rod flip (.ssp h i k)) s = .next t →
    ∀ h' off : Nat, (∀ x, s.surface h = some x → 4 ≤ x.pitch ∧ ¬ inLine h x i h' off) →
      (∀ (st : Nat) (f : RxFrame) (sl : Slot) (g : Nat) (x : Surface), f ∈ (s.rxs st).frames → sl ∈ f.slots → f.handle = some g →
        s.surface g = some x → 4 ≤ x.pitch ∧ ¬ inLine g x sl.line h' off) →
      t.byte h' off = s.byte h' off) ∧
  (∀ (p : Fin 16) (frame : List Byte) (note : RxNote) (s t : State), Runs s → exec (.ethRxFrame p frame note) s = .next t →
    ∀ h' off : Nat, (∀ (st h : Nat) (x : Surface), (h ∈ ringOrder (rxHandle s st) (rxRing s st) none ∨ ∃ f ∈ (s.rxs st).frames, f.handle = some h) →
      s.surface h = some x → 4 ≤ x.pitch ∧ ∀ i, i < x.lines → ¬ inLine h x i h' off) → t.byte h' off = s.byte h' off)
/-- A step takes the command at the front of the queue: it is that command acting on the state with the queue's rest. The queue is the model's own (log entry 1). -/
def Obligations.StepRunsFrontCommand : Prop :=
  ∀ (c : Instr) (rest : List Instr) (s : State), step { s with pending := c :: rest } = exec c { s with pending := rest }

/-- With no command waiting a step is 5 ns of the management clock (the model's choice, log entry 2): device time runs at 1 + y of the oscillator
(R277, R282), and nothing else changes; with PORST_N low or XO_IN stopped nothing changes at all. -/
def Obligations.IdleStepPassesTime : Prop :=
  (∀ s : State, s.pending = [] → s.powered = true → s.trs.xoStopped = false →
    ∃ t, step s = .next t ∧ t = { s with time := t.time, frac := t.frac, up := s.up + 5 } ∧
      (t.time - s.time) * 65536000000000 + (t.frac - s.frac) = 5 * (65536000000000 + s.trs.y) ∧ 0 ≤ t.frac ∧ t.frac < 65536000000000) ∧
  (∀ s : State, s.pending = [] → (s.powered = false ∨ s.trs.xoStopped = true) → step s = .next s)

/-- Every command completes: whatever its operands and the state, it answers a next state. No command faults and none is refused. Events that cannot happen in the state leave
it (log entries 3, 4, 10 and 11); what each command does where it can is what the other statements say. -/
def Obligations.EveryCommandAnswers : Prop := ∀ (c : Instr) (s : State), ∃ t, exec c s = .next t

/-- While PORST_N is low no command but the rise of PORST_N changes anything (R43, R436). The model's reading for the other commands: log entry 10. -/
def Obligations.NothingActsInReset : Prop :=
  ∀ (c : Instr) (s : State), s.powered = false → porst c = false → exec c s = .next s

/-- After a thermal shutdown no command but PORST_N and the reads of the mirror changes anything (R420). The model's reading: log entry 11. -/
def Obligations.NothingActsAfterShutdown : Prop :=
  ∀ (c : Instr) (s : State), s.powered = true → s.dead = true → porst c = false → mirrorReads c = false → exec c s = .next s

/-- While PORST_N is low the device is at reset: the state after reset is so. Values the spec does not state are those of log entries 5 and 6. -/
def Obligations.QuietAtReset : Prop := State.reset.quiet ∧ State.reset.memoryWf = true ∧ State.reset.registersWf = true ∧ State.reset.spacesWf = true

/-- While PORST_N is low the device is at reset: every step keeps it so, whatever command it takes. What stays is the model's own: the queue, what has
left the device and the count of free values (log entries 1, 8, 9), and the voltage class of the management bank (R436). -/
def Obligations.QuietKept : Prop := ∀ s t : State, s.quiet → step s = .next t → t.quiet

/-- No command changes the variant, the commands that wait, or the oscillator's time, and none but those of PORST_N changes its level. The queue is the model's own (log entry 1), the variant is log entry 7. -/
def Obligations.HeldByEveryCommand : Prop :=
  (∀ (c : Instr) (s t : State), exec c s = .next t → t.variant = s.variant ∧ t.pending = s.pending) ∧
  (∀ (c : Instr) (s t : State), porst c = false → exec c s = .next t → t.powered = s.powered ∧ t.up = s.up ∧ t.frac = s.frac)

/-- What a command leaves unchanged: every part of the state outside those it reaches. Surface memory with its placement, the settings in
force, the loader, the masters, the queues, heads and ports, composition, reception, timing and health each have the list of commands that can
change them. -/
def Obligations.FrameOfEveryCommand : Prop :=
  ∀ (c : Instr) (s t : State) (p : Part), p ∉ reaches c → exec c s = .next t → same p s t

/-- What a register write leaves unchanged: with no write waiting at any master, a command that is one write changes its master, the values in
force and the unit the register belongs to, whether the write is accepted, denied or early. Early writes only count (log entry 17). -/
def Obligations.FrameOfRegisterWrites : Prop :=
  ∀ (c : Instr) (ps : List Part) (s t : State) (p : Part), writeReaches c = some ps → (∀ m, (s.master m).wq = []) → exec c s = .next t →
    p ∉ ps → p ≠ .masters → p ≠ .force → same p s t

/-- A thermal shutdown lasts until PORST_N (R420): no other step ends it. What the shutdown leaves is log entry 11. -/
def Obligations.ShutdownLasts : Prop :=
  ∀ s t : State, s.dead = true → s.powered = true → step s = .next t → s.pending.head? ≠ some .porstNAssert → t.dead = true

/-- Settings with a deck (R188, R189, R194): a write changes the pending deck only, and none while a commit of the group is in flight, when the
write is counted. A register's pending deck has the write from its effect on, in the order of the master's queue (R353). The model's readings: log
entries 37 and 38. -/
def Obligations.DeckWrites : Prop :=
  (∀ (m : Master) (off : BitVec 24) (r : RegRow) (v : Word) (s : State), Runs s → s.ldr.state = .released → s.reaches m = true → off.toNat % 4 = 0 →
    (s.master m).wq.length < 64 → findRow off.toNat = some r → (r.cls = .group ∨ r.cls = .disruptive) → (r.rw ||| r.wo) ≠ 0#32 →
    mayWrite s m off.toNat = true → perMaster off.toNat = false → isWm off.toNat = false → regQueue off.toNat = none →
    (∀ g, g < 8 → off.toNat ≠ R.SEQ_Gn_HEADS g) → committing s (writerOf s m) (deckGroups s r off.toNat) = none → off.toNat < 0x20000 ∨ 0x40000 ≤ off.toNat →
    Ends (.registerWrite m off 15#4 v) s (fun t => t.rd off.toNat = merge (s.rd off.toNat) v r.rw ∧ (∀ o, o ≠ off.toNat → t.rd o = s.rd o) ∧
      t.unit = s.unit ∧ t.live = s.live ∧ t.groups = s.groups ∧ t.out = s.out ∧
      (t.master m).wq = (s.master m).wq ++ [⟨false, off.toNat, (merge (s.rd off.toNat) v r.rw &&& r.rw) ||| (v &&& r.wo), s.priv m⟩])) ∧
  (∀ (m : Master) (w : QWrite) (rest : List QWrite) (r : RegRow) (s : State), Runs s → (s.master m).wq = w :: rest → w.indirect = false →
    findRow w.at_ = some r → (r.cls = .group ∨ r.cls = .disruptive) → perMaster w.at_ = false →
    (handlers.findSome? fun h => (h.indexAt w.at_).map fun i => (h, i)) = none →
    Ends (.writeTakeEffect m) s (fun t => t.dk w.at_ = merge (s.dk w.at_) w.v r.rw ∧ (∀ o, o ≠ w.at_ → t.dk o = s.dk o) ∧ t.unit = s.unit ∧
      t.live = s.live ∧ t.groups = s.groups ∧ t.out = s.out)) ∧
  (∀ (m : Master) (off : BitVec 24) (r : RegRow) (g : Nat) (v : Word) (s : State), Runs s → s.ldr.state = .released → s.reaches m = true → off.toNat % 4 = 0 →
    (s.master m).wq.length < 64 → findRow off.toNat = some r → (r.rw ||| r.wo) ≠ 0#32 →
    mayWrite s m off.toNat = true → perMaster off.toNat = false → committing s (writerOf s m) (deckGroups s r off.toNat) = some g →
    Ends (.registerWrite m off 15#4 v) s (fun t => bits (t.rd (R.SEQ_Gn_DECK_DENY g)) 15 0 = min 65535 (bits (s.rd (R.SEQ_Gn_DECK_DENY g)) 15 0 + 1) ∧
      (∀ o, o ≠ R.SEQ_Gn_DECK_DENY g → t.rd o = s.rd o) ∧ t.unit = s.unit ∧ t.groups = s.groups ∧ t.master m = s.master m))

/-- A commit moves every pending deck of its group and nothing else (R189, R190): after the move the live value of every register and word of
the group is the pending one, every other live value is as before, and the pending decks stay. How decks are held is log entry 37. -/
def Obligations.CommitMovesEveryDeck : Prop :=
  ∀ (s : State) (g : Nat),
    (∀ o, (copyDecks s g).cfg o = if o ∈ deckRegs s g then s.dk o else s.cfg o) ∧
    (∀ k, (copyDecks s g).lv k = if ∃ r ∈ deckRanges s g, r.1 ≤ k ∧ k < r.2 then s.sp k else s.lv k) ∧
    (copyDecks s g).regs = s.regs ∧ (copyDecks s g).deck = s.deck ∧ (copyDecks s g).spaces = s.spaces ∧ (copyDecks s g).hbm = s.hbm ∧ (copyDecks s g).groups = s.groups

/-- Surface memory: a block write changes the bytes of the block and no other, clearing makes zero bytes of the range and of nothing else, each
keeps the canonical form, and two memories in that form that read alike are the same memory. What nothing has written reads as zero (log entry 6). -/
def Obligations.MemoryOperations : Prop :=
  (∀ (s : State) (h off : Nat) (bs : List Byte) (h' off' : Nat), (s.setBytes h off bs).byte h' off' =
    if skeyByte h off ≤ skeyByte h' off' ∧ skeyByte h' off' < skeyByte h off + bs.length then bs.getD (skeyByte h' off' - skeyByte h off) 0#8
    else s.byte h' off') ∧
  (∀ (s : State) (h lo hi h' off' : Nat), (s.zeroBytes h lo hi).byte h' off' =
    if skeyByte h lo ≤ skeyByte h' off' ∧ skeyByte h' off' < skeyByte h hi then 0#8 else s.byte h' off') ∧
  (∀ (s : State) (h off : Nat) (bs : List Byte), s.memoryWf = true → (s.setBytes h off bs).memoryWf = true) ∧
  (∀ (s : State) (h lo hi : Nat), s.memoryWf = true → (s.zeroBytes h lo hi).memoryWf = true) ∧
  (∀ s t : State, s.memoryWf = true → t.memoryWf = true → (∀ k, kget (fun _ => 0#8) s.hbm k = kget (fun _ => 0#8) t.hbm k) → s.hbm = t.hbm)

/-- A line written (R72, R77, R78): the payload, zero pad bytes up to the tail, then the tail, which is the CRC over the header and the body, or its
complement in a poisoned line; every byte outside the line is as before, and the write of a line that does not exist changes nothing. -/
def Obligations.LineWrites : Prop :=
  (∀ (h i : Nat) (body : List Byte), tailValue h i body =
    crc32c ([BitVec.ofNat 8 h, BitVec.ofNat 8 (h / 256), BitVec.ofNat 8 i, BitVec.ofNat 8 (i / 256)] ++ body)) ∧
  (∀ (s : State) (h i : Nat) (x : Surface) (payload : List Byte) (poison : Bool) (b : Nat), s.surface h = some x → i < x.lines → 4 ≤ x.pitch →
    x.payload + 4 ≤ x.pitch → b < x.pitch →
    (writeLine s h i payload poison).byte h (i * x.pitch + b) =
      if b + 4 < x.pitch then (if b < x.payload then payload.getD b 0#8 else 0#8)
      else (leBytes 4 (if poison then not32 (tailValue h i (padBody x (payload.take x.payload))) else tailValue h i (padBody x (payload.take x.payload)))).getD
        (b + 4 - x.pitch) 0#8) ∧
  (∀ (s : State) (h i : Nat) (x : Surface) (payload : List Byte) (poison : Bool) (h' off' : Nat), s.surface h = some x → 4 ≤ x.pitch →
    (skeyByte h' off' < skeyByte h (i * x.pitch) ∨ skeyByte h (i * x.pitch) + x.pitch ≤ skeyByte h' off') →
    (writeLine s h i payload poison).byte h' off' = s.byte h' off') ∧
  (∀ (s : State) (h i : Nat) (x : Surface) (payload : List Byte) (poison : Bool), s.surface h = some x → x.lines ≤ i → writeLine s h i payload poison = s) ∧
  (∀ (s : State) (h i : Nat) (payload : List Byte) (poison : Bool), s.surface h = none → writeLine s h i payload poison = s) ∧
  (∀ (s : State) (h i : Nat) (payload : List Byte) (poison : Bool), (writeLine s h i payload poison).regs = s.regs ∧
    (writeLine s h i payload poison).store = s.store)

/-- Layout and line classes (R72, R77): the pitch is the least multiple of 16 that holds the payload and the tail, a line is classified by the first
match of GOOD, POISON, UNWRITTEN and TAIL_FAIL, and a line never looks both good and poisoned. -/
def Obligations.LineLayout : Prop :=
  (∀ p : Nat, pitchOf p % 16 = 0 ∧ p + 4 ≤ pitchOf p ∧ pitchOf p < p + 20) ∧
  (∀ w : Nat, payloadLen 0x01 w = 4 * w ∧ payloadLen 0x02 w = 4 * w ∧ payloadLen 0x03 w = 4 * w ∧ payloadLen 0x04 w = 8 * w ∧
    payloadLen 0x08 w = 4 * ((2 * w + 2) / 3) ∧ payloadLen 0x09 w = w ∧ payloadLen 0x0A w = 2 * w ∧ payloadLen 0x0B w = 4 * w ∧ payloadLen 0x10 w = w) ∧
  (∀ (h i : Nat) (body : List Byte), tailValue h i body =
    crc32c ([BitVec.ofNat 8 h, BitVec.ofNat 8 (h / 256), BitVec.ofNat 8 i, BitVec.ofNat 8 (i / 256)] ++ body)) ∧
  (∀ (h i : Nat) (body : List Byte), classify h i body (tailValue h i body) = .good) ∧
  (∀ (h i : Nat) (body : List Byte), classify h i body (not32 (tailValue h i body)) = .poison) ∧
  (∀ (h i t : Nat) (body : List Byte), t ≠ tailValue h i body → t ≠ not32 (tailValue h i body) →
    classify h i body t = if t = 0 ∧ allZero body = true then .unwritten else .tailFail)

/-- CRC-32C (R48): the reflected Castagnoli polynomial bit by bit from 0xFFFFFFFF, the result complemented; the CRC of "123456789" is 0xE3069283;
fields are little-endian. -/
def Obligations.Crc32c : Prop :=
  crc32c [0x31#8, 0x32#8, 0x33#8, 0x34#8, 0x35#8, 0x36#8, 0x37#8, 0x38#8, 0x39#8] = 0xE3069283 ∧
  (∀ bs : List Byte, crc32c bs = (bs.foldl (fun c b => (fun r => if r % 2 = 1 then (r / 2) ^^^ 0x82F63B78 else r / 2)^[8] (c ^^^ b.toNat)) 0xFFFFFFFF) ^^^ 0xFFFFFFFF) ∧
  (∀ bs : List Byte, crc32c bs < 4294967296) ∧
  (∀ (n v : Nat), v < 256 ^ n → leNat (leBytes n v) = v)

/-- A snapshot of the device time (R278): a read of TRS_TIME_LO answers the lower 32 bits and latches the upper 32 for the same master, whose next read
of TRS_TIME_HI answers them, however much time passes and whatever commands come between that change nothing of the masters; the two are the device
time at the first read. -/
def Obligations.TimeSnapshot : Prop :=
  ∀ (m : Master) (s : State), s.powered = true → s.mgmt = true → s.reaches m = true → s.col.inj = none →
    ∃ (lo hi : Word) (t : State), exec (.timeLoRead m) s = .next t ∧ t.out = .read m lo :: s.out ∧ lo.toNat + 4294967296 * hi.toNat = s.time64 ∧
      ∀ (cs : List (Option Instr)) (w : State), (∀ c, some c ∈ cs → Part.masters ∉ reaches c) → later cs t = some w →
        w.powered = true → w.mgmt = true → w.reaches m = true → w.col.inj = none →
        ∃ u, exec (.rcRegisterRead m (BitVec.ofNat 24 R.TRS_TIME_HI) 1 .good) w = .next u ∧ u.out = .read m hi :: w.out

/-- The force lines (R379, R240, R242): high while a source latched at SAFE names the head, while source 308 is latched, or while FORCE = 1; low otherwise. A head
without SAFE_EN = 1 and OUT_EN = 1 is not forced, and a rise that SAFE_EN = 1 meets with OUT_EN = 0 is latched; another head enters its safe state with MODE and FRAME latched. The model's readings: the level of the
line decides, also as SAFE_EN is written (log entry 66), and a line that rose with OUT_EN = 0 is held (138). -/
def Obligations.ForceLines : Prop :=
  (∀ (s : State) (h src : Nat), (s.src src).level = 3 → bit (s.src src).heads h = true → forceLine s h = true) ∧
  (∀ (s : State) (h : Nat), 1 ≤ (s.src 308).level → forceLine s h = true) ∧
  (∀ (s : State) (h : Nat), bit (s.cfg (R.OWB_Hnn_SAFE_CTRL h)) 11 = true → forceLine s h = true) ∧
  (∀ (s : State) (h : Nat), (s.src 308).level = 0 → (∀ e ∈ s.col.src, e.2.level = 3 → bit e.2.heads h = false) →
    bit (s.cfg (R.OWB_Hnn_SAFE_CTRL h)) 11 = false → forceLine s h = false) ∧
  (∀ (s : State) (c h : Nat), (s.safeOf h).active = false → (bit (s.cfg (R.OWB_Hnn_SAFE_CTRL h)) 10 = false ∨ (s.head h).emits = false) →
    ((updateForce1 c s h).safeOf h).active = false) ∧
  (∀ (s : State) (c h : Nat), (s.safeOf h).active = false → forceLine s h = true → bit (s.cfg (R.OWB_Hnn_SAFE_CTRL h)) 10 = true → (s.head h).emits = false →
    ((updateForce1 c s h).safeOf h).held = true) ∧
  (∀ (s : State) (c h : Nat), (s.safeOf h).active = false → forceLine s h = true → bit (s.cfg (R.OWB_Hnn_SAFE_CTRL h)) 10 = true → (s.head h).emits = true →
    ((updateForce1 c s h).safeOf h).active = true ∧ ((updateForce1 c s h).safeOf h).line = true ∧
    ((updateForce1 c s h).safeOf h).mode = bits (s.cfg (R.OWB_Hnn_SAFE_CTRL h)) 9 8 ∧
    ((updateForce1 c s h).safeOf h).frame = bits (s.cfg (R.OWB_Hnn_SAFE_CTRL h)) 2 0)

/-- The fault pins (R374, R341): FAULT_N is high exactly while PORST_N is high and no source is latched at DEGRADE or above nor source 308 at all; COLLECTOR_SELF
shows source 308; LMP_INT_N is low while an enabled board queue has a completion to show, or while faults are enabled and present. Source 308 is log entry 106. -/
def Obligations.FaultPins : Prop :=
  (∀ s : State, s.faultN = true ↔ (s.powered = true ∧ (∀ e ∈ s.col.src, e.2.level < 2) ∧ (s.src 308).level = 0)) ∧
  (∀ s : State, bit s.fcSummary 30 = decide (1 ≤ (s.src 308).level)) ∧
  (∀ s : State, s.lmpIntN = false ↔
    ((∃ q, q < 16 ∧ bit (s.rd R.HWQ_BOARD_DONE) q = true ∧ bit (s.cfg R.HWQ_LMP_INT_EN) q = true) ∨
      (bit (s.cfg R.HWQ_LMP_INT_EN) 16 = true ∧ bit s.fcSummary 31 = true)))

/-- A producer index read from the host (R319): a valid one is taken, also one that moves back; an invalid one sets IDX_ERR, raises HWQ_IDX_ERR, and leaves
nothing to fetch. Reads of a host that fails are log entry 96. -/
def Obligations.ProducerIndex : Prop :=
  (∀ (s : State) (q : Nat) (p : Word), (p - s.rd (R.HWQ_Qnn_CONS q)).toNat ≤ ringSize s q →
    ((takeIndex s q p).queue q).prod = p ∧ (takeIndex s q p).regs = s.regs ∧ (takeIndex s q p).out = s.out) ∧
  (∀ (s : State) (q : Nat) (p : Word), (p - s.rd (R.HWQ_Qnn_CONS q)).toNat ≤ ringSize s q → p ≠ s.rd (R.HWQ_Qnn_CONS q) →
    (takeIndex s q p).queue q = { s.queue q with reading := false, prod := p }) ∧
  (∀ (s : State) (q : Nat) (p : Word), ringSize s q < (p - s.rd (R.HWQ_Qnn_CONS q)).toNat →
    ((takeIndex s q p).queue q).prod = s.rd (R.HWQ_Qnn_CONS q) ∧
    takeIndex s q p = pollQueue (raiseQ ((s.setQueue q { s.queue q with reading := false, prod := s.rd (R.HWQ_Qnn_CONS q) }).setFlag (R.HWQ_Qnn_STAT q) 0) 282 q) q)

/-- Arithmetic of composition and scaling (R103 rules 3 and 4, R133): no operation answers NaN or infinity, a result beyond the range is the largest finite value of
its sign and is counted, sat maps NaN, negatives and zeros to +0 and +Inf to 65,504, and a filter's sum is rounded and clamped to 16 bits. -/
def Obligations.PixelArithmetic : Prop :=
  (∀ a b n : Nat, ((hAdd a b).run n).1 % 32768 ≤ 0x7BFF ∧ ((hSub a b).run n).1 % 32768 ≤ 0x7BFF ∧ ((hMul a b).run n).1 % 32768 ≤ 0x7BFF) ∧
  (∀ a b n : Nat, ((hMul a b).run n).1 / 32768 = (if hNeg a = hNeg b then 0 else 1)) ∧
  (∀ a b n : Nat, if 65520 * 2 ^ 24 ≤ (hInt a + hInt b).natAbs then (hAdd a b).run n = (if hInt a + hInt b < 0 then 0xFBFF else 0x7BFF, n + 1)
    else ((hAdd a b).run n).2 = n) ∧
  (∀ a b n : Nat, b < 65536 → if 65520 * 2 ^ 24 ≤ (hInt a - hInt b).natAbs then (hSub a b).run n = (if hInt a < hInt b then 0xFBFF else 0x7BFF, n + 1)
    else ((hSub a b).run n).2 = n) ∧
  (∀ a b n : Nat, if 65520 * 2 ^ 48 ≤ hUnits a * hUnits b then (hMul a b).run n = (if hNeg a = hNeg b then 0x7BFF else 0xFBFF, n + 1)
    else ((hMul a b).run n).2 = n) ∧
  (∀ p : Nat, p < 65536 → hSat p % 32768 ≤ 0x7BFF ∧ hSat p < 32768 ∧ (p ≤ 0x7BFF → hSat p = p) ∧ (0x8000 ≤ p → hSat p = 0) ∧ (0x7C00 < p → hSat p = 0)) ∧
  hSat 0x7C00 = 0x7BFF ∧
  (∀ (acc : Int) (n : Nat), (clampCode acc).run n =
    ((min (max ((acc + 512) / 1024) 0) 65535).toNat, if (acc + 512) / 1024 < 0 ∨ 65535 < (acc + 512) / 1024 then n + 1 else n))

/-- The map of registers (R425, R426): every instance of every row, at block base plus strides, is found as its own row: no two registers share a location. -/
def Obligations.RegisterMap : Prop :=
  ∀ r ∈ rowsGlb ++ rowsLdr ++ rowsHwq ++ rowsIhm ++ rowsTrs ++ rowsSeq ++ rowsSsp ++ rowsFsh ++ rowsSca ++ rowsCmp ++ rowsOwb ++ rowsDp ++ rowsNmp ++ rowsIdx,
    (List.range r.count).all (fun i => (List.range r.count2).all (fun j => decide (findRow (r.base + i * r.stride + j * r.stride2) = some r))) = true

/-- The device after reset (R42 to R44, R436): PORST_N low, FAULT_N low, every register at the reset value of its row in the mirror and in force, with
those whose instances differ named (R123, R186, R343); every link down (PCIe, Ethernet, DisplayPort, board sync), no surface, no job, no head running,
no reference selected, nothing sent. What memory that nothing has written reads as is log entry 6. -/
def Obligations.AfterReset : Prop :=
  State.reset.powered = false ∧ State.reset.faultN = false ∧ State.reset.mgmt = false ∧ State.reset.pending = [] ∧ State.reset.out = [] ∧
  (∀ o r, findRow o = some r → o ≠ R.FSH_Wc_SHAPE 1 → o ≠ R.HWQ_QMAP2 → ¬ (R.SCA_MAPnn 0 ≤ o ∧ o ≤ R.SCA_MAPnn 19) →
    State.reset.rd o = r.reset ∧ State.reset.cfg o = r.reset) ∧
  (∀ o, State.reset.rd o = State.reset.cfg o) ∧
  (∀ l, l < 80 → bits (State.reset.rd (R.SCA_MAPnn (l / 4))) (8 * (l % 4) + 7) (8 * (l % 4)) = 22 * (l / 20) + l % 20) ∧
  bit (State.reset.rd R.HWQ_PCIE_STAT) 16 = false ∧ (∀ p, (State.reset.port p).link = false) ∧ (∀ d, d < 16 → dpLink State.reset d = 0) ∧
  State.reset.trs.bslLink = false ∧
  (∀ h, State.reset.surface h = none) ∧ (∀ h off, State.reset.byte h off = 0#8) ∧ (∀ q, (State.reset.queue q).job = none) ∧
  (∀ h, (State.reset.head h).state = .dark) ∧ (∀ m, (State.reset.master m).wq = []) ∧ State.reset.trs.sel = none ∧
  (∀ g, (State.reset.group g).commit = none) ∧ (∀ src, (State.reset.src src).level = 0) ∧
  State.reset.rd (R.FSH_Wc_SHAPE 1) = 0x80000400#32 ∧ State.reset.rd R.HWQ_QMAP2 = 0xAAAAAAAA#32
end

