-- ==== Sys2Proof/Laws/Bits.lean ====
section
/-!
SUPPORT. Single bits and fields of words after a field is replaced or a mask applied.
-/
namespace Sys2Proof.Machine

theorem bit_setBits (v : Word) (hi lo n i : Nat) (h : lo ≤ hi) (_h3 : hi < 32) (hi' : i < 32) :
    bit (setBits v hi lo n) i = if lo ≤ i ∧ i ≤ hi then n.testBit (i - lo) else bit v i := by
  have hp : 0 < 2 ^ (hi + 1 - lo) := Nat.two_pow_pos _
  have hq : 0 < 2 ^ lo := Nat.two_pow_pos _
  unfold bit setBits
  simp only [BitVec.toNat_ofNat, Nat.testBit_mod_two_pow]
  rw [decide_eq_true hi', Bool.true_and]
  have hlow : v.toNat % 2 ^ lo < 2 ^ lo := Nat.mod_lt _ hq
  have hmid : n % 2 ^ (hi + 1 - lo) < 2 ^ (hi + 1 - lo) := Nat.mod_lt _ hp
  have e : (v.toNat >>> (hi + 1)) <<< (hi + 1) + (n % 2 ^ (hi + 1 - lo)) <<< lo + v.toNat % 2 ^ lo =
      2 ^ lo * (2 ^ (hi + 1 - lo) * (v.toNat >>> (hi + 1)) + n % 2 ^ (hi + 1 - lo)) + v.toNat % 2 ^ lo := by
    rw [Nat.shiftLeft_eq, Nat.shiftLeft_eq, Nat.mul_add, ← Nat.mul_assoc, ← Nat.pow_add, show lo + (hi + 1 - lo) = hi + 1 by omega]
    ring
  rw [e, Nat.testBit_two_pow_mul_add _ hlow, Nat.testBit_two_pow_mul_add _ hmid]
  by_cases h1 : i < lo
  · rw [if_pos h1, if_neg (by omega), Nat.testBit_mod_two_pow]; simp [h1]
  · rw [if_neg h1]
    by_cases h2 : i ≤ hi
    · rw [if_pos (by omega), if_pos (by omega), Nat.testBit_mod_two_pow]; simp; omega
    · rw [if_neg (by omega), if_neg (by omega), Nat.testBit_shiftRight]; congr 1; omega

theorem bit_setBit (v : Word) (i j : Nat) (b : Bool) (hi : i < 32) (hj : j < 32) : bit (setBit v i b) j = if j = i then b else bit v j := by
  unfold setBit
  rw [bit_setBits v i i _ j (by omega) hi hj]
  by_cases h : j = i
  · subst h; rw [if_pos (by omega), if_pos rfl]; cases b <;> simp
  · rw [if_neg (by omega), if_neg h]

theorem word_ext {a b : Word} (h : ∀ i < 32, bit a i = bit b i) : a = b := by
  apply BitVec.eq_of_getLsbD_eq
  intro i hi
  simpa [bit, BitVec.testBit_toNat] using h i hi

theorem bit_and (a b : Word) (i : Nat) : bit (a &&& b) i = (bit a i && bit b i) := by
  simp [bit, BitVec.toNat_and, Nat.testBit_and]

theorem and_full (v : Word) : v &&& 0xFFFFFFFF#32 = v := by
  rw [show 0xFFFFFFFF#32 = BitVec.allOnes 32 by decide, BitVec.and_allOnes]

theorem bits_testBit (w : Word) (hi lo j : Nat) : (bits w hi lo).testBit j = (decide (j < hi + 1 - lo) && bit w (lo + j)) := by
  simp [bits, bit, Nat.testBit_mod_two_pow, Nat.testBit_shiftRight]

theorem bits_congr {a b : Word} {hi lo : Nat} (h : ∀ i, lo ≤ i → i ≤ hi → bit a i = bit b i) : bits a hi lo = bits b hi lo := by
  apply Nat.eq_of_testBit_eq
  intro j
  rw [bits_testBit, bits_testBit]
  by_cases hj : j < hi + 1 - lo
  · rw [h (lo + j) (by omega) (by omega)]
  · simp [hj]

/-- A bit outside a mask does not matter under it. -/
theorem setBit_and (v k : Word) (i : Nat) (b : Bool) (hi : i < 32) (hk : bit k i = false) : setBit v i b &&& k = v &&& k := by
  apply word_ext
  intro j hj
  rw [bit_and, bit_and, bit_setBit v i j b hi hj]
  by_cases h : j = i
  · subst h; simp [hk]
  · simp [h]

theorem bits_and (a b : Word) (hi lo : Nat) : bits (a &&& b) hi lo = bits a hi lo &&& bits b hi lo := by
  apply Nat.eq_of_testBit_eq
  intro i
  rw [Nat.testBit_and, bits_testBit, bits_testBit, bits_testBit, bit_and]
  cases decide (i < hi + 1 - lo) <;> simp

/-- A field wholly inside a mask survives it. -/
theorem bits_and_mask (v k : Word) (hi lo : Nat) (h : bits k hi lo = 2 ^ (hi + 1 - lo) - 1) : bits (v &&& k) hi lo = bits v hi lo := by
  rw [bits_and, h, Nat.and_two_pow_sub_one_eq_mod]
  simp [bits]

/-- A field just written reads as written. -/
theorem bits_setBits (v : Word) (hi lo n : Nat) (h : lo ≤ hi) (h3 : hi < 32) : bits (setBits v hi lo n) hi lo = n % 2 ^ (hi + 1 - lo) := by
  apply Nat.eq_of_testBit_eq
  intro j
  rw [bits_testBit, Nat.testBit_mod_two_pow]
  by_cases hj : j < hi + 1 - lo
  · rw [bit_setBits v hi lo n _ h h3 (by omega), if_pos (by omega)]
    simp
  · simp [hj]

/-- A field apart from a replaced bit stays. -/
theorem bits_setBit (v : Word) (hi lo i : Nat) (b : Bool) (hi' : i < 32) (hh : hi < 32) (h : i < lo ∨ hi < i) :
    bits (setBit v i b) hi lo = bits v hi lo :=
  bits_congr (fun j h1 h2 => by rw [bit_setBit v i j b hi' (by omega), if_neg (by omega)])

end Sys2Proof.Machine
end

