-- ==== Sys2Proof/Laws/KMap.lean ====
section
/-!
SUPPORT. Laws of the sparse maps: a read after a write, and that every operation keeps the canonical form.
-/
namespace Sys2Proof.Machine

variable {α : Type} (d : Nat → α)

-- A read after a write.

theorem kget_kput (m : KMap α) (k k' : Nat) (v : α) : kget d (kput m k v) k' = if k' = k then v else kget d m k' := by
  induction m with
  | nil => simp [kput, kget]
  | cons e m ih =>
    obtain ⟨a, b⟩ := e
    simp only [kput]
    by_cases h1 : k = a
    · subst h1; by_cases h2 : k' = k <;> simp [kget, h2]
    · by_cases h3 : k < a
      · by_cases h2 : k' = k <;> simp [kget, h1, h2, h3]
      · by_cases h2 : k' = a
        · subst h2; simp [kget, h1, h3, Ne.symm h1]
        · simp [kget, h1, h2, h3, ih]

theorem kget_kdel (m : KMap α) (k k' : Nat) : kget d (kdel m k) k' = if k' = k then d k' else kget d m k' := by
  induction m with
  | nil => simp [kdel, kget]
  | cons e m ih =>
    obtain ⟨a, b⟩ := e
    by_cases h1 : k = a
    · subst h1
      by_cases h2 : k' = k
      · subst h2; simpa [kdel] using ih
      · simp [kdel, kget, h2, ih]
    · by_cases h2 : k' = a
      · subst h2; simp [kdel, kget, h1, Ne.symm h1]
      · simp [kdel, kget, h1, h2, ih]

theorem kget_kset [DecidableEq α] (m : KMap α) (k k' : Nat) (v : α) :
    kget d (kset d m k v) k' = if k' = k then v else kget d m k' := by
  unfold kset
  split
  · next h => rw [kget_kdel]; split <;> simp_all
  · exact kget_kput d m k k' v

@[simp] theorem kget_kset_self [DecidableEq α] (m : KMap α) (k : Nat) (v : α) : kget d (kset d m k v) k = v := by
  simp [kget_kset]

theorem kget_kset_ne [DecidableEq α] (m : KMap α) {k k' : Nat} (v : α) (h : k' ≠ k) :
    kget d (kset d m k v) k' = kget d m k' := by simp [kget_kset, h]

@[simp] theorem kget_nil (k : Nat) : kget d [] k = d k := rfl

theorem kget_append (m n : KMap α) (k : Nat) :
    kget d (m ++ n) k = if k ∈ m.map Prod.fst then kget d m k else kget d n k := by
  induction m with
  | nil => simp
  | cons e m ih =>
    obtain ⟨a, b⟩ := e
    by_cases h : k = a
    · simp [kget, h]
    · simp only [List.cons_append, kget, ih, List.map_cons, List.mem_cons, h, false_or, if_false]

theorem kget_filter (m : KMap α) (p : Nat × α → Bool) (k : Nat) (h : ∀ v, p (k, v) = true) :
    kget d (m.filter p) k = kget d m k := by
  induction m with
  | nil => rfl
  | cons e m ih =>
    obtain ⟨a, b⟩ := e
    by_cases h2 : k = a
    · subst h2; simp [h, kget]
    · by_cases h3 : p (a, b) = true <;> simp [h3, kget, h2, ih]

theorem kget_of_not_mem (m : KMap α) (k : Nat) (h : k ∉ m.map Prod.fst) : kget d m k = d k := by
  induction m with
  | nil => rfl
  | cons e m ih =>
    obtain ⟨a, b⟩ := e
    simp only [List.map_cons, List.mem_cons, not_or] at h
    simp [kget, h.1, ih h.2]

theorem kblock_keys [DecidableEq α] (vs : List α) (k k' : Nat) (h : k' ∈ (kblock d k vs).map Prod.fst) :
    k ≤ k' ∧ k' < k + vs.length := by
  induction vs generalizing k with
  | nil => simp [kblock] at h
  | cons v vs ih =>
    simp only [kblock] at h
    split at h
    · have := ih (k + 1) h; simp only [List.length_cons]; omega
    · simp only [List.map_cons, List.mem_cons] at h
      rcases h with h | h
      · subst h; simp only [List.length_cons]; omega
      · have := ih (k + 1) h; simp only [List.length_cons]; omega

theorem kget_kblock [DecidableEq α] (vs : List α) (k k' : Nat) (h1 : k ≤ k') (h2 : k' < k + vs.length) :
    kget d (kblock d k vs) k' = vs.getD (k' - k) (d k') := by
  induction vs generalizing k with
  | nil => simp at h2; omega
  | cons v vs ih =>
    simp only [List.length_cons] at h2
    by_cases h3 : k' = k
    · subst h3
      simp only [kblock]
      split
      · next h =>
        rw [kget_of_not_mem]
        · simp [h]
        · intro hm; have := kblock_keys d vs (k' + 1) k' hm; omega
      · simp [kget]
    · have h4 : k + 1 ≤ k' := by omega
      have := ih (k + 1) h4 (by omega)
      have h5 : k' - k = (k' - (k + 1)) + 1 := by omega
      simp only [kblock]
      split
      · rw [this, h5, List.getD_cons_succ]
      · simp only [kget, h3, if_false]
        rw [this, h5, List.getD_cons_succ]

/-- A read after a block write: the value written inside the block, the old one outside. -/
theorem kget_kputs [DecidableEq α] (m : KMap α) (k k' : Nat) (vs : List α) :
    kget d (kputs d m k vs) k' = if k ≤ k' ∧ k' < k + vs.length then vs.getD (k' - k) (d k') else kget d m k' := by
  simp only [kputs, List.append_assoc]
  by_cases h1 : k' < k
  · have h0 : ¬ (k ≤ k' ∧ k' < k + vs.length) := by omega
    rw [if_neg h0, kget_append]
    split
    · exact kget_filter d m _ k' (by simp [h1])
    · next hm =>
      rw [kget_append, if_neg, kget_of_not_mem, kget_of_not_mem]
      · intro hc; apply hm; simp only [List.mem_map, List.mem_filter] at hc ⊢
        obtain ⟨e, he, rfl⟩ := hc; exact ⟨e, ⟨he, by simpa using h1⟩, rfl⟩
      · intro hc; simp only [List.mem_map, List.mem_filter, decide_eq_true_eq] at hc
        obtain ⟨e, ⟨_, h2⟩, rfl⟩ := hc; omega
      · intro hc; have := kblock_keys d vs k k' hc; omega
  · rw [kget_append, if_neg]
    · rw [kget_append]
      by_cases h2 : k' < k + vs.length
      · rw [if_pos (show k ≤ k' ∧ k' < k + vs.length from ⟨by omega, h2⟩)]
        split
        · exact kget_kblock d vs k k' (by omega) h2
        · next hm =>
          have := kget_kblock d vs k k' (by omega) h2
          rw [kget_of_not_mem d _ _ hm] at this
          rw [← this, kget_of_not_mem]
          intro hc; simp only [List.mem_map, List.mem_filter, decide_eq_true_eq] at hc
          obtain ⟨e, ⟨_, h2⟩, rfl⟩ := hc; omega
      · rw [if_neg (show ¬ (k ≤ k' ∧ k' < k + vs.length) by omega), if_neg]
        · exact kget_filter d m _ k' (by simp; omega)
        · intro hc; have := kblock_keys d vs k k' hc; omega
    · intro hc; simp only [List.mem_map, List.mem_filter, decide_eq_true_eq] at hc
      obtain ⟨e, ⟨_, h2⟩, rfl⟩ := hc; omega

/-- A read after a range is dropped. -/
theorem kget_kclear (m : KMap α) (lo hi k : Nat) :
    kget d (kclear m lo hi) k = if lo ≤ k ∧ k < hi then d k else kget d m k := by
  induction m with
  | nil => simp [kclear]
  | cons e m ih =>
    obtain ⟨a, b⟩ := e
    simp only [kclear]
    by_cases h1 : lo ≤ a ∧ a < hi
    · rw [if_pos h1, ih]
      split
      · rfl
      · next h2 => have : k ≠ a := by rintro rfl; exact h2 h1
                   simp [kget, this]
    · rw [if_neg h1]
      by_cases h2 : k = a
      · subst h2; simp [kget, h1]
      · simp [kget, h2, ih]

-- The canonical form.

variable [DecidableEq α]

theorem kwfFrom_mono (m : KMap α) {lo lo' : Nat} (h : lo' ≤ lo) (hm : kwfFrom d lo m = true) : kwfFrom d lo' m = true := by
  cases m with
  | nil => rfl
  | cons e m =>
    obtain ⟨a, b⟩ := e
    simp only [kwfFrom, Bool.and_eq_true, decide_eq_true_eq] at hm ⊢
    exact ⟨⟨by omega, hm.1.2⟩, hm.2⟩

theorem kwfFrom_kput (m : KMap α) (lo k : Nat) (v : α) (hv : v ≠ d k) (hk : lo ≤ k) (hm : kwfFrom d lo m = true) :
    kwfFrom d lo (kput m k v) = true := by
  induction m generalizing lo with
  | nil => simp [kput, kwfFrom, hv, hk]
  | cons e m ih =>
    obtain ⟨a, b⟩ := e
    simp only [kwfFrom, Bool.and_eq_true, decide_eq_true_eq] at hm
    obtain ⟨⟨h1, h2⟩, h3⟩ := hm
    simp only [kput]
    split
    · next h => subst h; simp [kwfFrom, hv, hk, h3]
    · split
      · next h => simp only [kwfFrom, Bool.and_eq_true, decide_eq_true_eq]
                  exact ⟨⟨hk, hv⟩, ⟨by omega, h2⟩, h3⟩
      · next h h' => simp only [kwfFrom, Bool.and_eq_true, decide_eq_true_eq]
                     exact ⟨⟨h1, h2⟩, ih (a + 1) (by omega) h3⟩

theorem kwfFrom_kdel (m : KMap α) (lo k : Nat) (hm : kwfFrom d lo m = true) : kwfFrom d lo (kdel m k) = true := by
  induction m generalizing lo with
  | nil => rfl
  | cons e m ih =>
    obtain ⟨a, b⟩ := e
    simp only [kwfFrom, Bool.and_eq_true, decide_eq_true_eq] at hm
    simp only [kdel]
    split
    · exact kwfFrom_mono d _ (by omega) (ih (a + 1) hm.2)
    · simp only [kwfFrom, Bool.and_eq_true, decide_eq_true_eq]; exact ⟨hm.1, ih (a + 1) hm.2⟩

/-- A write of one key keeps the canonical form. -/
theorem kwf_kset (m : KMap α) (k : Nat) (v : α) (hm : kwf d m = true) : kwf d (kset d m k v) = true := by
  unfold kset
  split
  · exact kwfFrom_kdel d m 0 k hm
  · next h => exact kwfFrom_kput d m 0 k v h (Nat.zero_le _) hm

theorem kwfFrom_filter (m : KMap α) (p : Nat × α → Bool) (lo : Nat) (hm : kwfFrom d lo m = true) :
    kwfFrom d lo (m.filter p) = true := by
  induction m generalizing lo with
  | nil => rfl
  | cons e m ih =>
    obtain ⟨a, b⟩ := e
    simp only [kwfFrom, Bool.and_eq_true, decide_eq_true_eq] at hm
    by_cases h : p (a, b) = true
    · simp only [List.filter_cons, h, if_true, kwfFrom, Bool.and_eq_true, decide_eq_true_eq]
      exact ⟨hm.1, ih (a + 1) hm.2⟩
    · simp only [List.filter_cons, h]
      exact kwfFrom_mono d _ (by omega) (ih (a + 1) hm.2)

/-- Dropping a range keeps the canonical form. -/
theorem kwf_kclear (m : KMap α) (lo hi : Nat) (hm : kwf d m = true) : kwf d (kclear m lo hi) = true := by
  have : kclear m lo hi = m.filter (fun e => !(decide (lo ≤ e.1) && decide (e.1 < hi))) := by
    clear hm
    induction m with
    | nil => rfl
    | cons e m ih =>
      obtain ⟨a, b⟩ := e
      simp only [kclear, List.filter_cons, ih]
      by_cases h : lo ≤ a ∧ a < hi
      · simp [h]
      · rw [if_neg h]
        have : (!(decide (lo ≤ a) && decide (a < hi))) = true := by
          simp only [Bool.not_eq_true', Bool.and_eq_false_iff, decide_eq_false_iff_not]; omega
        simp [this]
  rw [this]
  exact kwfFrom_filter d m _ 0 hm

theorem kwfFrom_append (m n : KMap α) (lo hi : Nat) (hlo : lo ≤ hi) (hm : kwfFrom d lo m = true)
    (hb : ∀ e ∈ m, e.1 < hi) (hn : kwfFrom d hi n = true) : kwfFrom d lo (m ++ n) = true := by
  induction m generalizing lo with
  | nil => exact kwfFrom_mono d n hlo hn
  | cons e m ih =>
    obtain ⟨a, b⟩ := e
    simp only [kwfFrom, Bool.and_eq_true, decide_eq_true_eq] at hm
    have h1 : a < hi := hb (a, b) (List.mem_cons_self ..)
    simp only [List.cons_append, kwfFrom, Bool.and_eq_true, decide_eq_true_eq]
    exact ⟨hm.1, ih (a + 1) (by omega) hm.2 (fun e he => hb e (List.mem_cons_of_mem _ he))⟩

theorem kwfFrom_kblock (vs : List α) (k : Nat) : kwfFrom d k (kblock d k vs) = true := by
  induction vs generalizing k with
  | nil => rfl
  | cons v vs ih =>
    simp only [kblock]
    split
    · exact kwfFrom_mono d _ (by omega) (ih (k + 1))
    · next h => simp [kwfFrom, h, ih (k + 1)]

theorem kwfFrom_drop (m : KMap α) (lo hi : Nat) (hm : kwfFrom d lo m = true) :
    kwfFrom d hi (m.filter (fun e => decide (hi ≤ e.1))) = true := by
  induction m generalizing lo with
  | nil => rfl
  | cons e m ih =>
    obtain ⟨a, b⟩ := e
    simp only [kwfFrom, Bool.and_eq_true, decide_eq_true_eq] at hm
    by_cases h : hi ≤ a
    · simp only [List.filter_cons, h, decide_true, if_true, kwfFrom, Bool.and_eq_true, decide_eq_true_eq]
      exact ⟨⟨trivial, hm.1.2⟩, kwfFrom_filter d m _ (a + 1) hm.2⟩
    · simp only [List.filter_cons, h, decide_false]
      exact ih (a + 1) hm.2

/-- A block write keeps the canonical form. -/
theorem kwf_kputs (m : KMap α) (k : Nat) (vs : List α) (hm : kwf d m = true) : kwf d (kputs d m k vs) = true := by
  simp only [kputs, kwf, List.append_assoc]
  refine kwfFrom_append d _ _ 0 k (Nat.zero_le _) (kwfFrom_filter d m _ 0 hm) ?_ ?_
  · intro e he; simp only [List.mem_filter, decide_eq_true_eq] at he; exact he.2
  · refine kwfFrom_append d _ _ k (k + vs.length) (by omega) (kwfFrom_kblock d vs k) ?_ (kwfFrom_drop d m 0 _ hm)
    intro e he
    exact (kblock_keys d vs k e.1 (List.mem_map_of_mem he)).2

end Sys2Proof.Machine
end

