-- ==== Sys2Proof/Laws/State.lean ====
section
/-!
SUPPORT. What each update of the state leaves and what it sets, one lemma per field and update, each true by `rfl`; a later proof need
not unfold a record update.
-/
namespace Sys2Proof.Machine.State

variable (s t : State)

-- wr
@[simp] theorem wr_variant (o : Nat) (v : Word) : (s.wr o v).variant = s.variant := (rfl)
@[simp] theorem wr_powered (o : Nat) (v : Word) : (s.wr o v).powered = s.powered := (rfl)
@[simp] theorem wr_mgmt (o : Nat) (v : Word) : (s.wr o v).mgmt = s.mgmt := (rfl)
@[simp] theorem wr_dead (o : Nat) (v : Word) : (s.wr o v).dead = s.dead := (rfl)
@[simp] theorem wr_regs (o : Nat) (v : Word) : (s.wr o v).regs = kset regReset s.regs o v := (rfl)
@[simp] theorem wr_unit (o : Nat) (v : Word) : (s.wr o v).unit = s.unit := (rfl)
@[simp] theorem wr_deck (o : Nat) (v : Word) : (s.wr o v).deck = s.deck := (rfl)
@[simp] theorem wr_spaces (o : Nat) (v : Word) : (s.wr o v).spaces = s.spaces := (rfl)
@[simp] theorem wr_live (o : Nat) (v : Word) : (s.wr o v).live = s.live := (rfl)
@[simp] theorem wr_failing (o : Nat) (v : Word) : (s.wr o v).failing = s.failing := (rfl)
@[simp] theorem wr_failingPend (o : Nat) (v : Word) : (s.wr o v).failingPend = s.failingPend := (rfl)
@[simp] theorem wr_mended (o : Nat) (v : Word) : (s.wr o v).mended = s.mended := (rfl)
@[simp] theorem wr_lmp (o : Nat) (v : Word) : (s.wr o v).lmp = s.lmp := (rfl)
@[simp] theorem wr_pf0 (o : Nat) (v : Word) : (s.wr o v).pf0 = s.pf0 := (rfl)
@[simp] theorem wr_pf1 (o : Nat) (v : Word) : (s.wr o v).pf1 = s.pf1 := (rfl)
@[simp] theorem wr_col (o : Nat) (v : Word) : (s.wr o v).col = s.col := (rfl)
@[simp] theorem wr_queues (o : Nat) (v : Word) : (s.wr o v).queues = s.queues := (rfl)
@[simp] theorem wr_f0 (o : Nat) (v : Word) : (s.wr o v).f0 = s.f0 := (rfl)
@[simp] theorem wr_f1 (o : Nat) (v : Word) : (s.wr o v).f1 = s.f1 := (rfl)
@[simp] theorem wr_ldr (o : Nat) (v : Word) : (s.wr o v).ldr = s.ldr := (rfl)
@[simp] theorem wr_store (o : Nat) (v : Word) : (s.wr o v).store = s.store := (rfl)
@[simp] theorem wr_hbm (o : Nat) (v : Word) : (s.wr o v).hbm = s.hbm := (rfl)
@[simp] theorem wr_safe (o : Nat) (v : Word) : (s.wr o v).safe = s.safe := (rfl)
@[simp] theorem wr_heads (o : Nat) (v : Word) : (s.wr o v).heads = s.heads := (rfl)
@[simp] theorem wr_dps (o : Nat) (v : Word) : (s.wr o v).dps = s.dps := (rfl)
@[simp] theorem wr_groups (o : Nat) (v : Word) : (s.wr o v).groups = s.groups := (rfl)
@[simp] theorem wr_planQ (o : Nat) (v : Word) : (s.wr o v).planQ = s.planQ := (rfl)
@[simp] theorem wr_planning (o : Nat) (v : Word) : (s.wr o v).planning = s.planning := (rfl)
@[simp] theorem wr_tiles (o : Nat) (v : Word) : (s.wr o v).tiles = s.tiles := (rfl)
@[simp] theorem wr_scalers (o : Nat) (v : Word) : (s.wr o v).scalers = s.scalers := (rfl)
@[simp] theorem wr_fsh (o : Nat) (v : Word) : (s.wr o v).fsh = s.fsh := (rfl)
@[simp] theorem wr_rods (o : Nat) (v : Word) : (s.wr o v).rods = s.rods := (rfl)
@[simp] theorem wr_signs (o : Nat) (v : Word) : (s.wr o v).signs = s.signs := (rfl)
@[simp] theorem wr_ports (o : Nat) (v : Word) : (s.wr o v).ports = s.ports := (rfl)
@[simp] theorem wr_rx (o : Nat) (v : Word) : (s.wr o v).rx = s.rx := (rfl)
@[simp] theorem wr_tx (o : Nat) (v : Word) : (s.wr o v).tx = s.tx := (rfl)
@[simp] theorem wr_trs (o : Nat) (v : Word) : (s.wr o v).trs = s.trs := (rfl)
@[simp] theorem wr_health (o : Nat) (v : Word) : (s.wr o v).health = s.health := (rfl)
@[simp] theorem wr_out (o : Nat) (v : Word) : (s.wr o v).out = s.out := (rfl)
@[simp] theorem wr_time (o : Nat) (v : Word) : (s.wr o v).time = s.time := (rfl)
@[simp] theorem wr_frac (o : Nat) (v : Word) : (s.wr o v).frac = s.frac := (rfl)
@[simp] theorem wr_up (o : Nat) (v : Word) : (s.wr o v).up = s.up := (rfl)
@[simp] theorem wr_fresh (o : Nat) (v : Word) : (s.wr o v).fresh = s.fresh := (rfl)
@[simp] theorem wr_pending (o : Nat) (v : Word) : (s.wr o v).pending = s.pending := (rfl)

-- setCfg
@[simp] theorem setCfg_variant (o : Nat) (v : Word) : (s.setCfg o v).variant = s.variant := (rfl)
@[simp] theorem setCfg_powered (o : Nat) (v : Word) : (s.setCfg o v).powered = s.powered := (rfl)
@[simp] theorem setCfg_mgmt (o : Nat) (v : Word) : (s.setCfg o v).mgmt = s.mgmt := (rfl)
@[simp] theorem setCfg_dead (o : Nat) (v : Word) : (s.setCfg o v).dead = s.dead := (rfl)
@[simp] theorem setCfg_regs (o : Nat) (v : Word) : (s.setCfg o v).regs = s.regs := (rfl)
@[simp] theorem setCfg_unit (o : Nat) (v : Word) : (s.setCfg o v).unit = kset regReset s.unit o v := (rfl)
@[simp] theorem setCfg_deck (o : Nat) (v : Word) : (s.setCfg o v).deck = s.deck := (rfl)
@[simp] theorem setCfg_spaces (o : Nat) (v : Word) : (s.setCfg o v).spaces = s.spaces := (rfl)
@[simp] theorem setCfg_live (o : Nat) (v : Word) : (s.setCfg o v).live = s.live := (rfl)
@[simp] theorem setCfg_failing (o : Nat) (v : Word) : (s.setCfg o v).failing = s.failing := (rfl)
@[simp] theorem setCfg_failingPend (o : Nat) (v : Word) : (s.setCfg o v).failingPend = s.failingPend := (rfl)
@[simp] theorem setCfg_mended (o : Nat) (v : Word) : (s.setCfg o v).mended = s.mended := (rfl)
@[simp] theorem setCfg_lmp (o : Nat) (v : Word) : (s.setCfg o v).lmp = s.lmp := (rfl)
@[simp] theorem setCfg_pf0 (o : Nat) (v : Word) : (s.setCfg o v).pf0 = s.pf0 := (rfl)
@[simp] theorem setCfg_pf1 (o : Nat) (v : Word) : (s.setCfg o v).pf1 = s.pf1 := (rfl)
@[simp] theorem setCfg_queues (o : Nat) (v : Word) : (s.setCfg o v).queues = s.queues := (rfl)
@[simp] theorem setCfg_f0 (o : Nat) (v : Word) : (s.setCfg o v).f0 = s.f0 := (rfl)
@[simp] theorem setCfg_f1 (o : Nat) (v : Word) : (s.setCfg o v).f1 = s.f1 := (rfl)
@[simp] theorem setCfg_ldr (o : Nat) (v : Word) : (s.setCfg o v).ldr = s.ldr := (rfl)
@[simp] theorem setCfg_store (o : Nat) (v : Word) : (s.setCfg o v).store = s.store := (rfl)
@[simp] theorem setCfg_hbm (o : Nat) (v : Word) : (s.setCfg o v).hbm = s.hbm := (rfl)
@[simp] theorem setCfg_safe (o : Nat) (v : Word) : (s.setCfg o v).safe = s.safe := (rfl)
@[simp] theorem setCfg_heads (o : Nat) (v : Word) : (s.setCfg o v).heads = s.heads := (rfl)
@[simp] theorem setCfg_dps (o : Nat) (v : Word) : (s.setCfg o v).dps = s.dps := (rfl)
@[simp] theorem setCfg_groups (o : Nat) (v : Word) : (s.setCfg o v).groups = s.groups := (rfl)
@[simp] theorem setCfg_planQ (o : Nat) (v : Word) : (s.setCfg o v).planQ = s.planQ := (rfl)
@[simp] theorem setCfg_planning (o : Nat) (v : Word) : (s.setCfg o v).planning = s.planning := (rfl)
@[simp] theorem setCfg_tiles (o : Nat) (v : Word) : (s.setCfg o v).tiles = s.tiles := (rfl)
@[simp] theorem setCfg_scalers (o : Nat) (v : Word) : (s.setCfg o v).scalers = s.scalers := (rfl)
@[simp] theorem setCfg_fsh (o : Nat) (v : Word) : (s.setCfg o v).fsh = s.fsh := (rfl)
@[simp] theorem setCfg_rods (o : Nat) (v : Word) : (s.setCfg o v).rods = s.rods := (rfl)
@[simp] theorem setCfg_signs (o : Nat) (v : Word) : (s.setCfg o v).signs = s.signs := (rfl)
@[simp] theorem setCfg_ports (o : Nat) (v : Word) : (s.setCfg o v).ports = s.ports := (rfl)
@[simp] theorem setCfg_rx (o : Nat) (v : Word) : (s.setCfg o v).rx = s.rx := (rfl)
@[simp] theorem setCfg_tx (o : Nat) (v : Word) : (s.setCfg o v).tx = s.tx := (rfl)
@[simp] theorem setCfg_trs (o : Nat) (v : Word) : (s.setCfg o v).trs = s.trs := (rfl)
@[simp] theorem setCfg_health (o : Nat) (v : Word) : (s.setCfg o v).health = s.health := (rfl)
@[simp] theorem setCfg_out (o : Nat) (v : Word) : (s.setCfg o v).out = s.out := (rfl)
@[simp] theorem setCfg_time (o : Nat) (v : Word) : (s.setCfg o v).time = s.time := (rfl)
@[simp] theorem setCfg_frac (o : Nat) (v : Word) : (s.setCfg o v).frac = s.frac := (rfl)
@[simp] theorem setCfg_up (o : Nat) (v : Word) : (s.setCfg o v).up = s.up := (rfl)
@[simp] theorem setCfg_fresh (o : Nat) (v : Word) : (s.setCfg o v).fresh = s.fresh := (rfl)
@[simp] theorem setCfg_pending (o : Nat) (v : Word) : (s.setCfg o v).pending = s.pending := (rfl)

-- setDk
@[simp] theorem setDk_variant (o : Nat) (v : Word) : (s.setDk o v).variant = s.variant := (rfl)
@[simp] theorem setDk_powered (o : Nat) (v : Word) : (s.setDk o v).powered = s.powered := (rfl)
@[simp] theorem setDk_mgmt (o : Nat) (v : Word) : (s.setDk o v).mgmt = s.mgmt := (rfl)
@[simp] theorem setDk_dead (o : Nat) (v : Word) : (s.setDk o v).dead = s.dead := (rfl)
@[simp] theorem setDk_regs (o : Nat) (v : Word) : (s.setDk o v).regs = s.regs := (rfl)
@[simp] theorem setDk_unit (o : Nat) (v : Word) : (s.setDk o v).unit = s.unit := (rfl)
@[simp] theorem setDk_deck (o : Nat) (v : Word) : (s.setDk o v).deck = kset regReset s.deck o v := (rfl)
@[simp] theorem setDk_spaces (o : Nat) (v : Word) : (s.setDk o v).spaces = s.spaces := (rfl)
@[simp] theorem setDk_live (o : Nat) (v : Word) : (s.setDk o v).live = s.live := (rfl)
@[simp] theorem setDk_failing (o : Nat) (v : Word) : (s.setDk o v).failing = s.failing := (rfl)
@[simp] theorem setDk_failingPend (o : Nat) (v : Word) : (s.setDk o v).failingPend = s.failingPend := (rfl)
@[simp] theorem setDk_mended (o : Nat) (v : Word) : (s.setDk o v).mended = s.mended := (rfl)
@[simp] theorem setDk_lmp (o : Nat) (v : Word) : (s.setDk o v).lmp = s.lmp := (rfl)
@[simp] theorem setDk_pf0 (o : Nat) (v : Word) : (s.setDk o v).pf0 = s.pf0 := (rfl)
@[simp] theorem setDk_pf1 (o : Nat) (v : Word) : (s.setDk o v).pf1 = s.pf1 := (rfl)
@[simp] theorem setDk_col (o : Nat) (v : Word) : (s.setDk o v).col = s.col := (rfl)
@[simp] theorem setDk_queues (o : Nat) (v : Word) : (s.setDk o v).queues = s.queues := (rfl)
@[simp] theorem setDk_f0 (o : Nat) (v : Word) : (s.setDk o v).f0 = s.f0 := (rfl)
@[simp] theorem setDk_f1 (o : Nat) (v : Word) : (s.setDk o v).f1 = s.f1 := (rfl)
@[simp] theorem setDk_ldr (o : Nat) (v : Word) : (s.setDk o v).ldr = s.ldr := (rfl)
@[simp] theorem setDk_store (o : Nat) (v : Word) : (s.setDk o v).store = s.store := (rfl)
@[simp] theorem setDk_hbm (o : Nat) (v : Word) : (s.setDk o v).hbm = s.hbm := (rfl)
@[simp] theorem setDk_safe (o : Nat) (v : Word) : (s.setDk o v).safe = s.safe := (rfl)
@[simp] theorem setDk_heads (o : Nat) (v : Word) : (s.setDk o v).heads = s.heads := (rfl)
@[simp] theorem setDk_dps (o : Nat) (v : Word) : (s.setDk o v).dps = s.dps := (rfl)
@[simp] theorem setDk_groups (o : Nat) (v : Word) : (s.setDk o v).groups = s.groups := (rfl)
@[simp] theorem setDk_planQ (o : Nat) (v : Word) : (s.setDk o v).planQ = s.planQ := (rfl)
@[simp] theorem setDk_planning (o : Nat) (v : Word) : (s.setDk o v).planning = s.planning := (rfl)
@[simp] theorem setDk_tiles (o : Nat) (v : Word) : (s.setDk o v).tiles = s.tiles := (rfl)
@[simp] theorem setDk_scalers (o : Nat) (v : Word) : (s.setDk o v).scalers = s.scalers := (rfl)
@[simp] theorem setDk_fsh (o : Nat) (v : Word) : (s.setDk o v).fsh = s.fsh := (rfl)
@[simp] theorem setDk_rods (o : Nat) (v : Word) : (s.setDk o v).rods = s.rods := (rfl)
@[simp] theorem setDk_signs (o : Nat) (v : Word) : (s.setDk o v).signs = s.signs := (rfl)
@[simp] theorem setDk_ports (o : Nat) (v : Word) : (s.setDk o v).ports = s.ports := (rfl)
@[simp] theorem setDk_rx (o : Nat) (v : Word) : (s.setDk o v).rx = s.rx := (rfl)
@[simp] theorem setDk_tx (o : Nat) (v : Word) : (s.setDk o v).tx = s.tx := (rfl)
@[simp] theorem setDk_trs (o : Nat) (v : Word) : (s.setDk o v).trs = s.trs := (rfl)
@[simp] theorem setDk_health (o : Nat) (v : Word) : (s.setDk o v).health = s.health := (rfl)
@[simp] theorem setDk_out (o : Nat) (v : Word) : (s.setDk o v).out = s.out := (rfl)
@[simp] theorem setDk_time (o : Nat) (v : Word) : (s.setDk o v).time = s.time := (rfl)
@[simp] theorem setDk_frac (o : Nat) (v : Word) : (s.setDk o v).frac = s.frac := (rfl)
@[simp] theorem setDk_up (o : Nat) (v : Word) : (s.setDk o v).up = s.up := (rfl)
@[simp] theorem setDk_fresh (o : Nat) (v : Word) : (s.setDk o v).fresh = s.fresh := (rfl)
@[simp] theorem setDk_pending (o : Nat) (v : Word) : (s.setDk o v).pending = s.pending := (rfl)

-- setSp
@[simp] theorem setSp_variant (k : Nat) (v : Word) : (s.setSp k v).variant = s.variant := (rfl)
@[simp] theorem setSp_powered (k : Nat) (v : Word) : (s.setSp k v).powered = s.powered := (rfl)
@[simp] theorem setSp_mgmt (k : Nat) (v : Word) : (s.setSp k v).mgmt = s.mgmt := (rfl)
@[simp] theorem setSp_dead (k : Nat) (v : Word) : (s.setSp k v).dead = s.dead := (rfl)
@[simp] theorem setSp_regs (k : Nat) (v : Word) : (s.setSp k v).regs = s.regs := (rfl)
@[simp] theorem setSp_unit (k : Nat) (v : Word) : (s.setSp k v).unit = s.unit := (rfl)
@[simp] theorem setSp_deck (k : Nat) (v : Word) : (s.setSp k v).deck = s.deck := (rfl)
@[simp] theorem setSp_spaces (k : Nat) (v : Word) : (s.setSp k v).spaces = kset spaceReset s.spaces k v := (rfl)
@[simp] theorem setSp_live (k : Nat) (v : Word) : (s.setSp k v).live = s.live := (rfl)
@[simp] theorem setSp_failing (k : Nat) (v : Word) : (s.setSp k v).failing = s.failing := (rfl)
@[simp] theorem setSp_failingPend (k : Nat) (v : Word) : (s.setSp k v).failingPend = s.failingPend := (rfl)
@[simp] theorem setSp_mended (k : Nat) (v : Word) : (s.setSp k v).mended = s.mended := (rfl)
@[simp] theorem setSp_lmp (k : Nat) (v : Word) : (s.setSp k v).lmp = s.lmp := (rfl)
@[simp] theorem setSp_pf0 (k : Nat) (v : Word) : (s.setSp k v).pf0 = s.pf0 := (rfl)
@[simp] theorem setSp_pf1 (k : Nat) (v : Word) : (s.setSp k v).pf1 = s.pf1 := (rfl)
@[simp] theorem setSp_col (k : Nat) (v : Word) : (s.setSp k v).col = s.col := (rfl)
@[simp] theorem setSp_queues (k : Nat) (v : Word) : (s.setSp k v).queues = s.queues := (rfl)
@[simp] theorem setSp_f0 (k : Nat) (v : Word) : (s.setSp k v).f0 = s.f0 := (rfl)
@[simp] theorem setSp_f1 (k : Nat) (v : Word) : (s.setSp k v).f1 = s.f1 := (rfl)
@[simp] theorem setSp_ldr (k : Nat) (v : Word) : (s.setSp k v).ldr = s.ldr := (rfl)
@[simp] theorem setSp_store (k : Nat) (v : Word) : (s.setSp k v).store = s.store := (rfl)
@[simp] theorem setSp_hbm (k : Nat) (v : Word) : (s.setSp k v).hbm = s.hbm := (rfl)
@[simp] theorem setSp_safe (k : Nat) (v : Word) : (s.setSp k v).safe = s.safe := (rfl)
@[simp] theorem setSp_heads (k : Nat) (v : Word) : (s.setSp k v).heads = s.heads := (rfl)
@[simp] theorem setSp_dps (k : Nat) (v : Word) : (s.setSp k v).dps = s.dps := (rfl)
@[simp] theorem setSp_groups (k : Nat) (v : Word) : (s.setSp k v).groups = s.groups := (rfl)
@[simp] theorem setSp_planQ (k : Nat) (v : Word) : (s.setSp k v).planQ = s.planQ := (rfl)
@[simp] theorem setSp_planning (k : Nat) (v : Word) : (s.setSp k v).planning = s.planning := (rfl)
@[simp] theorem setSp_tiles (k : Nat) (v : Word) : (s.setSp k v).tiles = s.tiles := (rfl)
@[simp] theorem setSp_scalers (k : Nat) (v : Word) : (s.setSp k v).scalers = s.scalers := (rfl)
@[simp] theorem setSp_fsh (k : Nat) (v : Word) : (s.setSp k v).fsh = s.fsh := (rfl)
@[simp] theorem setSp_rods (k : Nat) (v : Word) : (s.setSp k v).rods = s.rods := (rfl)
@[simp] theorem setSp_signs (k : Nat) (v : Word) : (s.setSp k v).signs = s.signs := (rfl)
@[simp] theorem setSp_ports (k : Nat) (v : Word) : (s.setSp k v).ports = s.ports := (rfl)
@[simp] theorem setSp_rx (k : Nat) (v : Word) : (s.setSp k v).rx = s.rx := (rfl)
@[simp] theorem setSp_tx (k : Nat) (v : Word) : (s.setSp k v).tx = s.tx := (rfl)
@[simp] theorem setSp_trs (k : Nat) (v : Word) : (s.setSp k v).trs = s.trs := (rfl)
@[simp] theorem setSp_health (k : Nat) (v : Word) : (s.setSp k v).health = s.health := (rfl)
@[simp] theorem setSp_out (k : Nat) (v : Word) : (s.setSp k v).out = s.out := (rfl)
@[simp] theorem setSp_time (k : Nat) (v : Word) : (s.setSp k v).time = s.time := (rfl)
@[simp] theorem setSp_frac (k : Nat) (v : Word) : (s.setSp k v).frac = s.frac := (rfl)
@[simp] theorem setSp_up (k : Nat) (v : Word) : (s.setSp k v).up = s.up := (rfl)
@[simp] theorem setSp_fresh (k : Nat) (v : Word) : (s.setSp k v).fresh = s.fresh := (rfl)
@[simp] theorem setSp_pending (k : Nat) (v : Word) : (s.setSp k v).pending = s.pending := (rfl)

-- setLv
@[simp] theorem setLv_variant (k : Nat) (v : Word) : (s.setLv k v).variant = s.variant := (rfl)
@[simp] theorem setLv_powered (k : Nat) (v : Word) : (s.setLv k v).powered = s.powered := (rfl)
@[simp] theorem setLv_mgmt (k : Nat) (v : Word) : (s.setLv k v).mgmt = s.mgmt := (rfl)
@[simp] theorem setLv_dead (k : Nat) (v : Word) : (s.setLv k v).dead = s.dead := (rfl)
@[simp] theorem setLv_regs (k : Nat) (v : Word) : (s.setLv k v).regs = s.regs := (rfl)
@[simp] theorem setLv_unit (k : Nat) (v : Word) : (s.setLv k v).unit = s.unit := (rfl)
@[simp] theorem setLv_deck (k : Nat) (v : Word) : (s.setLv k v).deck = s.deck := (rfl)
@[simp] theorem setLv_spaces (k : Nat) (v : Word) : (s.setLv k v).spaces = s.spaces := (rfl)
@[simp] theorem setLv_live (k : Nat) (v : Word) : (s.setLv k v).live = kset spaceReset s.live k v := (rfl)
@[simp] theorem setLv_failing (k : Nat) (v : Word) : (s.setLv k v).failing = s.failing := (rfl)
@[simp] theorem setLv_failingPend (k : Nat) (v : Word) : (s.setLv k v).failingPend = s.failingPend := (rfl)
@[simp] theorem setLv_mended (k : Nat) (v : Word) : (s.setLv k v).mended = s.mended := (rfl)
@[simp] theorem setLv_lmp (k : Nat) (v : Word) : (s.setLv k v).lmp = s.lmp := (rfl)
@[simp] theorem setLv_pf0 (k : Nat) (v : Word) : (s.setLv k v).pf0 = s.pf0 := (rfl)
@[simp] theorem setLv_pf1 (k : Nat) (v : Word) : (s.setLv k v).pf1 = s.pf1 := (rfl)
@[simp] theorem setLv_col (k : Nat) (v : Word) : (s.setLv k v).col = s.col := (rfl)
@[simp] theorem setLv_queues (k : Nat) (v : Word) : (s.setLv k v).queues = s.queues := (rfl)
@[simp] theorem setLv_f0 (k : Nat) (v : Word) : (s.setLv k v).f0 = s.f0 := (rfl)
@[simp] theorem setLv_f1 (k : Nat) (v : Word) : (s.setLv k v).f1 = s.f1 := (rfl)
@[simp] theorem setLv_ldr (k : Nat) (v : Word) : (s.setLv k v).ldr = s.ldr := (rfl)
@[simp] theorem setLv_store (k : Nat) (v : Word) : (s.setLv k v).store = s.store := (rfl)
@[simp] theorem setLv_hbm (k : Nat) (v : Word) : (s.setLv k v).hbm = s.hbm := (rfl)
@[simp] theorem setLv_safe (k : Nat) (v : Word) : (s.setLv k v).safe = s.safe := (rfl)
@[simp] theorem setLv_heads (k : Nat) (v : Word) : (s.setLv k v).heads = s.heads := (rfl)
@[simp] theorem setLv_dps (k : Nat) (v : Word) : (s.setLv k v).dps = s.dps := (rfl)
@[simp] theorem setLv_groups (k : Nat) (v : Word) : (s.setLv k v).groups = s.groups := (rfl)
@[simp] theorem setLv_planQ (k : Nat) (v : Word) : (s.setLv k v).planQ = s.planQ := (rfl)
@[simp] theorem setLv_planning (k : Nat) (v : Word) : (s.setLv k v).planning = s.planning := (rfl)
@[simp] theorem setLv_tiles (k : Nat) (v : Word) : (s.setLv k v).tiles = s.tiles := (rfl)
@[simp] theorem setLv_scalers (k : Nat) (v : Word) : (s.setLv k v).scalers = s.scalers := (rfl)
@[simp] theorem setLv_fsh (k : Nat) (v : Word) : (s.setLv k v).fsh = s.fsh := (rfl)
@[simp] theorem setLv_rods (k : Nat) (v : Word) : (s.setLv k v).rods = s.rods := (rfl)
@[simp] theorem setLv_signs (k : Nat) (v : Word) : (s.setLv k v).signs = s.signs := (rfl)
@[simp] theorem setLv_ports (k : Nat) (v : Word) : (s.setLv k v).ports = s.ports := (rfl)
@[simp] theorem setLv_rx (k : Nat) (v : Word) : (s.setLv k v).rx = s.rx := (rfl)
@[simp] theorem setLv_tx (k : Nat) (v : Word) : (s.setLv k v).tx = s.tx := (rfl)
@[simp] theorem setLv_trs (k : Nat) (v : Word) : (s.setLv k v).trs = s.trs := (rfl)
@[simp] theorem setLv_health (k : Nat) (v : Word) : (s.setLv k v).health = s.health := (rfl)
@[simp] theorem setLv_out (k : Nat) (v : Word) : (s.setLv k v).out = s.out := (rfl)
@[simp] theorem setLv_time (k : Nat) (v : Word) : (s.setLv k v).time = s.time := (rfl)
@[simp] theorem setLv_frac (k : Nat) (v : Word) : (s.setLv k v).frac = s.frac := (rfl)
@[simp] theorem setLv_up (k : Nat) (v : Word) : (s.setLv k v).up = s.up := (rfl)
@[simp] theorem setLv_fresh (k : Nat) (v : Word) : (s.setLv k v).fresh = s.fresh := (rfl)
@[simp] theorem setLv_pending (k : Nat) (v : Word) : (s.setLv k v).pending = s.pending := (rfl)

-- setSpw
@[simp] theorem setSpw_variant (c a : Nat) (v : Word) : (s.setSpw c a v).variant = s.variant := setSp_variant s _ _
@[simp] theorem setSpw_powered (c a : Nat) (v : Word) : (s.setSpw c a v).powered = s.powered := setSp_powered s _ _
@[simp] theorem setSpw_mgmt (c a : Nat) (v : Word) : (s.setSpw c a v).mgmt = s.mgmt := setSp_mgmt s _ _
@[simp] theorem setSpw_dead (c a : Nat) (v : Word) : (s.setSpw c a v).dead = s.dead := setSp_dead s _ _
@[simp] theorem setSpw_regs (c a : Nat) (v : Word) : (s.setSpw c a v).regs = s.regs := setSp_regs s _ _
@[simp] theorem setSpw_unit (c a : Nat) (v : Word) : (s.setSpw c a v).unit = s.unit := setSp_unit s _ _
@[simp] theorem setSpw_deck (c a : Nat) (v : Word) : (s.setSpw c a v).deck = s.deck := setSp_deck s _ _
@[simp] theorem setSpw_spaces (c a : Nat) (v : Word) : (s.setSpw c a v).spaces = kset spaceReset s.spaces (skey c a) v := setSp_spaces s _ _
@[simp] theorem setSpw_live (c a : Nat) (v : Word) : (s.setSpw c a v).live = s.live := setSp_live s _ _
@[simp] theorem setSpw_failing (c a : Nat) (v : Word) : (s.setSpw c a v).failing = s.failing := setSp_failing s _ _
@[simp] theorem setSpw_failingPend (c a : Nat) (v : Word) : (s.setSpw c a v).failingPend = s.failingPend := setSp_failingPend s _ _
@[simp] theorem setSpw_mended (c a : Nat) (v : Word) : (s.setSpw c a v).mended = s.mended := setSp_mended s _ _
@[simp] theorem setSpw_lmp (c a : Nat) (v : Word) : (s.setSpw c a v).lmp = s.lmp := setSp_lmp s _ _
@[simp] theorem setSpw_pf0 (c a : Nat) (v : Word) : (s.setSpw c a v).pf0 = s.pf0 := setSp_pf0 s _ _
@[simp] theorem setSpw_pf1 (c a : Nat) (v : Word) : (s.setSpw c a v).pf1 = s.pf1 := setSp_pf1 s _ _
@[simp] theorem setSpw_col (c a : Nat) (v : Word) : (s.setSpw c a v).col = s.col := setSp_col s _ _
@[simp] theorem setSpw_queues (c a : Nat) (v : Word) : (s.setSpw c a v).queues = s.queues := setSp_queues s _ _
@[simp] theorem setSpw_f0 (c a : Nat) (v : Word) : (s.setSpw c a v).f0 = s.f0 := setSp_f0 s _ _
@[simp] theorem setSpw_f1 (c a : Nat) (v : Word) : (s.setSpw c a v).f1 = s.f1 := setSp_f1 s _ _
@[simp] theorem setSpw_ldr (c a : Nat) (v : Word) : (s.setSpw c a v).ldr = s.ldr := setSp_ldr s _ _
@[simp] theorem setSpw_store (c a : Nat) (v : Word) : (s.setSpw c a v).store = s.store := setSp_store s _ _
@[simp] theorem setSpw_hbm (c a : Nat) (v : Word) : (s.setSpw c a v).hbm = s.hbm := setSp_hbm s _ _
@[simp] theorem setSpw_safe (c a : Nat) (v : Word) : (s.setSpw c a v).safe = s.safe := setSp_safe s _ _
@[simp] theorem setSpw_heads (c a : Nat) (v : Word) : (s.setSpw c a v).heads = s.heads := setSp_heads s _ _
@[simp] theorem setSpw_dps (c a : Nat) (v : Word) : (s.setSpw c a v).dps = s.dps := setSp_dps s _ _
@[simp] theorem setSpw_groups (c a : Nat) (v : Word) : (s.setSpw c a v).groups = s.groups := setSp_groups s _ _
@[simp] theorem setSpw_planQ (c a : Nat) (v : Word) : (s.setSpw c a v).planQ = s.planQ := setSp_planQ s _ _
@[simp] theorem setSpw_planning (c a : Nat) (v : Word) : (s.setSpw c a v).planning = s.planning := setSp_planning s _ _
@[simp] theorem setSpw_tiles (c a : Nat) (v : Word) : (s.setSpw c a v).tiles = s.tiles := setSp_tiles s _ _
@[simp] theorem setSpw_scalers (c a : Nat) (v : Word) : (s.setSpw c a v).scalers = s.scalers := setSp_scalers s _ _
@[simp] theorem setSpw_fsh (c a : Nat) (v : Word) : (s.setSpw c a v).fsh = s.fsh := setSp_fsh s _ _
@[simp] theorem setSpw_rods (c a : Nat) (v : Word) : (s.setSpw c a v).rods = s.rods := setSp_rods s _ _
@[simp] theorem setSpw_signs (c a : Nat) (v : Word) : (s.setSpw c a v).signs = s.signs := setSp_signs s _ _
@[simp] theorem setSpw_ports (c a : Nat) (v : Word) : (s.setSpw c a v).ports = s.ports := setSp_ports s _ _
@[simp] theorem setSpw_rx (c a : Nat) (v : Word) : (s.setSpw c a v).rx = s.rx := setSp_rx s _ _
@[simp] theorem setSpw_tx (c a : Nat) (v : Word) : (s.setSpw c a v).tx = s.tx := setSp_tx s _ _
@[simp] theorem setSpw_trs (c a : Nat) (v : Word) : (s.setSpw c a v).trs = s.trs := setSp_trs s _ _
@[simp] theorem setSpw_health (c a : Nat) (v : Word) : (s.setSpw c a v).health = s.health := setSp_health s _ _
@[simp] theorem setSpw_out (c a : Nat) (v : Word) : (s.setSpw c a v).out = s.out := setSp_out s _ _
@[simp] theorem setSpw_time (c a : Nat) (v : Word) : (s.setSpw c a v).time = s.time := setSp_time s _ _
@[simp] theorem setSpw_frac (c a : Nat) (v : Word) : (s.setSpw c a v).frac = s.frac := setSp_frac s _ _
@[simp] theorem setSpw_up (c a : Nat) (v : Word) : (s.setSpw c a v).up = s.up := setSp_up s _ _
@[simp] theorem setSpw_fresh (c a : Nat) (v : Word) : (s.setSpw c a v).fresh = s.fresh := setSp_fresh s _ _
@[simp] theorem setSpw_pending (c a : Nat) (v : Word) : (s.setSpw c a v).pending = s.pending := setSp_pending s _ _

-- setQueue
@[simp] theorem setQueue_variant (q : Nat) (x : Queue) : (s.setQueue q x).variant = s.variant := (rfl)
@[simp] theorem setQueue_powered (q : Nat) (x : Queue) : (s.setQueue q x).powered = s.powered := (rfl)
@[simp] theorem setQueue_mgmt (q : Nat) (x : Queue) : (s.setQueue q x).mgmt = s.mgmt := (rfl)
@[simp] theorem setQueue_dead (q : Nat) (x : Queue) : (s.setQueue q x).dead = s.dead := (rfl)
@[simp] theorem setQueue_regs (q : Nat) (x : Queue) : (s.setQueue q x).regs = s.regs := (rfl)
@[simp] theorem setQueue_unit (q : Nat) (x : Queue) : (s.setQueue q x).unit = s.unit := (rfl)
@[simp] theorem setQueue_deck (q : Nat) (x : Queue) : (s.setQueue q x).deck = s.deck := (rfl)
@[simp] theorem setQueue_spaces (q : Nat) (x : Queue) : (s.setQueue q x).spaces = s.spaces := (rfl)
@[simp] theorem setQueue_live (q : Nat) (x : Queue) : (s.setQueue q x).live = s.live := (rfl)
@[simp] theorem setQueue_failing (q : Nat) (x : Queue) : (s.setQueue q x).failing = s.failing := (rfl)
@[simp] theorem setQueue_failingPend (q : Nat) (x : Queue) : (s.setQueue q x).failingPend = s.failingPend := (rfl)
@[simp] theorem setQueue_mended (q : Nat) (x : Queue) : (s.setQueue q x).mended = s.mended := (rfl)
@[simp] theorem setQueue_lmp (q : Nat) (x : Queue) : (s.setQueue q x).lmp = s.lmp := (rfl)
@[simp] theorem setQueue_pf0 (q : Nat) (x : Queue) : (s.setQueue q x).pf0 = s.pf0 := (rfl)
@[simp] theorem setQueue_pf1 (q : Nat) (x : Queue) : (s.setQueue q x).pf1 = s.pf1 := (rfl)
@[simp] theorem setQueue_col (q : Nat) (x : Queue) : (s.setQueue q x).col = s.col := (rfl)
@[simp] theorem setQueue_f0 (q : Nat) (x : Queue) : (s.setQueue q x).f0 = s.f0 := (rfl)
@[simp] theorem setQueue_f1 (q : Nat) (x : Queue) : (s.setQueue q x).f1 = s.f1 := (rfl)
@[simp] theorem setQueue_ldr (q : Nat) (x : Queue) : (s.setQueue q x).ldr = s.ldr := (rfl)
@[simp] theorem setQueue_store (q : Nat) (x : Queue) : (s.setQueue q x).store = s.store := (rfl)
@[simp] theorem setQueue_hbm (q : Nat) (x : Queue) : (s.setQueue q x).hbm = s.hbm := (rfl)
@[simp] theorem setQueue_safe (q : Nat) (x : Queue) : (s.setQueue q x).safe = s.safe := (rfl)
@[simp] theorem setQueue_heads (q : Nat) (x : Queue) : (s.setQueue q x).heads = s.heads := (rfl)
@[simp] theorem setQueue_dps (q : Nat) (x : Queue) : (s.setQueue q x).dps = s.dps := (rfl)
@[simp] theorem setQueue_groups (q : Nat) (x : Queue) : (s.setQueue q x).groups = s.groups := (rfl)
@[simp] theorem setQueue_planQ (q : Nat) (x : Queue) : (s.setQueue q x).planQ = s.planQ := (rfl)
@[simp] theorem setQueue_planning (q : Nat) (x : Queue) : (s.setQueue q x).planning = s.planning := (rfl)
@[simp] theorem setQueue_tiles (q : Nat) (x : Queue) : (s.setQueue q x).tiles = s.tiles := (rfl)
@[simp] theorem setQueue_scalers (q : Nat) (x : Queue) : (s.setQueue q x).scalers = s.scalers := (rfl)
@[simp] theorem setQueue_fsh (q : Nat) (x : Queue) : (s.setQueue q x).fsh = s.fsh := (rfl)
@[simp] theorem setQueue_rods (q : Nat) (x : Queue) : (s.setQueue q x).rods = s.rods := (rfl)
@[simp] theorem setQueue_signs (q : Nat) (x : Queue) : (s.setQueue q x).signs = s.signs := (rfl)
@[simp] theorem setQueue_ports (q : Nat) (x : Queue) : (s.setQueue q x).ports = s.ports := (rfl)
@[simp] theorem setQueue_rx (q : Nat) (x : Queue) : (s.setQueue q x).rx = s.rx := (rfl)
@[simp] theorem setQueue_tx (q : Nat) (x : Queue) : (s.setQueue q x).tx = s.tx := (rfl)
@[simp] theorem setQueue_trs (q : Nat) (x : Queue) : (s.setQueue q x).trs = s.trs := (rfl)
@[simp] theorem setQueue_health (q : Nat) (x : Queue) : (s.setQueue q x).health = s.health := (rfl)
@[simp] theorem setQueue_out (q : Nat) (x : Queue) : (s.setQueue q x).out = s.out := (rfl)
@[simp] theorem setQueue_time (q : Nat) (x : Queue) : (s.setQueue q x).time = s.time := (rfl)
@[simp] theorem setQueue_frac (q : Nat) (x : Queue) : (s.setQueue q x).frac = s.frac := (rfl)
@[simp] theorem setQueue_up (q : Nat) (x : Queue) : (s.setQueue q x).up = s.up := (rfl)
@[simp] theorem setQueue_fresh (q : Nat) (x : Queue) : (s.setQueue q x).fresh = s.fresh := (rfl)
@[simp] theorem setQueue_pending (q : Nat) (x : Queue) : (s.setQueue q x).pending = s.pending := (rfl)

-- setSafe
@[simp] theorem setSafe_variant (h : Nat) (x : Safe) : (s.setSafe h x).variant = s.variant := (rfl)
@[simp] theorem setSafe_powered (h : Nat) (x : Safe) : (s.setSafe h x).powered = s.powered := (rfl)
@[simp] theorem setSafe_mgmt (h : Nat) (x : Safe) : (s.setSafe h x).mgmt = s.mgmt := (rfl)
@[simp] theorem setSafe_dead (h : Nat) (x : Safe) : (s.setSafe h x).dead = s.dead := (rfl)
@[simp] theorem setSafe_regs (h : Nat) (x : Safe) : (s.setSafe h x).regs = s.regs := (rfl)
@[simp] theorem setSafe_unit (h : Nat) (x : Safe) : (s.setSafe h x).unit = s.unit := (rfl)
@[simp] theorem setSafe_deck (h : Nat) (x : Safe) : (s.setSafe h x).deck = s.deck := (rfl)
@[simp] theorem setSafe_spaces (h : Nat) (x : Safe) : (s.setSafe h x).spaces = s.spaces := (rfl)
@[simp] theorem setSafe_live (h : Nat) (x : Safe) : (s.setSafe h x).live = s.live := (rfl)
@[simp] theorem setSafe_failing (h : Nat) (x : Safe) : (s.setSafe h x).failing = s.failing := (rfl)
@[simp] theorem setSafe_failingPend (h : Nat) (x : Safe) : (s.setSafe h x).failingPend = s.failingPend := (rfl)
@[simp] theorem setSafe_mended (h : Nat) (x : Safe) : (s.setSafe h x).mended = s.mended := (rfl)
@[simp] theorem setSafe_lmp (h : Nat) (x : Safe) : (s.setSafe h x).lmp = s.lmp := (rfl)
@[simp] theorem setSafe_pf0 (h : Nat) (x : Safe) : (s.setSafe h x).pf0 = s.pf0 := (rfl)
@[simp] theorem setSafe_pf1 (h : Nat) (x : Safe) : (s.setSafe h x).pf1 = s.pf1 := (rfl)
@[simp] theorem setSafe_col (h : Nat) (x : Safe) : (s.setSafe h x).col = s.col := (rfl)
@[simp] theorem setSafe_queues (h : Nat) (x : Safe) : (s.setSafe h x).queues = s.queues := (rfl)
@[simp] theorem setSafe_f0 (h : Nat) (x : Safe) : (s.setSafe h x).f0 = s.f0 := (rfl)
@[simp] theorem setSafe_f1 (h : Nat) (x : Safe) : (s.setSafe h x).f1 = s.f1 := (rfl)
@[simp] theorem setSafe_ldr (h : Nat) (x : Safe) : (s.setSafe h x).ldr = s.ldr := (rfl)
@[simp] theorem setSafe_store (h : Nat) (x : Safe) : (s.setSafe h x).store = s.store := (rfl)
@[simp] theorem setSafe_hbm (h : Nat) (x : Safe) : (s.setSafe h x).hbm = s.hbm := (rfl)
@[simp] theorem setSafe_heads (h : Nat) (x : Safe) : (s.setSafe h x).heads = s.heads := (rfl)
@[simp] theorem setSafe_dps (h : Nat) (x : Safe) : (s.setSafe h x).dps = s.dps := (rfl)
@[simp] theorem setSafe_groups (h : Nat) (x : Safe) : (s.setSafe h x).groups = s.groups := (rfl)
@[simp] theorem setSafe_planQ (h : Nat) (x : Safe) : (s.setSafe h x).planQ = s.planQ := (rfl)
@[simp] theorem setSafe_planning (h : Nat) (x : Safe) : (s.setSafe h x).planning = s.planning := (rfl)
@[simp] theorem setSafe_tiles (h : Nat) (x : Safe) : (s.setSafe h x).tiles = s.tiles := (rfl)
@[simp] theorem setSafe_scalers (h : Nat) (x : Safe) : (s.setSafe h x).scalers = s.scalers := (rfl)
@[simp] theorem setSafe_fsh (h : Nat) (x : Safe) : (s.setSafe h x).fsh = s.fsh := (rfl)
@[simp] theorem setSafe_rods (h : Nat) (x : Safe) : (s.setSafe h x).rods = s.rods := (rfl)
@[simp] theorem setSafe_signs (h : Nat) (x : Safe) : (s.setSafe h x).signs = s.signs := (rfl)
@[simp] theorem setSafe_ports (h : Nat) (x : Safe) : (s.setSafe h x).ports = s.ports := (rfl)
@[simp] theorem setSafe_rx (h : Nat) (x : Safe) : (s.setSafe h x).rx = s.rx := (rfl)
@[simp] theorem setSafe_tx (h : Nat) (x : Safe) : (s.setSafe h x).tx = s.tx := (rfl)
@[simp] theorem setSafe_trs (h : Nat) (x : Safe) : (s.setSafe h x).trs = s.trs := (rfl)
@[simp] theorem setSafe_health (h : Nat) (x : Safe) : (s.setSafe h x).health = s.health := (rfl)
@[simp] theorem setSafe_out (h : Nat) (x : Safe) : (s.setSafe h x).out = s.out := (rfl)
@[simp] theorem setSafe_time (h : Nat) (x : Safe) : (s.setSafe h x).time = s.time := (rfl)
@[simp] theorem setSafe_frac (h : Nat) (x : Safe) : (s.setSafe h x).frac = s.frac := (rfl)
@[simp] theorem setSafe_up (h : Nat) (x : Safe) : (s.setSafe h x).up = s.up := (rfl)
@[simp] theorem setSafe_fresh (h : Nat) (x : Safe) : (s.setSafe h x).fresh = s.fresh := (rfl)
@[simp] theorem setSafe_pending (h : Nat) (x : Safe) : (s.setSafe h x).pending = s.pending := (rfl)

-- setHead
@[simp] theorem setHead_variant (h : Nat) (x : Head) : (s.setHead h x).variant = s.variant := (rfl)
@[simp] theorem setHead_powered (h : Nat) (x : Head) : (s.setHead h x).powered = s.powered := (rfl)
@[simp] theorem setHead_mgmt (h : Nat) (x : Head) : (s.setHead h x).mgmt = s.mgmt := (rfl)
@[simp] theorem setHead_dead (h : Nat) (x : Head) : (s.setHead h x).dead = s.dead := (rfl)
@[simp] theorem setHead_regs (h : Nat) (x : Head) : (s.setHead h x).regs = s.regs := (rfl)
@[simp] theorem setHead_unit (h : Nat) (x : Head) : (s.setHead h x).unit = s.unit := (rfl)
@[simp] theorem setHead_deck (h : Nat) (x : Head) : (s.setHead h x).deck = s.deck := (rfl)
@[simp] theorem setHead_spaces (h : Nat) (x : Head) : (s.setHead h x).spaces = s.spaces := (rfl)
@[simp] theorem setHead_live (h : Nat) (x : Head) : (s.setHead h x).live = s.live := (rfl)
@[simp] theorem setHead_failing (h : Nat) (x : Head) : (s.setHead h x).failing = s.failing := (rfl)
@[simp] theorem setHead_failingPend (h : Nat) (x : Head) : (s.setHead h x).failingPend = s.failingPend := (rfl)
@[simp] theorem setHead_mended (h : Nat) (x : Head) : (s.setHead h x).mended = s.mended := (rfl)
@[simp] theorem setHead_lmp (h : Nat) (x : Head) : (s.setHead h x).lmp = s.lmp := (rfl)
@[simp] theorem setHead_pf0 (h : Nat) (x : Head) : (s.setHead h x).pf0 = s.pf0 := (rfl)
@[simp] theorem setHead_pf1 (h : Nat) (x : Head) : (s.setHead h x).pf1 = s.pf1 := (rfl)
@[simp] theorem setHead_col (h : Nat) (x : Head) : (s.setHead h x).col = s.col := (rfl)
@[simp] theorem setHead_queues (h : Nat) (x : Head) : (s.setHead h x).queues = s.queues := (rfl)
@[simp] theorem setHead_f0 (h : Nat) (x : Head) : (s.setHead h x).f0 = s.f0 := (rfl)
@[simp] theorem setHead_f1 (h : Nat) (x : Head) : (s.setHead h x).f1 = s.f1 := (rfl)
@[simp] theorem setHead_ldr (h : Nat) (x : Head) : (s.setHead h x).ldr = s.ldr := (rfl)
@[simp] theorem setHead_store (h : Nat) (x : Head) : (s.setHead h x).store = s.store := (rfl)
@[simp] theorem setHead_hbm (h : Nat) (x : Head) : (s.setHead h x).hbm = s.hbm := (rfl)
@[simp] theorem setHead_safe (h : Nat) (x : Head) : (s.setHead h x).safe = s.safe := (rfl)
@[simp] theorem setHead_dps (h : Nat) (x : Head) : (s.setHead h x).dps = s.dps := (rfl)
@[simp] theorem setHead_groups (h : Nat) (x : Head) : (s.setHead h x).groups = s.groups := (rfl)
@[simp] theorem setHead_planQ (h : Nat) (x : Head) : (s.setHead h x).planQ = s.planQ := (rfl)
@[simp] theorem setHead_planning (h : Nat) (x : Head) : (s.setHead h x).planning = s.planning := (rfl)
@[simp] theorem setHead_tiles (h : Nat) (x : Head) : (s.setHead h x).tiles = s.tiles := (rfl)
@[simp] theorem setHead_scalers (h : Nat) (x : Head) : (s.setHead h x).scalers = s.scalers := (rfl)
@[simp] theorem setHead_fsh (h : Nat) (x : Head) : (s.setHead h x).fsh = s.fsh := (rfl)
@[simp] theorem setHead_rods (h : Nat) (x : Head) : (s.setHead h x).rods = s.rods := (rfl)
@[simp] theorem setHead_signs (h : Nat) (x : Head) : (s.setHead h x).signs = s.signs := (rfl)
@[simp] theorem setHead_ports (h : Nat) (x : Head) : (s.setHead h x).ports = s.ports := (rfl)
@[simp] theorem setHead_rx (h : Nat) (x : Head) : (s.setHead h x).rx = s.rx := (rfl)
@[simp] theorem setHead_tx (h : Nat) (x : Head) : (s.setHead h x).tx = s.tx := (rfl)
@[simp] theorem setHead_trs (h : Nat) (x : Head) : (s.setHead h x).trs = s.trs := (rfl)
@[simp] theorem setHead_health (h : Nat) (x : Head) : (s.setHead h x).health = s.health := (rfl)
@[simp] theorem setHead_out (h : Nat) (x : Head) : (s.setHead h x).out = s.out := (rfl)
@[simp] theorem setHead_time (h : Nat) (x : Head) : (s.setHead h x).time = s.time := (rfl)
@[simp] theorem setHead_frac (h : Nat) (x : Head) : (s.setHead h x).frac = s.frac := (rfl)
@[simp] theorem setHead_up (h : Nat) (x : Head) : (s.setHead h x).up = s.up := (rfl)
@[simp] theorem setHead_fresh (h : Nat) (x : Head) : (s.setHead h x).fresh = s.fresh := (rfl)
@[simp] theorem setHead_pending (h : Nat) (x : Head) : (s.setHead h x).pending = s.pending := (rfl)

-- setDp
@[simp] theorem setDp_variant (d : Nat) (x : Dp) : (s.setDp d x).variant = s.variant := (rfl)
@[simp] theorem setDp_powered (d : Nat) (x : Dp) : (s.setDp d x).powered = s.powered := (rfl)
@[simp] theorem setDp_mgmt (d : Nat) (x : Dp) : (s.setDp d x).mgmt = s.mgmt := (rfl)
@[simp] theorem setDp_dead (d : Nat) (x : Dp) : (s.setDp d x).dead = s.dead := (rfl)
@[simp] theorem setDp_regs (d : Nat) (x : Dp) : (s.setDp d x).regs = s.regs := (rfl)
@[simp] theorem setDp_unit (d : Nat) (x : Dp) : (s.setDp d x).unit = s.unit := (rfl)
@[simp] theorem setDp_deck (d : Nat) (x : Dp) : (s.setDp d x).deck = s.deck := (rfl)
@[simp] theorem setDp_spaces (d : Nat) (x : Dp) : (s.setDp d x).spaces = s.spaces := (rfl)
@[simp] theorem setDp_live (d : Nat) (x : Dp) : (s.setDp d x).live = s.live := (rfl)
@[simp] theorem setDp_failing (d : Nat) (x : Dp) : (s.setDp d x).failing = s.failing := (rfl)
@[simp] theorem setDp_failingPend (d : Nat) (x : Dp) : (s.setDp d x).failingPend = s.failingPend := (rfl)
@[simp] theorem setDp_mended (d : Nat) (x : Dp) : (s.setDp d x).mended = s.mended := (rfl)
@[simp] theorem setDp_lmp (d : Nat) (x : Dp) : (s.setDp d x).lmp = s.lmp := (rfl)
@[simp] theorem setDp_pf0 (d : Nat) (x : Dp) : (s.setDp d x).pf0 = s.pf0 := (rfl)
@[simp] theorem setDp_pf1 (d : Nat) (x : Dp) : (s.setDp d x).pf1 = s.pf1 := (rfl)
@[simp] theorem setDp_col (d : Nat) (x : Dp) : (s.setDp d x).col = s.col := (rfl)
@[simp] theorem setDp_queues (d : Nat) (x : Dp) : (s.setDp d x).queues = s.queues := (rfl)
@[simp] theorem setDp_f0 (d : Nat) (x : Dp) : (s.setDp d x).f0 = s.f0 := (rfl)
@[simp] theorem setDp_f1 (d : Nat) (x : Dp) : (s.setDp d x).f1 = s.f1 := (rfl)
@[simp] theorem setDp_ldr (d : Nat) (x : Dp) : (s.setDp d x).ldr = s.ldr := (rfl)
@[simp] theorem setDp_store (d : Nat) (x : Dp) : (s.setDp d x).store = s.store := (rfl)
@[simp] theorem setDp_hbm (d : Nat) (x : Dp) : (s.setDp d x).hbm = s.hbm := (rfl)
@[simp] theorem setDp_safe (d : Nat) (x : Dp) : (s.setDp d x).safe = s.safe := (rfl)
@[simp] theorem setDp_heads (d : Nat) (x : Dp) : (s.setDp d x).heads = s.heads := (rfl)
@[simp] theorem setDp_groups (d : Nat) (x : Dp) : (s.setDp d x).groups = s.groups := (rfl)
@[simp] theorem setDp_planQ (d : Nat) (x : Dp) : (s.setDp d x).planQ = s.planQ := (rfl)
@[simp] theorem setDp_planning (d : Nat) (x : Dp) : (s.setDp d x).planning = s.planning := (rfl)
@[simp] theorem setDp_tiles (d : Nat) (x : Dp) : (s.setDp d x).tiles = s.tiles := (rfl)
@[simp] theorem setDp_scalers (d : Nat) (x : Dp) : (s.setDp d x).scalers = s.scalers := (rfl)
@[simp] theorem setDp_fsh (d : Nat) (x : Dp) : (s.setDp d x).fsh = s.fsh := (rfl)
@[simp] theorem setDp_rods (d : Nat) (x : Dp) : (s.setDp d x).rods = s.rods := (rfl)
@[simp] theorem setDp_signs (d : Nat) (x : Dp) : (s.setDp d x).signs = s.signs := (rfl)
@[simp] theorem setDp_ports (d : Nat) (x : Dp) : (s.setDp d x).ports = s.ports := (rfl)
@[simp] theorem setDp_rx (d : Nat) (x : Dp) : (s.setDp d x).rx = s.rx := (rfl)
@[simp] theorem setDp_tx (d : Nat) (x : Dp) : (s.setDp d x).tx = s.tx := (rfl)
@[simp] theorem setDp_trs (d : Nat) (x : Dp) : (s.setDp d x).trs = s.trs := (rfl)
@[simp] theorem setDp_health (d : Nat) (x : Dp) : (s.setDp d x).health = s.health := (rfl)
@[simp] theorem setDp_out (d : Nat) (x : Dp) : (s.setDp d x).out = s.out := (rfl)
@[simp] theorem setDp_time (d : Nat) (x : Dp) : (s.setDp d x).time = s.time := (rfl)
@[simp] theorem setDp_frac (d : Nat) (x : Dp) : (s.setDp d x).frac = s.frac := (rfl)
@[simp] theorem setDp_up (d : Nat) (x : Dp) : (s.setDp d x).up = s.up := (rfl)
@[simp] theorem setDp_fresh (d : Nat) (x : Dp) : (s.setDp d x).fresh = s.fresh := (rfl)
@[simp] theorem setDp_pending (d : Nat) (x : Dp) : (s.setDp d x).pending = s.pending := (rfl)

-- setGroup
@[simp] theorem setGroup_variant (g : Nat) (x : Group) : (s.setGroup g x).variant = s.variant := (rfl)
@[simp] theorem setGroup_powered (g : Nat) (x : Group) : (s.setGroup g x).powered = s.powered := (rfl)
@[simp] theorem setGroup_mgmt (g : Nat) (x : Group) : (s.setGroup g x).mgmt = s.mgmt := (rfl)
@[simp] theorem setGroup_dead (g : Nat) (x : Group) : (s.setGroup g x).dead = s.dead := (rfl)
@[simp] theorem setGroup_regs (g : Nat) (x : Group) : (s.setGroup g x).regs = s.regs := (rfl)
@[simp] theorem setGroup_unit (g : Nat) (x : Group) : (s.setGroup g x).unit = s.unit := (rfl)
@[simp] theorem setGroup_deck (g : Nat) (x : Group) : (s.setGroup g x).deck = s.deck := (rfl)
@[simp] theorem setGroup_spaces (g : Nat) (x : Group) : (s.setGroup g x).spaces = s.spaces := (rfl)
@[simp] theorem setGroup_live (g : Nat) (x : Group) : (s.setGroup g x).live = s.live := (rfl)
@[simp] theorem setGroup_failing (g : Nat) (x : Group) : (s.setGroup g x).failing = s.failing := (rfl)
@[simp] theorem setGroup_failingPend (g : Nat) (x : Group) : (s.setGroup g x).failingPend = s.failingPend := (rfl)
@[simp] theorem setGroup_mended (g : Nat) (x : Group) : (s.setGroup g x).mended = s.mended := (rfl)
@[simp] theorem setGroup_lmp (g : Nat) (x : Group) : (s.setGroup g x).lmp = s.lmp := (rfl)
@[simp] theorem setGroup_pf0 (g : Nat) (x : Group) : (s.setGroup g x).pf0 = s.pf0 := (rfl)
@[simp] theorem setGroup_pf1 (g : Nat) (x : Group) : (s.setGroup g x).pf1 = s.pf1 := (rfl)
@[simp] theorem setGroup_col (g : Nat) (x : Group) : (s.setGroup g x).col = s.col := (rfl)
@[simp] theorem setGroup_queues (g : Nat) (x : Group) : (s.setGroup g x).queues = s.queues := (rfl)
@[simp] theorem setGroup_f0 (g : Nat) (x : Group) : (s.setGroup g x).f0 = s.f0 := (rfl)
@[simp] theorem setGroup_f1 (g : Nat) (x : Group) : (s.setGroup g x).f1 = s.f1 := (rfl)
@[simp] theorem setGroup_ldr (g : Nat) (x : Group) : (s.setGroup g x).ldr = s.ldr := (rfl)
@[simp] theorem setGroup_store (g : Nat) (x : Group) : (s.setGroup g x).store = s.store := (rfl)
@[simp] theorem setGroup_hbm (g : Nat) (x : Group) : (s.setGroup g x).hbm = s.hbm := (rfl)
@[simp] theorem setGroup_safe (g : Nat) (x : Group) : (s.setGroup g x).safe = s.safe := (rfl)
@[simp] theorem setGroup_heads (g : Nat) (x : Group) : (s.setGroup g x).heads = s.heads := (rfl)
@[simp] theorem setGroup_dps (g : Nat) (x : Group) : (s.setGroup g x).dps = s.dps := (rfl)
@[simp] theorem setGroup_planQ (g : Nat) (x : Group) : (s.setGroup g x).planQ = s.planQ := (rfl)
@[simp] theorem setGroup_planning (g : Nat) (x : Group) : (s.setGroup g x).planning = s.planning := (rfl)
@[simp] theorem setGroup_tiles (g : Nat) (x : Group) : (s.setGroup g x).tiles = s.tiles := (rfl)
@[simp] theorem setGroup_scalers (g : Nat) (x : Group) : (s.setGroup g x).scalers = s.scalers := (rfl)
@[simp] theorem setGroup_fsh (g : Nat) (x : Group) : (s.setGroup g x).fsh = s.fsh := (rfl)
@[simp] theorem setGroup_rods (g : Nat) (x : Group) : (s.setGroup g x).rods = s.rods := (rfl)
@[simp] theorem setGroup_signs (g : Nat) (x : Group) : (s.setGroup g x).signs = s.signs := (rfl)
@[simp] theorem setGroup_ports (g : Nat) (x : Group) : (s.setGroup g x).ports = s.ports := (rfl)
@[simp] theorem setGroup_rx (g : Nat) (x : Group) : (s.setGroup g x).rx = s.rx := (rfl)
@[simp] theorem setGroup_tx (g : Nat) (x : Group) : (s.setGroup g x).tx = s.tx := (rfl)
@[simp] theorem setGroup_trs (g : Nat) (x : Group) : (s.setGroup g x).trs = s.trs := (rfl)
@[simp] theorem setGroup_health (g : Nat) (x : Group) : (s.setGroup g x).health = s.health := (rfl)
@[simp] theorem setGroup_out (g : Nat) (x : Group) : (s.setGroup g x).out = s.out := (rfl)
@[simp] theorem setGroup_time (g : Nat) (x : Group) : (s.setGroup g x).time = s.time := (rfl)
@[simp] theorem setGroup_frac (g : Nat) (x : Group) : (s.setGroup g x).frac = s.frac := (rfl)
@[simp] theorem setGroup_up (g : Nat) (x : Group) : (s.setGroup g x).up = s.up := (rfl)
@[simp] theorem setGroup_fresh (g : Nat) (x : Group) : (s.setGroup g x).fresh = s.fresh := (rfl)
@[simp] theorem setGroup_pending (g : Nat) (x : Group) : (s.setGroup g x).pending = s.pending := (rfl)

-- setTile
@[simp] theorem setTile_variant (t : Nat) (x : Tile) : (s.setTile t x).variant = s.variant := (rfl)
@[simp] theorem setTile_powered (t : Nat) (x : Tile) : (s.setTile t x).powered = s.powered := (rfl)
@[simp] theorem setTile_mgmt (t : Nat) (x : Tile) : (s.setTile t x).mgmt = s.mgmt := (rfl)
@[simp] theorem setTile_dead (t : Nat) (x : Tile) : (s.setTile t x).dead = s.dead := (rfl)
@[simp] theorem setTile_regs (t : Nat) (x : Tile) : (s.setTile t x).regs = s.regs := (rfl)
@[simp] theorem setTile_unit (t : Nat) (x : Tile) : (s.setTile t x).unit = s.unit := (rfl)
@[simp] theorem setTile_deck (t : Nat) (x : Tile) : (s.setTile t x).deck = s.deck := (rfl)
@[simp] theorem setTile_spaces (t : Nat) (x : Tile) : (s.setTile t x).spaces = s.spaces := (rfl)
@[simp] theorem setTile_live (t : Nat) (x : Tile) : (s.setTile t x).live = s.live := (rfl)
@[simp] theorem setTile_failing (t : Nat) (x : Tile) : (s.setTile t x).failing = s.failing := (rfl)
@[simp] theorem setTile_failingPend (t : Nat) (x : Tile) : (s.setTile t x).failingPend = s.failingPend := (rfl)
@[simp] theorem setTile_mended (t : Nat) (x : Tile) : (s.setTile t x).mended = s.mended := (rfl)
@[simp] theorem setTile_lmp (t : Nat) (x : Tile) : (s.setTile t x).lmp = s.lmp := (rfl)
@[simp] theorem setTile_pf0 (t : Nat) (x : Tile) : (s.setTile t x).pf0 = s.pf0 := (rfl)
@[simp] theorem setTile_pf1 (t : Nat) (x : Tile) : (s.setTile t x).pf1 = s.pf1 := (rfl)
@[simp] theorem setTile_col (t : Nat) (x : Tile) : (s.setTile t x).col = s.col := (rfl)
@[simp] theorem setTile_queues (t : Nat) (x : Tile) : (s.setTile t x).queues = s.queues := (rfl)
@[simp] theorem setTile_f0 (t : Nat) (x : Tile) : (s.setTile t x).f0 = s.f0 := (rfl)
@[simp] theorem setTile_f1 (t : Nat) (x : Tile) : (s.setTile t x).f1 = s.f1 := (rfl)
@[simp] theorem setTile_ldr (t : Nat) (x : Tile) : (s.setTile t x).ldr = s.ldr := (rfl)
@[simp] theorem setTile_store (t : Nat) (x : Tile) : (s.setTile t x).store = s.store := (rfl)
@[simp] theorem setTile_hbm (t : Nat) (x : Tile) : (s.setTile t x).hbm = s.hbm := (rfl)
@[simp] theorem setTile_safe (t : Nat) (x : Tile) : (s.setTile t x).safe = s.safe := (rfl)
@[simp] theorem setTile_heads (t : Nat) (x : Tile) : (s.setTile t x).heads = s.heads := (rfl)
@[simp] theorem setTile_dps (t : Nat) (x : Tile) : (s.setTile t x).dps = s.dps := (rfl)
@[simp] theorem setTile_groups (t : Nat) (x : Tile) : (s.setTile t x).groups = s.groups := (rfl)
@[simp] theorem setTile_planQ (t : Nat) (x : Tile) : (s.setTile t x).planQ = s.planQ := (rfl)
@[simp] theorem setTile_planning (t : Nat) (x : Tile) : (s.setTile t x).planning = s.planning := (rfl)
@[simp] theorem setTile_scalers (t : Nat) (x : Tile) : (s.setTile t x).scalers = s.scalers := (rfl)
@[simp] theorem setTile_fsh (t : Nat) (x : Tile) : (s.setTile t x).fsh = s.fsh := (rfl)
@[simp] theorem setTile_rods (t : Nat) (x : Tile) : (s.setTile t x).rods = s.rods := (rfl)
@[simp] theorem setTile_signs (t : Nat) (x : Tile) : (s.setTile t x).signs = s.signs := (rfl)
@[simp] theorem setTile_ports (t : Nat) (x : Tile) : (s.setTile t x).ports = s.ports := (rfl)
@[simp] theorem setTile_rx (t : Nat) (x : Tile) : (s.setTile t x).rx = s.rx := (rfl)
@[simp] theorem setTile_tx (t : Nat) (x : Tile) : (s.setTile t x).tx = s.tx := (rfl)
@[simp] theorem setTile_trs (t : Nat) (x : Tile) : (s.setTile t x).trs = s.trs := (rfl)
@[simp] theorem setTile_health (t : Nat) (x : Tile) : (s.setTile t x).health = s.health := (rfl)
@[simp] theorem setTile_out (t : Nat) (x : Tile) : (s.setTile t x).out = s.out := (rfl)
@[simp] theorem setTile_time (t : Nat) (x : Tile) : (s.setTile t x).time = s.time := (rfl)
@[simp] theorem setTile_frac (t : Nat) (x : Tile) : (s.setTile t x).frac = s.frac := (rfl)
@[simp] theorem setTile_up (t : Nat) (x : Tile) : (s.setTile t x).up = s.up := (rfl)
@[simp] theorem setTile_fresh (t : Nat) (x : Tile) : (s.setTile t x).fresh = s.fresh := (rfl)
@[simp] theorem setTile_pending (t : Nat) (x : Tile) : (s.setTile t x).pending = s.pending := (rfl)

-- setScaler
@[simp] theorem setScaler_variant (l : Nat) (x : Scaler) : (s.setScaler l x).variant = s.variant := (rfl)
@[simp] theorem setScaler_powered (l : Nat) (x : Scaler) : (s.setScaler l x).powered = s.powered := (rfl)
@[simp] theorem setScaler_mgmt (l : Nat) (x : Scaler) : (s.setScaler l x).mgmt = s.mgmt := (rfl)
@[simp] theorem setScaler_dead (l : Nat) (x : Scaler) : (s.setScaler l x).dead = s.dead := (rfl)
@[simp] theorem setScaler_regs (l : Nat) (x : Scaler) : (s.setScaler l x).regs = s.regs := (rfl)
@[simp] theorem setScaler_unit (l : Nat) (x : Scaler) : (s.setScaler l x).unit = s.unit := (rfl)
@[simp] theorem setScaler_deck (l : Nat) (x : Scaler) : (s.setScaler l x).deck = s.deck := (rfl)
@[simp] theorem setScaler_spaces (l : Nat) (x : Scaler) : (s.setScaler l x).spaces = s.spaces := (rfl)
@[simp] theorem setScaler_live (l : Nat) (x : Scaler) : (s.setScaler l x).live = s.live := (rfl)
@[simp] theorem setScaler_failing (l : Nat) (x : Scaler) : (s.setScaler l x).failing = s.failing := (rfl)
@[simp] theorem setScaler_failingPend (l : Nat) (x : Scaler) : (s.setScaler l x).failingPend = s.failingPend := (rfl)
@[simp] theorem setScaler_mended (l : Nat) (x : Scaler) : (s.setScaler l x).mended = s.mended := (rfl)
@[simp] theorem setScaler_lmp (l : Nat) (x : Scaler) : (s.setScaler l x).lmp = s.lmp := (rfl)
@[simp] theorem setScaler_pf0 (l : Nat) (x : Scaler) : (s.setScaler l x).pf0 = s.pf0 := (rfl)
@[simp] theorem setScaler_pf1 (l : Nat) (x : Scaler) : (s.setScaler l x).pf1 = s.pf1 := (rfl)
@[simp] theorem setScaler_col (l : Nat) (x : Scaler) : (s.setScaler l x).col = s.col := (rfl)
@[simp] theorem setScaler_queues (l : Nat) (x : Scaler) : (s.setScaler l x).queues = s.queues := (rfl)
@[simp] theorem setScaler_f0 (l : Nat) (x : Scaler) : (s.setScaler l x).f0 = s.f0 := (rfl)
@[simp] theorem setScaler_f1 (l : Nat) (x : Scaler) : (s.setScaler l x).f1 = s.f1 := (rfl)
@[simp] theorem setScaler_ldr (l : Nat) (x : Scaler) : (s.setScaler l x).ldr = s.ldr := (rfl)
@[simp] theorem setScaler_store (l : Nat) (x : Scaler) : (s.setScaler l x).store = s.store := (rfl)
@[simp] theorem setScaler_hbm (l : Nat) (x : Scaler) : (s.setScaler l x).hbm = s.hbm := (rfl)
@[simp] theorem setScaler_safe (l : Nat) (x : Scaler) : (s.setScaler l x).safe = s.safe := (rfl)
@[simp] theorem setScaler_heads (l : Nat) (x : Scaler) : (s.setScaler l x).heads = s.heads := (rfl)
@[simp] theorem setScaler_dps (l : Nat) (x : Scaler) : (s.setScaler l x).dps = s.dps := (rfl)
@[simp] theorem setScaler_groups (l : Nat) (x : Scaler) : (s.setScaler l x).groups = s.groups := (rfl)
@[simp] theorem setScaler_planQ (l : Nat) (x : Scaler) : (s.setScaler l x).planQ = s.planQ := (rfl)
@[simp] theorem setScaler_planning (l : Nat) (x : Scaler) : (s.setScaler l x).planning = s.planning := (rfl)
@[simp] theorem setScaler_tiles (l : Nat) (x : Scaler) : (s.setScaler l x).tiles = s.tiles := (rfl)
@[simp] theorem setScaler_fsh (l : Nat) (x : Scaler) : (s.setScaler l x).fsh = s.fsh := (rfl)
@[simp] theorem setScaler_rods (l : Nat) (x : Scaler) : (s.setScaler l x).rods = s.rods := (rfl)
@[simp] theorem setScaler_signs (l : Nat) (x : Scaler) : (s.setScaler l x).signs = s.signs := (rfl)
@[simp] theorem setScaler_ports (l : Nat) (x : Scaler) : (s.setScaler l x).ports = s.ports := (rfl)
@[simp] theorem setScaler_rx (l : Nat) (x : Scaler) : (s.setScaler l x).rx = s.rx := (rfl)
@[simp] theorem setScaler_tx (l : Nat) (x : Scaler) : (s.setScaler l x).tx = s.tx := (rfl)
@[simp] theorem setScaler_trs (l : Nat) (x : Scaler) : (s.setScaler l x).trs = s.trs := (rfl)
@[simp] theorem setScaler_health (l : Nat) (x : Scaler) : (s.setScaler l x).health = s.health := (rfl)
@[simp] theorem setScaler_out (l : Nat) (x : Scaler) : (s.setScaler l x).out = s.out := (rfl)
@[simp] theorem setScaler_time (l : Nat) (x : Scaler) : (s.setScaler l x).time = s.time := (rfl)
@[simp] theorem setScaler_frac (l : Nat) (x : Scaler) : (s.setScaler l x).frac = s.frac := (rfl)
@[simp] theorem setScaler_up (l : Nat) (x : Scaler) : (s.setScaler l x).up = s.up := (rfl)
@[simp] theorem setScaler_fresh (l : Nat) (x : Scaler) : (s.setScaler l x).fresh = s.fresh := (rfl)
@[simp] theorem setScaler_pending (l : Nat) (x : Scaler) : (s.setScaler l x).pending = s.pending := (rfl)

-- setRod
@[simp] theorem setRod_variant (r : Nat) (x : Rod) : (s.setRod r x).variant = s.variant := (rfl)
@[simp] theorem setRod_powered (r : Nat) (x : Rod) : (s.setRod r x).powered = s.powered := (rfl)
@[simp] theorem setRod_mgmt (r : Nat) (x : Rod) : (s.setRod r x).mgmt = s.mgmt := (rfl)
@[simp] theorem setRod_dead (r : Nat) (x : Rod) : (s.setRod r x).dead = s.dead := (rfl)
@[simp] theorem setRod_regs (r : Nat) (x : Rod) : (s.setRod r x).regs = s.regs := (rfl)
@[simp] theorem setRod_unit (r : Nat) (x : Rod) : (s.setRod r x).unit = s.unit := (rfl)
@[simp] theorem setRod_deck (r : Nat) (x : Rod) : (s.setRod r x).deck = s.deck := (rfl)
@[simp] theorem setRod_spaces (r : Nat) (x : Rod) : (s.setRod r x).spaces = s.spaces := (rfl)
@[simp] theorem setRod_live (r : Nat) (x : Rod) : (s.setRod r x).live = s.live := (rfl)
@[simp] theorem setRod_failing (r : Nat) (x : Rod) : (s.setRod r x).failing = s.failing := (rfl)
@[simp] theorem setRod_failingPend (r : Nat) (x : Rod) : (s.setRod r x).failingPend = s.failingPend := (rfl)
@[simp] theorem setRod_mended (r : Nat) (x : Rod) : (s.setRod r x).mended = s.mended := (rfl)
@[simp] theorem setRod_lmp (r : Nat) (x : Rod) : (s.setRod r x).lmp = s.lmp := (rfl)
@[simp] theorem setRod_pf0 (r : Nat) (x : Rod) : (s.setRod r x).pf0 = s.pf0 := (rfl)
@[simp] theorem setRod_pf1 (r : Nat) (x : Rod) : (s.setRod r x).pf1 = s.pf1 := (rfl)
@[simp] theorem setRod_col (r : Nat) (x : Rod) : (s.setRod r x).col = s.col := (rfl)
@[simp] theorem setRod_queues (r : Nat) (x : Rod) : (s.setRod r x).queues = s.queues := (rfl)
@[simp] theorem setRod_f0 (r : Nat) (x : Rod) : (s.setRod r x).f0 = s.f0 := (rfl)
@[simp] theorem setRod_f1 (r : Nat) (x : Rod) : (s.setRod r x).f1 = s.f1 := (rfl)
@[simp] theorem setRod_ldr (r : Nat) (x : Rod) : (s.setRod r x).ldr = s.ldr := (rfl)
@[simp] theorem setRod_store (r : Nat) (x : Rod) : (s.setRod r x).store = s.store := (rfl)
@[simp] theorem setRod_hbm (r : Nat) (x : Rod) : (s.setRod r x).hbm = s.hbm := (rfl)
@[simp] theorem setRod_safe (r : Nat) (x : Rod) : (s.setRod r x).safe = s.safe := (rfl)
@[simp] theorem setRod_heads (r : Nat) (x : Rod) : (s.setRod r x).heads = s.heads := (rfl)
@[simp] theorem setRod_dps (r : Nat) (x : Rod) : (s.setRod r x).dps = s.dps := (rfl)
@[simp] theorem setRod_groups (r : Nat) (x : Rod) : (s.setRod r x).groups = s.groups := (rfl)
@[simp] theorem setRod_planQ (r : Nat) (x : Rod) : (s.setRod r x).planQ = s.planQ := (rfl)
@[simp] theorem setRod_planning (r : Nat) (x : Rod) : (s.setRod r x).planning = s.planning := (rfl)
@[simp] theorem setRod_tiles (r : Nat) (x : Rod) : (s.setRod r x).tiles = s.tiles := (rfl)
@[simp] theorem setRod_scalers (r : Nat) (x : Rod) : (s.setRod r x).scalers = s.scalers := (rfl)
@[simp] theorem setRod_fsh (r : Nat) (x : Rod) : (s.setRod r x).fsh = s.fsh := (rfl)
@[simp] theorem setRod_signs (r : Nat) (x : Rod) : (s.setRod r x).signs = s.signs := (rfl)
@[simp] theorem setRod_ports (r : Nat) (x : Rod) : (s.setRod r x).ports = s.ports := (rfl)
@[simp] theorem setRod_rx (r : Nat) (x : Rod) : (s.setRod r x).rx = s.rx := (rfl)
@[simp] theorem setRod_tx (r : Nat) (x : Rod) : (s.setRod r x).tx = s.tx := (rfl)
@[simp] theorem setRod_trs (r : Nat) (x : Rod) : (s.setRod r x).trs = s.trs := (rfl)
@[simp] theorem setRod_health (r : Nat) (x : Rod) : (s.setRod r x).health = s.health := (rfl)
@[simp] theorem setRod_out (r : Nat) (x : Rod) : (s.setRod r x).out = s.out := (rfl)
@[simp] theorem setRod_time (r : Nat) (x : Rod) : (s.setRod r x).time = s.time := (rfl)
@[simp] theorem setRod_frac (r : Nat) (x : Rod) : (s.setRod r x).frac = s.frac := (rfl)
@[simp] theorem setRod_up (r : Nat) (x : Rod) : (s.setRod r x).up = s.up := (rfl)
@[simp] theorem setRod_fresh (r : Nat) (x : Rod) : (s.setRod r x).fresh = s.fresh := (rfl)
@[simp] theorem setRod_pending (r : Nat) (x : Rod) : (s.setRod r x).pending = s.pending := (rfl)

-- setSign
@[simp] theorem setSign_variant (r : Nat) (x : Sign) : (s.setSign r x).variant = s.variant := (rfl)
@[simp] theorem setSign_powered (r : Nat) (x : Sign) : (s.setSign r x).powered = s.powered := (rfl)
@[simp] theorem setSign_mgmt (r : Nat) (x : Sign) : (s.setSign r x).mgmt = s.mgmt := (rfl)
@[simp] theorem setSign_dead (r : Nat) (x : Sign) : (s.setSign r x).dead = s.dead := (rfl)
@[simp] theorem setSign_regs (r : Nat) (x : Sign) : (s.setSign r x).regs = s.regs := (rfl)
@[simp] theorem setSign_unit (r : Nat) (x : Sign) : (s.setSign r x).unit = s.unit := (rfl)
@[simp] theorem setSign_deck (r : Nat) (x : Sign) : (s.setSign r x).deck = s.deck := (rfl)
@[simp] theorem setSign_spaces (r : Nat) (x : Sign) : (s.setSign r x).spaces = s.spaces := (rfl)
@[simp] theorem setSign_live (r : Nat) (x : Sign) : (s.setSign r x).live = s.live := (rfl)
@[simp] theorem setSign_failing (r : Nat) (x : Sign) : (s.setSign r x).failing = s.failing := (rfl)
@[simp] theorem setSign_failingPend (r : Nat) (x : Sign) : (s.setSign r x).failingPend = s.failingPend := (rfl)
@[simp] theorem setSign_mended (r : Nat) (x : Sign) : (s.setSign r x).mended = s.mended := (rfl)
@[simp] theorem setSign_lmp (r : Nat) (x : Sign) : (s.setSign r x).lmp = s.lmp := (rfl)
@[simp] theorem setSign_pf0 (r : Nat) (x : Sign) : (s.setSign r x).pf0 = s.pf0 := (rfl)
@[simp] theorem setSign_pf1 (r : Nat) (x : Sign) : (s.setSign r x).pf1 = s.pf1 := (rfl)
@[simp] theorem setSign_col (r : Nat) (x : Sign) : (s.setSign r x).col = s.col := (rfl)
@[simp] theorem setSign_queues (r : Nat) (x : Sign) : (s.setSign r x).queues = s.queues := (rfl)
@[simp] theorem setSign_f0 (r : Nat) (x : Sign) : (s.setSign r x).f0 = s.f0 := (rfl)
@[simp] theorem setSign_f1 (r : Nat) (x : Sign) : (s.setSign r x).f1 = s.f1 := (rfl)
@[simp] theorem setSign_ldr (r : Nat) (x : Sign) : (s.setSign r x).ldr = s.ldr := (rfl)
@[simp] theorem setSign_store (r : Nat) (x : Sign) : (s.setSign r x).store = s.store := (rfl)
@[simp] theorem setSign_hbm (r : Nat) (x : Sign) : (s.setSign r x).hbm = s.hbm := (rfl)
@[simp] theorem setSign_safe (r : Nat) (x : Sign) : (s.setSign r x).safe = s.safe := (rfl)
@[simp] theorem setSign_heads (r : Nat) (x : Sign) : (s.setSign r x).heads = s.heads := (rfl)
@[simp] theorem setSign_dps (r : Nat) (x : Sign) : (s.setSign r x).dps = s.dps := (rfl)
@[simp] theorem setSign_groups (r : Nat) (x : Sign) : (s.setSign r x).groups = s.groups := (rfl)
@[simp] theorem setSign_planQ (r : Nat) (x : Sign) : (s.setSign r x).planQ = s.planQ := (rfl)
@[simp] theorem setSign_planning (r : Nat) (x : Sign) : (s.setSign r x).planning = s.planning := (rfl)
@[simp] theorem setSign_tiles (r : Nat) (x : Sign) : (s.setSign r x).tiles = s.tiles := (rfl)
@[simp] theorem setSign_scalers (r : Nat) (x : Sign) : (s.setSign r x).scalers = s.scalers := (rfl)
@[simp] theorem setSign_fsh (r : Nat) (x : Sign) : (s.setSign r x).fsh = s.fsh := (rfl)
@[simp] theorem setSign_rods (r : Nat) (x : Sign) : (s.setSign r x).rods = s.rods := (rfl)
@[simp] theorem setSign_ports (r : Nat) (x : Sign) : (s.setSign r x).ports = s.ports := (rfl)
@[simp] theorem setSign_rx (r : Nat) (x : Sign) : (s.setSign r x).rx = s.rx := (rfl)
@[simp] theorem setSign_tx (r : Nat) (x : Sign) : (s.setSign r x).tx = s.tx := (rfl)
@[simp] theorem setSign_trs (r : Nat) (x : Sign) : (s.setSign r x).trs = s.trs := (rfl)
@[simp] theorem setSign_health (r : Nat) (x : Sign) : (s.setSign r x).health = s.health := (rfl)
@[simp] theorem setSign_out (r : Nat) (x : Sign) : (s.setSign r x).out = s.out := (rfl)
@[simp] theorem setSign_time (r : Nat) (x : Sign) : (s.setSign r x).time = s.time := (rfl)
@[simp] theorem setSign_frac (r : Nat) (x : Sign) : (s.setSign r x).frac = s.frac := (rfl)
@[simp] theorem setSign_up (r : Nat) (x : Sign) : (s.setSign r x).up = s.up := (rfl)
@[simp] theorem setSign_fresh (r : Nat) (x : Sign) : (s.setSign r x).fresh = s.fresh := (rfl)
@[simp] theorem setSign_pending (r : Nat) (x : Sign) : (s.setSign r x).pending = s.pending := (rfl)

-- setPort
@[simp] theorem setPort_variant (p : Nat) (x : Port) : (s.setPort p x).variant = s.variant := (rfl)
@[simp] theorem setPort_powered (p : Nat) (x : Port) : (s.setPort p x).powered = s.powered := (rfl)
@[simp] theorem setPort_mgmt (p : Nat) (x : Port) : (s.setPort p x).mgmt = s.mgmt := (rfl)
@[simp] theorem setPort_dead (p : Nat) (x : Port) : (s.setPort p x).dead = s.dead := (rfl)
@[simp] theorem setPort_regs (p : Nat) (x : Port) : (s.setPort p x).regs = s.regs := (rfl)
@[simp] theorem setPort_unit (p : Nat) (x : Port) : (s.setPort p x).unit = s.unit := (rfl)
@[simp] theorem setPort_deck (p : Nat) (x : Port) : (s.setPort p x).deck = s.deck := (rfl)
@[simp] theorem setPort_spaces (p : Nat) (x : Port) : (s.setPort p x).spaces = s.spaces := (rfl)
@[simp] theorem setPort_live (p : Nat) (x : Port) : (s.setPort p x).live = s.live := (rfl)
@[simp] theorem setPort_failing (p : Nat) (x : Port) : (s.setPort p x).failing = s.failing := (rfl)
@[simp] theorem setPort_failingPend (p : Nat) (x : Port) : (s.setPort p x).failingPend = s.failingPend := (rfl)
@[simp] theorem setPort_mended (p : Nat) (x : Port) : (s.setPort p x).mended = s.mended := (rfl)
@[simp] theorem setPort_lmp (p : Nat) (x : Port) : (s.setPort p x).lmp = s.lmp := (rfl)
@[simp] theorem setPort_pf0 (p : Nat) (x : Port) : (s.setPort p x).pf0 = s.pf0 := (rfl)
@[simp] theorem setPort_pf1 (p : Nat) (x : Port) : (s.setPort p x).pf1 = s.pf1 := (rfl)
@[simp] theorem setPort_col (p : Nat) (x : Port) : (s.setPort p x).col = s.col := (rfl)
@[simp] theorem setPort_queues (p : Nat) (x : Port) : (s.setPort p x).queues = s.queues := (rfl)
@[simp] theorem setPort_f0 (p : Nat) (x : Port) : (s.setPort p x).f0 = s.f0 := (rfl)
@[simp] theorem setPort_f1 (p : Nat) (x : Port) : (s.setPort p x).f1 = s.f1 := (rfl)
@[simp] theorem setPort_ldr (p : Nat) (x : Port) : (s.setPort p x).ldr = s.ldr := (rfl)
@[simp] theorem setPort_store (p : Nat) (x : Port) : (s.setPort p x).store = s.store := (rfl)
@[simp] theorem setPort_hbm (p : Nat) (x : Port) : (s.setPort p x).hbm = s.hbm := (rfl)
@[simp] theorem setPort_safe (p : Nat) (x : Port) : (s.setPort p x).safe = s.safe := (rfl)
@[simp] theorem setPort_heads (p : Nat) (x : Port) : (s.setPort p x).heads = s.heads := (rfl)
@[simp] theorem setPort_dps (p : Nat) (x : Port) : (s.setPort p x).dps = s.dps := (rfl)
@[simp] theorem setPort_groups (p : Nat) (x : Port) : (s.setPort p x).groups = s.groups := (rfl)
@[simp] theorem setPort_planQ (p : Nat) (x : Port) : (s.setPort p x).planQ = s.planQ := (rfl)
@[simp] theorem setPort_planning (p : Nat) (x : Port) : (s.setPort p x).planning = s.planning := (rfl)
@[simp] theorem setPort_tiles (p : Nat) (x : Port) : (s.setPort p x).tiles = s.tiles := (rfl)
@[simp] theorem setPort_scalers (p : Nat) (x : Port) : (s.setPort p x).scalers = s.scalers := (rfl)
@[simp] theorem setPort_fsh (p : Nat) (x : Port) : (s.setPort p x).fsh = s.fsh := (rfl)
@[simp] theorem setPort_rods (p : Nat) (x : Port) : (s.setPort p x).rods = s.rods := (rfl)
@[simp] theorem setPort_signs (p : Nat) (x : Port) : (s.setPort p x).signs = s.signs := (rfl)
@[simp] theorem setPort_rx (p : Nat) (x : Port) : (s.setPort p x).rx = s.rx := (rfl)
@[simp] theorem setPort_tx (p : Nat) (x : Port) : (s.setPort p x).tx = s.tx := (rfl)
@[simp] theorem setPort_trs (p : Nat) (x : Port) : (s.setPort p x).trs = s.trs := (rfl)
@[simp] theorem setPort_health (p : Nat) (x : Port) : (s.setPort p x).health = s.health := (rfl)
@[simp] theorem setPort_out (p : Nat) (x : Port) : (s.setPort p x).out = s.out := (rfl)
@[simp] theorem setPort_time (p : Nat) (x : Port) : (s.setPort p x).time = s.time := (rfl)
@[simp] theorem setPort_frac (p : Nat) (x : Port) : (s.setPort p x).frac = s.frac := (rfl)
@[simp] theorem setPort_up (p : Nat) (x : Port) : (s.setPort p x).up = s.up := (rfl)
@[simp] theorem setPort_fresh (p : Nat) (x : Port) : (s.setPort p x).fresh = s.fresh := (rfl)
@[simp] theorem setPort_pending (p : Nat) (x : Port) : (s.setPort p x).pending = s.pending := (rfl)

-- setRxs
@[simp] theorem setRxs_variant (i : Nat) (x : RxStream) : (s.setRxs i x).variant = s.variant := (rfl)
@[simp] theorem setRxs_powered (i : Nat) (x : RxStream) : (s.setRxs i x).powered = s.powered := (rfl)
@[simp] theorem setRxs_mgmt (i : Nat) (x : RxStream) : (s.setRxs i x).mgmt = s.mgmt := (rfl)
@[simp] theorem setRxs_dead (i : Nat) (x : RxStream) : (s.setRxs i x).dead = s.dead := (rfl)
@[simp] theorem setRxs_regs (i : Nat) (x : RxStream) : (s.setRxs i x).regs = s.regs := (rfl)
@[simp] theorem setRxs_unit (i : Nat) (x : RxStream) : (s.setRxs i x).unit = s.unit := (rfl)
@[simp] theorem setRxs_deck (i : Nat) (x : RxStream) : (s.setRxs i x).deck = s.deck := (rfl)
@[simp] theorem setRxs_spaces (i : Nat) (x : RxStream) : (s.setRxs i x).spaces = s.spaces := (rfl)
@[simp] theorem setRxs_live (i : Nat) (x : RxStream) : (s.setRxs i x).live = s.live := (rfl)
@[simp] theorem setRxs_failing (i : Nat) (x : RxStream) : (s.setRxs i x).failing = s.failing := (rfl)
@[simp] theorem setRxs_failingPend (i : Nat) (x : RxStream) : (s.setRxs i x).failingPend = s.failingPend := (rfl)
@[simp] theorem setRxs_mended (i : Nat) (x : RxStream) : (s.setRxs i x).mended = s.mended := (rfl)
@[simp] theorem setRxs_lmp (i : Nat) (x : RxStream) : (s.setRxs i x).lmp = s.lmp := (rfl)
@[simp] theorem setRxs_pf0 (i : Nat) (x : RxStream) : (s.setRxs i x).pf0 = s.pf0 := (rfl)
@[simp] theorem setRxs_pf1 (i : Nat) (x : RxStream) : (s.setRxs i x).pf1 = s.pf1 := (rfl)
@[simp] theorem setRxs_col (i : Nat) (x : RxStream) : (s.setRxs i x).col = s.col := (rfl)
@[simp] theorem setRxs_queues (i : Nat) (x : RxStream) : (s.setRxs i x).queues = s.queues := (rfl)
@[simp] theorem setRxs_f0 (i : Nat) (x : RxStream) : (s.setRxs i x).f0 = s.f0 := (rfl)
@[simp] theorem setRxs_f1 (i : Nat) (x : RxStream) : (s.setRxs i x).f1 = s.f1 := (rfl)
@[simp] theorem setRxs_ldr (i : Nat) (x : RxStream) : (s.setRxs i x).ldr = s.ldr := (rfl)
@[simp] theorem setRxs_store (i : Nat) (x : RxStream) : (s.setRxs i x).store = s.store := (rfl)
@[simp] theorem setRxs_hbm (i : Nat) (x : RxStream) : (s.setRxs i x).hbm = s.hbm := (rfl)
@[simp] theorem setRxs_safe (i : Nat) (x : RxStream) : (s.setRxs i x).safe = s.safe := (rfl)
@[simp] theorem setRxs_heads (i : Nat) (x : RxStream) : (s.setRxs i x).heads = s.heads := (rfl)
@[simp] theorem setRxs_dps (i : Nat) (x : RxStream) : (s.setRxs i x).dps = s.dps := (rfl)
@[simp] theorem setRxs_groups (i : Nat) (x : RxStream) : (s.setRxs i x).groups = s.groups := (rfl)
@[simp] theorem setRxs_planQ (i : Nat) (x : RxStream) : (s.setRxs i x).planQ = s.planQ := (rfl)
@[simp] theorem setRxs_planning (i : Nat) (x : RxStream) : (s.setRxs i x).planning = s.planning := (rfl)
@[simp] theorem setRxs_tiles (i : Nat) (x : RxStream) : (s.setRxs i x).tiles = s.tiles := (rfl)
@[simp] theorem setRxs_scalers (i : Nat) (x : RxStream) : (s.setRxs i x).scalers = s.scalers := (rfl)
@[simp] theorem setRxs_fsh (i : Nat) (x : RxStream) : (s.setRxs i x).fsh = s.fsh := (rfl)
@[simp] theorem setRxs_rods (i : Nat) (x : RxStream) : (s.setRxs i x).rods = s.rods := (rfl)
@[simp] theorem setRxs_signs (i : Nat) (x : RxStream) : (s.setRxs i x).signs = s.signs := (rfl)
@[simp] theorem setRxs_ports (i : Nat) (x : RxStream) : (s.setRxs i x).ports = s.ports := (rfl)
@[simp] theorem setRxs_tx (i : Nat) (x : RxStream) : (s.setRxs i x).tx = s.tx := (rfl)
@[simp] theorem setRxs_trs (i : Nat) (x : RxStream) : (s.setRxs i x).trs = s.trs := (rfl)
@[simp] theorem setRxs_health (i : Nat) (x : RxStream) : (s.setRxs i x).health = s.health := (rfl)
@[simp] theorem setRxs_out (i : Nat) (x : RxStream) : (s.setRxs i x).out = s.out := (rfl)
@[simp] theorem setRxs_time (i : Nat) (x : RxStream) : (s.setRxs i x).time = s.time := (rfl)
@[simp] theorem setRxs_frac (i : Nat) (x : RxStream) : (s.setRxs i x).frac = s.frac := (rfl)
@[simp] theorem setRxs_up (i : Nat) (x : RxStream) : (s.setRxs i x).up = s.up := (rfl)
@[simp] theorem setRxs_fresh (i : Nat) (x : RxStream) : (s.setRxs i x).fresh = s.fresh := (rfl)
@[simp] theorem setRxs_pending (i : Nat) (x : RxStream) : (s.setRxs i x).pending = s.pending := (rfl)

-- setTxs
@[simp] theorem setTxs_variant (i : Nat) (x : TxStream) : (s.setTxs i x).variant = s.variant := (rfl)
@[simp] theorem setTxs_powered (i : Nat) (x : TxStream) : (s.setTxs i x).powered = s.powered := (rfl)
@[simp] theorem setTxs_mgmt (i : Nat) (x : TxStream) : (s.setTxs i x).mgmt = s.mgmt := (rfl)
@[simp] theorem setTxs_dead (i : Nat) (x : TxStream) : (s.setTxs i x).dead = s.dead := (rfl)
@[simp] theorem setTxs_regs (i : Nat) (x : TxStream) : (s.setTxs i x).regs = s.regs := (rfl)
@[simp] theorem setTxs_unit (i : Nat) (x : TxStream) : (s.setTxs i x).unit = s.unit := (rfl)
@[simp] theorem setTxs_deck (i : Nat) (x : TxStream) : (s.setTxs i x).deck = s.deck := (rfl)
@[simp] theorem setTxs_spaces (i : Nat) (x : TxStream) : (s.setTxs i x).spaces = s.spaces := (rfl)
@[simp] theorem setTxs_live (i : Nat) (x : TxStream) : (s.setTxs i x).live = s.live := (rfl)
@[simp] theorem setTxs_failing (i : Nat) (x : TxStream) : (s.setTxs i x).failing = s.failing := (rfl)
@[simp] theorem setTxs_failingPend (i : Nat) (x : TxStream) : (s.setTxs i x).failingPend = s.failingPend := (rfl)
@[simp] theorem setTxs_mended (i : Nat) (x : TxStream) : (s.setTxs i x).mended = s.mended := (rfl)
@[simp] theorem setTxs_lmp (i : Nat) (x : TxStream) : (s.setTxs i x).lmp = s.lmp := (rfl)
@[simp] theorem setTxs_pf0 (i : Nat) (x : TxStream) : (s.setTxs i x).pf0 = s.pf0 := (rfl)
@[simp] theorem setTxs_pf1 (i : Nat) (x : TxStream) : (s.setTxs i x).pf1 = s.pf1 := (rfl)
@[simp] theorem setTxs_col (i : Nat) (x : TxStream) : (s.setTxs i x).col = s.col := (rfl)
@[simp] theorem setTxs_queues (i : Nat) (x : TxStream) : (s.setTxs i x).queues = s.queues := (rfl)
@[simp] theorem setTxs_f0 (i : Nat) (x : TxStream) : (s.setTxs i x).f0 = s.f0 := (rfl)
@[simp] theorem setTxs_f1 (i : Nat) (x : TxStream) : (s.setTxs i x).f1 = s.f1 := (rfl)
@[simp] theorem setTxs_ldr (i : Nat) (x : TxStream) : (s.setTxs i x).ldr = s.ldr := (rfl)
@[simp] theorem setTxs_store (i : Nat) (x : TxStream) : (s.setTxs i x).store = s.store := (rfl)
@[simp] theorem setTxs_hbm (i : Nat) (x : TxStream) : (s.setTxs i x).hbm = s.hbm := (rfl)
@[simp] theorem setTxs_safe (i : Nat) (x : TxStream) : (s.setTxs i x).safe = s.safe := (rfl)
@[simp] theorem setTxs_heads (i : Nat) (x : TxStream) : (s.setTxs i x).heads = s.heads := (rfl)
@[simp] theorem setTxs_dps (i : Nat) (x : TxStream) : (s.setTxs i x).dps = s.dps := (rfl)
@[simp] theorem setTxs_groups (i : Nat) (x : TxStream) : (s.setTxs i x).groups = s.groups := (rfl)
@[simp] theorem setTxs_planQ (i : Nat) (x : TxStream) : (s.setTxs i x).planQ = s.planQ := (rfl)
@[simp] theorem setTxs_planning (i : Nat) (x : TxStream) : (s.setTxs i x).planning = s.planning := (rfl)
@[simp] theorem setTxs_tiles (i : Nat) (x : TxStream) : (s.setTxs i x).tiles = s.tiles := (rfl)
@[simp] theorem setTxs_scalers (i : Nat) (x : TxStream) : (s.setTxs i x).scalers = s.scalers := (rfl)
@[simp] theorem setTxs_fsh (i : Nat) (x : TxStream) : (s.setTxs i x).fsh = s.fsh := (rfl)
@[simp] theorem setTxs_rods (i : Nat) (x : TxStream) : (s.setTxs i x).rods = s.rods := (rfl)
@[simp] theorem setTxs_signs (i : Nat) (x : TxStream) : (s.setTxs i x).signs = s.signs := (rfl)
@[simp] theorem setTxs_ports (i : Nat) (x : TxStream) : (s.setTxs i x).ports = s.ports := (rfl)
@[simp] theorem setTxs_rx (i : Nat) (x : TxStream) : (s.setTxs i x).rx = s.rx := (rfl)
@[simp] theorem setTxs_trs (i : Nat) (x : TxStream) : (s.setTxs i x).trs = s.trs := (rfl)
@[simp] theorem setTxs_health (i : Nat) (x : TxStream) : (s.setTxs i x).health = s.health := (rfl)
@[simp] theorem setTxs_out (i : Nat) (x : TxStream) : (s.setTxs i x).out = s.out := (rfl)
@[simp] theorem setTxs_time (i : Nat) (x : TxStream) : (s.setTxs i x).time = s.time := (rfl)
@[simp] theorem setTxs_frac (i : Nat) (x : TxStream) : (s.setTxs i x).frac = s.frac := (rfl)
@[simp] theorem setTxs_up (i : Nat) (x : TxStream) : (s.setTxs i x).up = s.up := (rfl)
@[simp] theorem setTxs_fresh (i : Nat) (x : TxStream) : (s.setTxs i x).fresh = s.fresh := (rfl)
@[simp] theorem setTxs_pending (i : Nat) (x : TxStream) : (s.setTxs i x).pending = s.pending := (rfl)

-- setPll
@[simp] theorem setPll_variant (g : Nat) (x : Pll) : (s.setPll g x).variant = s.variant := (rfl)
@[simp] theorem setPll_powered (g : Nat) (x : Pll) : (s.setPll g x).powered = s.powered := (rfl)
@[simp] theorem setPll_mgmt (g : Nat) (x : Pll) : (s.setPll g x).mgmt = s.mgmt := (rfl)
@[simp] theorem setPll_dead (g : Nat) (x : Pll) : (s.setPll g x).dead = s.dead := (rfl)
@[simp] theorem setPll_regs (g : Nat) (x : Pll) : (s.setPll g x).regs = s.regs := (rfl)
@[simp] theorem setPll_unit (g : Nat) (x : Pll) : (s.setPll g x).unit = s.unit := (rfl)
@[simp] theorem setPll_deck (g : Nat) (x : Pll) : (s.setPll g x).deck = s.deck := (rfl)
@[simp] theorem setPll_spaces (g : Nat) (x : Pll) : (s.setPll g x).spaces = s.spaces := (rfl)
@[simp] theorem setPll_live (g : Nat) (x : Pll) : (s.setPll g x).live = s.live := (rfl)
@[simp] theorem setPll_failing (g : Nat) (x : Pll) : (s.setPll g x).failing = s.failing := (rfl)
@[simp] theorem setPll_failingPend (g : Nat) (x : Pll) : (s.setPll g x).failingPend = s.failingPend := (rfl)
@[simp] theorem setPll_mended (g : Nat) (x : Pll) : (s.setPll g x).mended = s.mended := (rfl)
@[simp] theorem setPll_lmp (g : Nat) (x : Pll) : (s.setPll g x).lmp = s.lmp := (rfl)
@[simp] theorem setPll_pf0 (g : Nat) (x : Pll) : (s.setPll g x).pf0 = s.pf0 := (rfl)
@[simp] theorem setPll_pf1 (g : Nat) (x : Pll) : (s.setPll g x).pf1 = s.pf1 := (rfl)
@[simp] theorem setPll_col (g : Nat) (x : Pll) : (s.setPll g x).col = s.col := (rfl)
@[simp] theorem setPll_queues (g : Nat) (x : Pll) : (s.setPll g x).queues = s.queues := (rfl)
@[simp] theorem setPll_f0 (g : Nat) (x : Pll) : (s.setPll g x).f0 = s.f0 := (rfl)
@[simp] theorem setPll_f1 (g : Nat) (x : Pll) : (s.setPll g x).f1 = s.f1 := (rfl)
@[simp] theorem setPll_ldr (g : Nat) (x : Pll) : (s.setPll g x).ldr = s.ldr := (rfl)
@[simp] theorem setPll_store (g : Nat) (x : Pll) : (s.setPll g x).store = s.store := (rfl)
@[simp] theorem setPll_hbm (g : Nat) (x : Pll) : (s.setPll g x).hbm = s.hbm := (rfl)
@[simp] theorem setPll_safe (g : Nat) (x : Pll) : (s.setPll g x).safe = s.safe := (rfl)
@[simp] theorem setPll_heads (g : Nat) (x : Pll) : (s.setPll g x).heads = s.heads := (rfl)
@[simp] theorem setPll_dps (g : Nat) (x : Pll) : (s.setPll g x).dps = s.dps := (rfl)
@[simp] theorem setPll_groups (g : Nat) (x : Pll) : (s.setPll g x).groups = s.groups := (rfl)
@[simp] theorem setPll_planQ (g : Nat) (x : Pll) : (s.setPll g x).planQ = s.planQ := (rfl)
@[simp] theorem setPll_planning (g : Nat) (x : Pll) : (s.setPll g x).planning = s.planning := (rfl)
@[simp] theorem setPll_tiles (g : Nat) (x : Pll) : (s.setPll g x).tiles = s.tiles := (rfl)
@[simp] theorem setPll_scalers (g : Nat) (x : Pll) : (s.setPll g x).scalers = s.scalers := (rfl)
@[simp] theorem setPll_fsh (g : Nat) (x : Pll) : (s.setPll g x).fsh = s.fsh := (rfl)
@[simp] theorem setPll_rods (g : Nat) (x : Pll) : (s.setPll g x).rods = s.rods := (rfl)
@[simp] theorem setPll_signs (g : Nat) (x : Pll) : (s.setPll g x).signs = s.signs := (rfl)
@[simp] theorem setPll_ports (g : Nat) (x : Pll) : (s.setPll g x).ports = s.ports := (rfl)
@[simp] theorem setPll_rx (g : Nat) (x : Pll) : (s.setPll g x).rx = s.rx := (rfl)
@[simp] theorem setPll_tx (g : Nat) (x : Pll) : (s.setPll g x).tx = s.tx := (rfl)
@[simp] theorem setPll_health (g : Nat) (x : Pll) : (s.setPll g x).health = s.health := (rfl)
@[simp] theorem setPll_out (g : Nat) (x : Pll) : (s.setPll g x).out = s.out := (rfl)
@[simp] theorem setPll_time (g : Nat) (x : Pll) : (s.setPll g x).time = s.time := (rfl)
@[simp] theorem setPll_frac (g : Nat) (x : Pll) : (s.setPll g x).frac = s.frac := (rfl)
@[simp] theorem setPll_up (g : Nat) (x : Pll) : (s.setPll g x).up = s.up := (rfl)
@[simp] theorem setPll_fresh (g : Nat) (x : Pll) : (s.setPll g x).fresh = s.fresh := (rfl)
@[simp] theorem setPll_pending (g : Nat) (x : Pll) : (s.setPll g x).pending = s.pending := (rfl)

-- setMetered
@[simp] theorem setMetered_variant (u : Nat) (x : Metered) : (s.setMetered u x).variant = s.variant := (rfl)
@[simp] theorem setMetered_powered (u : Nat) (x : Metered) : (s.setMetered u x).powered = s.powered := (rfl)
@[simp] theorem setMetered_mgmt (u : Nat) (x : Metered) : (s.setMetered u x).mgmt = s.mgmt := (rfl)
@[simp] theorem setMetered_dead (u : Nat) (x : Metered) : (s.setMetered u x).dead = s.dead := (rfl)
@[simp] theorem setMetered_regs (u : Nat) (x : Metered) : (s.setMetered u x).regs = s.regs := (rfl)
@[simp] theorem setMetered_unit (u : Nat) (x : Metered) : (s.setMetered u x).unit = s.unit := (rfl)
@[simp] theorem setMetered_deck (u : Nat) (x : Metered) : (s.setMetered u x).deck = s.deck := (rfl)
@[simp] theorem setMetered_spaces (u : Nat) (x : Metered) : (s.setMetered u x).spaces = s.spaces := (rfl)
@[simp] theorem setMetered_live (u : Nat) (x : Metered) : (s.setMetered u x).live = s.live := (rfl)
@[simp] theorem setMetered_failing (u : Nat) (x : Metered) : (s.setMetered u x).failing = s.failing := (rfl)
@[simp] theorem setMetered_failingPend (u : Nat) (x : Metered) : (s.setMetered u x).failingPend = s.failingPend := (rfl)
@[simp] theorem setMetered_mended (u : Nat) (x : Metered) : (s.setMetered u x).mended = s.mended := (rfl)
@[simp] theorem setMetered_lmp (u : Nat) (x : Metered) : (s.setMetered u x).lmp = s.lmp := (rfl)
@[simp] theorem setMetered_pf0 (u : Nat) (x : Metered) : (s.setMetered u x).pf0 = s.pf0 := (rfl)
@[simp] theorem setMetered_pf1 (u : Nat) (x : Metered) : (s.setMetered u x).pf1 = s.pf1 := (rfl)
@[simp] theorem setMetered_col (u : Nat) (x : Metered) : (s.setMetered u x).col = s.col := (rfl)
@[simp] theorem setMetered_queues (u : Nat) (x : Metered) : (s.setMetered u x).queues = s.queues := (rfl)
@[simp] theorem setMetered_f0 (u : Nat) (x : Metered) : (s.setMetered u x).f0 = s.f0 := (rfl)
@[simp] theorem setMetered_f1 (u : Nat) (x : Metered) : (s.setMetered u x).f1 = s.f1 := (rfl)
@[simp] theorem setMetered_ldr (u : Nat) (x : Metered) : (s.setMetered u x).ldr = s.ldr := (rfl)
@[simp] theorem setMetered_store (u : Nat) (x : Metered) : (s.setMetered u x).store = s.store := (rfl)
@[simp] theorem setMetered_hbm (u : Nat) (x : Metered) : (s.setMetered u x).hbm = s.hbm := (rfl)
@[simp] theorem setMetered_safe (u : Nat) (x : Metered) : (s.setMetered u x).safe = s.safe := (rfl)
@[simp] theorem setMetered_heads (u : Nat) (x : Metered) : (s.setMetered u x).heads = s.heads := (rfl)
@[simp] theorem setMetered_dps (u : Nat) (x : Metered) : (s.setMetered u x).dps = s.dps := (rfl)
@[simp] theorem setMetered_groups (u : Nat) (x : Metered) : (s.setMetered u x).groups = s.groups := (rfl)
@[simp] theorem setMetered_planQ (u : Nat) (x : Metered) : (s.setMetered u x).planQ = s.planQ := (rfl)
@[simp] theorem setMetered_planning (u : Nat) (x : Metered) : (s.setMetered u x).planning = s.planning := (rfl)
@[simp] theorem setMetered_tiles (u : Nat) (x : Metered) : (s.setMetered u x).tiles = s.tiles := (rfl)
@[simp] theorem setMetered_scalers (u : Nat) (x : Metered) : (s.setMetered u x).scalers = s.scalers := (rfl)
@[simp] theorem setMetered_fsh (u : Nat) (x : Metered) : (s.setMetered u x).fsh = s.fsh := (rfl)
@[simp] theorem setMetered_rods (u : Nat) (x : Metered) : (s.setMetered u x).rods = s.rods := (rfl)
@[simp] theorem setMetered_signs (u : Nat) (x : Metered) : (s.setMetered u x).signs = s.signs := (rfl)
@[simp] theorem setMetered_ports (u : Nat) (x : Metered) : (s.setMetered u x).ports = s.ports := (rfl)
@[simp] theorem setMetered_rx (u : Nat) (x : Metered) : (s.setMetered u x).rx = s.rx := (rfl)
@[simp] theorem setMetered_tx (u : Nat) (x : Metered) : (s.setMetered u x).tx = s.tx := (rfl)
@[simp] theorem setMetered_trs (u : Nat) (x : Metered) : (s.setMetered u x).trs = s.trs := (rfl)
@[simp] theorem setMetered_out (u : Nat) (x : Metered) : (s.setMetered u x).out = s.out := (rfl)
@[simp] theorem setMetered_time (u : Nat) (x : Metered) : (s.setMetered u x).time = s.time := (rfl)
@[simp] theorem setMetered_frac (u : Nat) (x : Metered) : (s.setMetered u x).frac = s.frac := (rfl)
@[simp] theorem setMetered_up (u : Nat) (x : Metered) : (s.setMetered u x).up = s.up := (rfl)
@[simp] theorem setMetered_fresh (u : Nat) (x : Metered) : (s.setMetered u x).fresh = s.fresh := (rfl)
@[simp] theorem setMetered_pending (u : Nat) (x : Metered) : (s.setMetered u x).pending = s.pending := (rfl)

-- setPc
@[simp] theorem setPc_variant (p : Nat) (x : Pc) : (s.setPc p x).variant = s.variant := (rfl)
@[simp] theorem setPc_powered (p : Nat) (x : Pc) : (s.setPc p x).powered = s.powered := (rfl)
@[simp] theorem setPc_mgmt (p : Nat) (x : Pc) : (s.setPc p x).mgmt = s.mgmt := (rfl)
@[simp] theorem setPc_dead (p : Nat) (x : Pc) : (s.setPc p x).dead = s.dead := (rfl)
@[simp] theorem setPc_regs (p : Nat) (x : Pc) : (s.setPc p x).regs = s.regs := (rfl)
@[simp] theorem setPc_unit (p : Nat) (x : Pc) : (s.setPc p x).unit = s.unit := (rfl)
@[simp] theorem setPc_deck (p : Nat) (x : Pc) : (s.setPc p x).deck = s.deck := (rfl)
@[simp] theorem setPc_spaces (p : Nat) (x : Pc) : (s.setPc p x).spaces = s.spaces := (rfl)
@[simp] theorem setPc_live (p : Nat) (x : Pc) : (s.setPc p x).live = s.live := (rfl)
@[simp] theorem setPc_failing (p : Nat) (x : Pc) : (s.setPc p x).failing = s.failing := (rfl)
@[simp] theorem setPc_failingPend (p : Nat) (x : Pc) : (s.setPc p x).failingPend = s.failingPend := (rfl)
@[simp] theorem setPc_mended (p : Nat) (x : Pc) : (s.setPc p x).mended = s.mended := (rfl)
@[simp] theorem setPc_lmp (p : Nat) (x : Pc) : (s.setPc p x).lmp = s.lmp := (rfl)
@[simp] theorem setPc_pf0 (p : Nat) (x : Pc) : (s.setPc p x).pf0 = s.pf0 := (rfl)
@[simp] theorem setPc_pf1 (p : Nat) (x : Pc) : (s.setPc p x).pf1 = s.pf1 := (rfl)
@[simp] theorem setPc_col (p : Nat) (x : Pc) : (s.setPc p x).col = s.col := (rfl)
@[simp] theorem setPc_queues (p : Nat) (x : Pc) : (s.setPc p x).queues = s.queues := (rfl)
@[simp] theorem setPc_f0 (p : Nat) (x : Pc) : (s.setPc p x).f0 = s.f0 := (rfl)
@[simp] theorem setPc_f1 (p : Nat) (x : Pc) : (s.setPc p x).f1 = s.f1 := (rfl)
@[simp] theorem setPc_ldr (p : Nat) (x : Pc) : (s.setPc p x).ldr = s.ldr := (rfl)
@[simp] theorem setPc_hbm (p : Nat) (x : Pc) : (s.setPc p x).hbm = s.hbm := (rfl)
@[simp] theorem setPc_safe (p : Nat) (x : Pc) : (s.setPc p x).safe = s.safe := (rfl)
@[simp] theorem setPc_heads (p : Nat) (x : Pc) : (s.setPc p x).heads = s.heads := (rfl)
@[simp] theorem setPc_dps (p : Nat) (x : Pc) : (s.setPc p x).dps = s.dps := (rfl)
@[simp] theorem setPc_groups (p : Nat) (x : Pc) : (s.setPc p x).groups = s.groups := (rfl)
@[simp] theorem setPc_planQ (p : Nat) (x : Pc) : (s.setPc p x).planQ = s.planQ := (rfl)
@[simp] theorem setPc_planning (p : Nat) (x : Pc) : (s.setPc p x).planning = s.planning := (rfl)
@[simp] theorem setPc_tiles (p : Nat) (x : Pc) : (s.setPc p x).tiles = s.tiles := (rfl)
@[simp] theorem setPc_scalers (p : Nat) (x : Pc) : (s.setPc p x).scalers = s.scalers := (rfl)
@[simp] theorem setPc_fsh (p : Nat) (x : Pc) : (s.setPc p x).fsh = s.fsh := (rfl)
@[simp] theorem setPc_rods (p : Nat) (x : Pc) : (s.setPc p x).rods = s.rods := (rfl)
@[simp] theorem setPc_signs (p : Nat) (x : Pc) : (s.setPc p x).signs = s.signs := (rfl)
@[simp] theorem setPc_ports (p : Nat) (x : Pc) : (s.setPc p x).ports = s.ports := (rfl)
@[simp] theorem setPc_rx (p : Nat) (x : Pc) : (s.setPc p x).rx = s.rx := (rfl)
@[simp] theorem setPc_tx (p : Nat) (x : Pc) : (s.setPc p x).tx = s.tx := (rfl)
@[simp] theorem setPc_trs (p : Nat) (x : Pc) : (s.setPc p x).trs = s.trs := (rfl)
@[simp] theorem setPc_health (p : Nat) (x : Pc) : (s.setPc p x).health = s.health := (rfl)
@[simp] theorem setPc_out (p : Nat) (x : Pc) : (s.setPc p x).out = s.out := (rfl)
@[simp] theorem setPc_time (p : Nat) (x : Pc) : (s.setPc p x).time = s.time := (rfl)
@[simp] theorem setPc_frac (p : Nat) (x : Pc) : (s.setPc p x).frac = s.frac := (rfl)
@[simp] theorem setPc_up (p : Nat) (x : Pc) : (s.setPc p x).up = s.up := (rfl)
@[simp] theorem setPc_fresh (p : Nat) (x : Pc) : (s.setPc p x).fresh = s.fresh := (rfl)
@[simp] theorem setPc_pending (p : Nat) (x : Pc) : (s.setPc p x).pending = s.pending := (rfl)

-- setSurface
@[simp] theorem setSurface_variant (h : Nat) (x : Option Surface) : (s.setSurface h x).variant = s.variant := (rfl)
@[simp] theorem setSurface_powered (h : Nat) (x : Option Surface) : (s.setSurface h x).powered = s.powered := (rfl)
@[simp] theorem setSurface_mgmt (h : Nat) (x : Option Surface) : (s.setSurface h x).mgmt = s.mgmt := (rfl)
@[simp] theorem setSurface_dead (h : Nat) (x : Option Surface) : (s.setSurface h x).dead = s.dead := (rfl)
@[simp] theorem setSurface_regs (h : Nat) (x : Option Surface) : (s.setSurface h x).regs = s.regs := (rfl)
@[simp] theorem setSurface_unit (h : Nat) (x : Option Surface) : (s.setSurface h x).unit = s.unit := (rfl)
@[simp] theorem setSurface_deck (h : Nat) (x : Option Surface) : (s.setSurface h x).deck = s.deck := (rfl)
@[simp] theorem setSurface_spaces (h : Nat) (x : Option Surface) : (s.setSurface h x).spaces = s.spaces := (rfl)
@[simp] theorem setSurface_live (h : Nat) (x : Option Surface) : (s.setSurface h x).live = s.live := (rfl)
@[simp] theorem setSurface_failing (h : Nat) (x : Option Surface) : (s.setSurface h x).failing = s.failing := (rfl)
@[simp] theorem setSurface_failingPend (h : Nat) (x : Option Surface) : (s.setSurface h x).failingPend = s.failingPend := (rfl)
@[simp] theorem setSurface_mended (h : Nat) (x : Option Surface) : (s.setSurface h x).mended = s.mended := (rfl)
@[simp] theorem setSurface_lmp (h : Nat) (x : Option Surface) : (s.setSurface h x).lmp = s.lmp := (rfl)
@[simp] theorem setSurface_pf0 (h : Nat) (x : Option Surface) : (s.setSurface h x).pf0 = s.pf0 := (rfl)
@[simp] theorem setSurface_pf1 (h : Nat) (x : Option Surface) : (s.setSurface h x).pf1 = s.pf1 := (rfl)
@[simp] theorem setSurface_col (h : Nat) (x : Option Surface) : (s.setSurface h x).col = s.col := (rfl)
@[simp] theorem setSurface_queues (h : Nat) (x : Option Surface) : (s.setSurface h x).queues = s.queues := (rfl)
@[simp] theorem setSurface_f0 (h : Nat) (x : Option Surface) : (s.setSurface h x).f0 = s.f0 := (rfl)
@[simp] theorem setSurface_f1 (h : Nat) (x : Option Surface) : (s.setSurface h x).f1 = s.f1 := (rfl)
@[simp] theorem setSurface_ldr (h : Nat) (x : Option Surface) : (s.setSurface h x).ldr = s.ldr := (rfl)
@[simp] theorem setSurface_hbm (h : Nat) (x : Option Surface) : (s.setSurface h x).hbm = s.hbm := (rfl)
@[simp] theorem setSurface_safe (h : Nat) (x : Option Surface) : (s.setSurface h x).safe = s.safe := (rfl)
@[simp] theorem setSurface_heads (h : Nat) (x : Option Surface) : (s.setSurface h x).heads = s.heads := (rfl)
@[simp] theorem setSurface_dps (h : Nat) (x : Option Surface) : (s.setSurface h x).dps = s.dps := (rfl)
@[simp] theorem setSurface_groups (h : Nat) (x : Option Surface) : (s.setSurface h x).groups = s.groups := (rfl)
@[simp] theorem setSurface_planQ (h : Nat) (x : Option Surface) : (s.setSurface h x).planQ = s.planQ := (rfl)
@[simp] theorem setSurface_planning (h : Nat) (x : Option Surface) : (s.setSurface h x).planning = s.planning := (rfl)
@[simp] theorem setSurface_tiles (h : Nat) (x : Option Surface) : (s.setSurface h x).tiles = s.tiles := (rfl)
@[simp] theorem setSurface_scalers (h : Nat) (x : Option Surface) : (s.setSurface h x).scalers = s.scalers := (rfl)
@[simp] theorem setSurface_fsh (h : Nat) (x : Option Surface) : (s.setSurface h x).fsh = s.fsh := (rfl)
@[simp] theorem setSurface_rods (h : Nat) (x : Option Surface) : (s.setSurface h x).rods = s.rods := (rfl)
@[simp] theorem setSurface_signs (h : Nat) (x : Option Surface) : (s.setSurface h x).signs = s.signs := (rfl)
@[simp] theorem setSurface_ports (h : Nat) (x : Option Surface) : (s.setSurface h x).ports = s.ports := (rfl)
@[simp] theorem setSurface_rx (h : Nat) (x : Option Surface) : (s.setSurface h x).rx = s.rx := (rfl)
@[simp] theorem setSurface_tx (h : Nat) (x : Option Surface) : (s.setSurface h x).tx = s.tx := (rfl)
@[simp] theorem setSurface_trs (h : Nat) (x : Option Surface) : (s.setSurface h x).trs = s.trs := (rfl)
@[simp] theorem setSurface_health (h : Nat) (x : Option Surface) : (s.setSurface h x).health = s.health := (rfl)
@[simp] theorem setSurface_out (h : Nat) (x : Option Surface) : (s.setSurface h x).out = s.out := (rfl)
@[simp] theorem setSurface_time (h : Nat) (x : Option Surface) : (s.setSurface h x).time = s.time := (rfl)
@[simp] theorem setSurface_frac (h : Nat) (x : Option Surface) : (s.setSurface h x).frac = s.frac := (rfl)
@[simp] theorem setSurface_up (h : Nat) (x : Option Surface) : (s.setSurface h x).up = s.up := (rfl)
@[simp] theorem setSurface_fresh (h : Nat) (x : Option Surface) : (s.setSurface h x).fresh = s.fresh := (rfl)
@[simp] theorem setSurface_pending (h : Nat) (x : Option Surface) : (s.setSurface h x).pending = s.pending := (rfl)

-- setSrc
@[simp] theorem setSrc_variant (i : Nat) (x : SrcSt) : (s.setSrc i x).variant = s.variant := (rfl)
@[simp] theorem setSrc_powered (i : Nat) (x : SrcSt) : (s.setSrc i x).powered = s.powered := (rfl)
@[simp] theorem setSrc_mgmt (i : Nat) (x : SrcSt) : (s.setSrc i x).mgmt = s.mgmt := (rfl)
@[simp] theorem setSrc_dead (i : Nat) (x : SrcSt) : (s.setSrc i x).dead = s.dead := (rfl)
@[simp] theorem setSrc_regs (i : Nat) (x : SrcSt) : (s.setSrc i x).regs = s.regs := (rfl)
@[simp] theorem setSrc_unit (i : Nat) (x : SrcSt) : (s.setSrc i x).unit = s.unit := (rfl)
@[simp] theorem setSrc_deck (i : Nat) (x : SrcSt) : (s.setSrc i x).deck = s.deck := (rfl)
@[simp] theorem setSrc_spaces (i : Nat) (x : SrcSt) : (s.setSrc i x).spaces = s.spaces := (rfl)
@[simp] theorem setSrc_live (i : Nat) (x : SrcSt) : (s.setSrc i x).live = s.live := (rfl)
@[simp] theorem setSrc_failing (i : Nat) (x : SrcSt) : (s.setSrc i x).failing = s.failing := (rfl)
@[simp] theorem setSrc_failingPend (i : Nat) (x : SrcSt) : (s.setSrc i x).failingPend = s.failingPend := (rfl)
@[simp] theorem setSrc_mended (i : Nat) (x : SrcSt) : (s.setSrc i x).mended = s.mended := (rfl)
@[simp] theorem setSrc_lmp (i : Nat) (x : SrcSt) : (s.setSrc i x).lmp = s.lmp := (rfl)
@[simp] theorem setSrc_pf0 (i : Nat) (x : SrcSt) : (s.setSrc i x).pf0 = s.pf0 := (rfl)
@[simp] theorem setSrc_pf1 (i : Nat) (x : SrcSt) : (s.setSrc i x).pf1 = s.pf1 := (rfl)
@[simp] theorem setSrc_queues (i : Nat) (x : SrcSt) : (s.setSrc i x).queues = s.queues := (rfl)
@[simp] theorem setSrc_f0 (i : Nat) (x : SrcSt) : (s.setSrc i x).f0 = s.f0 := (rfl)
@[simp] theorem setSrc_f1 (i : Nat) (x : SrcSt) : (s.setSrc i x).f1 = s.f1 := (rfl)
@[simp] theorem setSrc_ldr (i : Nat) (x : SrcSt) : (s.setSrc i x).ldr = s.ldr := (rfl)
@[simp] theorem setSrc_store (i : Nat) (x : SrcSt) : (s.setSrc i x).store = s.store := (rfl)
@[simp] theorem setSrc_hbm (i : Nat) (x : SrcSt) : (s.setSrc i x).hbm = s.hbm := (rfl)
@[simp] theorem setSrc_safe (i : Nat) (x : SrcSt) : (s.setSrc i x).safe = s.safe := (rfl)
@[simp] theorem setSrc_heads (i : Nat) (x : SrcSt) : (s.setSrc i x).heads = s.heads := (rfl)
@[simp] theorem setSrc_dps (i : Nat) (x : SrcSt) : (s.setSrc i x).dps = s.dps := (rfl)
@[simp] theorem setSrc_groups (i : Nat) (x : SrcSt) : (s.setSrc i x).groups = s.groups := (rfl)
@[simp] theorem setSrc_planQ (i : Nat) (x : SrcSt) : (s.setSrc i x).planQ = s.planQ := (rfl)
@[simp] theorem setSrc_planning (i : Nat) (x : SrcSt) : (s.setSrc i x).planning = s.planning := (rfl)
@[simp] theorem setSrc_tiles (i : Nat) (x : SrcSt) : (s.setSrc i x).tiles = s.tiles := (rfl)
@[simp] theorem setSrc_scalers (i : Nat) (x : SrcSt) : (s.setSrc i x).scalers = s.scalers := (rfl)
@[simp] theorem setSrc_fsh (i : Nat) (x : SrcSt) : (s.setSrc i x).fsh = s.fsh := (rfl)
@[simp] theorem setSrc_rods (i : Nat) (x : SrcSt) : (s.setSrc i x).rods = s.rods := (rfl)
@[simp] theorem setSrc_signs (i : Nat) (x : SrcSt) : (s.setSrc i x).signs = s.signs := (rfl)
@[simp] theorem setSrc_ports (i : Nat) (x : SrcSt) : (s.setSrc i x).ports = s.ports := (rfl)
@[simp] theorem setSrc_rx (i : Nat) (x : SrcSt) : (s.setSrc i x).rx = s.rx := (rfl)
@[simp] theorem setSrc_tx (i : Nat) (x : SrcSt) : (s.setSrc i x).tx = s.tx := (rfl)
@[simp] theorem setSrc_trs (i : Nat) (x : SrcSt) : (s.setSrc i x).trs = s.trs := (rfl)
@[simp] theorem setSrc_health (i : Nat) (x : SrcSt) : (s.setSrc i x).health = s.health := (rfl)
@[simp] theorem setSrc_out (i : Nat) (x : SrcSt) : (s.setSrc i x).out = s.out := (rfl)
@[simp] theorem setSrc_time (i : Nat) (x : SrcSt) : (s.setSrc i x).time = s.time := (rfl)
@[simp] theorem setSrc_frac (i : Nat) (x : SrcSt) : (s.setSrc i x).frac = s.frac := (rfl)
@[simp] theorem setSrc_up (i : Nat) (x : SrcSt) : (s.setSrc i x).up = s.up := (rfl)
@[simp] theorem setSrc_fresh (i : Nat) (x : SrcSt) : (s.setSrc i x).fresh = s.fresh := (rfl)
@[simp] theorem setSrc_pending (i : Nat) (x : SrcSt) : (s.setSrc i x).pending = s.pending := (rfl)

-- setWclass
@[simp] theorem setWclass_variant (c : Nat) (x : WClass) : (s.setWclass c x).variant = s.variant := (rfl)
@[simp] theorem setWclass_powered (c : Nat) (x : WClass) : (s.setWclass c x).powered = s.powered := (rfl)
@[simp] theorem setWclass_mgmt (c : Nat) (x : WClass) : (s.setWclass c x).mgmt = s.mgmt := (rfl)
@[simp] theorem setWclass_dead (c : Nat) (x : WClass) : (s.setWclass c x).dead = s.dead := (rfl)
@[simp] theorem setWclass_regs (c : Nat) (x : WClass) : (s.setWclass c x).regs = s.regs := (rfl)
@[simp] theorem setWclass_unit (c : Nat) (x : WClass) : (s.setWclass c x).unit = s.unit := (rfl)
@[simp] theorem setWclass_deck (c : Nat) (x : WClass) : (s.setWclass c x).deck = s.deck := (rfl)
@[simp] theorem setWclass_spaces (c : Nat) (x : WClass) : (s.setWclass c x).spaces = s.spaces := (rfl)
@[simp] theorem setWclass_live (c : Nat) (x : WClass) : (s.setWclass c x).live = s.live := (rfl)
@[simp] theorem setWclass_failing (c : Nat) (x : WClass) : (s.setWclass c x).failing = s.failing := (rfl)
@[simp] theorem setWclass_failingPend (c : Nat) (x : WClass) : (s.setWclass c x).failingPend = s.failingPend := (rfl)
@[simp] theorem setWclass_mended (c : Nat) (x : WClass) : (s.setWclass c x).mended = s.mended := (rfl)
@[simp] theorem setWclass_lmp (c : Nat) (x : WClass) : (s.setWclass c x).lmp = s.lmp := (rfl)
@[simp] theorem setWclass_pf0 (c : Nat) (x : WClass) : (s.setWclass c x).pf0 = s.pf0 := (rfl)
@[simp] theorem setWclass_pf1 (c : Nat) (x : WClass) : (s.setWclass c x).pf1 = s.pf1 := (rfl)
@[simp] theorem setWclass_col (c : Nat) (x : WClass) : (s.setWclass c x).col = s.col := (rfl)
@[simp] theorem setWclass_queues (c : Nat) (x : WClass) : (s.setWclass c x).queues = s.queues := (rfl)
@[simp] theorem setWclass_f0 (c : Nat) (x : WClass) : (s.setWclass c x).f0 = s.f0 := (rfl)
@[simp] theorem setWclass_f1 (c : Nat) (x : WClass) : (s.setWclass c x).f1 = s.f1 := (rfl)
@[simp] theorem setWclass_ldr (c : Nat) (x : WClass) : (s.setWclass c x).ldr = s.ldr := (rfl)
@[simp] theorem setWclass_store (c : Nat) (x : WClass) : (s.setWclass c x).store = s.store := (rfl)
@[simp] theorem setWclass_hbm (c : Nat) (x : WClass) : (s.setWclass c x).hbm = s.hbm := (rfl)
@[simp] theorem setWclass_safe (c : Nat) (x : WClass) : (s.setWclass c x).safe = s.safe := (rfl)
@[simp] theorem setWclass_heads (c : Nat) (x : WClass) : (s.setWclass c x).heads = s.heads := (rfl)
@[simp] theorem setWclass_dps (c : Nat) (x : WClass) : (s.setWclass c x).dps = s.dps := (rfl)
@[simp] theorem setWclass_groups (c : Nat) (x : WClass) : (s.setWclass c x).groups = s.groups := (rfl)
@[simp] theorem setWclass_planQ (c : Nat) (x : WClass) : (s.setWclass c x).planQ = s.planQ := (rfl)
@[simp] theorem setWclass_planning (c : Nat) (x : WClass) : (s.setWclass c x).planning = s.planning := (rfl)
@[simp] theorem setWclass_tiles (c : Nat) (x : WClass) : (s.setWclass c x).tiles = s.tiles := (rfl)
@[simp] theorem setWclass_scalers (c : Nat) (x : WClass) : (s.setWclass c x).scalers = s.scalers := (rfl)
@[simp] theorem setWclass_rods (c : Nat) (x : WClass) : (s.setWclass c x).rods = s.rods := (rfl)
@[simp] theorem setWclass_signs (c : Nat) (x : WClass) : (s.setWclass c x).signs = s.signs := (rfl)
@[simp] theorem setWclass_ports (c : Nat) (x : WClass) : (s.setWclass c x).ports = s.ports := (rfl)
@[simp] theorem setWclass_rx (c : Nat) (x : WClass) : (s.setWclass c x).rx = s.rx := (rfl)
@[simp] theorem setWclass_tx (c : Nat) (x : WClass) : (s.setWclass c x).tx = s.tx := (rfl)
@[simp] theorem setWclass_trs (c : Nat) (x : WClass) : (s.setWclass c x).trs = s.trs := (rfl)
@[simp] theorem setWclass_health (c : Nat) (x : WClass) : (s.setWclass c x).health = s.health := (rfl)
@[simp] theorem setWclass_out (c : Nat) (x : WClass) : (s.setWclass c x).out = s.out := (rfl)
@[simp] theorem setWclass_time (c : Nat) (x : WClass) : (s.setWclass c x).time = s.time := (rfl)
@[simp] theorem setWclass_frac (c : Nat) (x : WClass) : (s.setWclass c x).frac = s.frac := (rfl)
@[simp] theorem setWclass_up (c : Nat) (x : WClass) : (s.setWclass c x).up = s.up := (rfl)
@[simp] theorem setWclass_fresh (c : Nat) (x : WClass) : (s.setWclass c x).fresh = s.fresh := (rfl)
@[simp] theorem setWclass_pending (c : Nat) (x : WClass) : (s.setWclass c x).pending = s.pending := (rfl)

-- emit
@[simp] theorem emit_variant (o : Out) : (s.emit o).variant = s.variant := (rfl)
@[simp] theorem emit_powered (o : Out) : (s.emit o).powered = s.powered := (rfl)
@[simp] theorem emit_mgmt (o : Out) : (s.emit o).mgmt = s.mgmt := (rfl)
@[simp] theorem emit_dead (o : Out) : (s.emit o).dead = s.dead := (rfl)
@[simp] theorem emit_regs (o : Out) : (s.emit o).regs = s.regs := (rfl)
@[simp] theorem emit_unit (o : Out) : (s.emit o).unit = s.unit := (rfl)
@[simp] theorem emit_deck (o : Out) : (s.emit o).deck = s.deck := (rfl)
@[simp] theorem emit_spaces (o : Out) : (s.emit o).spaces = s.spaces := (rfl)
@[simp] theorem emit_live (o : Out) : (s.emit o).live = s.live := (rfl)
@[simp] theorem emit_failing (o : Out) : (s.emit o).failing = s.failing := (rfl)
@[simp] theorem emit_failingPend (o : Out) : (s.emit o).failingPend = s.failingPend := (rfl)
@[simp] theorem emit_mended (o : Out) : (s.emit o).mended = s.mended := (rfl)
@[simp] theorem emit_lmp (o : Out) : (s.emit o).lmp = s.lmp := (rfl)
@[simp] theorem emit_pf0 (o : Out) : (s.emit o).pf0 = s.pf0 := (rfl)
@[simp] theorem emit_pf1 (o : Out) : (s.emit o).pf1 = s.pf1 := (rfl)
@[simp] theorem emit_col (o : Out) : (s.emit o).col = s.col := (rfl)
@[simp] theorem emit_queues (o : Out) : (s.emit o).queues = s.queues := (rfl)
@[simp] theorem emit_f0 (o : Out) : (s.emit o).f0 = s.f0 := (rfl)
@[simp] theorem emit_f1 (o : Out) : (s.emit o).f1 = s.f1 := (rfl)
@[simp] theorem emit_ldr (o : Out) : (s.emit o).ldr = s.ldr := (rfl)
@[simp] theorem emit_store (o : Out) : (s.emit o).store = s.store := (rfl)
@[simp] theorem emit_hbm (o : Out) : (s.emit o).hbm = s.hbm := (rfl)
@[simp] theorem emit_safe (o : Out) : (s.emit o).safe = s.safe := (rfl)
@[simp] theorem emit_heads (o : Out) : (s.emit o).heads = s.heads := (rfl)
@[simp] theorem emit_dps (o : Out) : (s.emit o).dps = s.dps := (rfl)
@[simp] theorem emit_groups (o : Out) : (s.emit o).groups = s.groups := (rfl)
@[simp] theorem emit_planQ (o : Out) : (s.emit o).planQ = s.planQ := (rfl)
@[simp] theorem emit_planning (o : Out) : (s.emit o).planning = s.planning := (rfl)
@[simp] theorem emit_tiles (o : Out) : (s.emit o).tiles = s.tiles := (rfl)
@[simp] theorem emit_scalers (o : Out) : (s.emit o).scalers = s.scalers := (rfl)
@[simp] theorem emit_fsh (o : Out) : (s.emit o).fsh = s.fsh := (rfl)
@[simp] theorem emit_rods (o : Out) : (s.emit o).rods = s.rods := (rfl)
@[simp] theorem emit_signs (o : Out) : (s.emit o).signs = s.signs := (rfl)
@[simp] theorem emit_ports (o : Out) : (s.emit o).ports = s.ports := (rfl)
@[simp] theorem emit_rx (o : Out) : (s.emit o).rx = s.rx := (rfl)
@[simp] theorem emit_tx (o : Out) : (s.emit o).tx = s.tx := (rfl)
@[simp] theorem emit_trs (o : Out) : (s.emit o).trs = s.trs := (rfl)
@[simp] theorem emit_health (o : Out) : (s.emit o).health = s.health := (rfl)
@[simp] theorem emit_out (o : Out) : (s.emit o).out = o :: s.out := (rfl)
@[simp] theorem emit_time (o : Out) : (s.emit o).time = s.time := (rfl)
@[simp] theorem emit_frac (o : Out) : (s.emit o).frac = s.frac := (rfl)
@[simp] theorem emit_up (o : Out) : (s.emit o).up = s.up := (rfl)
@[simp] theorem emit_fresh (o : Out) : (s.emit o).fresh = s.fresh := (rfl)
@[simp] theorem emit_pending (o : Out) : (s.emit o).pending = s.pending := (rfl)

-- bumpFresh
@[simp] theorem bumpFresh_variant : (s.bumpFresh).variant = s.variant := (rfl)
@[simp] theorem bumpFresh_powered : (s.bumpFresh).powered = s.powered := (rfl)
@[simp] theorem bumpFresh_mgmt : (s.bumpFresh).mgmt = s.mgmt := (rfl)
@[simp] theorem bumpFresh_dead : (s.bumpFresh).dead = s.dead := (rfl)
@[simp] theorem bumpFresh_regs : (s.bumpFresh).regs = s.regs := (rfl)
@[simp] theorem bumpFresh_unit : (s.bumpFresh).unit = s.unit := (rfl)
@[simp] theorem bumpFresh_deck : (s.bumpFresh).deck = s.deck := (rfl)
@[simp] theorem bumpFresh_spaces : (s.bumpFresh).spaces = s.spaces := (rfl)
@[simp] theorem bumpFresh_live : (s.bumpFresh).live = s.live := (rfl)
@[simp] theorem bumpFresh_failing : (s.bumpFresh).failing = s.failing := (rfl)
@[simp] theorem bumpFresh_failingPend : (s.bumpFresh).failingPend = s.failingPend := (rfl)
@[simp] theorem bumpFresh_mended : (s.bumpFresh).mended = s.mended := (rfl)
@[simp] theorem bumpFresh_lmp : (s.bumpFresh).lmp = s.lmp := (rfl)
@[simp] theorem bumpFresh_pf0 : (s.bumpFresh).pf0 = s.pf0 := (rfl)
@[simp] theorem bumpFresh_pf1 : (s.bumpFresh).pf1 = s.pf1 := (rfl)
@[simp] theorem bumpFresh_col : (s.bumpFresh).col = s.col := (rfl)
@[simp] theorem bumpFresh_queues : (s.bumpFresh).queues = s.queues := (rfl)
@[simp] theorem bumpFresh_f0 : (s.bumpFresh).f0 = s.f0 := (rfl)
@[simp] theorem bumpFresh_f1 : (s.bumpFresh).f1 = s.f1 := (rfl)
@[simp] theorem bumpFresh_ldr : (s.bumpFresh).ldr = s.ldr := (rfl)
@[simp] theorem bumpFresh_store : (s.bumpFresh).store = s.store := (rfl)
@[simp] theorem bumpFresh_hbm : (s.bumpFresh).hbm = s.hbm := (rfl)
@[simp] theorem bumpFresh_safe : (s.bumpFresh).safe = s.safe := (rfl)
@[simp] theorem bumpFresh_heads : (s.bumpFresh).heads = s.heads := (rfl)
@[simp] theorem bumpFresh_dps : (s.bumpFresh).dps = s.dps := (rfl)
@[simp] theorem bumpFresh_groups : (s.bumpFresh).groups = s.groups := (rfl)
@[simp] theorem bumpFresh_planQ : (s.bumpFresh).planQ = s.planQ := (rfl)
@[simp] theorem bumpFresh_planning : (s.bumpFresh).planning = s.planning := (rfl)
@[simp] theorem bumpFresh_tiles : (s.bumpFresh).tiles = s.tiles := (rfl)
@[simp] theorem bumpFresh_scalers : (s.bumpFresh).scalers = s.scalers := (rfl)
@[simp] theorem bumpFresh_fsh : (s.bumpFresh).fsh = s.fsh := (rfl)
@[simp] theorem bumpFresh_rods : (s.bumpFresh).rods = s.rods := (rfl)
@[simp] theorem bumpFresh_signs : (s.bumpFresh).signs = s.signs := (rfl)
@[simp] theorem bumpFresh_ports : (s.bumpFresh).ports = s.ports := (rfl)
@[simp] theorem bumpFresh_rx : (s.bumpFresh).rx = s.rx := (rfl)
@[simp] theorem bumpFresh_tx : (s.bumpFresh).tx = s.tx := (rfl)
@[simp] theorem bumpFresh_trs : (s.bumpFresh).trs = s.trs := (rfl)
@[simp] theorem bumpFresh_health : (s.bumpFresh).health = s.health := (rfl)
@[simp] theorem bumpFresh_out : (s.bumpFresh).out = s.out := (rfl)
@[simp] theorem bumpFresh_time : (s.bumpFresh).time = s.time := (rfl)
@[simp] theorem bumpFresh_frac : (s.bumpFresh).frac = s.frac := (rfl)
@[simp] theorem bumpFresh_up : (s.bumpFresh).up = s.up := (rfl)
@[simp] theorem bumpFresh_fresh : (s.bumpFresh).fresh = s.fresh + 1 := (rfl)
@[simp] theorem bumpFresh_pending : (s.bumpFresh).pending = s.pending := (rfl)

-- fail
@[simp] theorem fail_variant (c a : Nat) : (s.fail c a).variant = s.variant := (rfl)
@[simp] theorem fail_powered (c a : Nat) : (s.fail c a).powered = s.powered := (rfl)
@[simp] theorem fail_mgmt (c a : Nat) : (s.fail c a).mgmt = s.mgmt := (rfl)
@[simp] theorem fail_dead (c a : Nat) : (s.fail c a).dead = s.dead := (rfl)
@[simp] theorem fail_regs (c a : Nat) : (s.fail c a).regs = s.regs := (rfl)
@[simp] theorem fail_unit (c a : Nat) : (s.fail c a).unit = s.unit := (rfl)
@[simp] theorem fail_deck (c a : Nat) : (s.fail c a).deck = s.deck := (rfl)
@[simp] theorem fail_spaces (c a : Nat) : (s.fail c a).spaces = s.spaces := (rfl)
@[simp] theorem fail_live (c a : Nat) : (s.fail c a).live = s.live := (rfl)
@[simp] theorem fail_failingPend (c a : Nat) : (s.fail c a).failingPend = s.failingPend := (rfl)
@[simp] theorem fail_lmp (c a : Nat) : (s.fail c a).lmp = s.lmp := (rfl)
@[simp] theorem fail_pf0 (c a : Nat) : (s.fail c a).pf0 = s.pf0 := (rfl)
@[simp] theorem fail_pf1 (c a : Nat) : (s.fail c a).pf1 = s.pf1 := (rfl)
@[simp] theorem fail_col (c a : Nat) : (s.fail c a).col = s.col := (rfl)
@[simp] theorem fail_queues (c a : Nat) : (s.fail c a).queues = s.queues := (rfl)
@[simp] theorem fail_f0 (c a : Nat) : (s.fail c a).f0 = s.f0 := (rfl)
@[simp] theorem fail_f1 (c a : Nat) : (s.fail c a).f1 = s.f1 := (rfl)
@[simp] theorem fail_ldr (c a : Nat) : (s.fail c a).ldr = s.ldr := (rfl)
@[simp] theorem fail_store (c a : Nat) : (s.fail c a).store = s.store := (rfl)
@[simp] theorem fail_hbm (c a : Nat) : (s.fail c a).hbm = s.hbm := (rfl)
@[simp] theorem fail_safe (c a : Nat) : (s.fail c a).safe = s.safe := (rfl)
@[simp] theorem fail_heads (c a : Nat) : (s.fail c a).heads = s.heads := (rfl)
@[simp] theorem fail_dps (c a : Nat) : (s.fail c a).dps = s.dps := (rfl)
@[simp] theorem fail_groups (c a : Nat) : (s.fail c a).groups = s.groups := (rfl)
@[simp] theorem fail_planQ (c a : Nat) : (s.fail c a).planQ = s.planQ := (rfl)
@[simp] theorem fail_planning (c a : Nat) : (s.fail c a).planning = s.planning := (rfl)
@[simp] theorem fail_tiles (c a : Nat) : (s.fail c a).tiles = s.tiles := (rfl)
@[simp] theorem fail_scalers (c a : Nat) : (s.fail c a).scalers = s.scalers := (rfl)
@[simp] theorem fail_fsh (c a : Nat) : (s.fail c a).fsh = s.fsh := (rfl)
@[simp] theorem fail_rods (c a : Nat) : (s.fail c a).rods = s.rods := (rfl)
@[simp] theorem fail_signs (c a : Nat) : (s.fail c a).signs = s.signs := (rfl)
@[simp] theorem fail_ports (c a : Nat) : (s.fail c a).ports = s.ports := (rfl)
@[simp] theorem fail_rx (c a : Nat) : (s.fail c a).rx = s.rx := (rfl)
@[simp] theorem fail_tx (c a : Nat) : (s.fail c a).tx = s.tx := (rfl)
@[simp] theorem fail_trs (c a : Nat) : (s.fail c a).trs = s.trs := (rfl)
@[simp] theorem fail_health (c a : Nat) : (s.fail c a).health = s.health := (rfl)
@[simp] theorem fail_out (c a : Nat) : (s.fail c a).out = s.out := (rfl)
@[simp] theorem fail_time (c a : Nat) : (s.fail c a).time = s.time := (rfl)
@[simp] theorem fail_frac (c a : Nat) : (s.fail c a).frac = s.frac := (rfl)
@[simp] theorem fail_up (c a : Nat) : (s.fail c a).up = s.up := (rfl)
@[simp] theorem fail_fresh (c a : Nat) : (s.fail c a).fresh = s.fresh := (rfl)
@[simp] theorem fail_pending (c a : Nat) : (s.fail c a).pending = s.pending := (rfl)

-- failPend
@[simp] theorem failPend_variant (c a : Nat) : (s.failPend c a).variant = s.variant := (rfl)
@[simp] theorem failPend_powered (c a : Nat) : (s.failPend c a).powered = s.powered := (rfl)
@[simp] theorem failPend_mgmt (c a : Nat) : (s.failPend c a).mgmt = s.mgmt := (rfl)
@[simp] theorem failPend_dead (c a : Nat) : (s.failPend c a).dead = s.dead := (rfl)
@[simp] theorem failPend_regs (c a : Nat) : (s.failPend c a).regs = s.regs := (rfl)
@[simp] theorem failPend_unit (c a : Nat) : (s.failPend c a).unit = s.unit := (rfl)
@[simp] theorem failPend_deck (c a : Nat) : (s.failPend c a).deck = s.deck := (rfl)
@[simp] theorem failPend_spaces (c a : Nat) : (s.failPend c a).spaces = s.spaces := (rfl)
@[simp] theorem failPend_live (c a : Nat) : (s.failPend c a).live = s.live := (rfl)
@[simp] theorem failPend_failing (c a : Nat) : (s.failPend c a).failing = s.failing := (rfl)
@[simp] theorem failPend_mended (c a : Nat) : (s.failPend c a).mended = s.mended := (rfl)
@[simp] theorem failPend_lmp (c a : Nat) : (s.failPend c a).lmp = s.lmp := (rfl)
@[simp] theorem failPend_pf0 (c a : Nat) : (s.failPend c a).pf0 = s.pf0 := (rfl)
@[simp] theorem failPend_pf1 (c a : Nat) : (s.failPend c a).pf1 = s.pf1 := (rfl)
@[simp] theorem failPend_col (c a : Nat) : (s.failPend c a).col = s.col := (rfl)
@[simp] theorem failPend_queues (c a : Nat) : (s.failPend c a).queues = s.queues := (rfl)
@[simp] theorem failPend_f0 (c a : Nat) : (s.failPend c a).f0 = s.f0 := (rfl)
@[simp] theorem failPend_f1 (c a : Nat) : (s.failPend c a).f1 = s.f1 := (rfl)
@[simp] theorem failPend_ldr (c a : Nat) : (s.failPend c a).ldr = s.ldr := (rfl)
@[simp] theorem failPend_store (c a : Nat) : (s.failPend c a).store = s.store := (rfl)
@[simp] theorem failPend_hbm (c a : Nat) : (s.failPend c a).hbm = s.hbm := (rfl)
@[simp] theorem failPend_safe (c a : Nat) : (s.failPend c a).safe = s.safe := (rfl)
@[simp] theorem failPend_heads (c a : Nat) : (s.failPend c a).heads = s.heads := (rfl)
@[simp] theorem failPend_dps (c a : Nat) : (s.failPend c a).dps = s.dps := (rfl)
@[simp] theorem failPend_groups (c a : Nat) : (s.failPend c a).groups = s.groups := (rfl)
@[simp] theorem failPend_planQ (c a : Nat) : (s.failPend c a).planQ = s.planQ := (rfl)
@[simp] theorem failPend_planning (c a : Nat) : (s.failPend c a).planning = s.planning := (rfl)
@[simp] theorem failPend_tiles (c a : Nat) : (s.failPend c a).tiles = s.tiles := (rfl)
@[simp] theorem failPend_scalers (c a : Nat) : (s.failPend c a).scalers = s.scalers := (rfl)
@[simp] theorem failPend_fsh (c a : Nat) : (s.failPend c a).fsh = s.fsh := (rfl)
@[simp] theorem failPend_rods (c a : Nat) : (s.failPend c a).rods = s.rods := (rfl)
@[simp] theorem failPend_signs (c a : Nat) : (s.failPend c a).signs = s.signs := (rfl)
@[simp] theorem failPend_ports (c a : Nat) : (s.failPend c a).ports = s.ports := (rfl)
@[simp] theorem failPend_rx (c a : Nat) : (s.failPend c a).rx = s.rx := (rfl)
@[simp] theorem failPend_tx (c a : Nat) : (s.failPend c a).tx = s.tx := (rfl)
@[simp] theorem failPend_trs (c a : Nat) : (s.failPend c a).trs = s.trs := (rfl)
@[simp] theorem failPend_health (c a : Nat) : (s.failPend c a).health = s.health := (rfl)
@[simp] theorem failPend_out (c a : Nat) : (s.failPend c a).out = s.out := (rfl)
@[simp] theorem failPend_time (c a : Nat) : (s.failPend c a).time = s.time := (rfl)
@[simp] theorem failPend_frac (c a : Nat) : (s.failPend c a).frac = s.frac := (rfl)
@[simp] theorem failPend_up (c a : Nat) : (s.failPend c a).up = s.up := (rfl)
@[simp] theorem failPend_fresh (c a : Nat) : (s.failPend c a).fresh = s.fresh := (rfl)
@[simp] theorem failPend_pending (c a : Nat) : (s.failPend c a).pending = s.pending := (rfl)

-- clean
@[simp] theorem clean_variant (c a : Nat) : (s.clean c a).variant = s.variant := (rfl)
@[simp] theorem clean_powered (c a : Nat) : (s.clean c a).powered = s.powered := (rfl)
@[simp] theorem clean_mgmt (c a : Nat) : (s.clean c a).mgmt = s.mgmt := (rfl)
@[simp] theorem clean_dead (c a : Nat) : (s.clean c a).dead = s.dead := (rfl)
@[simp] theorem clean_regs (c a : Nat) : (s.clean c a).regs = s.regs := (rfl)
@[simp] theorem clean_unit (c a : Nat) : (s.clean c a).unit = s.unit := (rfl)
@[simp] theorem clean_deck (c a : Nat) : (s.clean c a).deck = s.deck := (rfl)
@[simp] theorem clean_spaces (c a : Nat) : (s.clean c a).spaces = s.spaces := (rfl)
@[simp] theorem clean_live (c a : Nat) : (s.clean c a).live = s.live := (rfl)
@[simp] theorem clean_failingPend (c a : Nat) : (s.clean c a).failingPend = s.failingPend := (rfl)
@[simp] theorem clean_mended (c a : Nat) : (s.clean c a).mended = s.mended := (rfl)
@[simp] theorem clean_lmp (c a : Nat) : (s.clean c a).lmp = s.lmp := (rfl)
@[simp] theorem clean_pf0 (c a : Nat) : (s.clean c a).pf0 = s.pf0 := (rfl)
@[simp] theorem clean_pf1 (c a : Nat) : (s.clean c a).pf1 = s.pf1 := (rfl)
@[simp] theorem clean_col (c a : Nat) : (s.clean c a).col = s.col := (rfl)
@[simp] theorem clean_queues (c a : Nat) : (s.clean c a).queues = s.queues := (rfl)
@[simp] theorem clean_f0 (c a : Nat) : (s.clean c a).f0 = s.f0 := (rfl)
@[simp] theorem clean_f1 (c a : Nat) : (s.clean c a).f1 = s.f1 := (rfl)
@[simp] theorem clean_ldr (c a : Nat) : (s.clean c a).ldr = s.ldr := (rfl)
@[simp] theorem clean_store (c a : Nat) : (s.clean c a).store = s.store := (rfl)
@[simp] theorem clean_hbm (c a : Nat) : (s.clean c a).hbm = s.hbm := (rfl)
@[simp] theorem clean_safe (c a : Nat) : (s.clean c a).safe = s.safe := (rfl)
@[simp] theorem clean_heads (c a : Nat) : (s.clean c a).heads = s.heads := (rfl)
@[simp] theorem clean_dps (c a : Nat) : (s.clean c a).dps = s.dps := (rfl)
@[simp] theorem clean_groups (c a : Nat) : (s.clean c a).groups = s.groups := (rfl)
@[simp] theorem clean_planQ (c a : Nat) : (s.clean c a).planQ = s.planQ := (rfl)
@[simp] theorem clean_planning (c a : Nat) : (s.clean c a).planning = s.planning := (rfl)
@[simp] theorem clean_tiles (c a : Nat) : (s.clean c a).tiles = s.tiles := (rfl)
@[simp] theorem clean_scalers (c a : Nat) : (s.clean c a).scalers = s.scalers := (rfl)
@[simp] theorem clean_fsh (c a : Nat) : (s.clean c a).fsh = s.fsh := (rfl)
@[simp] theorem clean_rods (c a : Nat) : (s.clean c a).rods = s.rods := (rfl)
@[simp] theorem clean_signs (c a : Nat) : (s.clean c a).signs = s.signs := (rfl)
@[simp] theorem clean_ports (c a : Nat) : (s.clean c a).ports = s.ports := (rfl)
@[simp] theorem clean_rx (c a : Nat) : (s.clean c a).rx = s.rx := (rfl)
@[simp] theorem clean_tx (c a : Nat) : (s.clean c a).tx = s.tx := (rfl)
@[simp] theorem clean_trs (c a : Nat) : (s.clean c a).trs = s.trs := (rfl)
@[simp] theorem clean_health (c a : Nat) : (s.clean c a).health = s.health := (rfl)
@[simp] theorem clean_out (c a : Nat) : (s.clean c a).out = s.out := (rfl)
@[simp] theorem clean_time (c a : Nat) : (s.clean c a).time = s.time := (rfl)
@[simp] theorem clean_frac (c a : Nat) : (s.clean c a).frac = s.frac := (rfl)
@[simp] theorem clean_up (c a : Nat) : (s.clean c a).up = s.up := (rfl)
@[simp] theorem clean_fresh (c a : Nat) : (s.clean c a).fresh = s.fresh := (rfl)
@[simp] theorem clean_pending (c a : Nat) : (s.clean c a).pending = s.pending := (rfl)

-- cleanPend
@[simp] theorem cleanPend_variant (k : Nat) : (s.cleanPend k).variant = s.variant := (rfl)
@[simp] theorem cleanPend_powered (k : Nat) : (s.cleanPend k).powered = s.powered := (rfl)
@[simp] theorem cleanPend_mgmt (k : Nat) : (s.cleanPend k).mgmt = s.mgmt := (rfl)
@[simp] theorem cleanPend_dead (k : Nat) : (s.cleanPend k).dead = s.dead := (rfl)
@[simp] theorem cleanPend_regs (k : Nat) : (s.cleanPend k).regs = s.regs := (rfl)
@[simp] theorem cleanPend_unit (k : Nat) : (s.cleanPend k).unit = s.unit := (rfl)
@[simp] theorem cleanPend_deck (k : Nat) : (s.cleanPend k).deck = s.deck := (rfl)
@[simp] theorem cleanPend_spaces (k : Nat) : (s.cleanPend k).spaces = s.spaces := (rfl)
@[simp] theorem cleanPend_live (k : Nat) : (s.cleanPend k).live = s.live := (rfl)
@[simp] theorem cleanPend_failing (k : Nat) : (s.cleanPend k).failing = s.failing := (rfl)
@[simp] theorem cleanPend_lmp (k : Nat) : (s.cleanPend k).lmp = s.lmp := (rfl)
@[simp] theorem cleanPend_pf0 (k : Nat) : (s.cleanPend k).pf0 = s.pf0 := (rfl)
@[simp] theorem cleanPend_pf1 (k : Nat) : (s.cleanPend k).pf1 = s.pf1 := (rfl)
@[simp] theorem cleanPend_col (k : Nat) : (s.cleanPend k).col = s.col := (rfl)
@[simp] theorem cleanPend_queues (k : Nat) : (s.cleanPend k).queues = s.queues := (rfl)
@[simp] theorem cleanPend_f0 (k : Nat) : (s.cleanPend k).f0 = s.f0 := (rfl)
@[simp] theorem cleanPend_f1 (k : Nat) : (s.cleanPend k).f1 = s.f1 := (rfl)
@[simp] theorem cleanPend_ldr (k : Nat) : (s.cleanPend k).ldr = s.ldr := (rfl)
@[simp] theorem cleanPend_store (k : Nat) : (s.cleanPend k).store = s.store := (rfl)
@[simp] theorem cleanPend_hbm (k : Nat) : (s.cleanPend k).hbm = s.hbm := (rfl)
@[simp] theorem cleanPend_safe (k : Nat) : (s.cleanPend k).safe = s.safe := (rfl)
@[simp] theorem cleanPend_heads (k : Nat) : (s.cleanPend k).heads = s.heads := (rfl)
@[simp] theorem cleanPend_dps (k : Nat) : (s.cleanPend k).dps = s.dps := (rfl)
@[simp] theorem cleanPend_groups (k : Nat) : (s.cleanPend k).groups = s.groups := (rfl)
@[simp] theorem cleanPend_planQ (k : Nat) : (s.cleanPend k).planQ = s.planQ := (rfl)
@[simp] theorem cleanPend_planning (k : Nat) : (s.cleanPend k).planning = s.planning := (rfl)
@[simp] theorem cleanPend_tiles (k : Nat) : (s.cleanPend k).tiles = s.tiles := (rfl)
@[simp] theorem cleanPend_scalers (k : Nat) : (s.cleanPend k).scalers = s.scalers := (rfl)
@[simp] theorem cleanPend_fsh (k : Nat) : (s.cleanPend k).fsh = s.fsh := (rfl)
@[simp] theorem cleanPend_rods (k : Nat) : (s.cleanPend k).rods = s.rods := (rfl)
@[simp] theorem cleanPend_signs (k : Nat) : (s.cleanPend k).signs = s.signs := (rfl)
@[simp] theorem cleanPend_ports (k : Nat) : (s.cleanPend k).ports = s.ports := (rfl)
@[simp] theorem cleanPend_rx (k : Nat) : (s.cleanPend k).rx = s.rx := (rfl)
@[simp] theorem cleanPend_tx (k : Nat) : (s.cleanPend k).tx = s.tx := (rfl)
@[simp] theorem cleanPend_trs (k : Nat) : (s.cleanPend k).trs = s.trs := (rfl)
@[simp] theorem cleanPend_health (k : Nat) : (s.cleanPend k).health = s.health := (rfl)
@[simp] theorem cleanPend_out (k : Nat) : (s.cleanPend k).out = s.out := (rfl)
@[simp] theorem cleanPend_time (k : Nat) : (s.cleanPend k).time = s.time := (rfl)
@[simp] theorem cleanPend_frac (k : Nat) : (s.cleanPend k).frac = s.frac := (rfl)
@[simp] theorem cleanPend_up (k : Nat) : (s.cleanPend k).up = s.up := (rfl)
@[simp] theorem cleanPend_fresh (k : Nat) : (s.cleanPend k).fresh = s.fresh := (rfl)
@[simp] theorem cleanPend_pending (k : Nat) : (s.cleanPend k).pending = s.pending := (rfl)

-- drawn
@[simp] theorem drawn_variant (n : Nat) : (s.drawn n).variant = s.variant := (rfl)
@[simp] theorem drawn_powered (n : Nat) : (s.drawn n).powered = s.powered := (rfl)
@[simp] theorem drawn_mgmt (n : Nat) : (s.drawn n).mgmt = s.mgmt := (rfl)
@[simp] theorem drawn_dead (n : Nat) : (s.drawn n).dead = s.dead := (rfl)
@[simp] theorem drawn_regs (n : Nat) : (s.drawn n).regs = s.regs := (rfl)
@[simp] theorem drawn_unit (n : Nat) : (s.drawn n).unit = s.unit := (rfl)
@[simp] theorem drawn_deck (n : Nat) : (s.drawn n).deck = s.deck := (rfl)
@[simp] theorem drawn_spaces (n : Nat) : (s.drawn n).spaces = s.spaces := (rfl)
@[simp] theorem drawn_live (n : Nat) : (s.drawn n).live = s.live := (rfl)
@[simp] theorem drawn_failing (n : Nat) : (s.drawn n).failing = s.failing := (rfl)
@[simp] theorem drawn_failingPend (n : Nat) : (s.drawn n).failingPend = s.failingPend := (rfl)
@[simp] theorem drawn_mended (n : Nat) : (s.drawn n).mended = s.mended := (rfl)
@[simp] theorem drawn_lmp (n : Nat) : (s.drawn n).lmp = s.lmp := (rfl)
@[simp] theorem drawn_pf0 (n : Nat) : (s.drawn n).pf0 = s.pf0 := (rfl)
@[simp] theorem drawn_pf1 (n : Nat) : (s.drawn n).pf1 = s.pf1 := (rfl)
@[simp] theorem drawn_col (n : Nat) : (s.drawn n).col = s.col := (rfl)
@[simp] theorem drawn_queues (n : Nat) : (s.drawn n).queues = s.queues := (rfl)
@[simp] theorem drawn_f0 (n : Nat) : (s.drawn n).f0 = s.f0 := (rfl)
@[simp] theorem drawn_f1 (n : Nat) : (s.drawn n).f1 = s.f1 := (rfl)
@[simp] theorem drawn_ldr (n : Nat) : (s.drawn n).ldr = s.ldr := (rfl)
@[simp] theorem drawn_store (n : Nat) : (s.drawn n).store = s.store := (rfl)
@[simp] theorem drawn_hbm (n : Nat) : (s.drawn n).hbm = s.hbm := (rfl)
@[simp] theorem drawn_safe (n : Nat) : (s.drawn n).safe = s.safe := (rfl)
@[simp] theorem drawn_heads (n : Nat) : (s.drawn n).heads = s.heads := (rfl)
@[simp] theorem drawn_dps (n : Nat) : (s.drawn n).dps = s.dps := (rfl)
@[simp] theorem drawn_groups (n : Nat) : (s.drawn n).groups = s.groups := (rfl)
@[simp] theorem drawn_planQ (n : Nat) : (s.drawn n).planQ = s.planQ := (rfl)
@[simp] theorem drawn_planning (n : Nat) : (s.drawn n).planning = s.planning := (rfl)
@[simp] theorem drawn_tiles (n : Nat) : (s.drawn n).tiles = s.tiles := (rfl)
@[simp] theorem drawn_scalers (n : Nat) : (s.drawn n).scalers = s.scalers := (rfl)
@[simp] theorem drawn_fsh (n : Nat) : (s.drawn n).fsh = s.fsh := (rfl)
@[simp] theorem drawn_rods (n : Nat) : (s.drawn n).rods = s.rods := (rfl)
@[simp] theorem drawn_signs (n : Nat) : (s.drawn n).signs = s.signs := (rfl)
@[simp] theorem drawn_ports (n : Nat) : (s.drawn n).ports = s.ports := (rfl)
@[simp] theorem drawn_rx (n : Nat) : (s.drawn n).rx = s.rx := (rfl)
@[simp] theorem drawn_tx (n : Nat) : (s.drawn n).tx = s.tx := (rfl)
@[simp] theorem drawn_trs (n : Nat) : (s.drawn n).trs = s.trs := (rfl)
@[simp] theorem drawn_health (n : Nat) : (s.drawn n).health = s.health := (rfl)
@[simp] theorem drawn_out (n : Nat) : (s.drawn n).out = s.out := (rfl)
@[simp] theorem drawn_time (n : Nat) : (s.drawn n).time = s.time := (rfl)
@[simp] theorem drawn_frac (n : Nat) : (s.drawn n).frac = s.frac := (rfl)
@[simp] theorem drawn_up (n : Nat) : (s.drawn n).up = s.up := (rfl)
@[simp] theorem drawn_pending (n : Nat) : (s.drawn n).pending = s.pending := (rfl)

-- bump
@[simp] theorem bump_variant (o n : Nat) : (s.bump o n).variant = s.variant := wr_variant s _ _
@[simp] theorem bump_powered (o n : Nat) : (s.bump o n).powered = s.powered := wr_powered s _ _
@[simp] theorem bump_mgmt (o n : Nat) : (s.bump o n).mgmt = s.mgmt := wr_mgmt s _ _
@[simp] theorem bump_dead (o n : Nat) : (s.bump o n).dead = s.dead := wr_dead s _ _
@[simp] theorem bump_unit (o n : Nat) : (s.bump o n).unit = s.unit := wr_unit s _ _
@[simp] theorem bump_deck (o n : Nat) : (s.bump o n).deck = s.deck := wr_deck s _ _
@[simp] theorem bump_spaces (o n : Nat) : (s.bump o n).spaces = s.spaces := wr_spaces s _ _
@[simp] theorem bump_live (o n : Nat) : (s.bump o n).live = s.live := wr_live s _ _
@[simp] theorem bump_failing (o n : Nat) : (s.bump o n).failing = s.failing := wr_failing s _ _
@[simp] theorem bump_failingPend (o n : Nat) : (s.bump o n).failingPend = s.failingPend := wr_failingPend s _ _
@[simp] theorem bump_mended (o n : Nat) : (s.bump o n).mended = s.mended := wr_mended s _ _
@[simp] theorem bump_lmp (o n : Nat) : (s.bump o n).lmp = s.lmp := wr_lmp s _ _
@[simp] theorem bump_pf0 (o n : Nat) : (s.bump o n).pf0 = s.pf0 := wr_pf0 s _ _
@[simp] theorem bump_pf1 (o n : Nat) : (s.bump o n).pf1 = s.pf1 := wr_pf1 s _ _
@[simp] theorem bump_col (o n : Nat) : (s.bump o n).col = s.col := wr_col s _ _
@[simp] theorem bump_queues (o n : Nat) : (s.bump o n).queues = s.queues := wr_queues s _ _
@[simp] theorem bump_f0 (o n : Nat) : (s.bump o n).f0 = s.f0 := wr_f0 s _ _
@[simp] theorem bump_f1 (o n : Nat) : (s.bump o n).f1 = s.f1 := wr_f1 s _ _
@[simp] theorem bump_ldr (o n : Nat) : (s.bump o n).ldr = s.ldr := wr_ldr s _ _
@[simp] theorem bump_store (o n : Nat) : (s.bump o n).store = s.store := wr_store s _ _
@[simp] theorem bump_hbm (o n : Nat) : (s.bump o n).hbm = s.hbm := wr_hbm s _ _
@[simp] theorem bump_safe (o n : Nat) : (s.bump o n).safe = s.safe := wr_safe s _ _
@[simp] theorem bump_heads (o n : Nat) : (s.bump o n).heads = s.heads := wr_heads s _ _
@[simp] theorem bump_dps (o n : Nat) : (s.bump o n).dps = s.dps := wr_dps s _ _
@[simp] theorem bump_groups (o n : Nat) : (s.bump o n).groups = s.groups := wr_groups s _ _
@[simp] theorem bump_planQ (o n : Nat) : (s.bump o n).planQ = s.planQ := wr_planQ s _ _
@[simp] theorem bump_planning (o n : Nat) : (s.bump o n).planning = s.planning := wr_planning s _ _
@[simp] theorem bump_tiles (o n : Nat) : (s.bump o n).tiles = s.tiles := wr_tiles s _ _
@[simp] theorem bump_scalers (o n : Nat) : (s.bump o n).scalers = s.scalers := wr_scalers s _ _
@[simp] theorem bump_fsh (o n : Nat) : (s.bump o n).fsh = s.fsh := wr_fsh s _ _
@[simp] theorem bump_rods (o n : Nat) : (s.bump o n).rods = s.rods := wr_rods s _ _
@[simp] theorem bump_signs (o n : Nat) : (s.bump o n).signs = s.signs := wr_signs s _ _
@[simp] theorem bump_ports (o n : Nat) : (s.bump o n).ports = s.ports := wr_ports s _ _
@[simp] theorem bump_rx (o n : Nat) : (s.bump o n).rx = s.rx := wr_rx s _ _
@[simp] theorem bump_tx (o n : Nat) : (s.bump o n).tx = s.tx := wr_tx s _ _
@[simp] theorem bump_trs (o n : Nat) : (s.bump o n).trs = s.trs := wr_trs s _ _
@[simp] theorem bump_health (o n : Nat) : (s.bump o n).health = s.health := wr_health s _ _
@[simp] theorem bump_out (o n : Nat) : (s.bump o n).out = s.out := wr_out s _ _
@[simp] theorem bump_time (o n : Nat) : (s.bump o n).time = s.time := wr_time s _ _
@[simp] theorem bump_frac (o n : Nat) : (s.bump o n).frac = s.frac := wr_frac s _ _
@[simp] theorem bump_up (o n : Nat) : (s.bump o n).up = s.up := wr_up s _ _
@[simp] theorem bump_fresh (o n : Nat) : (s.bump o n).fresh = s.fresh := wr_fresh s _ _
@[simp] theorem bump_pending (o n : Nat) : (s.bump o n).pending = s.pending := wr_pending s _ _

-- setFlag
@[simp] theorem setFlag_variant (o i : Nat) : (s.setFlag o i).variant = s.variant := wr_variant s _ _
@[simp] theorem setFlag_powered (o i : Nat) : (s.setFlag o i).powered = s.powered := wr_powered s _ _
@[simp] theorem setFlag_mgmt (o i : Nat) : (s.setFlag o i).mgmt = s.mgmt := wr_mgmt s _ _
@[simp] theorem setFlag_dead (o i : Nat) : (s.setFlag o i).dead = s.dead := wr_dead s _ _
@[simp] theorem setFlag_unit (o i : Nat) : (s.setFlag o i).unit = s.unit := wr_unit s _ _
@[simp] theorem setFlag_deck (o i : Nat) : (s.setFlag o i).deck = s.deck := wr_deck s _ _
@[simp] theorem setFlag_spaces (o i : Nat) : (s.setFlag o i).spaces = s.spaces := wr_spaces s _ _
@[simp] theorem setFlag_live (o i : Nat) : (s.setFlag o i).live = s.live := wr_live s _ _
@[simp] theorem setFlag_failing (o i : Nat) : (s.setFlag o i).failing = s.failing := wr_failing s _ _
@[simp] theorem setFlag_failingPend (o i : Nat) : (s.setFlag o i).failingPend = s.failingPend := wr_failingPend s _ _
@[simp] theorem setFlag_mended (o i : Nat) : (s.setFlag o i).mended = s.mended := wr_mended s _ _
@[simp] theorem setFlag_lmp (o i : Nat) : (s.setFlag o i).lmp = s.lmp := wr_lmp s _ _
@[simp] theorem setFlag_pf0 (o i : Nat) : (s.setFlag o i).pf0 = s.pf0 := wr_pf0 s _ _
@[simp] theorem setFlag_pf1 (o i : Nat) : (s.setFlag o i).pf1 = s.pf1 := wr_pf1 s _ _
@[simp] theorem setFlag_col (o i : Nat) : (s.setFlag o i).col = s.col := wr_col s _ _
@[simp] theorem setFlag_queues (o i : Nat) : (s.setFlag o i).queues = s.queues := wr_queues s _ _
@[simp] theorem setFlag_f0 (o i : Nat) : (s.setFlag o i).f0 = s.f0 := wr_f0 s _ _
@[simp] theorem setFlag_f1 (o i : Nat) : (s.setFlag o i).f1 = s.f1 := wr_f1 s _ _
@[simp] theorem setFlag_ldr (o i : Nat) : (s.setFlag o i).ldr = s.ldr := wr_ldr s _ _
@[simp] theorem setFlag_store (o i : Nat) : (s.setFlag o i).store = s.store := wr_store s _ _
@[simp] theorem setFlag_hbm (o i : Nat) : (s.setFlag o i).hbm = s.hbm := wr_hbm s _ _
@[simp] theorem setFlag_safe (o i : Nat) : (s.setFlag o i).safe = s.safe := wr_safe s _ _
@[simp] theorem setFlag_heads (o i : Nat) : (s.setFlag o i).heads = s.heads := wr_heads s _ _
@[simp] theorem setFlag_dps (o i : Nat) : (s.setFlag o i).dps = s.dps := wr_dps s _ _
@[simp] theorem setFlag_groups (o i : Nat) : (s.setFlag o i).groups = s.groups := wr_groups s _ _
@[simp] theorem setFlag_planQ (o i : Nat) : (s.setFlag o i).planQ = s.planQ := wr_planQ s _ _
@[simp] theorem setFlag_planning (o i : Nat) : (s.setFlag o i).planning = s.planning := wr_planning s _ _
@[simp] theorem setFlag_tiles (o i : Nat) : (s.setFlag o i).tiles = s.tiles := wr_tiles s _ _
@[simp] theorem setFlag_scalers (o i : Nat) : (s.setFlag o i).scalers = s.scalers := wr_scalers s _ _
@[simp] theorem setFlag_fsh (o i : Nat) : (s.setFlag o i).fsh = s.fsh := wr_fsh s _ _
@[simp] theorem setFlag_rods (o i : Nat) : (s.setFlag o i).rods = s.rods := wr_rods s _ _
@[simp] theorem setFlag_signs (o i : Nat) : (s.setFlag o i).signs = s.signs := wr_signs s _ _
@[simp] theorem setFlag_ports (o i : Nat) : (s.setFlag o i).ports = s.ports := wr_ports s _ _
@[simp] theorem setFlag_rx (o i : Nat) : (s.setFlag o i).rx = s.rx := wr_rx s _ _
@[simp] theorem setFlag_tx (o i : Nat) : (s.setFlag o i).tx = s.tx := wr_tx s _ _
@[simp] theorem setFlag_trs (o i : Nat) : (s.setFlag o i).trs = s.trs := wr_trs s _ _
@[simp] theorem setFlag_health (o i : Nat) : (s.setFlag o i).health = s.health := wr_health s _ _
@[simp] theorem setFlag_out (o i : Nat) : (s.setFlag o i).out = s.out := wr_out s _ _
@[simp] theorem setFlag_time (o i : Nat) : (s.setFlag o i).time = s.time := wr_time s _ _
@[simp] theorem setFlag_frac (o i : Nat) : (s.setFlag o i).frac = s.frac := wr_frac s _ _
@[simp] theorem setFlag_up (o i : Nat) : (s.setFlag o i).up = s.up := wr_up s _ _
@[simp] theorem setFlag_fresh (o i : Nat) : (s.setFlag o i).fresh = s.fresh := wr_fresh s _ _
@[simp] theorem setFlag_pending (o i : Nat) : (s.setFlag o i).pending = s.pending := wr_pending s _ _

-- wrBits
@[simp] theorem wrBits_variant (o hi lo v : Nat) : (s.wrBits o hi lo v).variant = s.variant := wr_variant s _ _
@[simp] theorem wrBits_powered (o hi lo v : Nat) : (s.wrBits o hi lo v).powered = s.powered := wr_powered s _ _
@[simp] theorem wrBits_mgmt (o hi lo v : Nat) : (s.wrBits o hi lo v).mgmt = s.mgmt := wr_mgmt s _ _
@[simp] theorem wrBits_dead (o hi lo v : Nat) : (s.wrBits o hi lo v).dead = s.dead := wr_dead s _ _
@[simp] theorem wrBits_unit (o hi lo v : Nat) : (s.wrBits o hi lo v).unit = s.unit := wr_unit s _ _
@[simp] theorem wrBits_deck (o hi lo v : Nat) : (s.wrBits o hi lo v).deck = s.deck := wr_deck s _ _
@[simp] theorem wrBits_spaces (o hi lo v : Nat) : (s.wrBits o hi lo v).spaces = s.spaces := wr_spaces s _ _
@[simp] theorem wrBits_live (o hi lo v : Nat) : (s.wrBits o hi lo v).live = s.live := wr_live s _ _
@[simp] theorem wrBits_failing (o hi lo v : Nat) : (s.wrBits o hi lo v).failing = s.failing := wr_failing s _ _
@[simp] theorem wrBits_failingPend (o hi lo v : Nat) : (s.wrBits o hi lo v).failingPend = s.failingPend := wr_failingPend s _ _
@[simp] theorem wrBits_mended (o hi lo v : Nat) : (s.wrBits o hi lo v).mended = s.mended := wr_mended s _ _
@[simp] theorem wrBits_lmp (o hi lo v : Nat) : (s.wrBits o hi lo v).lmp = s.lmp := wr_lmp s _ _
@[simp] theorem wrBits_pf0 (o hi lo v : Nat) : (s.wrBits o hi lo v).pf0 = s.pf0 := wr_pf0 s _ _
@[simp] theorem wrBits_pf1 (o hi lo v : Nat) : (s.wrBits o hi lo v).pf1 = s.pf1 := wr_pf1 s _ _
@[simp] theorem wrBits_col (o hi lo v : Nat) : (s.wrBits o hi lo v).col = s.col := wr_col s _ _
@[simp] theorem wrBits_queues (o hi lo v : Nat) : (s.wrBits o hi lo v).queues = s.queues := wr_queues s _ _
@[simp] theorem wrBits_f0 (o hi lo v : Nat) : (s.wrBits o hi lo v).f0 = s.f0 := wr_f0 s _ _
@[simp] theorem wrBits_f1 (o hi lo v : Nat) : (s.wrBits o hi lo v).f1 = s.f1 := wr_f1 s _ _
@[simp] theorem wrBits_ldr (o hi lo v : Nat) : (s.wrBits o hi lo v).ldr = s.ldr := wr_ldr s _ _
@[simp] theorem wrBits_store (o hi lo v : Nat) : (s.wrBits o hi lo v).store = s.store := wr_store s _ _
@[simp] theorem wrBits_hbm (o hi lo v : Nat) : (s.wrBits o hi lo v).hbm = s.hbm := wr_hbm s _ _
@[simp] theorem wrBits_safe (o hi lo v : Nat) : (s.wrBits o hi lo v).safe = s.safe := wr_safe s _ _
@[simp] theorem wrBits_heads (o hi lo v : Nat) : (s.wrBits o hi lo v).heads = s.heads := wr_heads s _ _
@[simp] theorem wrBits_dps (o hi lo v : Nat) : (s.wrBits o hi lo v).dps = s.dps := wr_dps s _ _
@[simp] theorem wrBits_groups (o hi lo v : Nat) : (s.wrBits o hi lo v).groups = s.groups := wr_groups s _ _
@[simp] theorem wrBits_planQ (o hi lo v : Nat) : (s.wrBits o hi lo v).planQ = s.planQ := wr_planQ s _ _
@[simp] theorem wrBits_planning (o hi lo v : Nat) : (s.wrBits o hi lo v).planning = s.planning := wr_planning s _ _
@[simp] theorem wrBits_tiles (o hi lo v : Nat) : (s.wrBits o hi lo v).tiles = s.tiles := wr_tiles s _ _
@[simp] theorem wrBits_scalers (o hi lo v : Nat) : (s.wrBits o hi lo v).scalers = s.scalers := wr_scalers s _ _
@[simp] theorem wrBits_fsh (o hi lo v : Nat) : (s.wrBits o hi lo v).fsh = s.fsh := wr_fsh s _ _
@[simp] theorem wrBits_rods (o hi lo v : Nat) : (s.wrBits o hi lo v).rods = s.rods := wr_rods s _ _
@[simp] theorem wrBits_signs (o hi lo v : Nat) : (s.wrBits o hi lo v).signs = s.signs := wr_signs s _ _
@[simp] theorem wrBits_ports (o hi lo v : Nat) : (s.wrBits o hi lo v).ports = s.ports := wr_ports s _ _
@[simp] theorem wrBits_rx (o hi lo v : Nat) : (s.wrBits o hi lo v).rx = s.rx := wr_rx s _ _
@[simp] theorem wrBits_tx (o hi lo v : Nat) : (s.wrBits o hi lo v).tx = s.tx := wr_tx s _ _
@[simp] theorem wrBits_trs (o hi lo v : Nat) : (s.wrBits o hi lo v).trs = s.trs := wr_trs s _ _
@[simp] theorem wrBits_health (o hi lo v : Nat) : (s.wrBits o hi lo v).health = s.health := wr_health s _ _
@[simp] theorem wrBits_out (o hi lo v : Nat) : (s.wrBits o hi lo v).out = s.out := wr_out s _ _
@[simp] theorem wrBits_time (o hi lo v : Nat) : (s.wrBits o hi lo v).time = s.time := wr_time s _ _
@[simp] theorem wrBits_frac (o hi lo v : Nat) : (s.wrBits o hi lo v).frac = s.frac := wr_frac s _ _
@[simp] theorem wrBits_up (o hi lo v : Nat) : (s.wrBits o hi lo v).up = s.up := wr_up s _ _
@[simp] theorem wrBits_fresh (o hi lo v : Nat) : (s.wrBits o hi lo v).fresh = s.fresh := wr_fresh s _ _
@[simp] theorem wrBits_pending (o hi lo v : Nat) : (s.wrBits o hi lo v).pending = s.pending := wr_pending s _ _

-- setBytes
@[simp] theorem setBytes_variant (h off : Nat) (bs : List Byte) : (s.setBytes h off bs).variant = s.variant := (rfl)
@[simp] theorem setBytes_powered (h off : Nat) (bs : List Byte) : (s.setBytes h off bs).powered = s.powered := (rfl)
@[simp] theorem setBytes_mgmt (h off : Nat) (bs : List Byte) : (s.setBytes h off bs).mgmt = s.mgmt := (rfl)
@[simp] theorem setBytes_dead (h off : Nat) (bs : List Byte) : (s.setBytes h off bs).dead = s.dead := (rfl)
@[simp] theorem setBytes_regs (h off : Nat) (bs : List Byte) : (s.setBytes h off bs).regs = s.regs := (rfl)
@[simp] theorem setBytes_unit (h off : Nat) (bs : List Byte) : (s.setBytes h off bs).unit = s.unit := (rfl)
@[simp] theorem setBytes_deck (h off : Nat) (bs : List Byte) : (s.setBytes h off bs).deck = s.deck := (rfl)
@[simp] theorem setBytes_spaces (h off : Nat) (bs : List Byte) : (s.setBytes h off bs).spaces = s.spaces := (rfl)
@[simp] theorem setBytes_live (h off : Nat) (bs : List Byte) : (s.setBytes h off bs).live = s.live := (rfl)
@[simp] theorem setBytes_failing (h off : Nat) (bs : List Byte) : (s.setBytes h off bs).failing = s.failing := (rfl)
@[simp] theorem setBytes_failingPend (h off : Nat) (bs : List Byte) : (s.setBytes h off bs).failingPend = s.failingPend := (rfl)
@[simp] theorem setBytes_mended (h off : Nat) (bs : List Byte) : (s.setBytes h off bs).mended = s.mended := (rfl)
@[simp] theorem setBytes_lmp (h off : Nat) (bs : List Byte) : (s.setBytes h off bs).lmp = s.lmp := (rfl)
@[simp] theorem setBytes_pf0 (h off : Nat) (bs : List Byte) : (s.setBytes h off bs).pf0 = s.pf0 := (rfl)
@[simp] theorem setBytes_pf1 (h off : Nat) (bs : List Byte) : (s.setBytes h off bs).pf1 = s.pf1 := (rfl)
@[simp] theorem setBytes_col (h off : Nat) (bs : List Byte) : (s.setBytes h off bs).col = s.col := (rfl)
@[simp] theorem setBytes_queues (h off : Nat) (bs : List Byte) : (s.setBytes h off bs).queues = s.queues := (rfl)
@[simp] theorem setBytes_f0 (h off : Nat) (bs : List Byte) : (s.setBytes h off bs).f0 = s.f0 := (rfl)
@[simp] theorem setBytes_f1 (h off : Nat) (bs : List Byte) : (s.setBytes h off bs).f1 = s.f1 := (rfl)
@[simp] theorem setBytes_ldr (h off : Nat) (bs : List Byte) : (s.setBytes h off bs).ldr = s.ldr := (rfl)
@[simp] theorem setBytes_store (h off : Nat) (bs : List Byte) : (s.setBytes h off bs).store = s.store := (rfl)
@[simp] theorem setBytes_hbm (h off : Nat) (bs : List Byte) : (s.setBytes h off bs).hbm = kputs (fun _ => 0#8) s.hbm (skeyByte h off) bs := (rfl)
@[simp] theorem setBytes_safe (h off : Nat) (bs : List Byte) : (s.setBytes h off bs).safe = s.safe := (rfl)
@[simp] theorem setBytes_heads (h off : Nat) (bs : List Byte) : (s.setBytes h off bs).heads = s.heads := (rfl)
@[simp] theorem setBytes_dps (h off : Nat) (bs : List Byte) : (s.setBytes h off bs).dps = s.dps := (rfl)
@[simp] theorem setBytes_groups (h off : Nat) (bs : List Byte) : (s.setBytes h off bs).groups = s.groups := (rfl)
@[simp] theorem setBytes_planQ (h off : Nat) (bs : List Byte) : (s.setBytes h off bs).planQ = s.planQ := (rfl)
@[simp] theorem setBytes_planning (h off : Nat) (bs : List Byte) : (s.setBytes h off bs).planning = s.planning := (rfl)
@[simp] theorem setBytes_tiles (h off : Nat) (bs : List Byte) : (s.setBytes h off bs).tiles = s.tiles := (rfl)
@[simp] theorem setBytes_scalers (h off : Nat) (bs : List Byte) : (s.setBytes h off bs).scalers = s.scalers := (rfl)
@[simp] theorem setBytes_fsh (h off : Nat) (bs : List Byte) : (s.setBytes h off bs).fsh = s.fsh := (rfl)
@[simp] theorem setBytes_rods (h off : Nat) (bs : List Byte) : (s.setBytes h off bs).rods = s.rods := (rfl)
@[simp] theorem setBytes_signs (h off : Nat) (bs : List Byte) : (s.setBytes h off bs).signs = s.signs := (rfl)
@[simp] theorem setBytes_ports (h off : Nat) (bs : List Byte) : (s.setBytes h off bs).ports = s.ports := (rfl)
@[simp] theorem setBytes_rx (h off : Nat) (bs : List Byte) : (s.setBytes h off bs).rx = s.rx := (rfl)
@[simp] theorem setBytes_tx (h off : Nat) (bs : List Byte) : (s.setBytes h off bs).tx = s.tx := (rfl)
@[simp] theorem setBytes_trs (h off : Nat) (bs : List Byte) : (s.setBytes h off bs).trs = s.trs := (rfl)
@[simp] theorem setBytes_health (h off : Nat) (bs : List Byte) : (s.setBytes h off bs).health = s.health := (rfl)
@[simp] theorem setBytes_out (h off : Nat) (bs : List Byte) : (s.setBytes h off bs).out = s.out := (rfl)
@[simp] theorem setBytes_time (h off : Nat) (bs : List Byte) : (s.setBytes h off bs).time = s.time := (rfl)
@[simp] theorem setBytes_frac (h off : Nat) (bs : List Byte) : (s.setBytes h off bs).frac = s.frac := (rfl)
@[simp] theorem setBytes_up (h off : Nat) (bs : List Byte) : (s.setBytes h off bs).up = s.up := (rfl)
@[simp] theorem setBytes_fresh (h off : Nat) (bs : List Byte) : (s.setBytes h off bs).fresh = s.fresh := (rfl)
@[simp] theorem setBytes_pending (h off : Nat) (bs : List Byte) : (s.setBytes h off bs).pending = s.pending := (rfl)

-- zeroBytes
@[simp] theorem zeroBytes_variant (h lo hi : Nat) : (s.zeroBytes h lo hi).variant = s.variant := (rfl)
@[simp] theorem zeroBytes_powered (h lo hi : Nat) : (s.zeroBytes h lo hi).powered = s.powered := (rfl)
@[simp] theorem zeroBytes_mgmt (h lo hi : Nat) : (s.zeroBytes h lo hi).mgmt = s.mgmt := (rfl)
@[simp] theorem zeroBytes_dead (h lo hi : Nat) : (s.zeroBytes h lo hi).dead = s.dead := (rfl)
@[simp] theorem zeroBytes_regs (h lo hi : Nat) : (s.zeroBytes h lo hi).regs = s.regs := (rfl)
@[simp] theorem zeroBytes_unit (h lo hi : Nat) : (s.zeroBytes h lo hi).unit = s.unit := (rfl)
@[simp] theorem zeroBytes_deck (h lo hi : Nat) : (s.zeroBytes h lo hi).deck = s.deck := (rfl)
@[simp] theorem zeroBytes_spaces (h lo hi : Nat) : (s.zeroBytes h lo hi).spaces = s.spaces := (rfl)
@[simp] theorem zeroBytes_live (h lo hi : Nat) : (s.zeroBytes h lo hi).live = s.live := (rfl)
@[simp] theorem zeroBytes_failing (h lo hi : Nat) : (s.zeroBytes h lo hi).failing = s.failing := (rfl)
@[simp] theorem zeroBytes_failingPend (h lo hi : Nat) : (s.zeroBytes h lo hi).failingPend = s.failingPend := (rfl)
@[simp] theorem zeroBytes_mended (h lo hi : Nat) : (s.zeroBytes h lo hi).mended = s.mended := (rfl)
@[simp] theorem zeroBytes_lmp (h lo hi : Nat) : (s.zeroBytes h lo hi).lmp = s.lmp := (rfl)
@[simp] theorem zeroBytes_pf0 (h lo hi : Nat) : (s.zeroBytes h lo hi).pf0 = s.pf0 := (rfl)
@[simp] theorem zeroBytes_pf1 (h lo hi : Nat) : (s.zeroBytes h lo hi).pf1 = s.pf1 := (rfl)
@[simp] theorem zeroBytes_col (h lo hi : Nat) : (s.zeroBytes h lo hi).col = s.col := (rfl)
@[simp] theorem zeroBytes_queues (h lo hi : Nat) : (s.zeroBytes h lo hi).queues = s.queues := (rfl)
@[simp] theorem zeroBytes_f0 (h lo hi : Nat) : (s.zeroBytes h lo hi).f0 = s.f0 := (rfl)
@[simp] theorem zeroBytes_f1 (h lo hi : Nat) : (s.zeroBytes h lo hi).f1 = s.f1 := (rfl)
@[simp] theorem zeroBytes_ldr (h lo hi : Nat) : (s.zeroBytes h lo hi).ldr = s.ldr := (rfl)
@[simp] theorem zeroBytes_store (h lo hi : Nat) : (s.zeroBytes h lo hi).store = s.store := (rfl)
@[simp] theorem zeroBytes_hbm (h lo hi : Nat) : (s.zeroBytes h lo hi).hbm = kclear s.hbm (skeyByte h lo) (skeyByte h hi) := (rfl)
@[simp] theorem zeroBytes_safe (h lo hi : Nat) : (s.zeroBytes h lo hi).safe = s.safe := (rfl)
@[simp] theorem zeroBytes_heads (h lo hi : Nat) : (s.zeroBytes h lo hi).heads = s.heads := (rfl)
@[simp] theorem zeroBytes_dps (h lo hi : Nat) : (s.zeroBytes h lo hi).dps = s.dps := (rfl)
@[simp] theorem zeroBytes_groups (h lo hi : Nat) : (s.zeroBytes h lo hi).groups = s.groups := (rfl)
@[simp] theorem zeroBytes_planQ (h lo hi : Nat) : (s.zeroBytes h lo hi).planQ = s.planQ := (rfl)
@[simp] theorem zeroBytes_planning (h lo hi : Nat) : (s.zeroBytes h lo hi).planning = s.planning := (rfl)
@[simp] theorem zeroBytes_tiles (h lo hi : Nat) : (s.zeroBytes h lo hi).tiles = s.tiles := (rfl)
@[simp] theorem zeroBytes_scalers (h lo hi : Nat) : (s.zeroBytes h lo hi).scalers = s.scalers := (rfl)
@[simp] theorem zeroBytes_fsh (h lo hi : Nat) : (s.zeroBytes h lo hi).fsh = s.fsh := (rfl)
@[simp] theorem zeroBytes_rods (h lo hi : Nat) : (s.zeroBytes h lo hi).rods = s.rods := (rfl)
@[simp] theorem zeroBytes_signs (h lo hi : Nat) : (s.zeroBytes h lo hi).signs = s.signs := (rfl)
@[simp] theorem zeroBytes_ports (h lo hi : Nat) : (s.zeroBytes h lo hi).ports = s.ports := (rfl)
@[simp] theorem zeroBytes_rx (h lo hi : Nat) : (s.zeroBytes h lo hi).rx = s.rx := (rfl)
@[simp] theorem zeroBytes_tx (h lo hi : Nat) : (s.zeroBytes h lo hi).tx = s.tx := (rfl)
@[simp] theorem zeroBytes_trs (h lo hi : Nat) : (s.zeroBytes h lo hi).trs = s.trs := (rfl)
@[simp] theorem zeroBytes_health (h lo hi : Nat) : (s.zeroBytes h lo hi).health = s.health := (rfl)
@[simp] theorem zeroBytes_out (h lo hi : Nat) : (s.zeroBytes h lo hi).out = s.out := (rfl)
@[simp] theorem zeroBytes_time (h lo hi : Nat) : (s.zeroBytes h lo hi).time = s.time := (rfl)
@[simp] theorem zeroBytes_frac (h lo hi : Nat) : (s.zeroBytes h lo hi).frac = s.frac := (rfl)
@[simp] theorem zeroBytes_up (h lo hi : Nat) : (s.zeroBytes h lo hi).up = s.up := (rfl)
@[simp] theorem zeroBytes_fresh (h lo hi : Nat) : (s.zeroBytes h lo hi).fresh = s.fresh := (rfl)
@[simp] theorem zeroBytes_pending (h lo hi : Nat) : (s.zeroBytes h lo hi).pending = s.pending := (rfl)

-- setMaster
@[simp] theorem setMaster_variant (m : Master) (x : MState) : (s.setMaster m x).variant = s.variant := by cases m <;> rfl
@[simp] theorem setMaster_powered (m : Master) (x : MState) : (s.setMaster m x).powered = s.powered := by cases m <;> rfl
@[simp] theorem setMaster_mgmt (m : Master) (x : MState) : (s.setMaster m x).mgmt = s.mgmt := by cases m <;> rfl
@[simp] theorem setMaster_dead (m : Master) (x : MState) : (s.setMaster m x).dead = s.dead := by cases m <;> rfl
@[simp] theorem setMaster_regs (m : Master) (x : MState) : (s.setMaster m x).regs = s.regs := by cases m <;> rfl
@[simp] theorem setMaster_unit (m : Master) (x : MState) : (s.setMaster m x).unit = s.unit := by cases m <;> rfl
@[simp] theorem setMaster_deck (m : Master) (x : MState) : (s.setMaster m x).deck = s.deck := by cases m <;> rfl
@[simp] theorem setMaster_spaces (m : Master) (x : MState) : (s.setMaster m x).spaces = s.spaces := by cases m <;> rfl
@[simp] theorem setMaster_live (m : Master) (x : MState) : (s.setMaster m x).live = s.live := by cases m <;> rfl
@[simp] theorem setMaster_failing (m : Master) (x : MState) : (s.setMaster m x).failing = s.failing := by cases m <;> rfl
@[simp] theorem setMaster_failingPend (m : Master) (x : MState) : (s.setMaster m x).failingPend = s.failingPend := by cases m <;> rfl
@[simp] theorem setMaster_mended (m : Master) (x : MState) : (s.setMaster m x).mended = s.mended := by cases m <;> rfl
@[simp] theorem setMaster_col (m : Master) (x : MState) : (s.setMaster m x).col = s.col := by cases m <;> rfl
@[simp] theorem setMaster_queues (m : Master) (x : MState) : (s.setMaster m x).queues = s.queues := by cases m <;> rfl
@[simp] theorem setMaster_f0 (m : Master) (x : MState) : (s.setMaster m x).f0 = s.f0 := by cases m <;> rfl
@[simp] theorem setMaster_f1 (m : Master) (x : MState) : (s.setMaster m x).f1 = s.f1 := by cases m <;> rfl
@[simp] theorem setMaster_ldr (m : Master) (x : MState) : (s.setMaster m x).ldr = s.ldr := by cases m <;> rfl
@[simp] theorem setMaster_store (m : Master) (x : MState) : (s.setMaster m x).store = s.store := by cases m <;> rfl
@[simp] theorem setMaster_hbm (m : Master) (x : MState) : (s.setMaster m x).hbm = s.hbm := by cases m <;> rfl
@[simp] theorem setMaster_safe (m : Master) (x : MState) : (s.setMaster m x).safe = s.safe := by cases m <;> rfl
@[simp] theorem setMaster_heads (m : Master) (x : MState) : (s.setMaster m x).heads = s.heads := by cases m <;> rfl
@[simp] theorem setMaster_dps (m : Master) (x : MState) : (s.setMaster m x).dps = s.dps := by cases m <;> rfl
@[simp] theorem setMaster_groups (m : Master) (x : MState) : (s.setMaster m x).groups = s.groups := by cases m <;> rfl
@[simp] theorem setMaster_planQ (m : Master) (x : MState) : (s.setMaster m x).planQ = s.planQ := by cases m <;> rfl
@[simp] theorem setMaster_planning (m : Master) (x : MState) : (s.setMaster m x).planning = s.planning := by cases m <;> rfl
@[simp] theorem setMaster_tiles (m : Master) (x : MState) : (s.setMaster m x).tiles = s.tiles := by cases m <;> rfl
@[simp] theorem setMaster_scalers (m : Master) (x : MState) : (s.setMaster m x).scalers = s.scalers := by cases m <;> rfl
@[simp] theorem setMaster_fsh (m : Master) (x : MState) : (s.setMaster m x).fsh = s.fsh := by cases m <;> rfl
@[simp] theorem setMaster_rods (m : Master) (x : MState) : (s.setMaster m x).rods = s.rods := by cases m <;> rfl
@[simp] theorem setMaster_signs (m : Master) (x : MState) : (s.setMaster m x).signs = s.signs := by cases m <;> rfl
@[simp] theorem setMaster_ports (m : Master) (x : MState) : (s.setMaster m x).ports = s.ports := by cases m <;> rfl
@[simp] theorem setMaster_rx (m : Master) (x : MState) : (s.setMaster m x).rx = s.rx := by cases m <;> rfl
@[simp] theorem setMaster_tx (m : Master) (x : MState) : (s.setMaster m x).tx = s.tx := by cases m <;> rfl
@[simp] theorem setMaster_trs (m : Master) (x : MState) : (s.setMaster m x).trs = s.trs := by cases m <;> rfl
@[simp] theorem setMaster_health (m : Master) (x : MState) : (s.setMaster m x).health = s.health := by cases m <;> rfl
@[simp] theorem setMaster_out (m : Master) (x : MState) : (s.setMaster m x).out = s.out := by cases m <;> rfl
@[simp] theorem setMaster_time (m : Master) (x : MState) : (s.setMaster m x).time = s.time := by cases m <;> rfl
@[simp] theorem setMaster_frac (m : Master) (x : MState) : (s.setMaster m x).frac = s.frac := by cases m <;> rfl
@[simp] theorem setMaster_up (m : Master) (x : MState) : (s.setMaster m x).up = s.up := by cases m <;> rfl
@[simp] theorem setMaster_fresh (m : Master) (x : MState) : (s.setMaster m x).fresh = s.fresh := by cases m <;> rfl
@[simp] theorem setMaster_pending (m : Master) (x : MState) : (s.setMaster m x).pending = s.pending := by cases m <;> rfl

-- setFunc
@[simp] theorem setFunc_variant (k : Nat) (x : Func) : (s.setFunc k x).variant = s.variant := by unfold setFunc; split <;> rfl
@[simp] theorem setFunc_powered (k : Nat) (x : Func) : (s.setFunc k x).powered = s.powered := by unfold setFunc; split <;> rfl
@[simp] theorem setFunc_mgmt (k : Nat) (x : Func) : (s.setFunc k x).mgmt = s.mgmt := by unfold setFunc; split <;> rfl
@[simp] theorem setFunc_dead (k : Nat) (x : Func) : (s.setFunc k x).dead = s.dead := by unfold setFunc; split <;> rfl
@[simp] theorem setFunc_regs (k : Nat) (x : Func) : (s.setFunc k x).regs = s.regs := by unfold setFunc; split <;> rfl
@[simp] theorem setFunc_unit (k : Nat) (x : Func) : (s.setFunc k x).unit = s.unit := by unfold setFunc; split <;> rfl
@[simp] theorem setFunc_deck (k : Nat) (x : Func) : (s.setFunc k x).deck = s.deck := by unfold setFunc; split <;> rfl
@[simp] theorem setFunc_spaces (k : Nat) (x : Func) : (s.setFunc k x).spaces = s.spaces := by unfold setFunc; split <;> rfl
@[simp] theorem setFunc_live (k : Nat) (x : Func) : (s.setFunc k x).live = s.live := by unfold setFunc; split <;> rfl
@[simp] theorem setFunc_failing (k : Nat) (x : Func) : (s.setFunc k x).failing = s.failing := by unfold setFunc; split <;> rfl
@[simp] theorem setFunc_failingPend (k : Nat) (x : Func) : (s.setFunc k x).failingPend = s.failingPend := by unfold setFunc; split <;> rfl
@[simp] theorem setFunc_mended (k : Nat) (x : Func) : (s.setFunc k x).mended = s.mended := by unfold setFunc; split <;> rfl
@[simp] theorem setFunc_lmp (k : Nat) (x : Func) : (s.setFunc k x).lmp = s.lmp := by unfold setFunc; split <;> rfl
@[simp] theorem setFunc_pf0 (k : Nat) (x : Func) : (s.setFunc k x).pf0 = s.pf0 := by unfold setFunc; split <;> rfl
@[simp] theorem setFunc_pf1 (k : Nat) (x : Func) : (s.setFunc k x).pf1 = s.pf1 := by unfold setFunc; split <;> rfl
@[simp] theorem setFunc_col (k : Nat) (x : Func) : (s.setFunc k x).col = s.col := by unfold setFunc; split <;> rfl
@[simp] theorem setFunc_queues (k : Nat) (x : Func) : (s.setFunc k x).queues = s.queues := by unfold setFunc; split <;> rfl
@[simp] theorem setFunc_ldr (k : Nat) (x : Func) : (s.setFunc k x).ldr = s.ldr := by unfold setFunc; split <;> rfl
@[simp] theorem setFunc_store (k : Nat) (x : Func) : (s.setFunc k x).store = s.store := by unfold setFunc; split <;> rfl
@[simp] theorem setFunc_hbm (k : Nat) (x : Func) : (s.setFunc k x).hbm = s.hbm := by unfold setFunc; split <;> rfl
@[simp] theorem setFunc_safe (k : Nat) (x : Func) : (s.setFunc k x).safe = s.safe := by unfold setFunc; split <;> rfl
@[simp] theorem setFunc_heads (k : Nat) (x : Func) : (s.setFunc k x).heads = s.heads := by unfold setFunc; split <;> rfl
@[simp] theorem setFunc_dps (k : Nat) (x : Func) : (s.setFunc k x).dps = s.dps := by unfold setFunc; split <;> rfl
@[simp] theorem setFunc_groups (k : Nat) (x : Func) : (s.setFunc k x).groups = s.groups := by unfold setFunc; split <;> rfl
@[simp] theorem setFunc_planQ (k : Nat) (x : Func) : (s.setFunc k x).planQ = s.planQ := by unfold setFunc; split <;> rfl
@[simp] theorem setFunc_planning (k : Nat) (x : Func) : (s.setFunc k x).planning = s.planning := by unfold setFunc; split <;> rfl
@[simp] theorem setFunc_tiles (k : Nat) (x : Func) : (s.setFunc k x).tiles = s.tiles := by unfold setFunc; split <;> rfl
@[simp] theorem setFunc_scalers (k : Nat) (x : Func) : (s.setFunc k x).scalers = s.scalers := by unfold setFunc; split <;> rfl
@[simp] theorem setFunc_fsh (k : Nat) (x : Func) : (s.setFunc k x).fsh = s.fsh := by unfold setFunc; split <;> rfl
@[simp] theorem setFunc_rods (k : Nat) (x : Func) : (s.setFunc k x).rods = s.rods := by unfold setFunc; split <;> rfl
@[simp] theorem setFunc_signs (k : Nat) (x : Func) : (s.setFunc k x).signs = s.signs := by unfold setFunc; split <;> rfl
@[simp] theorem setFunc_ports (k : Nat) (x : Func) : (s.setFunc k x).ports = s.ports := by unfold setFunc; split <;> rfl
@[simp] theorem setFunc_rx (k : Nat) (x : Func) : (s.setFunc k x).rx = s.rx := by unfold setFunc; split <;> rfl
@[simp] theorem setFunc_tx (k : Nat) (x : Func) : (s.setFunc k x).tx = s.tx := by unfold setFunc; split <;> rfl
@[simp] theorem setFunc_trs (k : Nat) (x : Func) : (s.setFunc k x).trs = s.trs := by unfold setFunc; split <;> rfl
@[simp] theorem setFunc_health (k : Nat) (x : Func) : (s.setFunc k x).health = s.health := by unfold setFunc; split <;> rfl
@[simp] theorem setFunc_out (k : Nat) (x : Func) : (s.setFunc k x).out = s.out := by unfold setFunc; split <;> rfl
@[simp] theorem setFunc_time (k : Nat) (x : Func) : (s.setFunc k x).time = s.time := by unfold setFunc; split <;> rfl
@[simp] theorem setFunc_frac (k : Nat) (x : Func) : (s.setFunc k x).frac = s.frac := by unfold setFunc; split <;> rfl
@[simp] theorem setFunc_up (k : Nat) (x : Func) : (s.setFunc k x).up = s.up := by unfold setFunc; split <;> rfl
@[simp] theorem setFunc_fresh (k : Nat) (x : Func) : (s.setFunc k x).fresh = s.fresh := by unfold setFunc; split <;> rfl
@[simp] theorem setFunc_pending (k : Nat) (x : Func) : (s.setFunc k x).pending = s.pending := by unfold setFunc; split <;> rfl

-- hold
@[simp] theorem hold_variant : (hold s t).variant = s.variant := (rfl)
@[simp] theorem hold_powered : (hold s t).powered = s.powered := (rfl)
@[simp] theorem hold_mgmt : (hold s t).mgmt = t.mgmt := (rfl)
@[simp] theorem hold_dead : (hold s t).dead = t.dead := (rfl)
@[simp] theorem hold_regs : (hold s t).regs = t.regs := (rfl)
@[simp] theorem hold_unit : (hold s t).unit = t.unit := (rfl)
@[simp] theorem hold_deck : (hold s t).deck = t.deck := (rfl)
@[simp] theorem hold_spaces : (hold s t).spaces = t.spaces := (rfl)
@[simp] theorem hold_live : (hold s t).live = t.live := (rfl)
@[simp] theorem hold_failing : (hold s t).failing = t.failing := (rfl)
@[simp] theorem hold_failingPend : (hold s t).failingPend = t.failingPend := (rfl)
@[simp] theorem hold_mended : (hold s t).mended = t.mended := (rfl)
@[simp] theorem hold_lmp : (hold s t).lmp = t.lmp := (rfl)
@[simp] theorem hold_pf0 : (hold s t).pf0 = t.pf0 := (rfl)
@[simp] theorem hold_pf1 : (hold s t).pf1 = t.pf1 := (rfl)
@[simp] theorem hold_col : (hold s t).col = t.col := (rfl)
@[simp] theorem hold_queues : (hold s t).queues = t.queues := (rfl)
@[simp] theorem hold_f0 : (hold s t).f0 = t.f0 := (rfl)
@[simp] theorem hold_f1 : (hold s t).f1 = t.f1 := (rfl)
@[simp] theorem hold_ldr : (hold s t).ldr = t.ldr := (rfl)
@[simp] theorem hold_store : (hold s t).store = t.store := (rfl)
@[simp] theorem hold_hbm : (hold s t).hbm = t.hbm := (rfl)
@[simp] theorem hold_safe : (hold s t).safe = t.safe := (rfl)
@[simp] theorem hold_heads : (hold s t).heads = t.heads := (rfl)
@[simp] theorem hold_dps : (hold s t).dps = t.dps := (rfl)
@[simp] theorem hold_groups : (hold s t).groups = t.groups := (rfl)
@[simp] theorem hold_planQ : (hold s t).planQ = t.planQ := (rfl)
@[simp] theorem hold_planning : (hold s t).planning = t.planning := (rfl)
@[simp] theorem hold_tiles : (hold s t).tiles = t.tiles := (rfl)
@[simp] theorem hold_scalers : (hold s t).scalers = t.scalers := (rfl)
@[simp] theorem hold_fsh : (hold s t).fsh = t.fsh := (rfl)
@[simp] theorem hold_rods : (hold s t).rods = t.rods := (rfl)
@[simp] theorem hold_signs : (hold s t).signs = t.signs := (rfl)
@[simp] theorem hold_ports : (hold s t).ports = t.ports := (rfl)
@[simp] theorem hold_rx : (hold s t).rx = t.rx := (rfl)
@[simp] theorem hold_tx : (hold s t).tx = t.tx := (rfl)
@[simp] theorem hold_trs : (hold s t).trs = t.trs := (rfl)
@[simp] theorem hold_health : (hold s t).health = t.health := (rfl)
@[simp] theorem hold_out : (hold s t).out = t.out := (rfl)
@[simp] theorem hold_time : (hold s t).time = t.time := (rfl)
@[simp] theorem hold_frac : (hold s t).frac = s.frac := (rfl)
@[simp] theorem hold_up : (hold s t).up = s.up := (rfl)
@[simp] theorem hold_fresh : (hold s t).fresh = t.fresh := (rfl)
@[simp] theorem hold_pending : (hold s t).pending = s.pending := (rfl)

-- keeping
@[simp] theorem keeping_variant (ps : List Part) : (keeping ps s t).variant = t.variant := (rfl)
@[simp] theorem keeping_powered (ps : List Part) : (keeping ps s t).powered = t.powered := (rfl)
@[simp] theorem keeping_mgmt (ps : List Part) : (keeping ps s t).mgmt = if ps.contains .power then t.mgmt else s.mgmt := (rfl)
@[simp] theorem keeping_dead (ps : List Part) : (keeping ps s t).dead = if ps.contains .power then t.dead else s.dead := (rfl)
@[simp] theorem keeping_regs (ps : List Part) : (keeping ps s t).regs = t.regs := (rfl)
@[simp] theorem keeping_unit (ps : List Part) : (keeping ps s t).unit = if ps.contains .force then t.unit else s.unit := (rfl)
@[simp] theorem keeping_deck (ps : List Part) : (keeping ps s t).deck = t.deck := (rfl)
@[simp] theorem keeping_spaces (ps : List Part) : (keeping ps s t).spaces = t.spaces := (rfl)
@[simp] theorem keeping_live (ps : List Part) : (keeping ps s t).live = if ps.contains .force then t.live else s.live := (rfl)
@[simp] theorem keeping_failing (ps : List Part) : (keeping ps s t).failing = t.failing := (rfl)
@[simp] theorem keeping_failingPend (ps : List Part) : (keeping ps s t).failingPend = t.failingPend := (rfl)
@[simp] theorem keeping_mended (ps : List Part) : (keeping ps s t).mended = t.mended := (rfl)
@[simp] theorem keeping_lmp (ps : List Part) : (keeping ps s t).lmp = if ps.contains .masters then t.lmp else s.lmp := (rfl)
@[simp] theorem keeping_pf0 (ps : List Part) : (keeping ps s t).pf0 = if ps.contains .masters then t.pf0 else s.pf0 := (rfl)
@[simp] theorem keeping_pf1 (ps : List Part) : (keeping ps s t).pf1 = if ps.contains .masters then t.pf1 else s.pf1 := (rfl)
@[simp] theorem keeping_col (ps : List Part) : (keeping ps s t).col = t.col := (rfl)
@[simp] theorem keeping_queues (ps : List Part) : (keeping ps s t).queues = if ps.contains .queues then t.queues else s.queues := (rfl)
@[simp] theorem keeping_f0 (ps : List Part) : (keeping ps s t).f0 = t.f0 := (rfl)
@[simp] theorem keeping_f1 (ps : List Part) : (keeping ps s t).f1 = t.f1 := (rfl)
@[simp] theorem keeping_ldr (ps : List Part) : (keeping ps s t).ldr = if ps.contains .loader then t.ldr else s.ldr := (rfl)
@[simp] theorem keeping_store (ps : List Part) : (keeping ps s t).store = if ps.contains .store then t.store else s.store := (rfl)
@[simp] theorem keeping_hbm (ps : List Part) : (keeping ps s t).hbm = if ps.contains .store then t.hbm else s.hbm := (rfl)
@[simp] theorem keeping_safe (ps : List Part) : (keeping ps s t).safe = t.safe := (rfl)
@[simp] theorem keeping_heads (ps : List Part) : (keeping ps s t).heads = if ps.contains .outputs then t.heads else s.heads := (rfl)
@[simp] theorem keeping_dps (ps : List Part) : (keeping ps s t).dps = if ps.contains .outputs then t.dps else s.dps := (rfl)
@[simp] theorem keeping_groups (ps : List Part) : (keeping ps s t).groups = if ps.contains .compose then t.groups else s.groups := (rfl)
@[simp] theorem keeping_planQ (ps : List Part) : (keeping ps s t).planQ = if ps.contains .compose then t.planQ else s.planQ := (rfl)
@[simp] theorem keeping_planning (ps : List Part) : (keeping ps s t).planning = if ps.contains .compose then t.planning else s.planning := (rfl)
@[simp] theorem keeping_tiles (ps : List Part) : (keeping ps s t).tiles = if ps.contains .compose then t.tiles else s.tiles := (rfl)
@[simp] theorem keeping_scalers (ps : List Part) : (keeping ps s t).scalers = if ps.contains .compose then t.scalers else s.scalers := (rfl)
@[simp] theorem keeping_fsh (ps : List Part) : (keeping ps s t).fsh = if ps.contains .compose then t.fsh else s.fsh := (rfl)
@[simp] theorem keeping_rods (ps : List Part) : (keeping ps s t).rods = if ps.contains .compose then t.rods else s.rods := (rfl)
@[simp] theorem keeping_signs (ps : List Part) : (keeping ps s t).signs = if ps.contains .compose then t.signs else s.signs := (rfl)
@[simp] theorem keeping_ports (ps : List Part) : (keeping ps s t).ports = t.ports := (rfl)
@[simp] theorem keeping_rx (ps : List Part) : (keeping ps s t).rx = if ps.contains .receive then t.rx else s.rx := (rfl)
@[simp] theorem keeping_tx (ps : List Part) : (keeping ps s t).tx = t.tx := (rfl)
@[simp] theorem keeping_trs (ps : List Part) : (keeping ps s t).trs = if ps.contains .timing then t.trs else s.trs := (rfl)
@[simp] theorem keeping_health (ps : List Part) : (keeping ps s t).health = if ps.contains .health then t.health else s.health := (rfl)
@[simp] theorem keeping_out (ps : List Part) : (keeping ps s t).out = t.out := (rfl)
@[simp] theorem keeping_time (ps : List Part) : (keeping ps s t).time = if ps.contains .timing then t.time else s.time := (rfl)
@[simp] theorem keeping_frac (ps : List Part) : (keeping ps s t).frac = t.frac := (rfl)
@[simp] theorem keeping_up (ps : List Part) : (keeping ps s t).up = t.up := (rfl)
@[simp] theorem keeping_fresh (ps : List Part) : (keeping ps s t).fresh = t.fresh := (rfl)
@[simp] theorem keeping_pending (ps : List Part) : (keeping ps s t).pending = t.pending := (rfl)

end Sys2Proof.Machine.State
end

