-- ==== Sys2Proof/Laws/Ops.lean ====
section
/-!
SUPPORT. Laws of the named operations: a read after a write of the same part, what a command answers, and that memory operations keep the
canonical form and every byte outside the bytes they write.
-/
namespace Sys2Proof.Machine

namespace State

variable (s t : State)

-- A read after a write.

theorem rd_wr (k k' : Nat) (x : Word) : (s.wr k x).rd k' = if k' = k then x else s.rd k' := kget_kset _ _ _ _ _
@[simp] theorem rd_wr_self (k : Nat) (x : Word) : (s.wr k x).rd k = x := kget_kset_self _ _ _ _
theorem sp_setSp (k k' : Nat) (x : Word) : (s.setSp k x).sp k' = if k' = k then x else s.sp k' := kget_kset _ _ _ _ _
@[simp] theorem sp_setSp_self (k : Nat) (x : Word) : (s.setSp k x).sp k = x := kget_kset_self _ _ _ _
theorem lv_setLv (k k' : Nat) (x : Word) : (s.setLv k x).lv k' = if k' = k then x else s.lv k' := kget_kset _ _ _ _ _
@[simp] theorem lv_setLv_self (k : Nat) (x : Word) : (s.setLv k x).lv k = x := kget_kset_self _ _ _ _
theorem cfg_setCfg (k k' : Nat) (x : Word) : (s.setCfg k x).cfg k' = if k' = k then x else s.cfg k' := kget_kset _ _ _ _ _
@[simp] theorem cfg_setCfg_self (k : Nat) (x : Word) : (s.setCfg k x).cfg k = x := kget_kset_self _ _ _ _
theorem dk_setDk (k k' : Nat) (x : Word) : (s.setDk k x).dk k' = if k' = k then x else s.dk k' := kget_kset _ _ _ _ _
@[simp] theorem dk_setDk_self (k : Nat) (x : Word) : (s.setDk k x).dk k = x := kget_kset_self _ _ _ _
theorem queue_setQueue (k k' : Nat) (x : Queue) : (s.setQueue k x).queue k' = if k' = k then x else s.queue k' := kget_kset _ _ _ _ _
@[simp] theorem queue_setQueue_self (k : Nat) (x : Queue) : (s.setQueue k x).queue k = x := kget_kset_self _ _ _ _
theorem safeOf_setSafe (k k' : Nat) (x : Safe) : (s.setSafe k x).safeOf k' = if k' = k then x else s.safeOf k' := kget_kset _ _ _ _ _
@[simp] theorem safeOf_setSafe_self (k : Nat) (x : Safe) : (s.setSafe k x).safeOf k = x := kget_kset_self _ _ _ _
theorem head_setHead (k k' : Nat) (x : Head) : (s.setHead k x).head k' = if k' = k then x else s.head k' := kget_kset _ _ _ _ _
@[simp] theorem head_setHead_self (k : Nat) (x : Head) : (s.setHead k x).head k = x := kget_kset_self _ _ _ _
theorem dp_setDp (k k' : Nat) (x : Dp) : (s.setDp k x).dp k' = if k' = k then x else s.dp k' := kget_kset _ _ _ _ _
@[simp] theorem dp_setDp_self (k : Nat) (x : Dp) : (s.setDp k x).dp k = x := kget_kset_self _ _ _ _
theorem group_setGroup (k k' : Nat) (x : Group) : (s.setGroup k x).group k' = if k' = k then x else s.group k' := kget_kset _ _ _ _ _
@[simp] theorem group_setGroup_self (k : Nat) (x : Group) : (s.setGroup k x).group k = x := kget_kset_self _ _ _ _
theorem tile_setTile (k k' : Nat) (x : Tile) : (s.setTile k x).tile k' = if k' = k then x else s.tile k' := kget_kset _ _ _ _ _
@[simp] theorem tile_setTile_self (k : Nat) (x : Tile) : (s.setTile k x).tile k = x := kget_kset_self _ _ _ _
theorem scaler_setScaler (k k' : Nat) (x : Scaler) : (s.setScaler k x).scaler k' = if k' = k then x else s.scaler k' := kget_kset _ _ _ _ _
@[simp] theorem scaler_setScaler_self (k : Nat) (x : Scaler) : (s.setScaler k x).scaler k = x := kget_kset_self _ _ _ _
theorem rod_setRod (k k' : Nat) (x : Rod) : (s.setRod k x).rod k' = if k' = k then x else s.rod k' := kget_kset _ _ _ _ _
@[simp] theorem rod_setRod_self (k : Nat) (x : Rod) : (s.setRod k x).rod k = x := kget_kset_self _ _ _ _
theorem sign_setSign (k k' : Nat) (x : Sign) : (s.setSign k x).sign k' = if k' = k then x else s.sign k' := kget_kset _ _ _ _ _
@[simp] theorem sign_setSign_self (k : Nat) (x : Sign) : (s.setSign k x).sign k = x := kget_kset_self _ _ _ _
theorem port_setPort (k k' : Nat) (x : Port) : (s.setPort k x).port k' = if k' = k then x else s.port k' := kget_kset _ _ _ _ _
@[simp] theorem port_setPort_self (k : Nat) (x : Port) : (s.setPort k x).port k = x := kget_kset_self _ _ _ _
theorem rxs_setRxs (k k' : Nat) (x : RxStream) : (s.setRxs k x).rxs k' = if k' = k then x else s.rxs k' := kget_kset _ _ _ _ _
@[simp] theorem rxs_setRxs_self (k : Nat) (x : RxStream) : (s.setRxs k x).rxs k = x := kget_kset_self _ _ _ _
theorem txs_setTxs (k k' : Nat) (x : TxStream) : (s.setTxs k x).txs k' = if k' = k then x else s.txs k' := kget_kset _ _ _ _ _
@[simp] theorem txs_setTxs_self (k : Nat) (x : TxStream) : (s.setTxs k x).txs k = x := kget_kset_self _ _ _ _
theorem pll_setPll (k k' : Nat) (x : Pll) : (s.setPll k x).pll k' = if k' = k then x else s.pll k' := kget_kset _ _ _ _ _
@[simp] theorem pll_setPll_self (k : Nat) (x : Pll) : (s.setPll k x).pll k = x := kget_kset_self _ _ _ _
theorem metered_setMetered (k k' : Nat) (x : Metered) : (s.setMetered k x).metered k' = if k' = k then x else s.metered k' := kget_kset _ _ _ _ _
@[simp] theorem metered_setMetered_self (k : Nat) (x : Metered) : (s.setMetered k x).metered k = x := kget_kset_self _ _ _ _
theorem pc_setPc (k k' : Nat) (x : Pc) : (s.setPc k x).pc k' = if k' = k then x else s.pc k' := kget_kset _ _ _ _ _
@[simp] theorem pc_setPc_self (k : Nat) (x : Pc) : (s.setPc k x).pc k = x := kget_kset_self _ _ _ _
theorem surface_setSurface (k k' : Nat) (x : Option Surface) : (s.setSurface k x).surface k' = if k' = k then x else s.surface k' := kget_kset _ _ _ _ _
@[simp] theorem surface_setSurface_self (k : Nat) (x : Option Surface) : (s.setSurface k x).surface k = x := kget_kset_self _ _ _ _
theorem src_setSrc (k k' : Nat) (x : SrcSt) : (s.setSrc k x).src k' = if k' = k then x else s.src k' := kget_kset _ _ _ _ _
@[simp] theorem src_setSrc_self (k : Nat) (x : SrcSt) : (s.setSrc k x).src k = x := kget_kset_self _ _ _ _
theorem wclass_setWclass (k k' : Nat) (x : WClass) : (s.setWclass k x).wclass k' = if k' = k then x else s.wclass k' := kget_kset _ _ _ _ _
@[simp] theorem wclass_setWclass_self (k : Nat) (x : WClass) : (s.setWclass k x).wclass k = x := kget_kset_self _ _ _ _

@[simp] theorem master_setMaster_self (m : Master) (x : MState) : (s.setMaster m x).master m = x := by cases m <;> rfl
theorem master_setMaster (m m' : Master) (x : MState) :
    (s.setMaster m x).master m' = if m' = m then x else s.master m' := by cases m <;> cases m' <;> rfl
theorem func_setFunc (k k' : Nat) (x : Func) :
    (s.setFunc k x).func k' = if (k' = 0) = (k = 0) then x else s.func k' := by
  unfold setFunc func
  by_cases h : k = 0 <;> by_cases h' : k' = 0 <;> simp [h, h']

-- Memory.

/-- A byte after a write of a block: the byte written inside the block, the old one outside. -/
theorem byte_setBytes (h off : Nat) (bs : List Byte) (h' off' : Nat) :
    (s.setBytes h off bs).byte h' off'
      = if skeyByte h off ≤ skeyByte h' off' ∧ skeyByte h' off' < skeyByte h off + bs.length
        then bs.getD (skeyByte h' off' - skeyByte h off) 0#8 else s.byte h' off' := kget_kputs _ _ _ _ _

theorem byte_zeroBytes (h lo hi h' off' : Nat) :
    (s.zeroBytes h lo hi).byte h' off'
      = if skeyByte h lo ≤ skeyByte h' off' ∧ skeyByte h' off' < skeyByte h hi then 0#8 else s.byte h' off' :=
  kget_kclear _ _ _ _ _

/-- Every write of surface memory keeps its canonical form. -/
theorem memoryWf_setBytes (h off : Nat) (bs : List Byte) (hw : s.memoryWf = true) : (s.setBytes h off bs).memoryWf = true :=
  kwf_kputs _ _ _ _ hw
theorem memoryWf_zeroBytes (h lo hi : Nat) (hw : s.memoryWf = true) : (s.zeroBytes h lo hi).memoryWf = true :=
  kwf_kclear _ _ _ _ hw

/-- Register and space writes keep the canonical form. -/
theorem registersWf_wr (o : Nat) (v : Word) (hw : s.registersWf = true) : (s.wr o v).registersWf = true := by
  simp only [registersWf, Bool.and_eq_true] at hw ⊢; exact ⟨kwf_kset _ _ _ _ hw.1, hw.2⟩
theorem registersWf_setCfg (o : Nat) (v : Word) (hw : s.registersWf = true) : (s.setCfg o v).registersWf = true := by
  simp only [registersWf, Bool.and_eq_true] at hw ⊢; exact ⟨hw.1, kwf_kset _ _ _ _ hw.2⟩
theorem spacesWf_setSp (k : Nat) (v : Word) (hw : s.spacesWf = true) : (s.setSp k v).spacesWf = true := by
  simp only [spacesWf, Bool.and_eq_true] at hw ⊢; exact ⟨kwf_kset _ _ _ _ hw.1, hw.2⟩
theorem spacesWf_setLv (k : Nat) (v : Word) (hw : s.spacesWf = true) : (s.setLv k v).spacesWf = true := by
  simp only [spacesWf, Bool.and_eq_true] at hw ⊢; exact ⟨hw.1, kwf_kset _ _ _ _ hw.2⟩

end State

-- Loops and conditions.

/-- What each step of a loop leaves as it is, the loop leaves as it is. -/
theorem forEach_keeps {α β : Type} (g : State → β) (f : State → α → State) (hf : ∀ s a, g (f s a) = g s) : ∀ (xs : List α) (s : State), g (forEach xs s f) = g s
  | [], _ => rfl
  | x :: xs, s => (forEach_keeps g f hf xs (f s x)).trans (hf s x)

theorem when_keeps {β : Type} (g : State → β) (s : State) (c : Bool) (f : State → State) (hf : g (f s) = g s) : g (s.when c f) = g s := by
  unfold State.when; split <;> simp [hf]

-- What a command answers.

variable {s : State} {f : State → State} {ps : List Part}

/-- Everything a command of a running device does. -/
theorem run_on (hp : s.powered = true) (hd : s.dead = false) : run s f = .next (hold s (f s)) := by simp [run, hp, hd]
theorem runOn_on (hp : s.powered = true) (hd : s.dead = false) : runOn ps s f = .next (hold s (keeping ps s (f s))) := run_on hp hd
theorem runMirror_on (hp : s.powered = true) : runMirror s f = .next (hold s (f s)) := by simp [runMirror, hp]

/-- With PORST_N low, or after thermal shutdown, a command finds nothing that could act. -/
theorem run_off (h : s.powered = false ∨ s.dead = true) : run s f = .next s := by rcases h with h | h <;> simp [run, h]
theorem runOn_off (h : s.powered = false ∨ s.dead = true) : runOn ps s f = .next s := run_off h
theorem runMirror_off (h : s.powered = false) : runMirror s f = .next s := by simp [runMirror, h]

/-- A command answers a next state, and that is one of two. -/
theorem run_cases {t : State} (h : run s f = .next t) : t = s ∨ t = hold s (f s) := by
  unfold run at h
  split at h <;> simp only [Host.Outcome.next.injEq] at h
  · exact .inr h.symm
  · exact .inl h.symm
theorem runOn_cases {t : State} (h : runOn ps s f = .next t) : t = s ∨ t = hold s (keeping ps s (f s)) := run_cases h
theorem runMirror_cases {t : State} (h : runMirror s f = .next t) : t = s ∨ t = hold s (f s) := by
  unfold runMirror at h
  split at h <;> simp only [Host.Outcome.next.injEq] at h
  · exact .inr h.symm
  · exact .inl h.symm

end Sys2Proof.Machine
end

