-- ==== Sys2Proof/Laws/Commands.lean ====
section
/-!
SUPPORT. What every command is: a function of the state, held to the parts it reaches, that acts while the device runs; a read of the mirror acts even
after a thermal shutdown. Every statement over all commands goes through this one lemma.
-/
namespace Sys2Proof.Machine
open Sys2Proof.Claims

theorem exec_form (c : Instr) (h : porst c = false) :
    (∃ f : State → State, ∀ s, exec c s = runOn (reaches c) s f) ∨
    (mirrorReads c = true ∧ ∃ f : State → State, ∀ s, exec c s = runMirror s (fun s => keeping (reaches c) s (f s))) := by
  cases c with
  | porstNAssert => cases h
  | porstNRise _ _ => cases h
  | mgmtClockReady => exact .inl ⟨_, fun _ => rfl⟩
  | supplyExcursion => exact .inl ⟨_, fun _ => rfl⟩
  | xoInStop => exact .inl ⟨_, fun _ => rfl⟩
  | pciePerstNAssert => exact .inl ⟨_, fun _ => rfl⟩
  | xspiDqsTimeout => exact .inl ⟨_, fun _ => rfl⟩
  | ldrHeadersRead _ _ _ _ => exact .inl ⟨_, fun _ => rfl⟩
  | ldrSectionDone _ => exact .inl ⟨_, fun _ => rfl⟩
  | ldrScrubDone => exact .inl ⟨_, fun _ => rfl⟩
  | hbmTrainingDone _ => exact .inl ⟨_, fun _ => rfl⟩
  | ldrSettleEnd _ => exact .inl ⟨_, fun _ => rfl⟩
  | startHoldExpiry => exact .inl ⟨_, fun _ => rfl⟩
  | ldrRelease _ => exact .inl ⟨_, fun _ => rfl⟩
  | ldrReload _ => exact .inl ⟨_, fun _ => rfl⟩
  | reloadScrubDone => exact .inl ⟨_, fun _ => rfl⟩
  | ldrUpdErase _ => exact .inl ⟨_, fun _ => rfl⟩
  | ldrUpdProgram _ => exact .inl ⟨_, fun _ => rfl⟩
  | ldrUpdFinish _ _ => exact .inl ⟨_, fun _ => rfl⟩
  | ldrUpdDone _ => exact .inl ⟨_, fun _ => rfl⟩
  | surfaceAlloc _ => exact .inl ⟨_, fun _ => rfl⟩
  | surfaceFree _ => exact .inl ⟨_, fun _ => rfl⟩
  | pinHint _ => exact .inl ⟨_, fun _ => rfl⟩
  | stripeScrubDone _ => exact .inl ⟨_, fun _ => rfl⟩
  | patrolScrubRead _ _ _ => exact .inl ⟨_, fun _ => rfl⟩
  | memoryWordGrant _ _ _ _ _ => exact .inl ⟨_, fun _ => rfl⟩
  | heatWindowEnd => exact .inl ⟨_, fun _ => rfl⟩
  | stripeCarryCopyDone => exact .inl ⟨_, fun _ => rfl⟩
  | pcRetrainTimeout _ => exact .inl ⟨_, fun _ => rfl⟩
  | sspRetireCmd _ _ => exact .inl ⟨_, fun _ => rfl⟩
  | rodBeadReceive _ _ _ => exact .inl ⟨_, fun _ => rfl⟩
  | scalerLineRequest _ _ => exact .inl ⟨_, fun _ => rfl⟩
  | scalerLineArrival _ _ _ => exact .inl ⟨_, fun _ => rfl⟩
  | fetchDeadline _ => exact .inl ⟨_, fun _ => rfl⟩
  | coefWrite _ _ _ => exact .inl ⟨_, fun _ => rfl⟩
  | planStart _ => exact .inl ⟨_, fun _ => rfl⟩
  | planDone _ => exact .inl ⟨_, fun _ => rfl⟩
  | seqStepIssue _ _ => exact .inl ⟨_, fun _ => rfl⟩
  | tileStepStart _ _ => exact .inl ⟨_, fun _ => rfl⟩
  | tileStepDone _ => exact .inl ⟨_, fun _ => rfl⟩
  | tileVoidBead _ _ => exact .inl ⟨_, fun _ => rfl⟩
  | resultBeadArrival _ _ => exact .inl ⟨_, fun _ => rfl⟩
  | lineDue _ _ _ => exact .inl ⟨_, fun _ => rfl⟩
  | lineLeft _ => exact .inl ⟨_, fun _ => rfl⟩
  | fshRefillTick _ _ => exact .inl ⟨_, fun _ => rfl⟩
  | runAheadRequest _ => exact .inl ⟨_, fun _ => rfl⟩
  | layerCntClear _ _ _ => exact .inl ⟨_, fun _ => rfl⟩
  | seqCommit _ _ _ => exact .inl ⟨_, fun _ => rfl⟩
  | seqCancel _ _ _ => exact .inl ⟨_, fun _ => rfl⟩
  | commitJob _ => exact .inl ⟨_, fun _ => rfl⟩
  | commitJobSlotTaken _ => exact .inl ⟨_, fun _ => rfl⟩
  | frameBoundary _ => exact .inl ⟨_, fun _ => rfl⟩
  | fenceSignalWrite _ _ => exact .inl ⟨_, fun _ => rfl⟩
  | fenceWritingWrite _ _ => exact .inl ⟨_, fun _ => rfl⟩
  | layerSrcClear _ _ => exact .inl ⟨_, fun _ => rfl⟩
  | headGapStart _ => exact .inl ⟨_, fun _ => rfl⟩
  | outputDividerLoad _ => exact .inl ⟨_, fun _ => rfl⟩
  | groupFrameStart _ => exact .inl ⟨_, fun _ => rfl⟩
  | headLine0 _ => exact .inl ⟨_, fun _ => rfl⟩
  | headEndOfFrame _ => exact .inl ⟨_, fun _ => rfl⟩
  | headReset _ _ => exact .inl ⟨_, fun _ => rfl⟩
  | wbBeadArrival _ _ _ => exact .inl ⟨_, fun _ => rfl⟩
  | capture _ => exact .inl ⟨_, fun _ => rfl⟩
  | dpHpdPlug _ => exact .inl ⟨_, fun _ => rfl⟩
  | dpHpdUnplug _ => exact .inl ⟨_, fun _ => rfl⟩
  | dpIrqHpd _ _ _ => exact .inl ⟨_, fun _ => rfl⟩
  | dpCtrlWrite _ _ _ => exact .inl ⟨_, fun _ => rfl⟩
  | dpTrainingDone _ _ _ => exact .inl ⟨_, fun _ => rfl⟩
  | dpTrainingRetry _ => exact .inl ⟨_, fun _ => rfl⟩
  | auxNativeRead _ _ _ _ => exact .inl ⟨_, fun _ => rfl⟩
  | auxNativeWrite _ _ _ _ => exact .inl ⟨_, fun _ => rfl⟩
  | auxI2cRead _ _ _ _ => exact .inl ⟨_, fun _ => rfl⟩
  | auxI2cWrite _ _ _ _ => exact .inl ⟨_, fun _ => rfl⟩
  | auxReply _ _ => exact .inl ⟨_, fun _ => rfl⟩
  | auxTimeout _ => exact .inl ⟨_, fun _ => rfl⟩
  | safeForceWrite _ _ _ => exact .inl ⟨_, fun _ => rfl⟩
  | safeReleaseWrite _ _ _ => exact .inl ⟨_, fun _ => rfl⟩
  | safeCtrlWrite _ _ _ => exact .inl ⟨_, fun _ => rfl⟩
  | safeFrameWrite _ _ _ => exact .inl ⟨_, fun _ => rfl⟩
  | ethRxFrame _ _ _ => exact .inl ⟨_, fun _ => rfl⟩
  | rxFrameClose _ _ => exact .inl ⟨_, fun _ => rfl⟩
  | rxStreamSilence _ => exact .inl ⟨_, fun _ => rfl⟩
  | rxPathLivenessTimeout _ _ => exact .inl ⟨_, fun _ => rfl⟩
  | rxStreamConfigWrite _ _ _ => exact .inl ⟨_, fun _ => rfl⟩
  | txStreamConfigWrite _ _ _ => exact .inl ⟨_, fun _ => rfl⟩
  | egressLineFree _ _ => exact .inl ⟨_, fun _ => rfl⟩
  | nmpCounterClear _ _ _ => exact .inl ⟨_, fun _ => rfl⟩
  | gclApply _ _ _ => exact .inl ⟨_, fun _ => rfl⟩
  | gclCancel _ _ _ => exact .inl ⟨_, fun _ => rfl⟩
  | gclSwitch _ => exact .inl ⟨_, fun _ => rfl⟩
  | gclEntryEnd _ => exact .inl ⟨_, fun _ => rfl⟩
  | ptpSyncTx _ => exact .inl ⟨_, fun _ => rfl⟩
  | ptpAnnounceTx _ => exact .inl ⟨_, fun _ => rfl⟩
  | ptpDelayReqTx _ => exact .inl ⟨_, fun _ => rfl⟩
  | ptpAnnounceTimeout _ => exact .inl ⟨_, fun _ => rfl⟩
  | nmpPortReset _ _ => exact .inl ⟨_, fun _ => rfl⟩
  | ethLinkUp _ => exact .inl ⟨_, fun _ => rfl⟩
  | ethLinkDown _ _ => exact .inl ⟨_, fun _ => rfl⟩
  | timeLoRead _ => exact .inr ⟨rfl, _, fun _ => rfl⟩
  | todSetHiWrite _ _ => exact .inl ⟨_, fun _ => rfl⟩
  | refinEdge _ => exact .inl ⟨_, fun _ => rfl⟩
  | refinWindowEnd _ _ => exact .inl ⟨_, fun _ => rfl⟩
  | refEdgeTimeout _ => exact .inl ⟨_, fun _ => rfl⟩
  | ptpSyncTimeout _ => exact .inl ⟨_, fun _ => rfl⟩
  | refQualified _ => exact .inl ⟨_, fun _ => rfl⟩
  | trsLockAchieved => exact .inl ⟨_, fun _ => rfl⟩
  | trsPhaseErrorTimeout => exact .inl ⟨_, fun _ => rfl⟩
  | trsWtrExpiry => exact .inl ⟨_, fun _ => rfl⟩
  | holdoverLimitExpiry => exact .inl ⟨_, fun _ => rfl⟩
  | refCtrlWrite _ _ _ => exact .inl ⟨_, fun _ => rfl⟩
  | trsStepNow _ _ => exact .inl ⟨_, fun _ => rfl⟩
  | buildoutBleedStep => exact .inl ⟨_, fun _ => rfl⟩
  | holdoverLearnTick => exact .inl ⟨_, fun _ => rfl⟩
  | holdoverUpdateTick => exact .inl ⟨_, fun _ => rfl⟩
  | tempConversionEnd _ => exact .inl ⟨_, fun _ => rfl⟩
  | pllLockTryEnd _ _ => exact .inl ⟨_, fun _ => rfl⟩
  | pllUnlock _ => exact .inl ⟨_, fun _ => rfl⟩
  | syncInArm _ _ => exact .inl ⟨_, fun _ => rfl⟩
  | syncInEdge => exact .inl ⟨_, fun _ => rfl⟩
  | bslMessageTx => exact .inl ⟨_, fun _ => rfl⟩
  | bslMessageRx _ => exact .inl ⟨_, fun _ => rfl⟩
  | bslLinkAlign => exact .inl ⟨_, fun _ => rfl⟩
  | doorbell _ _ => exact .inl ⟨_, fun _ => rfl⟩
  | boardProdWrite _ _ _ => exact .inl ⟨_, fun _ => rfl⟩
  | prodIndexRead _ _ => exact .inl ⟨_, fun _ => rfl⟩
  | queueEntryRead _ _ _ _ => exact .inl ⟨_, fun _ => rfl⟩
  | surfaceUpload _ _ => exact .inl ⟨_, fun _ => rfl⟩
  | surfaceCopy _ _ => exact .inl ⟨_, fun _ => rfl⟩
  | fill _ _ => exact .inl ⟨_, fun _ => rfl⟩
  | offlineCompose _ _ _ => exact .inl ⟨_, fun _ => rfl⟩
  | tallyQuery _ _ => exact .inl ⟨_, fun _ => rfl⟩
  | pcieFlr _ => exact .inl ⟨_, fun _ => rfl⟩
  | glbFuncResetPf0 _ => exact .inl ⟨_, fun _ => rfl⟩
  | glbFuncResetPf1 _ => exact .inl ⟨_, fun _ => rfl⟩
  | glbFuncResetBoard _ => exact .inl ⟨_, fun _ => rfl⟩
  | funcResetJobsEnded _ => exact .inl ⟨_, fun _ => rfl⟩
  | queueCfgWrite _ _ _ => exact .inl ⟨_, fun _ => rfl⟩
  | evrEnable _ _ _ => exact .inl ⟨_, fun _ => rfl⟩
  | evrConsWrite _ _ _ => exact .inl ⟨_, fun _ => rfl⟩
  | msixHoldoffExpiry _ => exact .inl ⟨_, fun _ => rfl⟩
  | msixUnmask _ _ _ _ => exact .inl ⟨_, fun _ => rfl⟩
  | apertureRead _ _ _ => exact .inl ⟨_, fun _ => rfl⟩
  | apertureWrite _ _ _ => exact .inl ⟨_, fun _ => rfl⟩
  | pcieLaneFail _ _ => exact .inl ⟨_, fun _ => rfl⟩
  | lmpReadCycle _ _ _ => exact .inr ⟨rfl, _, fun _ => rfl⟩
  | lmpWriteCycle _ _ _ _ => exact .inl ⟨_, fun _ => rfl⟩
  | registerWrite _ _ _ _ => exact .inl ⟨_, fun _ => rfl⟩
  | writeTakeEffect _ => exact .inl ⟨_, fun _ => rfl⟩
  | rcRegisterRead _ _ _ _ => exact .inr ⟨rfl, _, fun _ => rfl⟩
  | wmRegisterWrite _ _ _ => exact .inl ⟨_, fun _ => rfl⟩
  | idxSelWrite _ _ => exact .inl ⟨_, fun _ => rfl⟩
  | idxAddrWrite _ _ => exact .inl ⟨_, fun _ => rfl⟩
  | idxDataRead _ => exact .inr ⟨rfl, _, fun _ => rfl⟩
  | idxDataWrite _ _ => exact .inl ⟨_, fun _ => rfl⟩
  | idxPrefetchDone _ _ => exact .inl ⟨_, fun _ => rfl⟩
  | cfgcrcArm _ => exact .inl ⟨_, fun _ => rfl⟩
  | cfgcrcDisarm _ => exact .inl ⟨_, fun _ => rfl⟩
  | cfgcrcRefWrite _ _ => exact .inl ⟨_, fun _ => rfl⟩
  | cfgcrcPassEnd => exact .inl ⟨_, fun _ => rfl⟩
  | sourceRaise _ => exact .inl ⟨_, fun _ => rfl⟩
  | countWindowEnd _ => exact .inl ⟨_, fun _ => rfl⟩
  | phaseSet _ _ => exact .inl ⟨_, fun _ => rfl⟩
  | fcSrcWrite _ _ _ => exact .inl ⟨_, fun _ => rfl⟩
  | fcClearSource _ _ => exact .inl ⟨_, fun _ => rfl⟩
  | fcClearAll _ => exact .inl ⟨_, fun _ => rfl⟩
  | fcClearSelf _ => exact .inl ⟨_, fun _ => rfl⟩
  | histClear _ _ => exact .inl ⟨_, fun _ => rfl⟩
  | tallyCompare _ _ => exact .inl ⟨_, fun _ => rfl⟩
  | collectorSweepEnd _ => exact .inl ⟨_, fun _ => rfl⟩
  | collectorCopyDisagree => exact .inl ⟨_, fun _ => rfl⟩
  | injGo _ _ => exact .inl ⟨_, fun _ => rfl⟩
  | injCancel _ _ => exact .inl ⟨_, fun _ => rfl⟩
  | crcuLoad _ _ _ => exact .inl ⟨_, fun _ => rfl⟩
  | crcuData8 _ _ _ => exact .inl ⟨_, fun _ => rfl⟩
  | crcuData16 _ _ _ => exact .inl ⟨_, fun _ => rfl⟩
  | crcuData32 _ _ _ => exact .inl ⟨_, fun _ => rfl⟩
  | meterWindowEnd _ _ _ _ => exact .inl ⟨_, fun _ => rfl⟩
  | selfTestRun _ _ _ _ => exact .inl ⟨_, fun _ => rfl⟩
  | startupSelfTestDone _ _ => exact .inl ⟨_, fun _ => rfl⟩
  | carryCmd _ _ => exact .inl ⟨_, fun _ => rfl⟩
  | unitFault _ _ => exact .inl ⟨_, fun _ => rfl⟩
  | carrySpareReady _ => exact .inl ⟨_, fun _ => rfl⟩
  | carryOldUnitDone _ => exact .inl ⟨_, fun _ => rfl⟩
  | rodSpareJoined => exact .inl ⟨_, fun _ => rfl⟩
  | rodCarryEnd => exact .inl ⟨_, fun _ => rfl⟩
  | drainEnd _ => exact .inl ⟨_, fun _ => rfl⟩
  | unitReset _ _ => exact .inl ⟨_, fun _ => rfl⟩
  | unitResetDone _ => exact .inl ⟨_, fun _ => rfl⟩
  | unitPowerGate _ => exact .inl ⟨_, fun _ => rfl⟩
  | hbmSelfRefreshEntry => exact .inl ⟨_, fun _ => rfl⟩
  | stateMismatchTimeout _ => exact .inl ⟨_, fun _ => rfl⟩
  | avsUpdate _ => exact .inl ⟨_, fun _ => rfl⟩
  | thermalUpdate _ => exact .inl ⟨_, fun _ => rfl⟩
  | thermalShutdown => exact .inl ⟨_, fun _ => rfl⟩
  | pcieLinkDown => exact .inl ⟨_, fun _ => rfl⟩
  | pcieLinkUp _ _ _ _ => exact .inl ⟨_, fun _ => rfl⟩
  | hbmPcTrainingLost _ => exact .inl ⟨_, fun _ => rfl⟩
  | hbmPcRetrainDone _ => exact .inl ⟨_, fun _ => rfl⟩
  | hbmRefreshDue _ => exact .inl ⟨_, fun _ => rfl⟩
  | bslLinkLost => exact .inl ⟨_, fun _ => rfl⟩
  | bslMessageMissing => exact .inl ⟨_, fun _ => rfl⟩
  | txqWmIntervalEnd _ => exact .inl ⟨_, fun _ => rfl⟩

end Sys2Proof.Machine
end

