-- ==== Sys2Proof/Laws/Reads.lean ====
section
/-!
SUPPORT. What each update leaves of what the named reads find: one lemma per read and update of another part, and what `hold` and `keeping`
do to each read.
-/
namespace Sys2Proof.Machine.State

variable (s t : State)

-- wr
@[simp] theorem wr_sp_other (o : Nat) (v : Word) (i : Nat) : (s.wr o v).sp i = s.sp i := (rfl)
@[simp] theorem wr_lv_other (o : Nat) (v : Word) (i : Nat) : (s.wr o v).lv i = s.lv i := (rfl)
@[simp] theorem wr_cfg_other (o : Nat) (v : Word) (i : Nat) : (s.wr o v).cfg i = s.cfg i := (rfl)
@[simp] theorem wr_dk_other (o : Nat) (v : Word) (i : Nat) : (s.wr o v).dk i = s.dk i := (rfl)
@[simp] theorem wr_queue_other (o : Nat) (v : Word) (i : Nat) : (s.wr o v).queue i = s.queue i := (rfl)
@[simp] theorem wr_safeOf_other (o : Nat) (v : Word) (i : Nat) : (s.wr o v).safeOf i = s.safeOf i := (rfl)
@[simp] theorem wr_head_other (o : Nat) (v : Word) (i : Nat) : (s.wr o v).head i = s.head i := (rfl)
@[simp] theorem wr_dp_other (o : Nat) (v : Word) (i : Nat) : (s.wr o v).dp i = s.dp i := (rfl)
@[simp] theorem wr_group_other (o : Nat) (v : Word) (i : Nat) : (s.wr o v).group i = s.group i := (rfl)
@[simp] theorem wr_tile_other (o : Nat) (v : Word) (i : Nat) : (s.wr o v).tile i = s.tile i := (rfl)
@[simp] theorem wr_scaler_other (o : Nat) (v : Word) (i : Nat) : (s.wr o v).scaler i = s.scaler i := (rfl)
@[simp] theorem wr_rod_other (o : Nat) (v : Word) (i : Nat) : (s.wr o v).rod i = s.rod i := (rfl)
@[simp] theorem wr_sign_other (o : Nat) (v : Word) (i : Nat) : (s.wr o v).sign i = s.sign i := (rfl)
@[simp] theorem wr_port_other (o : Nat) (v : Word) (i : Nat) : (s.wr o v).port i = s.port i := (rfl)
@[simp] theorem wr_rxs_other (o : Nat) (v : Word) (i : Nat) : (s.wr o v).rxs i = s.rxs i := (rfl)
@[simp] theorem wr_txs_other (o : Nat) (v : Word) (i : Nat) : (s.wr o v).txs i = s.txs i := (rfl)
@[simp] theorem wr_pll_other (o : Nat) (v : Word) (i : Nat) : (s.wr o v).pll i = s.pll i := (rfl)
@[simp] theorem wr_metered_other (o : Nat) (v : Word) (i : Nat) : (s.wr o v).metered i = s.metered i := (rfl)
@[simp] theorem wr_pc_other (o : Nat) (v : Word) (i : Nat) : (s.wr o v).pc i = s.pc i := (rfl)
@[simp] theorem wr_surface_other (o : Nat) (v : Word) (i : Nat) : (s.wr o v).surface i = s.surface i := (rfl)
@[simp] theorem wr_src_other (o : Nat) (v : Word) (i : Nat) : (s.wr o v).src i = s.src i := (rfl)
@[simp] theorem wr_wclass_other (o : Nat) (v : Word) (i : Nat) : (s.wr o v).wclass i = s.wclass i := (rfl)
@[simp] theorem wr_byte_other (o : Nat) (v : Word) (h' off' : Nat) : (s.wr o v).byte h' off' = s.byte h' off' := (rfl)

-- setCfg
@[simp] theorem setCfg_rd_other (o : Nat) (v : Word) (i : Nat) : (s.setCfg o v).rd i = s.rd i := (rfl)
@[simp] theorem setCfg_sp_other (o : Nat) (v : Word) (i : Nat) : (s.setCfg o v).sp i = s.sp i := (rfl)
@[simp] theorem setCfg_lv_other (o : Nat) (v : Word) (i : Nat) : (s.setCfg o v).lv i = s.lv i := (rfl)
@[simp] theorem setCfg_dk_other (o : Nat) (v : Word) (i : Nat) : (s.setCfg o v).dk i = s.dk i := (rfl)
@[simp] theorem setCfg_queue_other (o : Nat) (v : Word) (i : Nat) : (s.setCfg o v).queue i = s.queue i := (rfl)
@[simp] theorem setCfg_safeOf_other (o : Nat) (v : Word) (i : Nat) : (s.setCfg o v).safeOf i = s.safeOf i := (rfl)
@[simp] theorem setCfg_head_other (o : Nat) (v : Word) (i : Nat) : (s.setCfg o v).head i = s.head i := (rfl)
@[simp] theorem setCfg_dp_other (o : Nat) (v : Word) (i : Nat) : (s.setCfg o v).dp i = s.dp i := (rfl)
@[simp] theorem setCfg_group_other (o : Nat) (v : Word) (i : Nat) : (s.setCfg o v).group i = s.group i := (rfl)
@[simp] theorem setCfg_tile_other (o : Nat) (v : Word) (i : Nat) : (s.setCfg o v).tile i = s.tile i := (rfl)
@[simp] theorem setCfg_scaler_other (o : Nat) (v : Word) (i : Nat) : (s.setCfg o v).scaler i = s.scaler i := (rfl)
@[simp] theorem setCfg_rod_other (o : Nat) (v : Word) (i : Nat) : (s.setCfg o v).rod i = s.rod i := (rfl)
@[simp] theorem setCfg_sign_other (o : Nat) (v : Word) (i : Nat) : (s.setCfg o v).sign i = s.sign i := (rfl)
@[simp] theorem setCfg_port_other (o : Nat) (v : Word) (i : Nat) : (s.setCfg o v).port i = s.port i := (rfl)
@[simp] theorem setCfg_rxs_other (o : Nat) (v : Word) (i : Nat) : (s.setCfg o v).rxs i = s.rxs i := (rfl)
@[simp] theorem setCfg_txs_other (o : Nat) (v : Word) (i : Nat) : (s.setCfg o v).txs i = s.txs i := (rfl)
@[simp] theorem setCfg_pll_other (o : Nat) (v : Word) (i : Nat) : (s.setCfg o v).pll i = s.pll i := (rfl)
@[simp] theorem setCfg_metered_other (o : Nat) (v : Word) (i : Nat) : (s.setCfg o v).metered i = s.metered i := (rfl)
@[simp] theorem setCfg_pc_other (o : Nat) (v : Word) (i : Nat) : (s.setCfg o v).pc i = s.pc i := (rfl)
@[simp] theorem setCfg_surface_other (o : Nat) (v : Word) (i : Nat) : (s.setCfg o v).surface i = s.surface i := (rfl)
@[simp] theorem setCfg_wclass_other (o : Nat) (v : Word) (i : Nat) : (s.setCfg o v).wclass i = s.wclass i := (rfl)
@[simp] theorem setCfg_byte_other (o : Nat) (v : Word) (h' off' : Nat) : (s.setCfg o v).byte h' off' = s.byte h' off' := (rfl)

-- setDk
@[simp] theorem setDk_rd_other (o : Nat) (v : Word) (i : Nat) : (s.setDk o v).rd i = s.rd i := (rfl)
@[simp] theorem setDk_sp_other (o : Nat) (v : Word) (i : Nat) : (s.setDk o v).sp i = s.sp i := (rfl)
@[simp] theorem setDk_lv_other (o : Nat) (v : Word) (i : Nat) : (s.setDk o v).lv i = s.lv i := (rfl)
@[simp] theorem setDk_cfg_other (o : Nat) (v : Word) (i : Nat) : (s.setDk o v).cfg i = s.cfg i := (rfl)
@[simp] theorem setDk_queue_other (o : Nat) (v : Word) (i : Nat) : (s.setDk o v).queue i = s.queue i := (rfl)
@[simp] theorem setDk_safeOf_other (o : Nat) (v : Word) (i : Nat) : (s.setDk o v).safeOf i = s.safeOf i := (rfl)
@[simp] theorem setDk_head_other (o : Nat) (v : Word) (i : Nat) : (s.setDk o v).head i = s.head i := (rfl)
@[simp] theorem setDk_dp_other (o : Nat) (v : Word) (i : Nat) : (s.setDk o v).dp i = s.dp i := (rfl)
@[simp] theorem setDk_group_other (o : Nat) (v : Word) (i : Nat) : (s.setDk o v).group i = s.group i := (rfl)
@[simp] theorem setDk_tile_other (o : Nat) (v : Word) (i : Nat) : (s.setDk o v).tile i = s.tile i := (rfl)
@[simp] theorem setDk_scaler_other (o : Nat) (v : Word) (i : Nat) : (s.setDk o v).scaler i = s.scaler i := (rfl)
@[simp] theorem setDk_rod_other (o : Nat) (v : Word) (i : Nat) : (s.setDk o v).rod i = s.rod i := (rfl)
@[simp] theorem setDk_sign_other (o : Nat) (v : Word) (i : Nat) : (s.setDk o v).sign i = s.sign i := (rfl)
@[simp] theorem setDk_port_other (o : Nat) (v : Word) (i : Nat) : (s.setDk o v).port i = s.port i := (rfl)
@[simp] theorem setDk_rxs_other (o : Nat) (v : Word) (i : Nat) : (s.setDk o v).rxs i = s.rxs i := (rfl)
@[simp] theorem setDk_txs_other (o : Nat) (v : Word) (i : Nat) : (s.setDk o v).txs i = s.txs i := (rfl)
@[simp] theorem setDk_pll_other (o : Nat) (v : Word) (i : Nat) : (s.setDk o v).pll i = s.pll i := (rfl)
@[simp] theorem setDk_metered_other (o : Nat) (v : Word) (i : Nat) : (s.setDk o v).metered i = s.metered i := (rfl)
@[simp] theorem setDk_pc_other (o : Nat) (v : Word) (i : Nat) : (s.setDk o v).pc i = s.pc i := (rfl)
@[simp] theorem setDk_surface_other (o : Nat) (v : Word) (i : Nat) : (s.setDk o v).surface i = s.surface i := (rfl)
@[simp] theorem setDk_src_other (o : Nat) (v : Word) (i : Nat) : (s.setDk o v).src i = s.src i := (rfl)
@[simp] theorem setDk_wclass_other (o : Nat) (v : Word) (i : Nat) : (s.setDk o v).wclass i = s.wclass i := (rfl)
@[simp] theorem setDk_byte_other (o : Nat) (v : Word) (h' off' : Nat) : (s.setDk o v).byte h' off' = s.byte h' off' := (rfl)

-- setSp
@[simp] theorem setSp_rd_other (k : Nat) (v : Word) (i : Nat) : (s.setSp k v).rd i = s.rd i := (rfl)
@[simp] theorem setSp_lv_other (k : Nat) (v : Word) (i : Nat) : (s.setSp k v).lv i = s.lv i := (rfl)
@[simp] theorem setSp_cfg_other (k : Nat) (v : Word) (i : Nat) : (s.setSp k v).cfg i = s.cfg i := (rfl)
@[simp] theorem setSp_dk_other (k : Nat) (v : Word) (i : Nat) : (s.setSp k v).dk i = s.dk i := (rfl)
@[simp] theorem setSp_queue_other (k : Nat) (v : Word) (i : Nat) : (s.setSp k v).queue i = s.queue i := (rfl)
@[simp] theorem setSp_safeOf_other (k : Nat) (v : Word) (i : Nat) : (s.setSp k v).safeOf i = s.safeOf i := (rfl)
@[simp] theorem setSp_head_other (k : Nat) (v : Word) (i : Nat) : (s.setSp k v).head i = s.head i := (rfl)
@[simp] theorem setSp_dp_other (k : Nat) (v : Word) (i : Nat) : (s.setSp k v).dp i = s.dp i := (rfl)
@[simp] theorem setSp_group_other (k : Nat) (v : Word) (i : Nat) : (s.setSp k v).group i = s.group i := (rfl)
@[simp] theorem setSp_tile_other (k : Nat) (v : Word) (i : Nat) : (s.setSp k v).tile i = s.tile i := (rfl)
@[simp] theorem setSp_scaler_other (k : Nat) (v : Word) (i : Nat) : (s.setSp k v).scaler i = s.scaler i := (rfl)
@[simp] theorem setSp_rod_other (k : Nat) (v : Word) (i : Nat) : (s.setSp k v).rod i = s.rod i := (rfl)
@[simp] theorem setSp_sign_other (k : Nat) (v : Word) (i : Nat) : (s.setSp k v).sign i = s.sign i := (rfl)
@[simp] theorem setSp_port_other (k : Nat) (v : Word) (i : Nat) : (s.setSp k v).port i = s.port i := (rfl)
@[simp] theorem setSp_rxs_other (k : Nat) (v : Word) (i : Nat) : (s.setSp k v).rxs i = s.rxs i := (rfl)
@[simp] theorem setSp_txs_other (k : Nat) (v : Word) (i : Nat) : (s.setSp k v).txs i = s.txs i := (rfl)
@[simp] theorem setSp_pll_other (k : Nat) (v : Word) (i : Nat) : (s.setSp k v).pll i = s.pll i := (rfl)
@[simp] theorem setSp_metered_other (k : Nat) (v : Word) (i : Nat) : (s.setSp k v).metered i = s.metered i := (rfl)
@[simp] theorem setSp_pc_other (k : Nat) (v : Word) (i : Nat) : (s.setSp k v).pc i = s.pc i := (rfl)
@[simp] theorem setSp_surface_other (k : Nat) (v : Word) (i : Nat) : (s.setSp k v).surface i = s.surface i := (rfl)
@[simp] theorem setSp_src_other (k : Nat) (v : Word) (i : Nat) : (s.setSp k v).src i = s.src i := (rfl)
@[simp] theorem setSp_wclass_other (k : Nat) (v : Word) (i : Nat) : (s.setSp k v).wclass i = s.wclass i := (rfl)
@[simp] theorem setSp_byte_other (k : Nat) (v : Word) (h' off' : Nat) : (s.setSp k v).byte h' off' = s.byte h' off' := (rfl)

-- setLv
@[simp] theorem setLv_rd_other (k : Nat) (v : Word) (i : Nat) : (s.setLv k v).rd i = s.rd i := (rfl)
@[simp] theorem setLv_sp_other (k : Nat) (v : Word) (i : Nat) : (s.setLv k v).sp i = s.sp i := (rfl)
@[simp] theorem setLv_cfg_other (k : Nat) (v : Word) (i : Nat) : (s.setLv k v).cfg i = s.cfg i := (rfl)
@[simp] theorem setLv_dk_other (k : Nat) (v : Word) (i : Nat) : (s.setLv k v).dk i = s.dk i := (rfl)
@[simp] theorem setLv_queue_other (k : Nat) (v : Word) (i : Nat) : (s.setLv k v).queue i = s.queue i := (rfl)
@[simp] theorem setLv_safeOf_other (k : Nat) (v : Word) (i : Nat) : (s.setLv k v).safeOf i = s.safeOf i := (rfl)
@[simp] theorem setLv_head_other (k : Nat) (v : Word) (i : Nat) : (s.setLv k v).head i = s.head i := (rfl)
@[simp] theorem setLv_dp_other (k : Nat) (v : Word) (i : Nat) : (s.setLv k v).dp i = s.dp i := (rfl)
@[simp] theorem setLv_group_other (k : Nat) (v : Word) (i : Nat) : (s.setLv k v).group i = s.group i := (rfl)
@[simp] theorem setLv_tile_other (k : Nat) (v : Word) (i : Nat) : (s.setLv k v).tile i = s.tile i := (rfl)
@[simp] theorem setLv_scaler_other (k : Nat) (v : Word) (i : Nat) : (s.setLv k v).scaler i = s.scaler i := (rfl)
@[simp] theorem setLv_rod_other (k : Nat) (v : Word) (i : Nat) : (s.setLv k v).rod i = s.rod i := (rfl)
@[simp] theorem setLv_sign_other (k : Nat) (v : Word) (i : Nat) : (s.setLv k v).sign i = s.sign i := (rfl)
@[simp] theorem setLv_port_other (k : Nat) (v : Word) (i : Nat) : (s.setLv k v).port i = s.port i := (rfl)
@[simp] theorem setLv_rxs_other (k : Nat) (v : Word) (i : Nat) : (s.setLv k v).rxs i = s.rxs i := (rfl)
@[simp] theorem setLv_txs_other (k : Nat) (v : Word) (i : Nat) : (s.setLv k v).txs i = s.txs i := (rfl)
@[simp] theorem setLv_pll_other (k : Nat) (v : Word) (i : Nat) : (s.setLv k v).pll i = s.pll i := (rfl)
@[simp] theorem setLv_metered_other (k : Nat) (v : Word) (i : Nat) : (s.setLv k v).metered i = s.metered i := (rfl)
@[simp] theorem setLv_pc_other (k : Nat) (v : Word) (i : Nat) : (s.setLv k v).pc i = s.pc i := (rfl)
@[simp] theorem setLv_surface_other (k : Nat) (v : Word) (i : Nat) : (s.setLv k v).surface i = s.surface i := (rfl)
@[simp] theorem setLv_src_other (k : Nat) (v : Word) (i : Nat) : (s.setLv k v).src i = s.src i := (rfl)
@[simp] theorem setLv_wclass_other (k : Nat) (v : Word) (i : Nat) : (s.setLv k v).wclass i = s.wclass i := (rfl)
@[simp] theorem setLv_byte_other (k : Nat) (v : Word) (h' off' : Nat) : (s.setLv k v).byte h' off' = s.byte h' off' := (rfl)

-- setSpw
@[simp] theorem setSpw_rd_other (c a : Nat) (v : Word) (i : Nat) : (s.setSpw c a v).rd i = s.rd i := setSp_rd_other s _ _ _
@[simp] theorem setSpw_lv_other (c a : Nat) (v : Word) (i : Nat) : (s.setSpw c a v).lv i = s.lv i := setSp_lv_other s _ _ _
@[simp] theorem setSpw_cfg_other (c a : Nat) (v : Word) (i : Nat) : (s.setSpw c a v).cfg i = s.cfg i := setSp_cfg_other s _ _ _
@[simp] theorem setSpw_dk_other (c a : Nat) (v : Word) (i : Nat) : (s.setSpw c a v).dk i = s.dk i := setSp_dk_other s _ _ _
@[simp] theorem setSpw_queue_other (c a : Nat) (v : Word) (i : Nat) : (s.setSpw c a v).queue i = s.queue i := setSp_queue_other s _ _ _
@[simp] theorem setSpw_safeOf_other (c a : Nat) (v : Word) (i : Nat) : (s.setSpw c a v).safeOf i = s.safeOf i := setSp_safeOf_other s _ _ _
@[simp] theorem setSpw_head_other (c a : Nat) (v : Word) (i : Nat) : (s.setSpw c a v).head i = s.head i := setSp_head_other s _ _ _
@[simp] theorem setSpw_dp_other (c a : Nat) (v : Word) (i : Nat) : (s.setSpw c a v).dp i = s.dp i := setSp_dp_other s _ _ _
@[simp] theorem setSpw_group_other (c a : Nat) (v : Word) (i : Nat) : (s.setSpw c a v).group i = s.group i := setSp_group_other s _ _ _
@[simp] theorem setSpw_tile_other (c a : Nat) (v : Word) (i : Nat) : (s.setSpw c a v).tile i = s.tile i := setSp_tile_other s _ _ _
@[simp] theorem setSpw_scaler_other (c a : Nat) (v : Word) (i : Nat) : (s.setSpw c a v).scaler i = s.scaler i := setSp_scaler_other s _ _ _
@[simp] theorem setSpw_rod_other (c a : Nat) (v : Word) (i : Nat) : (s.setSpw c a v).rod i = s.rod i := setSp_rod_other s _ _ _
@[simp] theorem setSpw_sign_other (c a : Nat) (v : Word) (i : Nat) : (s.setSpw c a v).sign i = s.sign i := setSp_sign_other s _ _ _
@[simp] theorem setSpw_port_other (c a : Nat) (v : Word) (i : Nat) : (s.setSpw c a v).port i = s.port i := setSp_port_other s _ _ _
@[simp] theorem setSpw_rxs_other (c a : Nat) (v : Word) (i : Nat) : (s.setSpw c a v).rxs i = s.rxs i := setSp_rxs_other s _ _ _
@[simp] theorem setSpw_txs_other (c a : Nat) (v : Word) (i : Nat) : (s.setSpw c a v).txs i = s.txs i := setSp_txs_other s _ _ _
@[simp] theorem setSpw_pll_other (c a : Nat) (v : Word) (i : Nat) : (s.setSpw c a v).pll i = s.pll i := setSp_pll_other s _ _ _
@[simp] theorem setSpw_metered_other (c a : Nat) (v : Word) (i : Nat) : (s.setSpw c a v).metered i = s.metered i := setSp_metered_other s _ _ _
@[simp] theorem setSpw_pc_other (c a : Nat) (v : Word) (i : Nat) : (s.setSpw c a v).pc i = s.pc i := setSp_pc_other s _ _ _
@[simp] theorem setSpw_surface_other (c a : Nat) (v : Word) (i : Nat) : (s.setSpw c a v).surface i = s.surface i := setSp_surface_other s _ _ _
@[simp] theorem setSpw_src_other (c a : Nat) (v : Word) (i : Nat) : (s.setSpw c a v).src i = s.src i := setSp_src_other s _ _ _
@[simp] theorem setSpw_wclass_other (c a : Nat) (v : Word) (i : Nat) : (s.setSpw c a v).wclass i = s.wclass i := setSp_wclass_other s _ _ _
@[simp] theorem setSpw_byte_other (c a : Nat) (v : Word) (h' off' : Nat) : (s.setSpw c a v).byte h' off' = s.byte h' off' := setSp_byte_other s _ _ _ _

-- setQueue
@[simp] theorem setQueue_rd_other (q : Nat) (x : Queue) (i : Nat) : (s.setQueue q x).rd i = s.rd i := (rfl)
@[simp] theorem setQueue_sp_other (q : Nat) (x : Queue) (i : Nat) : (s.setQueue q x).sp i = s.sp i := (rfl)
@[simp] theorem setQueue_lv_other (q : Nat) (x : Queue) (i : Nat) : (s.setQueue q x).lv i = s.lv i := (rfl)
@[simp] theorem setQueue_cfg_other (q : Nat) (x : Queue) (i : Nat) : (s.setQueue q x).cfg i = s.cfg i := (rfl)
@[simp] theorem setQueue_dk_other (q : Nat) (x : Queue) (i : Nat) : (s.setQueue q x).dk i = s.dk i := (rfl)
@[simp] theorem setQueue_safeOf_other (q : Nat) (x : Queue) (i : Nat) : (s.setQueue q x).safeOf i = s.safeOf i := (rfl)
@[simp] theorem setQueue_head_other (q : Nat) (x : Queue) (i : Nat) : (s.setQueue q x).head i = s.head i := (rfl)
@[simp] theorem setQueue_dp_other (q : Nat) (x : Queue) (i : Nat) : (s.setQueue q x).dp i = s.dp i := (rfl)
@[simp] theorem setQueue_group_other (q : Nat) (x : Queue) (i : Nat) : (s.setQueue q x).group i = s.group i := (rfl)
@[simp] theorem setQueue_tile_other (q : Nat) (x : Queue) (i : Nat) : (s.setQueue q x).tile i = s.tile i := (rfl)
@[simp] theorem setQueue_scaler_other (q : Nat) (x : Queue) (i : Nat) : (s.setQueue q x).scaler i = s.scaler i := (rfl)
@[simp] theorem setQueue_rod_other (q : Nat) (x : Queue) (i : Nat) : (s.setQueue q x).rod i = s.rod i := (rfl)
@[simp] theorem setQueue_sign_other (q : Nat) (x : Queue) (i : Nat) : (s.setQueue q x).sign i = s.sign i := (rfl)
@[simp] theorem setQueue_port_other (q : Nat) (x : Queue) (i : Nat) : (s.setQueue q x).port i = s.port i := (rfl)
@[simp] theorem setQueue_rxs_other (q : Nat) (x : Queue) (i : Nat) : (s.setQueue q x).rxs i = s.rxs i := (rfl)
@[simp] theorem setQueue_txs_other (q : Nat) (x : Queue) (i : Nat) : (s.setQueue q x).txs i = s.txs i := (rfl)
@[simp] theorem setQueue_pll_other (q : Nat) (x : Queue) (i : Nat) : (s.setQueue q x).pll i = s.pll i := (rfl)
@[simp] theorem setQueue_metered_other (q : Nat) (x : Queue) (i : Nat) : (s.setQueue q x).metered i = s.metered i := (rfl)
@[simp] theorem setQueue_pc_other (q : Nat) (x : Queue) (i : Nat) : (s.setQueue q x).pc i = s.pc i := (rfl)
@[simp] theorem setQueue_surface_other (q : Nat) (x : Queue) (i : Nat) : (s.setQueue q x).surface i = s.surface i := (rfl)
@[simp] theorem setQueue_src_other (q : Nat) (x : Queue) (i : Nat) : (s.setQueue q x).src i = s.src i := (rfl)
@[simp] theorem setQueue_wclass_other (q : Nat) (x : Queue) (i : Nat) : (s.setQueue q x).wclass i = s.wclass i := (rfl)
@[simp] theorem setQueue_byte_other (q : Nat) (x : Queue) (h' off' : Nat) : (s.setQueue q x).byte h' off' = s.byte h' off' := (rfl)

-- setSafe
@[simp] theorem setSafe_rd_other (h : Nat) (x : Safe) (i : Nat) : (s.setSafe h x).rd i = s.rd i := (rfl)
@[simp] theorem setSafe_sp_other (h : Nat) (x : Safe) (i : Nat) : (s.setSafe h x).sp i = s.sp i := (rfl)
@[simp] theorem setSafe_lv_other (h : Nat) (x : Safe) (i : Nat) : (s.setSafe h x).lv i = s.lv i := (rfl)
@[simp] theorem setSafe_cfg_other (h : Nat) (x : Safe) (i : Nat) : (s.setSafe h x).cfg i = s.cfg i := (rfl)
@[simp] theorem setSafe_dk_other (h : Nat) (x : Safe) (i : Nat) : (s.setSafe h x).dk i = s.dk i := (rfl)
@[simp] theorem setSafe_queue_other (h : Nat) (x : Safe) (i : Nat) : (s.setSafe h x).queue i = s.queue i := (rfl)
@[simp] theorem setSafe_head_other (h : Nat) (x : Safe) (i : Nat) : (s.setSafe h x).head i = s.head i := (rfl)
@[simp] theorem setSafe_dp_other (h : Nat) (x : Safe) (i : Nat) : (s.setSafe h x).dp i = s.dp i := (rfl)
@[simp] theorem setSafe_group_other (h : Nat) (x : Safe) (i : Nat) : (s.setSafe h x).group i = s.group i := (rfl)
@[simp] theorem setSafe_tile_other (h : Nat) (x : Safe) (i : Nat) : (s.setSafe h x).tile i = s.tile i := (rfl)
@[simp] theorem setSafe_scaler_other (h : Nat) (x : Safe) (i : Nat) : (s.setSafe h x).scaler i = s.scaler i := (rfl)
@[simp] theorem setSafe_rod_other (h : Nat) (x : Safe) (i : Nat) : (s.setSafe h x).rod i = s.rod i := (rfl)
@[simp] theorem setSafe_sign_other (h : Nat) (x : Safe) (i : Nat) : (s.setSafe h x).sign i = s.sign i := (rfl)
@[simp] theorem setSafe_port_other (h : Nat) (x : Safe) (i : Nat) : (s.setSafe h x).port i = s.port i := (rfl)
@[simp] theorem setSafe_rxs_other (h : Nat) (x : Safe) (i : Nat) : (s.setSafe h x).rxs i = s.rxs i := (rfl)
@[simp] theorem setSafe_txs_other (h : Nat) (x : Safe) (i : Nat) : (s.setSafe h x).txs i = s.txs i := (rfl)
@[simp] theorem setSafe_pll_other (h : Nat) (x : Safe) (i : Nat) : (s.setSafe h x).pll i = s.pll i := (rfl)
@[simp] theorem setSafe_metered_other (h : Nat) (x : Safe) (i : Nat) : (s.setSafe h x).metered i = s.metered i := (rfl)
@[simp] theorem setSafe_pc_other (h : Nat) (x : Safe) (i : Nat) : (s.setSafe h x).pc i = s.pc i := (rfl)
@[simp] theorem setSafe_surface_other (h : Nat) (x : Safe) (i : Nat) : (s.setSafe h x).surface i = s.surface i := (rfl)
@[simp] theorem setSafe_src_other (h : Nat) (x : Safe) (i : Nat) : (s.setSafe h x).src i = s.src i := (rfl)
@[simp] theorem setSafe_wclass_other (h : Nat) (x : Safe) (i : Nat) : (s.setSafe h x).wclass i = s.wclass i := (rfl)
@[simp] theorem setSafe_byte_other (h : Nat) (x : Safe) (h' off' : Nat) : (s.setSafe h x).byte h' off' = s.byte h' off' := (rfl)

-- setHead
@[simp] theorem setHead_rd_other (h : Nat) (x : Head) (i : Nat) : (s.setHead h x).rd i = s.rd i := (rfl)
@[simp] theorem setHead_sp_other (h : Nat) (x : Head) (i : Nat) : (s.setHead h x).sp i = s.sp i := (rfl)
@[simp] theorem setHead_lv_other (h : Nat) (x : Head) (i : Nat) : (s.setHead h x).lv i = s.lv i := (rfl)
@[simp] theorem setHead_cfg_other (h : Nat) (x : Head) (i : Nat) : (s.setHead h x).cfg i = s.cfg i := (rfl)
@[simp] theorem setHead_dk_other (h : Nat) (x : Head) (i : Nat) : (s.setHead h x).dk i = s.dk i := (rfl)
@[simp] theorem setHead_queue_other (h : Nat) (x : Head) (i : Nat) : (s.setHead h x).queue i = s.queue i := (rfl)
@[simp] theorem setHead_safeOf_other (h : Nat) (x : Head) (i : Nat) : (s.setHead h x).safeOf i = s.safeOf i := (rfl)
@[simp] theorem setHead_dp_other (h : Nat) (x : Head) (i : Nat) : (s.setHead h x).dp i = s.dp i := (rfl)
@[simp] theorem setHead_group_other (h : Nat) (x : Head) (i : Nat) : (s.setHead h x).group i = s.group i := (rfl)
@[simp] theorem setHead_tile_other (h : Nat) (x : Head) (i : Nat) : (s.setHead h x).tile i = s.tile i := (rfl)
@[simp] theorem setHead_scaler_other (h : Nat) (x : Head) (i : Nat) : (s.setHead h x).scaler i = s.scaler i := (rfl)
@[simp] theorem setHead_rod_other (h : Nat) (x : Head) (i : Nat) : (s.setHead h x).rod i = s.rod i := (rfl)
@[simp] theorem setHead_sign_other (h : Nat) (x : Head) (i : Nat) : (s.setHead h x).sign i = s.sign i := (rfl)
@[simp] theorem setHead_port_other (h : Nat) (x : Head) (i : Nat) : (s.setHead h x).port i = s.port i := (rfl)
@[simp] theorem setHead_rxs_other (h : Nat) (x : Head) (i : Nat) : (s.setHead h x).rxs i = s.rxs i := (rfl)
@[simp] theorem setHead_txs_other (h : Nat) (x : Head) (i : Nat) : (s.setHead h x).txs i = s.txs i := (rfl)
@[simp] theorem setHead_pll_other (h : Nat) (x : Head) (i : Nat) : (s.setHead h x).pll i = s.pll i := (rfl)
@[simp] theorem setHead_metered_other (h : Nat) (x : Head) (i : Nat) : (s.setHead h x).metered i = s.metered i := (rfl)
@[simp] theorem setHead_pc_other (h : Nat) (x : Head) (i : Nat) : (s.setHead h x).pc i = s.pc i := (rfl)
@[simp] theorem setHead_surface_other (h : Nat) (x : Head) (i : Nat) : (s.setHead h x).surface i = s.surface i := (rfl)
@[simp] theorem setHead_src_other (h : Nat) (x : Head) (i : Nat) : (s.setHead h x).src i = s.src i := (rfl)
@[simp] theorem setHead_wclass_other (h : Nat) (x : Head) (i : Nat) : (s.setHead h x).wclass i = s.wclass i := (rfl)
@[simp] theorem setHead_byte_other (h : Nat) (x : Head) (h' off' : Nat) : (s.setHead h x).byte h' off' = s.byte h' off' := (rfl)

-- setDp
@[simp] theorem setDp_rd_other (d : Nat) (x : Dp) (i : Nat) : (s.setDp d x).rd i = s.rd i := (rfl)
@[simp] theorem setDp_sp_other (d : Nat) (x : Dp) (i : Nat) : (s.setDp d x).sp i = s.sp i := (rfl)
@[simp] theorem setDp_lv_other (d : Nat) (x : Dp) (i : Nat) : (s.setDp d x).lv i = s.lv i := (rfl)
@[simp] theorem setDp_cfg_other (d : Nat) (x : Dp) (i : Nat) : (s.setDp d x).cfg i = s.cfg i := (rfl)
@[simp] theorem setDp_dk_other (d : Nat) (x : Dp) (i : Nat) : (s.setDp d x).dk i = s.dk i := (rfl)
@[simp] theorem setDp_queue_other (d : Nat) (x : Dp) (i : Nat) : (s.setDp d x).queue i = s.queue i := (rfl)
@[simp] theorem setDp_safeOf_other (d : Nat) (x : Dp) (i : Nat) : (s.setDp d x).safeOf i = s.safeOf i := (rfl)
@[simp] theorem setDp_head_other (d : Nat) (x : Dp) (i : Nat) : (s.setDp d x).head i = s.head i := (rfl)
@[simp] theorem setDp_group_other (d : Nat) (x : Dp) (i : Nat) : (s.setDp d x).group i = s.group i := (rfl)
@[simp] theorem setDp_tile_other (d : Nat) (x : Dp) (i : Nat) : (s.setDp d x).tile i = s.tile i := (rfl)
@[simp] theorem setDp_scaler_other (d : Nat) (x : Dp) (i : Nat) : (s.setDp d x).scaler i = s.scaler i := (rfl)
@[simp] theorem setDp_rod_other (d : Nat) (x : Dp) (i : Nat) : (s.setDp d x).rod i = s.rod i := (rfl)
@[simp] theorem setDp_sign_other (d : Nat) (x : Dp) (i : Nat) : (s.setDp d x).sign i = s.sign i := (rfl)
@[simp] theorem setDp_port_other (d : Nat) (x : Dp) (i : Nat) : (s.setDp d x).port i = s.port i := (rfl)
@[simp] theorem setDp_rxs_other (d : Nat) (x : Dp) (i : Nat) : (s.setDp d x).rxs i = s.rxs i := (rfl)
@[simp] theorem setDp_txs_other (d : Nat) (x : Dp) (i : Nat) : (s.setDp d x).txs i = s.txs i := (rfl)
@[simp] theorem setDp_pll_other (d : Nat) (x : Dp) (i : Nat) : (s.setDp d x).pll i = s.pll i := (rfl)
@[simp] theorem setDp_metered_other (d : Nat) (x : Dp) (i : Nat) : (s.setDp d x).metered i = s.metered i := (rfl)
@[simp] theorem setDp_pc_other (d : Nat) (x : Dp) (i : Nat) : (s.setDp d x).pc i = s.pc i := (rfl)
@[simp] theorem setDp_surface_other (d : Nat) (x : Dp) (i : Nat) : (s.setDp d x).surface i = s.surface i := (rfl)
@[simp] theorem setDp_src_other (d : Nat) (x : Dp) (i : Nat) : (s.setDp d x).src i = s.src i := (rfl)
@[simp] theorem setDp_wclass_other (d : Nat) (x : Dp) (i : Nat) : (s.setDp d x).wclass i = s.wclass i := (rfl)
@[simp] theorem setDp_byte_other (d : Nat) (x : Dp) (h' off' : Nat) : (s.setDp d x).byte h' off' = s.byte h' off' := (rfl)

-- setGroup
@[simp] theorem setGroup_rd_other (g : Nat) (x : Group) (i : Nat) : (s.setGroup g x).rd i = s.rd i := (rfl)
@[simp] theorem setGroup_sp_other (g : Nat) (x : Group) (i : Nat) : (s.setGroup g x).sp i = s.sp i := (rfl)
@[simp] theorem setGroup_lv_other (g : Nat) (x : Group) (i : Nat) : (s.setGroup g x).lv i = s.lv i := (rfl)
@[simp] theorem setGroup_cfg_other (g : Nat) (x : Group) (i : Nat) : (s.setGroup g x).cfg i = s.cfg i := (rfl)
@[simp] theorem setGroup_dk_other (g : Nat) (x : Group) (i : Nat) : (s.setGroup g x).dk i = s.dk i := (rfl)
@[simp] theorem setGroup_queue_other (g : Nat) (x : Group) (i : Nat) : (s.setGroup g x).queue i = s.queue i := (rfl)
@[simp] theorem setGroup_safeOf_other (g : Nat) (x : Group) (i : Nat) : (s.setGroup g x).safeOf i = s.safeOf i := (rfl)
@[simp] theorem setGroup_head_other (g : Nat) (x : Group) (i : Nat) : (s.setGroup g x).head i = s.head i := (rfl)
@[simp] theorem setGroup_dp_other (g : Nat) (x : Group) (i : Nat) : (s.setGroup g x).dp i = s.dp i := (rfl)
@[simp] theorem setGroup_tile_other (g : Nat) (x : Group) (i : Nat) : (s.setGroup g x).tile i = s.tile i := (rfl)
@[simp] theorem setGroup_scaler_other (g : Nat) (x : Group) (i : Nat) : (s.setGroup g x).scaler i = s.scaler i := (rfl)
@[simp] theorem setGroup_rod_other (g : Nat) (x : Group) (i : Nat) : (s.setGroup g x).rod i = s.rod i := (rfl)
@[simp] theorem setGroup_sign_other (g : Nat) (x : Group) (i : Nat) : (s.setGroup g x).sign i = s.sign i := (rfl)
@[simp] theorem setGroup_port_other (g : Nat) (x : Group) (i : Nat) : (s.setGroup g x).port i = s.port i := (rfl)
@[simp] theorem setGroup_rxs_other (g : Nat) (x : Group) (i : Nat) : (s.setGroup g x).rxs i = s.rxs i := (rfl)
@[simp] theorem setGroup_txs_other (g : Nat) (x : Group) (i : Nat) : (s.setGroup g x).txs i = s.txs i := (rfl)
@[simp] theorem setGroup_pll_other (g : Nat) (x : Group) (i : Nat) : (s.setGroup g x).pll i = s.pll i := (rfl)
@[simp] theorem setGroup_metered_other (g : Nat) (x : Group) (i : Nat) : (s.setGroup g x).metered i = s.metered i := (rfl)
@[simp] theorem setGroup_pc_other (g : Nat) (x : Group) (i : Nat) : (s.setGroup g x).pc i = s.pc i := (rfl)
@[simp] theorem setGroup_surface_other (g : Nat) (x : Group) (i : Nat) : (s.setGroup g x).surface i = s.surface i := (rfl)
@[simp] theorem setGroup_src_other (g : Nat) (x : Group) (i : Nat) : (s.setGroup g x).src i = s.src i := (rfl)
@[simp] theorem setGroup_wclass_other (g : Nat) (x : Group) (i : Nat) : (s.setGroup g x).wclass i = s.wclass i := (rfl)
@[simp] theorem setGroup_byte_other (g : Nat) (x : Group) (h' off' : Nat) : (s.setGroup g x).byte h' off' = s.byte h' off' := (rfl)

-- setTile
@[simp] theorem setTile_rd_other (t : Nat) (x : Tile) (i : Nat) : (s.setTile t x).rd i = s.rd i := (rfl)
@[simp] theorem setTile_sp_other (t : Nat) (x : Tile) (i : Nat) : (s.setTile t x).sp i = s.sp i := (rfl)
@[simp] theorem setTile_lv_other (t : Nat) (x : Tile) (i : Nat) : (s.setTile t x).lv i = s.lv i := (rfl)
@[simp] theorem setTile_cfg_other (t : Nat) (x : Tile) (i : Nat) : (s.setTile t x).cfg i = s.cfg i := (rfl)
@[simp] theorem setTile_dk_other (t : Nat) (x : Tile) (i : Nat) : (s.setTile t x).dk i = s.dk i := (rfl)
@[simp] theorem setTile_queue_other (t : Nat) (x : Tile) (i : Nat) : (s.setTile t x).queue i = s.queue i := (rfl)
@[simp] theorem setTile_safeOf_other (t : Nat) (x : Tile) (i : Nat) : (s.setTile t x).safeOf i = s.safeOf i := (rfl)
@[simp] theorem setTile_head_other (t : Nat) (x : Tile) (i : Nat) : (s.setTile t x).head i = s.head i := (rfl)
@[simp] theorem setTile_dp_other (t : Nat) (x : Tile) (i : Nat) : (s.setTile t x).dp i = s.dp i := (rfl)
@[simp] theorem setTile_group_other (t : Nat) (x : Tile) (i : Nat) : (s.setTile t x).group i = s.group i := (rfl)
@[simp] theorem setTile_scaler_other (t : Nat) (x : Tile) (i : Nat) : (s.setTile t x).scaler i = s.scaler i := (rfl)
@[simp] theorem setTile_rod_other (t : Nat) (x : Tile) (i : Nat) : (s.setTile t x).rod i = s.rod i := (rfl)
@[simp] theorem setTile_sign_other (t : Nat) (x : Tile) (i : Nat) : (s.setTile t x).sign i = s.sign i := (rfl)
@[simp] theorem setTile_port_other (t : Nat) (x : Tile) (i : Nat) : (s.setTile t x).port i = s.port i := (rfl)
@[simp] theorem setTile_rxs_other (t : Nat) (x : Tile) (i : Nat) : (s.setTile t x).rxs i = s.rxs i := (rfl)
@[simp] theorem setTile_txs_other (t : Nat) (x : Tile) (i : Nat) : (s.setTile t x).txs i = s.txs i := (rfl)
@[simp] theorem setTile_pll_other (t : Nat) (x : Tile) (i : Nat) : (s.setTile t x).pll i = s.pll i := (rfl)
@[simp] theorem setTile_metered_other (t : Nat) (x : Tile) (i : Nat) : (s.setTile t x).metered i = s.metered i := (rfl)
@[simp] theorem setTile_pc_other (t : Nat) (x : Tile) (i : Nat) : (s.setTile t x).pc i = s.pc i := (rfl)
@[simp] theorem setTile_surface_other (t : Nat) (x : Tile) (i : Nat) : (s.setTile t x).surface i = s.surface i := (rfl)
@[simp] theorem setTile_src_other (t : Nat) (x : Tile) (i : Nat) : (s.setTile t x).src i = s.src i := (rfl)
@[simp] theorem setTile_wclass_other (t : Nat) (x : Tile) (i : Nat) : (s.setTile t x).wclass i = s.wclass i := (rfl)
@[simp] theorem setTile_byte_other (t : Nat) (x : Tile) (h' off' : Nat) : (s.setTile t x).byte h' off' = s.byte h' off' := (rfl)

-- setScaler
@[simp] theorem setScaler_rd_other (l : Nat) (x : Scaler) (i : Nat) : (s.setScaler l x).rd i = s.rd i := (rfl)
@[simp] theorem setScaler_sp_other (l : Nat) (x : Scaler) (i : Nat) : (s.setScaler l x).sp i = s.sp i := (rfl)
@[simp] theorem setScaler_lv_other (l : Nat) (x : Scaler) (i : Nat) : (s.setScaler l x).lv i = s.lv i := (rfl)
@[simp] theorem setScaler_cfg_other (l : Nat) (x : Scaler) (i : Nat) : (s.setScaler l x).cfg i = s.cfg i := (rfl)
@[simp] theorem setScaler_dk_other (l : Nat) (x : Scaler) (i : Nat) : (s.setScaler l x).dk i = s.dk i := (rfl)
@[simp] theorem setScaler_queue_other (l : Nat) (x : Scaler) (i : Nat) : (s.setScaler l x).queue i = s.queue i := (rfl)
@[simp] theorem setScaler_safeOf_other (l : Nat) (x : Scaler) (i : Nat) : (s.setScaler l x).safeOf i = s.safeOf i := (rfl)
@[simp] theorem setScaler_head_other (l : Nat) (x : Scaler) (i : Nat) : (s.setScaler l x).head i = s.head i := (rfl)
@[simp] theorem setScaler_dp_other (l : Nat) (x : Scaler) (i : Nat) : (s.setScaler l x).dp i = s.dp i := (rfl)
@[simp] theorem setScaler_group_other (l : Nat) (x : Scaler) (i : Nat) : (s.setScaler l x).group i = s.group i := (rfl)
@[simp] theorem setScaler_tile_other (l : Nat) (x : Scaler) (i : Nat) : (s.setScaler l x).tile i = s.tile i := (rfl)
@[simp] theorem setScaler_rod_other (l : Nat) (x : Scaler) (i : Nat) : (s.setScaler l x).rod i = s.rod i := (rfl)
@[simp] theorem setScaler_sign_other (l : Nat) (x : Scaler) (i : Nat) : (s.setScaler l x).sign i = s.sign i := (rfl)
@[simp] theorem setScaler_port_other (l : Nat) (x : Scaler) (i : Nat) : (s.setScaler l x).port i = s.port i := (rfl)
@[simp] theorem setScaler_rxs_other (l : Nat) (x : Scaler) (i : Nat) : (s.setScaler l x).rxs i = s.rxs i := (rfl)
@[simp] theorem setScaler_txs_other (l : Nat) (x : Scaler) (i : Nat) : (s.setScaler l x).txs i = s.txs i := (rfl)
@[simp] theorem setScaler_pll_other (l : Nat) (x : Scaler) (i : Nat) : (s.setScaler l x).pll i = s.pll i := (rfl)
@[simp] theorem setScaler_metered_other (l : Nat) (x : Scaler) (i : Nat) : (s.setScaler l x).metered i = s.metered i := (rfl)
@[simp] theorem setScaler_pc_other (l : Nat) (x : Scaler) (i : Nat) : (s.setScaler l x).pc i = s.pc i := (rfl)
@[simp] theorem setScaler_surface_other (l : Nat) (x : Scaler) (i : Nat) : (s.setScaler l x).surface i = s.surface i := (rfl)
@[simp] theorem setScaler_src_other (l : Nat) (x : Scaler) (i : Nat) : (s.setScaler l x).src i = s.src i := (rfl)
@[simp] theorem setScaler_wclass_other (l : Nat) (x : Scaler) (i : Nat) : (s.setScaler l x).wclass i = s.wclass i := (rfl)
@[simp] theorem setScaler_byte_other (l : Nat) (x : Scaler) (h' off' : Nat) : (s.setScaler l x).byte h' off' = s.byte h' off' := (rfl)

-- setRod
@[simp] theorem setRod_rd_other (r : Nat) (x : Rod) (i : Nat) : (s.setRod r x).rd i = s.rd i := (rfl)
@[simp] theorem setRod_sp_other (r : Nat) (x : Rod) (i : Nat) : (s.setRod r x).sp i = s.sp i := (rfl)
@[simp] theorem setRod_lv_other (r : Nat) (x : Rod) (i : Nat) : (s.setRod r x).lv i = s.lv i := (rfl)
@[simp] theorem setRod_cfg_other (r : Nat) (x : Rod) (i : Nat) : (s.setRod r x).cfg i = s.cfg i := (rfl)
@[simp] theorem setRod_dk_other (r : Nat) (x : Rod) (i : Nat) : (s.setRod r x).dk i = s.dk i := (rfl)
@[simp] theorem setRod_queue_other (r : Nat) (x : Rod) (i : Nat) : (s.setRod r x).queue i = s.queue i := (rfl)
@[simp] theorem setRod_safeOf_other (r : Nat) (x : Rod) (i : Nat) : (s.setRod r x).safeOf i = s.safeOf i := (rfl)
@[simp] theorem setRod_head_other (r : Nat) (x : Rod) (i : Nat) : (s.setRod r x).head i = s.head i := (rfl)
@[simp] theorem setRod_dp_other (r : Nat) (x : Rod) (i : Nat) : (s.setRod r x).dp i = s.dp i := (rfl)
@[simp] theorem setRod_group_other (r : Nat) (x : Rod) (i : Nat) : (s.setRod r x).group i = s.group i := (rfl)
@[simp] theorem setRod_tile_other (r : Nat) (x : Rod) (i : Nat) : (s.setRod r x).tile i = s.tile i := (rfl)
@[simp] theorem setRod_scaler_other (r : Nat) (x : Rod) (i : Nat) : (s.setRod r x).scaler i = s.scaler i := (rfl)
@[simp] theorem setRod_sign_other (r : Nat) (x : Rod) (i : Nat) : (s.setRod r x).sign i = s.sign i := (rfl)
@[simp] theorem setRod_port_other (r : Nat) (x : Rod) (i : Nat) : (s.setRod r x).port i = s.port i := (rfl)
@[simp] theorem setRod_rxs_other (r : Nat) (x : Rod) (i : Nat) : (s.setRod r x).rxs i = s.rxs i := (rfl)
@[simp] theorem setRod_txs_other (r : Nat) (x : Rod) (i : Nat) : (s.setRod r x).txs i = s.txs i := (rfl)
@[simp] theorem setRod_pll_other (r : Nat) (x : Rod) (i : Nat) : (s.setRod r x).pll i = s.pll i := (rfl)
@[simp] theorem setRod_metered_other (r : Nat) (x : Rod) (i : Nat) : (s.setRod r x).metered i = s.metered i := (rfl)
@[simp] theorem setRod_pc_other (r : Nat) (x : Rod) (i : Nat) : (s.setRod r x).pc i = s.pc i := (rfl)
@[simp] theorem setRod_surface_other (r : Nat) (x : Rod) (i : Nat) : (s.setRod r x).surface i = s.surface i := (rfl)
@[simp] theorem setRod_src_other (r : Nat) (x : Rod) (i : Nat) : (s.setRod r x).src i = s.src i := (rfl)
@[simp] theorem setRod_wclass_other (r : Nat) (x : Rod) (i : Nat) : (s.setRod r x).wclass i = s.wclass i := (rfl)
@[simp] theorem setRod_byte_other (r : Nat) (x : Rod) (h' off' : Nat) : (s.setRod r x).byte h' off' = s.byte h' off' := (rfl)

-- setSign
@[simp] theorem setSign_rd_other (r : Nat) (x : Sign) (i : Nat) : (s.setSign r x).rd i = s.rd i := (rfl)
@[simp] theorem setSign_sp_other (r : Nat) (x : Sign) (i : Nat) : (s.setSign r x).sp i = s.sp i := (rfl)
@[simp] theorem setSign_lv_other (r : Nat) (x : Sign) (i : Nat) : (s.setSign r x).lv i = s.lv i := (rfl)
@[simp] theorem setSign_cfg_other (r : Nat) (x : Sign) (i : Nat) : (s.setSign r x).cfg i = s.cfg i := (rfl)
@[simp] theorem setSign_dk_other (r : Nat) (x : Sign) (i : Nat) : (s.setSign r x).dk i = s.dk i := (rfl)
@[simp] theorem setSign_queue_other (r : Nat) (x : Sign) (i : Nat) : (s.setSign r x).queue i = s.queue i := (rfl)
@[simp] theorem setSign_safeOf_other (r : Nat) (x : Sign) (i : Nat) : (s.setSign r x).safeOf i = s.safeOf i := (rfl)
@[simp] theorem setSign_head_other (r : Nat) (x : Sign) (i : Nat) : (s.setSign r x).head i = s.head i := (rfl)
@[simp] theorem setSign_dp_other (r : Nat) (x : Sign) (i : Nat) : (s.setSign r x).dp i = s.dp i := (rfl)
@[simp] theorem setSign_group_other (r : Nat) (x : Sign) (i : Nat) : (s.setSign r x).group i = s.group i := (rfl)
@[simp] theorem setSign_tile_other (r : Nat) (x : Sign) (i : Nat) : (s.setSign r x).tile i = s.tile i := (rfl)
@[simp] theorem setSign_scaler_other (r : Nat) (x : Sign) (i : Nat) : (s.setSign r x).scaler i = s.scaler i := (rfl)
@[simp] theorem setSign_rod_other (r : Nat) (x : Sign) (i : Nat) : (s.setSign r x).rod i = s.rod i := (rfl)
@[simp] theorem setSign_port_other (r : Nat) (x : Sign) (i : Nat) : (s.setSign r x).port i = s.port i := (rfl)
@[simp] theorem setSign_rxs_other (r : Nat) (x : Sign) (i : Nat) : (s.setSign r x).rxs i = s.rxs i := (rfl)
@[simp] theorem setSign_txs_other (r : Nat) (x : Sign) (i : Nat) : (s.setSign r x).txs i = s.txs i := (rfl)
@[simp] theorem setSign_pll_other (r : Nat) (x : Sign) (i : Nat) : (s.setSign r x).pll i = s.pll i := (rfl)
@[simp] theorem setSign_metered_other (r : Nat) (x : Sign) (i : Nat) : (s.setSign r x).metered i = s.metered i := (rfl)
@[simp] theorem setSign_pc_other (r : Nat) (x : Sign) (i : Nat) : (s.setSign r x).pc i = s.pc i := (rfl)
@[simp] theorem setSign_surface_other (r : Nat) (x : Sign) (i : Nat) : (s.setSign r x).surface i = s.surface i := (rfl)
@[simp] theorem setSign_src_other (r : Nat) (x : Sign) (i : Nat) : (s.setSign r x).src i = s.src i := (rfl)
@[simp] theorem setSign_wclass_other (r : Nat) (x : Sign) (i : Nat) : (s.setSign r x).wclass i = s.wclass i := (rfl)
@[simp] theorem setSign_byte_other (r : Nat) (x : Sign) (h' off' : Nat) : (s.setSign r x).byte h' off' = s.byte h' off' := (rfl)

-- setPort
@[simp] theorem setPort_rd_other (p : Nat) (x : Port) (i : Nat) : (s.setPort p x).rd i = s.rd i := (rfl)
@[simp] theorem setPort_sp_other (p : Nat) (x : Port) (i : Nat) : (s.setPort p x).sp i = s.sp i := (rfl)
@[simp] theorem setPort_lv_other (p : Nat) (x : Port) (i : Nat) : (s.setPort p x).lv i = s.lv i := (rfl)
@[simp] theorem setPort_cfg_other (p : Nat) (x : Port) (i : Nat) : (s.setPort p x).cfg i = s.cfg i := (rfl)
@[simp] theorem setPort_dk_other (p : Nat) (x : Port) (i : Nat) : (s.setPort p x).dk i = s.dk i := (rfl)
@[simp] theorem setPort_queue_other (p : Nat) (x : Port) (i : Nat) : (s.setPort p x).queue i = s.queue i := (rfl)
@[simp] theorem setPort_safeOf_other (p : Nat) (x : Port) (i : Nat) : (s.setPort p x).safeOf i = s.safeOf i := (rfl)
@[simp] theorem setPort_head_other (p : Nat) (x : Port) (i : Nat) : (s.setPort p x).head i = s.head i := (rfl)
@[simp] theorem setPort_dp_other (p : Nat) (x : Port) (i : Nat) : (s.setPort p x).dp i = s.dp i := (rfl)
@[simp] theorem setPort_group_other (p : Nat) (x : Port) (i : Nat) : (s.setPort p x).group i = s.group i := (rfl)
@[simp] theorem setPort_tile_other (p : Nat) (x : Port) (i : Nat) : (s.setPort p x).tile i = s.tile i := (rfl)
@[simp] theorem setPort_scaler_other (p : Nat) (x : Port) (i : Nat) : (s.setPort p x).scaler i = s.scaler i := (rfl)
@[simp] theorem setPort_rod_other (p : Nat) (x : Port) (i : Nat) : (s.setPort p x).rod i = s.rod i := (rfl)
@[simp] theorem setPort_sign_other (p : Nat) (x : Port) (i : Nat) : (s.setPort p x).sign i = s.sign i := (rfl)
@[simp] theorem setPort_rxs_other (p : Nat) (x : Port) (i : Nat) : (s.setPort p x).rxs i = s.rxs i := (rfl)
@[simp] theorem setPort_txs_other (p : Nat) (x : Port) (i : Nat) : (s.setPort p x).txs i = s.txs i := (rfl)
@[simp] theorem setPort_pll_other (p : Nat) (x : Port) (i : Nat) : (s.setPort p x).pll i = s.pll i := (rfl)
@[simp] theorem setPort_metered_other (p : Nat) (x : Port) (i : Nat) : (s.setPort p x).metered i = s.metered i := (rfl)
@[simp] theorem setPort_pc_other (p : Nat) (x : Port) (i : Nat) : (s.setPort p x).pc i = s.pc i := (rfl)
@[simp] theorem setPort_surface_other (p : Nat) (x : Port) (i : Nat) : (s.setPort p x).surface i = s.surface i := (rfl)
@[simp] theorem setPort_src_other (p : Nat) (x : Port) (i : Nat) : (s.setPort p x).src i = s.src i := (rfl)
@[simp] theorem setPort_wclass_other (p : Nat) (x : Port) (i : Nat) : (s.setPort p x).wclass i = s.wclass i := (rfl)
@[simp] theorem setPort_byte_other (p : Nat) (x : Port) (h' off' : Nat) : (s.setPort p x).byte h' off' = s.byte h' off' := (rfl)

-- setRxs
@[simp] theorem setRxs_rd_other (j : Nat) (x : RxStream) (i : Nat) : (s.setRxs j x).rd i = s.rd i := (rfl)
@[simp] theorem setRxs_sp_other (j : Nat) (x : RxStream) (i : Nat) : (s.setRxs j x).sp i = s.sp i := (rfl)
@[simp] theorem setRxs_lv_other (j : Nat) (x : RxStream) (i : Nat) : (s.setRxs j x).lv i = s.lv i := (rfl)
@[simp] theorem setRxs_cfg_other (j : Nat) (x : RxStream) (i : Nat) : (s.setRxs j x).cfg i = s.cfg i := (rfl)
@[simp] theorem setRxs_dk_other (j : Nat) (x : RxStream) (i : Nat) : (s.setRxs j x).dk i = s.dk i := (rfl)
@[simp] theorem setRxs_queue_other (j : Nat) (x : RxStream) (i : Nat) : (s.setRxs j x).queue i = s.queue i := (rfl)
@[simp] theorem setRxs_safeOf_other (j : Nat) (x : RxStream) (i : Nat) : (s.setRxs j x).safeOf i = s.safeOf i := (rfl)
@[simp] theorem setRxs_head_other (j : Nat) (x : RxStream) (i : Nat) : (s.setRxs j x).head i = s.head i := (rfl)
@[simp] theorem setRxs_dp_other (j : Nat) (x : RxStream) (i : Nat) : (s.setRxs j x).dp i = s.dp i := (rfl)
@[simp] theorem setRxs_group_other (j : Nat) (x : RxStream) (i : Nat) : (s.setRxs j x).group i = s.group i := (rfl)
@[simp] theorem setRxs_tile_other (j : Nat) (x : RxStream) (i : Nat) : (s.setRxs j x).tile i = s.tile i := (rfl)
@[simp] theorem setRxs_scaler_other (j : Nat) (x : RxStream) (i : Nat) : (s.setRxs j x).scaler i = s.scaler i := (rfl)
@[simp] theorem setRxs_rod_other (j : Nat) (x : RxStream) (i : Nat) : (s.setRxs j x).rod i = s.rod i := (rfl)
@[simp] theorem setRxs_sign_other (j : Nat) (x : RxStream) (i : Nat) : (s.setRxs j x).sign i = s.sign i := (rfl)
@[simp] theorem setRxs_port_other (j : Nat) (x : RxStream) (i : Nat) : (s.setRxs j x).port i = s.port i := (rfl)
@[simp] theorem setRxs_txs_other (j : Nat) (x : RxStream) (i : Nat) : (s.setRxs j x).txs i = s.txs i := (rfl)
@[simp] theorem setRxs_pll_other (j : Nat) (x : RxStream) (i : Nat) : (s.setRxs j x).pll i = s.pll i := (rfl)
@[simp] theorem setRxs_metered_other (j : Nat) (x : RxStream) (i : Nat) : (s.setRxs j x).metered i = s.metered i := (rfl)
@[simp] theorem setRxs_pc_other (j : Nat) (x : RxStream) (i : Nat) : (s.setRxs j x).pc i = s.pc i := (rfl)
@[simp] theorem setRxs_surface_other (j : Nat) (x : RxStream) (i : Nat) : (s.setRxs j x).surface i = s.surface i := (rfl)
@[simp] theorem setRxs_src_other (j : Nat) (x : RxStream) (i : Nat) : (s.setRxs j x).src i = s.src i := (rfl)
@[simp] theorem setRxs_wclass_other (j : Nat) (x : RxStream) (i : Nat) : (s.setRxs j x).wclass i = s.wclass i := (rfl)
@[simp] theorem setRxs_byte_other (j : Nat) (x : RxStream) (h' off' : Nat) : (s.setRxs j x).byte h' off' = s.byte h' off' := (rfl)

-- setTxs
@[simp] theorem setTxs_rd_other (j : Nat) (x : TxStream) (i : Nat) : (s.setTxs j x).rd i = s.rd i := (rfl)
@[simp] theorem setTxs_sp_other (j : Nat) (x : TxStream) (i : Nat) : (s.setTxs j x).sp i = s.sp i := (rfl)
@[simp] theorem setTxs_lv_other (j : Nat) (x : TxStream) (i : Nat) : (s.setTxs j x).lv i = s.lv i := (rfl)
@[simp] theorem setTxs_cfg_other (j : Nat) (x : TxStream) (i : Nat) : (s.setTxs j x).cfg i = s.cfg i := (rfl)
@[simp] theorem setTxs_dk_other (j : Nat) (x : TxStream) (i : Nat) : (s.setTxs j x).dk i = s.dk i := (rfl)
@[simp] theorem setTxs_queue_other (j : Nat) (x : TxStream) (i : Nat) : (s.setTxs j x).queue i = s.queue i := (rfl)
@[simp] theorem setTxs_safeOf_other (j : Nat) (x : TxStream) (i : Nat) : (s.setTxs j x).safeOf i = s.safeOf i := (rfl)
@[simp] theorem setTxs_head_other (j : Nat) (x : TxStream) (i : Nat) : (s.setTxs j x).head i = s.head i := (rfl)
@[simp] theorem setTxs_dp_other (j : Nat) (x : TxStream) (i : Nat) : (s.setTxs j x).dp i = s.dp i := (rfl)
@[simp] theorem setTxs_group_other (j : Nat) (x : TxStream) (i : Nat) : (s.setTxs j x).group i = s.group i := (rfl)
@[simp] theorem setTxs_tile_other (j : Nat) (x : TxStream) (i : Nat) : (s.setTxs j x).tile i = s.tile i := (rfl)
@[simp] theorem setTxs_scaler_other (j : Nat) (x : TxStream) (i : Nat) : (s.setTxs j x).scaler i = s.scaler i := (rfl)
@[simp] theorem setTxs_rod_other (j : Nat) (x : TxStream) (i : Nat) : (s.setTxs j x).rod i = s.rod i := (rfl)
@[simp] theorem setTxs_sign_other (j : Nat) (x : TxStream) (i : Nat) : (s.setTxs j x).sign i = s.sign i := (rfl)
@[simp] theorem setTxs_port_other (j : Nat) (x : TxStream) (i : Nat) : (s.setTxs j x).port i = s.port i := (rfl)
@[simp] theorem setTxs_rxs_other (j : Nat) (x : TxStream) (i : Nat) : (s.setTxs j x).rxs i = s.rxs i := (rfl)
@[simp] theorem setTxs_pll_other (j : Nat) (x : TxStream) (i : Nat) : (s.setTxs j x).pll i = s.pll i := (rfl)
@[simp] theorem setTxs_metered_other (j : Nat) (x : TxStream) (i : Nat) : (s.setTxs j x).metered i = s.metered i := (rfl)
@[simp] theorem setTxs_pc_other (j : Nat) (x : TxStream) (i : Nat) : (s.setTxs j x).pc i = s.pc i := (rfl)
@[simp] theorem setTxs_surface_other (j : Nat) (x : TxStream) (i : Nat) : (s.setTxs j x).surface i = s.surface i := (rfl)
@[simp] theorem setTxs_src_other (j : Nat) (x : TxStream) (i : Nat) : (s.setTxs j x).src i = s.src i := (rfl)
@[simp] theorem setTxs_wclass_other (j : Nat) (x : TxStream) (i : Nat) : (s.setTxs j x).wclass i = s.wclass i := (rfl)
@[simp] theorem setTxs_byte_other (j : Nat) (x : TxStream) (h' off' : Nat) : (s.setTxs j x).byte h' off' = s.byte h' off' := (rfl)

-- setPll
@[simp] theorem setPll_rd_other (g : Nat) (x : Pll) (i : Nat) : (s.setPll g x).rd i = s.rd i := (rfl)
@[simp] theorem setPll_sp_other (g : Nat) (x : Pll) (i : Nat) : (s.setPll g x).sp i = s.sp i := (rfl)
@[simp] theorem setPll_lv_other (g : Nat) (x : Pll) (i : Nat) : (s.setPll g x).lv i = s.lv i := (rfl)
@[simp] theorem setPll_cfg_other (g : Nat) (x : Pll) (i : Nat) : (s.setPll g x).cfg i = s.cfg i := (rfl)
@[simp] theorem setPll_dk_other (g : Nat) (x : Pll) (i : Nat) : (s.setPll g x).dk i = s.dk i := (rfl)
@[simp] theorem setPll_queue_other (g : Nat) (x : Pll) (i : Nat) : (s.setPll g x).queue i = s.queue i := (rfl)
@[simp] theorem setPll_safeOf_other (g : Nat) (x : Pll) (i : Nat) : (s.setPll g x).safeOf i = s.safeOf i := (rfl)
@[simp] theorem setPll_head_other (g : Nat) (x : Pll) (i : Nat) : (s.setPll g x).head i = s.head i := (rfl)
@[simp] theorem setPll_dp_other (g : Nat) (x : Pll) (i : Nat) : (s.setPll g x).dp i = s.dp i := (rfl)
@[simp] theorem setPll_group_other (g : Nat) (x : Pll) (i : Nat) : (s.setPll g x).group i = s.group i := (rfl)
@[simp] theorem setPll_tile_other (g : Nat) (x : Pll) (i : Nat) : (s.setPll g x).tile i = s.tile i := (rfl)
@[simp] theorem setPll_scaler_other (g : Nat) (x : Pll) (i : Nat) : (s.setPll g x).scaler i = s.scaler i := (rfl)
@[simp] theorem setPll_rod_other (g : Nat) (x : Pll) (i : Nat) : (s.setPll g x).rod i = s.rod i := (rfl)
@[simp] theorem setPll_sign_other (g : Nat) (x : Pll) (i : Nat) : (s.setPll g x).sign i = s.sign i := (rfl)
@[simp] theorem setPll_port_other (g : Nat) (x : Pll) (i : Nat) : (s.setPll g x).port i = s.port i := (rfl)
@[simp] theorem setPll_rxs_other (g : Nat) (x : Pll) (i : Nat) : (s.setPll g x).rxs i = s.rxs i := (rfl)
@[simp] theorem setPll_txs_other (g : Nat) (x : Pll) (i : Nat) : (s.setPll g x).txs i = s.txs i := (rfl)
@[simp] theorem setPll_metered_other (g : Nat) (x : Pll) (i : Nat) : (s.setPll g x).metered i = s.metered i := (rfl)
@[simp] theorem setPll_pc_other (g : Nat) (x : Pll) (i : Nat) : (s.setPll g x).pc i = s.pc i := (rfl)
@[simp] theorem setPll_surface_other (g : Nat) (x : Pll) (i : Nat) : (s.setPll g x).surface i = s.surface i := (rfl)
@[simp] theorem setPll_src_other (g : Nat) (x : Pll) (i : Nat) : (s.setPll g x).src i = s.src i := (rfl)
@[simp] theorem setPll_wclass_other (g : Nat) (x : Pll) (i : Nat) : (s.setPll g x).wclass i = s.wclass i := (rfl)
@[simp] theorem setPll_byte_other (g : Nat) (x : Pll) (h' off' : Nat) : (s.setPll g x).byte h' off' = s.byte h' off' := (rfl)

-- setMetered
@[simp] theorem setMetered_rd_other (u : Nat) (x : Metered) (i : Nat) : (s.setMetered u x).rd i = s.rd i := (rfl)
@[simp] theorem setMetered_sp_other (u : Nat) (x : Metered) (i : Nat) : (s.setMetered u x).sp i = s.sp i := (rfl)
@[simp] theorem setMetered_lv_other (u : Nat) (x : Metered) (i : Nat) : (s.setMetered u x).lv i = s.lv i := (rfl)
@[simp] theorem setMetered_cfg_other (u : Nat) (x : Metered) (i : Nat) : (s.setMetered u x).cfg i = s.cfg i := (rfl)
@[simp] theorem setMetered_dk_other (u : Nat) (x : Metered) (i : Nat) : (s.setMetered u x).dk i = s.dk i := (rfl)
@[simp] theorem setMetered_queue_other (u : Nat) (x : Metered) (i : Nat) : (s.setMetered u x).queue i = s.queue i := (rfl)
@[simp] theorem setMetered_safeOf_other (u : Nat) (x : Metered) (i : Nat) : (s.setMetered u x).safeOf i = s.safeOf i := (rfl)
@[simp] theorem setMetered_head_other (u : Nat) (x : Metered) (i : Nat) : (s.setMetered u x).head i = s.head i := (rfl)
@[simp] theorem setMetered_dp_other (u : Nat) (x : Metered) (i : Nat) : (s.setMetered u x).dp i = s.dp i := (rfl)
@[simp] theorem setMetered_group_other (u : Nat) (x : Metered) (i : Nat) : (s.setMetered u x).group i = s.group i := (rfl)
@[simp] theorem setMetered_tile_other (u : Nat) (x : Metered) (i : Nat) : (s.setMetered u x).tile i = s.tile i := (rfl)
@[simp] theorem setMetered_scaler_other (u : Nat) (x : Metered) (i : Nat) : (s.setMetered u x).scaler i = s.scaler i := (rfl)
@[simp] theorem setMetered_rod_other (u : Nat) (x : Metered) (i : Nat) : (s.setMetered u x).rod i = s.rod i := (rfl)
@[simp] theorem setMetered_sign_other (u : Nat) (x : Metered) (i : Nat) : (s.setMetered u x).sign i = s.sign i := (rfl)
@[simp] theorem setMetered_port_other (u : Nat) (x : Metered) (i : Nat) : (s.setMetered u x).port i = s.port i := (rfl)
@[simp] theorem setMetered_rxs_other (u : Nat) (x : Metered) (i : Nat) : (s.setMetered u x).rxs i = s.rxs i := (rfl)
@[simp] theorem setMetered_txs_other (u : Nat) (x : Metered) (i : Nat) : (s.setMetered u x).txs i = s.txs i := (rfl)
@[simp] theorem setMetered_pll_other (u : Nat) (x : Metered) (i : Nat) : (s.setMetered u x).pll i = s.pll i := (rfl)
@[simp] theorem setMetered_pc_other (u : Nat) (x : Metered) (i : Nat) : (s.setMetered u x).pc i = s.pc i := (rfl)
@[simp] theorem setMetered_surface_other (u : Nat) (x : Metered) (i : Nat) : (s.setMetered u x).surface i = s.surface i := (rfl)
@[simp] theorem setMetered_src_other (u : Nat) (x : Metered) (i : Nat) : (s.setMetered u x).src i = s.src i := (rfl)
@[simp] theorem setMetered_wclass_other (u : Nat) (x : Metered) (i : Nat) : (s.setMetered u x).wclass i = s.wclass i := (rfl)
@[simp] theorem setMetered_byte_other (u : Nat) (x : Metered) (h' off' : Nat) : (s.setMetered u x).byte h' off' = s.byte h' off' := (rfl)

-- setPc
@[simp] theorem setPc_rd_other (p : Nat) (x : Pc) (i : Nat) : (s.setPc p x).rd i = s.rd i := (rfl)
@[simp] theorem setPc_sp_other (p : Nat) (x : Pc) (i : Nat) : (s.setPc p x).sp i = s.sp i := (rfl)
@[simp] theorem setPc_lv_other (p : Nat) (x : Pc) (i : Nat) : (s.setPc p x).lv i = s.lv i := (rfl)
@[simp] theorem setPc_cfg_other (p : Nat) (x : Pc) (i : Nat) : (s.setPc p x).cfg i = s.cfg i := (rfl)
@[simp] theorem setPc_dk_other (p : Nat) (x : Pc) (i : Nat) : (s.setPc p x).dk i = s.dk i := (rfl)
@[simp] theorem setPc_queue_other (p : Nat) (x : Pc) (i : Nat) : (s.setPc p x).queue i = s.queue i := (rfl)
@[simp] theorem setPc_safeOf_other (p : Nat) (x : Pc) (i : Nat) : (s.setPc p x).safeOf i = s.safeOf i := (rfl)
@[simp] theorem setPc_head_other (p : Nat) (x : Pc) (i : Nat) : (s.setPc p x).head i = s.head i := (rfl)
@[simp] theorem setPc_dp_other (p : Nat) (x : Pc) (i : Nat) : (s.setPc p x).dp i = s.dp i := (rfl)
@[simp] theorem setPc_group_other (p : Nat) (x : Pc) (i : Nat) : (s.setPc p x).group i = s.group i := (rfl)
@[simp] theorem setPc_tile_other (p : Nat) (x : Pc) (i : Nat) : (s.setPc p x).tile i = s.tile i := (rfl)
@[simp] theorem setPc_scaler_other (p : Nat) (x : Pc) (i : Nat) : (s.setPc p x).scaler i = s.scaler i := (rfl)
@[simp] theorem setPc_rod_other (p : Nat) (x : Pc) (i : Nat) : (s.setPc p x).rod i = s.rod i := (rfl)
@[simp] theorem setPc_sign_other (p : Nat) (x : Pc) (i : Nat) : (s.setPc p x).sign i = s.sign i := (rfl)
@[simp] theorem setPc_port_other (p : Nat) (x : Pc) (i : Nat) : (s.setPc p x).port i = s.port i := (rfl)
@[simp] theorem setPc_rxs_other (p : Nat) (x : Pc) (i : Nat) : (s.setPc p x).rxs i = s.rxs i := (rfl)
@[simp] theorem setPc_txs_other (p : Nat) (x : Pc) (i : Nat) : (s.setPc p x).txs i = s.txs i := (rfl)
@[simp] theorem setPc_pll_other (p : Nat) (x : Pc) (i : Nat) : (s.setPc p x).pll i = s.pll i := (rfl)
@[simp] theorem setPc_metered_other (p : Nat) (x : Pc) (i : Nat) : (s.setPc p x).metered i = s.metered i := (rfl)
@[simp] theorem setPc_src_other (p : Nat) (x : Pc) (i : Nat) : (s.setPc p x).src i = s.src i := (rfl)
@[simp] theorem setPc_wclass_other (p : Nat) (x : Pc) (i : Nat) : (s.setPc p x).wclass i = s.wclass i := (rfl)
@[simp] theorem setPc_byte_other (p : Nat) (x : Pc) (h' off' : Nat) : (s.setPc p x).byte h' off' = s.byte h' off' := (rfl)

-- setSurface
@[simp] theorem setSurface_rd_other (h : Nat) (x : Option Surface) (i : Nat) : (s.setSurface h x).rd i = s.rd i := (rfl)
@[simp] theorem setSurface_sp_other (h : Nat) (x : Option Surface) (i : Nat) : (s.setSurface h x).sp i = s.sp i := (rfl)
@[simp] theorem setSurface_lv_other (h : Nat) (x : Option Surface) (i : Nat) : (s.setSurface h x).lv i = s.lv i := (rfl)
@[simp] theorem setSurface_cfg_other (h : Nat) (x : Option Surface) (i : Nat) : (s.setSurface h x).cfg i = s.cfg i := (rfl)
@[simp] theorem setSurface_dk_other (h : Nat) (x : Option Surface) (i : Nat) : (s.setSurface h x).dk i = s.dk i := (rfl)
@[simp] theorem setSurface_queue_other (h : Nat) (x : Option Surface) (i : Nat) : (s.setSurface h x).queue i = s.queue i := (rfl)
@[simp] theorem setSurface_safeOf_other (h : Nat) (x : Option Surface) (i : Nat) : (s.setSurface h x).safeOf i = s.safeOf i := (rfl)
@[simp] theorem setSurface_head_other (h : Nat) (x : Option Surface) (i : Nat) : (s.setSurface h x).head i = s.head i := (rfl)
@[simp] theorem setSurface_dp_other (h : Nat) (x : Option Surface) (i : Nat) : (s.setSurface h x).dp i = s.dp i := (rfl)
@[simp] theorem setSurface_group_other (h : Nat) (x : Option Surface) (i : Nat) : (s.setSurface h x).group i = s.group i := (rfl)
@[simp] theorem setSurface_tile_other (h : Nat) (x : Option Surface) (i : Nat) : (s.setSurface h x).tile i = s.tile i := (rfl)
@[simp] theorem setSurface_scaler_other (h : Nat) (x : Option Surface) (i : Nat) : (s.setSurface h x).scaler i = s.scaler i := (rfl)
@[simp] theorem setSurface_rod_other (h : Nat) (x : Option Surface) (i : Nat) : (s.setSurface h x).rod i = s.rod i := (rfl)
@[simp] theorem setSurface_sign_other (h : Nat) (x : Option Surface) (i : Nat) : (s.setSurface h x).sign i = s.sign i := (rfl)
@[simp] theorem setSurface_port_other (h : Nat) (x : Option Surface) (i : Nat) : (s.setSurface h x).port i = s.port i := (rfl)
@[simp] theorem setSurface_rxs_other (h : Nat) (x : Option Surface) (i : Nat) : (s.setSurface h x).rxs i = s.rxs i := (rfl)
@[simp] theorem setSurface_txs_other (h : Nat) (x : Option Surface) (i : Nat) : (s.setSurface h x).txs i = s.txs i := (rfl)
@[simp] theorem setSurface_pll_other (h : Nat) (x : Option Surface) (i : Nat) : (s.setSurface h x).pll i = s.pll i := (rfl)
@[simp] theorem setSurface_metered_other (h : Nat) (x : Option Surface) (i : Nat) : (s.setSurface h x).metered i = s.metered i := (rfl)
@[simp] theorem setSurface_src_other (h : Nat) (x : Option Surface) (i : Nat) : (s.setSurface h x).src i = s.src i := (rfl)
@[simp] theorem setSurface_wclass_other (h : Nat) (x : Option Surface) (i : Nat) : (s.setSurface h x).wclass i = s.wclass i := (rfl)
@[simp] theorem setSurface_byte_other (h : Nat) (x : Option Surface) (h' off' : Nat) : (s.setSurface h x).byte h' off' = s.byte h' off' := (rfl)

-- setSrc
@[simp] theorem setSrc_rd_other (j : Nat) (x : SrcSt) (i : Nat) : (s.setSrc j x).rd i = s.rd i := (rfl)
@[simp] theorem setSrc_sp_other (j : Nat) (x : SrcSt) (i : Nat) : (s.setSrc j x).sp i = s.sp i := (rfl)
@[simp] theorem setSrc_lv_other (j : Nat) (x : SrcSt) (i : Nat) : (s.setSrc j x).lv i = s.lv i := (rfl)
@[simp] theorem setSrc_cfg_other (j : Nat) (x : SrcSt) (i : Nat) : (s.setSrc j x).cfg i = s.cfg i := (rfl)
@[simp] theorem setSrc_dk_other (j : Nat) (x : SrcSt) (i : Nat) : (s.setSrc j x).dk i = s.dk i := (rfl)
@[simp] theorem setSrc_queue_other (j : Nat) (x : SrcSt) (i : Nat) : (s.setSrc j x).queue i = s.queue i := (rfl)
@[simp] theorem setSrc_safeOf_other (j : Nat) (x : SrcSt) (i : Nat) : (s.setSrc j x).safeOf i = s.safeOf i := (rfl)
@[simp] theorem setSrc_head_other (j : Nat) (x : SrcSt) (i : Nat) : (s.setSrc j x).head i = s.head i := (rfl)
@[simp] theorem setSrc_dp_other (j : Nat) (x : SrcSt) (i : Nat) : (s.setSrc j x).dp i = s.dp i := (rfl)
@[simp] theorem setSrc_group_other (j : Nat) (x : SrcSt) (i : Nat) : (s.setSrc j x).group i = s.group i := (rfl)
@[simp] theorem setSrc_tile_other (j : Nat) (x : SrcSt) (i : Nat) : (s.setSrc j x).tile i = s.tile i := (rfl)
@[simp] theorem setSrc_scaler_other (j : Nat) (x : SrcSt) (i : Nat) : (s.setSrc j x).scaler i = s.scaler i := (rfl)
@[simp] theorem setSrc_rod_other (j : Nat) (x : SrcSt) (i : Nat) : (s.setSrc j x).rod i = s.rod i := (rfl)
@[simp] theorem setSrc_sign_other (j : Nat) (x : SrcSt) (i : Nat) : (s.setSrc j x).sign i = s.sign i := (rfl)
@[simp] theorem setSrc_port_other (j : Nat) (x : SrcSt) (i : Nat) : (s.setSrc j x).port i = s.port i := (rfl)
@[simp] theorem setSrc_rxs_other (j : Nat) (x : SrcSt) (i : Nat) : (s.setSrc j x).rxs i = s.rxs i := (rfl)
@[simp] theorem setSrc_txs_other (j : Nat) (x : SrcSt) (i : Nat) : (s.setSrc j x).txs i = s.txs i := (rfl)
@[simp] theorem setSrc_pll_other (j : Nat) (x : SrcSt) (i : Nat) : (s.setSrc j x).pll i = s.pll i := (rfl)
@[simp] theorem setSrc_metered_other (j : Nat) (x : SrcSt) (i : Nat) : (s.setSrc j x).metered i = s.metered i := (rfl)
@[simp] theorem setSrc_pc_other (j : Nat) (x : SrcSt) (i : Nat) : (s.setSrc j x).pc i = s.pc i := (rfl)
@[simp] theorem setSrc_surface_other (j : Nat) (x : SrcSt) (i : Nat) : (s.setSrc j x).surface i = s.surface i := (rfl)
@[simp] theorem setSrc_wclass_other (j : Nat) (x : SrcSt) (i : Nat) : (s.setSrc j x).wclass i = s.wclass i := (rfl)
@[simp] theorem setSrc_byte_other (j : Nat) (x : SrcSt) (h' off' : Nat) : (s.setSrc j x).byte h' off' = s.byte h' off' := (rfl)

-- setWclass
@[simp] theorem setWclass_rd_other (c : Nat) (x : WClass) (i : Nat) : (s.setWclass c x).rd i = s.rd i := (rfl)
@[simp] theorem setWclass_sp_other (c : Nat) (x : WClass) (i : Nat) : (s.setWclass c x).sp i = s.sp i := (rfl)
@[simp] theorem setWclass_lv_other (c : Nat) (x : WClass) (i : Nat) : (s.setWclass c x).lv i = s.lv i := (rfl)
@[simp] theorem setWclass_cfg_other (c : Nat) (x : WClass) (i : Nat) : (s.setWclass c x).cfg i = s.cfg i := (rfl)
@[simp] theorem setWclass_dk_other (c : Nat) (x : WClass) (i : Nat) : (s.setWclass c x).dk i = s.dk i := (rfl)
@[simp] theorem setWclass_queue_other (c : Nat) (x : WClass) (i : Nat) : (s.setWclass c x).queue i = s.queue i := (rfl)
@[simp] theorem setWclass_safeOf_other (c : Nat) (x : WClass) (i : Nat) : (s.setWclass c x).safeOf i = s.safeOf i := (rfl)
@[simp] theorem setWclass_head_other (c : Nat) (x : WClass) (i : Nat) : (s.setWclass c x).head i = s.head i := (rfl)
@[simp] theorem setWclass_dp_other (c : Nat) (x : WClass) (i : Nat) : (s.setWclass c x).dp i = s.dp i := (rfl)
@[simp] theorem setWclass_group_other (c : Nat) (x : WClass) (i : Nat) : (s.setWclass c x).group i = s.group i := (rfl)
@[simp] theorem setWclass_tile_other (c : Nat) (x : WClass) (i : Nat) : (s.setWclass c x).tile i = s.tile i := (rfl)
@[simp] theorem setWclass_scaler_other (c : Nat) (x : WClass) (i : Nat) : (s.setWclass c x).scaler i = s.scaler i := (rfl)
@[simp] theorem setWclass_rod_other (c : Nat) (x : WClass) (i : Nat) : (s.setWclass c x).rod i = s.rod i := (rfl)
@[simp] theorem setWclass_sign_other (c : Nat) (x : WClass) (i : Nat) : (s.setWclass c x).sign i = s.sign i := (rfl)
@[simp] theorem setWclass_port_other (c : Nat) (x : WClass) (i : Nat) : (s.setWclass c x).port i = s.port i := (rfl)
@[simp] theorem setWclass_rxs_other (c : Nat) (x : WClass) (i : Nat) : (s.setWclass c x).rxs i = s.rxs i := (rfl)
@[simp] theorem setWclass_txs_other (c : Nat) (x : WClass) (i : Nat) : (s.setWclass c x).txs i = s.txs i := (rfl)
@[simp] theorem setWclass_pll_other (c : Nat) (x : WClass) (i : Nat) : (s.setWclass c x).pll i = s.pll i := (rfl)
@[simp] theorem setWclass_metered_other (c : Nat) (x : WClass) (i : Nat) : (s.setWclass c x).metered i = s.metered i := (rfl)
@[simp] theorem setWclass_pc_other (c : Nat) (x : WClass) (i : Nat) : (s.setWclass c x).pc i = s.pc i := (rfl)
@[simp] theorem setWclass_surface_other (c : Nat) (x : WClass) (i : Nat) : (s.setWclass c x).surface i = s.surface i := (rfl)
@[simp] theorem setWclass_src_other (c : Nat) (x : WClass) (i : Nat) : (s.setWclass c x).src i = s.src i := (rfl)
@[simp] theorem setWclass_byte_other (c : Nat) (x : WClass) (h' off' : Nat) : (s.setWclass c x).byte h' off' = s.byte h' off' := (rfl)

-- emit
@[simp] theorem emit_rd_other (o : Out) (i : Nat) : (s.emit o).rd i = s.rd i := (rfl)
@[simp] theorem emit_sp_other (o : Out) (i : Nat) : (s.emit o).sp i = s.sp i := (rfl)
@[simp] theorem emit_lv_other (o : Out) (i : Nat) : (s.emit o).lv i = s.lv i := (rfl)
@[simp] theorem emit_cfg_other (o : Out) (i : Nat) : (s.emit o).cfg i = s.cfg i := (rfl)
@[simp] theorem emit_dk_other (o : Out) (i : Nat) : (s.emit o).dk i = s.dk i := (rfl)
@[simp] theorem emit_queue_other (o : Out) (i : Nat) : (s.emit o).queue i = s.queue i := (rfl)
@[simp] theorem emit_safeOf_other (o : Out) (i : Nat) : (s.emit o).safeOf i = s.safeOf i := (rfl)
@[simp] theorem emit_head_other (o : Out) (i : Nat) : (s.emit o).head i = s.head i := (rfl)
@[simp] theorem emit_dp_other (o : Out) (i : Nat) : (s.emit o).dp i = s.dp i := (rfl)
@[simp] theorem emit_group_other (o : Out) (i : Nat) : (s.emit o).group i = s.group i := (rfl)
@[simp] theorem emit_tile_other (o : Out) (i : Nat) : (s.emit o).tile i = s.tile i := (rfl)
@[simp] theorem emit_scaler_other (o : Out) (i : Nat) : (s.emit o).scaler i = s.scaler i := (rfl)
@[simp] theorem emit_rod_other (o : Out) (i : Nat) : (s.emit o).rod i = s.rod i := (rfl)
@[simp] theorem emit_sign_other (o : Out) (i : Nat) : (s.emit o).sign i = s.sign i := (rfl)
@[simp] theorem emit_port_other (o : Out) (i : Nat) : (s.emit o).port i = s.port i := (rfl)
@[simp] theorem emit_rxs_other (o : Out) (i : Nat) : (s.emit o).rxs i = s.rxs i := (rfl)
@[simp] theorem emit_txs_other (o : Out) (i : Nat) : (s.emit o).txs i = s.txs i := (rfl)
@[simp] theorem emit_pll_other (o : Out) (i : Nat) : (s.emit o).pll i = s.pll i := (rfl)
@[simp] theorem emit_metered_other (o : Out) (i : Nat) : (s.emit o).metered i = s.metered i := (rfl)
@[simp] theorem emit_pc_other (o : Out) (i : Nat) : (s.emit o).pc i = s.pc i := (rfl)
@[simp] theorem emit_surface_other (o : Out) (i : Nat) : (s.emit o).surface i = s.surface i := (rfl)
@[simp] theorem emit_src_other (o : Out) (i : Nat) : (s.emit o).src i = s.src i := (rfl)
@[simp] theorem emit_wclass_other (o : Out) (i : Nat) : (s.emit o).wclass i = s.wclass i := (rfl)
@[simp] theorem emit_byte_other (o : Out) (h' off' : Nat) : (s.emit o).byte h' off' = s.byte h' off' := (rfl)

-- bumpFresh
@[simp] theorem bumpFresh_rd_other (i : Nat) : (s.bumpFresh).rd i = s.rd i := (rfl)
@[simp] theorem bumpFresh_sp_other (i : Nat) : (s.bumpFresh).sp i = s.sp i := (rfl)
@[simp] theorem bumpFresh_lv_other (i : Nat) : (s.bumpFresh).lv i = s.lv i := (rfl)
@[simp] theorem bumpFresh_cfg_other (i : Nat) : (s.bumpFresh).cfg i = s.cfg i := (rfl)
@[simp] theorem bumpFresh_dk_other (i : Nat) : (s.bumpFresh).dk i = s.dk i := (rfl)
@[simp] theorem bumpFresh_queue_other (i : Nat) : (s.bumpFresh).queue i = s.queue i := (rfl)
@[simp] theorem bumpFresh_safeOf_other (i : Nat) : (s.bumpFresh).safeOf i = s.safeOf i := (rfl)
@[simp] theorem bumpFresh_head_other (i : Nat) : (s.bumpFresh).head i = s.head i := (rfl)
@[simp] theorem bumpFresh_dp_other (i : Nat) : (s.bumpFresh).dp i = s.dp i := (rfl)
@[simp] theorem bumpFresh_group_other (i : Nat) : (s.bumpFresh).group i = s.group i := (rfl)
@[simp] theorem bumpFresh_tile_other (i : Nat) : (s.bumpFresh).tile i = s.tile i := (rfl)
@[simp] theorem bumpFresh_scaler_other (i : Nat) : (s.bumpFresh).scaler i = s.scaler i := (rfl)
@[simp] theorem bumpFresh_rod_other (i : Nat) : (s.bumpFresh).rod i = s.rod i := (rfl)
@[simp] theorem bumpFresh_sign_other (i : Nat) : (s.bumpFresh).sign i = s.sign i := (rfl)
@[simp] theorem bumpFresh_port_other (i : Nat) : (s.bumpFresh).port i = s.port i := (rfl)
@[simp] theorem bumpFresh_rxs_other (i : Nat) : (s.bumpFresh).rxs i = s.rxs i := (rfl)
@[simp] theorem bumpFresh_txs_other (i : Nat) : (s.bumpFresh).txs i = s.txs i := (rfl)
@[simp] theorem bumpFresh_pll_other (i : Nat) : (s.bumpFresh).pll i = s.pll i := (rfl)
@[simp] theorem bumpFresh_metered_other (i : Nat) : (s.bumpFresh).metered i = s.metered i := (rfl)
@[simp] theorem bumpFresh_pc_other (i : Nat) : (s.bumpFresh).pc i = s.pc i := (rfl)
@[simp] theorem bumpFresh_surface_other (i : Nat) : (s.bumpFresh).surface i = s.surface i := (rfl)
@[simp] theorem bumpFresh_src_other (i : Nat) : (s.bumpFresh).src i = s.src i := (rfl)
@[simp] theorem bumpFresh_wclass_other (i : Nat) : (s.bumpFresh).wclass i = s.wclass i := (rfl)
@[simp] theorem bumpFresh_byte_other (h' off' : Nat) : (s.bumpFresh).byte h' off' = s.byte h' off' := (rfl)

-- fail
@[simp] theorem fail_rd_other (c a : Nat) (i : Nat) : (s.fail c a).rd i = s.rd i := (rfl)
@[simp] theorem fail_sp_other (c a : Nat) (i : Nat) : (s.fail c a).sp i = s.sp i := (rfl)
@[simp] theorem fail_lv_other (c a : Nat) (i : Nat) : (s.fail c a).lv i = s.lv i := (rfl)
@[simp] theorem fail_cfg_other (c a : Nat) (i : Nat) : (s.fail c a).cfg i = s.cfg i := (rfl)
@[simp] theorem fail_dk_other (c a : Nat) (i : Nat) : (s.fail c a).dk i = s.dk i := (rfl)
@[simp] theorem fail_queue_other (c a : Nat) (i : Nat) : (s.fail c a).queue i = s.queue i := (rfl)
@[simp] theorem fail_safeOf_other (c a : Nat) (i : Nat) : (s.fail c a).safeOf i = s.safeOf i := (rfl)
@[simp] theorem fail_head_other (c a : Nat) (i : Nat) : (s.fail c a).head i = s.head i := (rfl)
@[simp] theorem fail_dp_other (c a : Nat) (i : Nat) : (s.fail c a).dp i = s.dp i := (rfl)
@[simp] theorem fail_group_other (c a : Nat) (i : Nat) : (s.fail c a).group i = s.group i := (rfl)
@[simp] theorem fail_tile_other (c a : Nat) (i : Nat) : (s.fail c a).tile i = s.tile i := (rfl)
@[simp] theorem fail_scaler_other (c a : Nat) (i : Nat) : (s.fail c a).scaler i = s.scaler i := (rfl)
@[simp] theorem fail_rod_other (c a : Nat) (i : Nat) : (s.fail c a).rod i = s.rod i := (rfl)
@[simp] theorem fail_sign_other (c a : Nat) (i : Nat) : (s.fail c a).sign i = s.sign i := (rfl)
@[simp] theorem fail_port_other (c a : Nat) (i : Nat) : (s.fail c a).port i = s.port i := (rfl)
@[simp] theorem fail_rxs_other (c a : Nat) (i : Nat) : (s.fail c a).rxs i = s.rxs i := (rfl)
@[simp] theorem fail_txs_other (c a : Nat) (i : Nat) : (s.fail c a).txs i = s.txs i := (rfl)
@[simp] theorem fail_pll_other (c a : Nat) (i : Nat) : (s.fail c a).pll i = s.pll i := (rfl)
@[simp] theorem fail_metered_other (c a : Nat) (i : Nat) : (s.fail c a).metered i = s.metered i := (rfl)
@[simp] theorem fail_pc_other (c a : Nat) (i : Nat) : (s.fail c a).pc i = s.pc i := (rfl)
@[simp] theorem fail_surface_other (c a : Nat) (i : Nat) : (s.fail c a).surface i = s.surface i := (rfl)
@[simp] theorem fail_src_other (c a : Nat) (i : Nat) : (s.fail c a).src i = s.src i := (rfl)
@[simp] theorem fail_wclass_other (c a : Nat) (i : Nat) : (s.fail c a).wclass i = s.wclass i := (rfl)
@[simp] theorem fail_byte_other (c a : Nat) (h' off' : Nat) : (s.fail c a).byte h' off' = s.byte h' off' := (rfl)

-- failPend
@[simp] theorem failPend_rd_other (c a : Nat) (i : Nat) : (s.failPend c a).rd i = s.rd i := (rfl)
@[simp] theorem failPend_sp_other (c a : Nat) (i : Nat) : (s.failPend c a).sp i = s.sp i := (rfl)
@[simp] theorem failPend_lv_other (c a : Nat) (i : Nat) : (s.failPend c a).lv i = s.lv i := (rfl)
@[simp] theorem failPend_cfg_other (c a : Nat) (i : Nat) : (s.failPend c a).cfg i = s.cfg i := (rfl)
@[simp] theorem failPend_dk_other (c a : Nat) (i : Nat) : (s.failPend c a).dk i = s.dk i := (rfl)
@[simp] theorem failPend_queue_other (c a : Nat) (i : Nat) : (s.failPend c a).queue i = s.queue i := (rfl)
@[simp] theorem failPend_safeOf_other (c a : Nat) (i : Nat) : (s.failPend c a).safeOf i = s.safeOf i := (rfl)
@[simp] theorem failPend_head_other (c a : Nat) (i : Nat) : (s.failPend c a).head i = s.head i := (rfl)
@[simp] theorem failPend_dp_other (c a : Nat) (i : Nat) : (s.failPend c a).dp i = s.dp i := (rfl)
@[simp] theorem failPend_group_other (c a : Nat) (i : Nat) : (s.failPend c a).group i = s.group i := (rfl)
@[simp] theorem failPend_tile_other (c a : Nat) (i : Nat) : (s.failPend c a).tile i = s.tile i := (rfl)
@[simp] theorem failPend_scaler_other (c a : Nat) (i : Nat) : (s.failPend c a).scaler i = s.scaler i := (rfl)
@[simp] theorem failPend_rod_other (c a : Nat) (i : Nat) : (s.failPend c a).rod i = s.rod i := (rfl)
@[simp] theorem failPend_sign_other (c a : Nat) (i : Nat) : (s.failPend c a).sign i = s.sign i := (rfl)
@[simp] theorem failPend_port_other (c a : Nat) (i : Nat) : (s.failPend c a).port i = s.port i := (rfl)
@[simp] theorem failPend_rxs_other (c a : Nat) (i : Nat) : (s.failPend c a).rxs i = s.rxs i := (rfl)
@[simp] theorem failPend_txs_other (c a : Nat) (i : Nat) : (s.failPend c a).txs i = s.txs i := (rfl)
@[simp] theorem failPend_pll_other (c a : Nat) (i : Nat) : (s.failPend c a).pll i = s.pll i := (rfl)
@[simp] theorem failPend_metered_other (c a : Nat) (i : Nat) : (s.failPend c a).metered i = s.metered i := (rfl)
@[simp] theorem failPend_pc_other (c a : Nat) (i : Nat) : (s.failPend c a).pc i = s.pc i := (rfl)
@[simp] theorem failPend_surface_other (c a : Nat) (i : Nat) : (s.failPend c a).surface i = s.surface i := (rfl)
@[simp] theorem failPend_src_other (c a : Nat) (i : Nat) : (s.failPend c a).src i = s.src i := (rfl)
@[simp] theorem failPend_wclass_other (c a : Nat) (i : Nat) : (s.failPend c a).wclass i = s.wclass i := (rfl)
@[simp] theorem failPend_byte_other (c a : Nat) (h' off' : Nat) : (s.failPend c a).byte h' off' = s.byte h' off' := (rfl)

-- clean
@[simp] theorem clean_rd_other (c a : Nat) (i : Nat) : (s.clean c a).rd i = s.rd i := (rfl)
@[simp] theorem clean_sp_other (c a : Nat) (i : Nat) : (s.clean c a).sp i = s.sp i := (rfl)
@[simp] theorem clean_lv_other (c a : Nat) (i : Nat) : (s.clean c a).lv i = s.lv i := (rfl)
@[simp] theorem clean_cfg_other (c a : Nat) (i : Nat) : (s.clean c a).cfg i = s.cfg i := (rfl)
@[simp] theorem clean_dk_other (c a : Nat) (i : Nat) : (s.clean c a).dk i = s.dk i := (rfl)
@[simp] theorem clean_queue_other (c a : Nat) (i : Nat) : (s.clean c a).queue i = s.queue i := (rfl)
@[simp] theorem clean_safeOf_other (c a : Nat) (i : Nat) : (s.clean c a).safeOf i = s.safeOf i := (rfl)
@[simp] theorem clean_head_other (c a : Nat) (i : Nat) : (s.clean c a).head i = s.head i := (rfl)
@[simp] theorem clean_dp_other (c a : Nat) (i : Nat) : (s.clean c a).dp i = s.dp i := (rfl)
@[simp] theorem clean_group_other (c a : Nat) (i : Nat) : (s.clean c a).group i = s.group i := (rfl)
@[simp] theorem clean_tile_other (c a : Nat) (i : Nat) : (s.clean c a).tile i = s.tile i := (rfl)
@[simp] theorem clean_scaler_other (c a : Nat) (i : Nat) : (s.clean c a).scaler i = s.scaler i := (rfl)
@[simp] theorem clean_rod_other (c a : Nat) (i : Nat) : (s.clean c a).rod i = s.rod i := (rfl)
@[simp] theorem clean_sign_other (c a : Nat) (i : Nat) : (s.clean c a).sign i = s.sign i := (rfl)
@[simp] theorem clean_port_other (c a : Nat) (i : Nat) : (s.clean c a).port i = s.port i := (rfl)
@[simp] theorem clean_rxs_other (c a : Nat) (i : Nat) : (s.clean c a).rxs i = s.rxs i := (rfl)
@[simp] theorem clean_txs_other (c a : Nat) (i : Nat) : (s.clean c a).txs i = s.txs i := (rfl)
@[simp] theorem clean_pll_other (c a : Nat) (i : Nat) : (s.clean c a).pll i = s.pll i := (rfl)
@[simp] theorem clean_metered_other (c a : Nat) (i : Nat) : (s.clean c a).metered i = s.metered i := (rfl)
@[simp] theorem clean_pc_other (c a : Nat) (i : Nat) : (s.clean c a).pc i = s.pc i := (rfl)
@[simp] theorem clean_surface_other (c a : Nat) (i : Nat) : (s.clean c a).surface i = s.surface i := (rfl)
@[simp] theorem clean_src_other (c a : Nat) (i : Nat) : (s.clean c a).src i = s.src i := (rfl)
@[simp] theorem clean_wclass_other (c a : Nat) (i : Nat) : (s.clean c a).wclass i = s.wclass i := (rfl)
@[simp] theorem clean_byte_other (c a : Nat) (h' off' : Nat) : (s.clean c a).byte h' off' = s.byte h' off' := (rfl)

-- cleanPend
@[simp] theorem cleanPend_rd_other (k : Nat) (i : Nat) : (s.cleanPend k).rd i = s.rd i := (rfl)
@[simp] theorem cleanPend_sp_other (k : Nat) (i : Nat) : (s.cleanPend k).sp i = s.sp i := (rfl)
@[simp] theorem cleanPend_lv_other (k : Nat) (i : Nat) : (s.cleanPend k).lv i = s.lv i := (rfl)
@[simp] theorem cleanPend_cfg_other (k : Nat) (i : Nat) : (s.cleanPend k).cfg i = s.cfg i := (rfl)
@[simp] theorem cleanPend_dk_other (k : Nat) (i : Nat) : (s.cleanPend k).dk i = s.dk i := (rfl)
@[simp] theorem cleanPend_queue_other (k : Nat) (i : Nat) : (s.cleanPend k).queue i = s.queue i := (rfl)
@[simp] theorem cleanPend_safeOf_other (k : Nat) (i : Nat) : (s.cleanPend k).safeOf i = s.safeOf i := (rfl)
@[simp] theorem cleanPend_head_other (k : Nat) (i : Nat) : (s.cleanPend k).head i = s.head i := (rfl)
@[simp] theorem cleanPend_dp_other (k : Nat) (i : Nat) : (s.cleanPend k).dp i = s.dp i := (rfl)
@[simp] theorem cleanPend_group_other (k : Nat) (i : Nat) : (s.cleanPend k).group i = s.group i := (rfl)
@[simp] theorem cleanPend_tile_other (k : Nat) (i : Nat) : (s.cleanPend k).tile i = s.tile i := (rfl)
@[simp] theorem cleanPend_scaler_other (k : Nat) (i : Nat) : (s.cleanPend k).scaler i = s.scaler i := (rfl)
@[simp] theorem cleanPend_rod_other (k : Nat) (i : Nat) : (s.cleanPend k).rod i = s.rod i := (rfl)
@[simp] theorem cleanPend_sign_other (k : Nat) (i : Nat) : (s.cleanPend k).sign i = s.sign i := (rfl)
@[simp] theorem cleanPend_port_other (k : Nat) (i : Nat) : (s.cleanPend k).port i = s.port i := (rfl)
@[simp] theorem cleanPend_rxs_other (k : Nat) (i : Nat) : (s.cleanPend k).rxs i = s.rxs i := (rfl)
@[simp] theorem cleanPend_txs_other (k : Nat) (i : Nat) : (s.cleanPend k).txs i = s.txs i := (rfl)
@[simp] theorem cleanPend_pll_other (k : Nat) (i : Nat) : (s.cleanPend k).pll i = s.pll i := (rfl)
@[simp] theorem cleanPend_metered_other (k : Nat) (i : Nat) : (s.cleanPend k).metered i = s.metered i := (rfl)
@[simp] theorem cleanPend_pc_other (k : Nat) (i : Nat) : (s.cleanPend k).pc i = s.pc i := (rfl)
@[simp] theorem cleanPend_surface_other (k : Nat) (i : Nat) : (s.cleanPend k).surface i = s.surface i := (rfl)
@[simp] theorem cleanPend_src_other (k : Nat) (i : Nat) : (s.cleanPend k).src i = s.src i := (rfl)
@[simp] theorem cleanPend_wclass_other (k : Nat) (i : Nat) : (s.cleanPend k).wclass i = s.wclass i := (rfl)
@[simp] theorem cleanPend_byte_other (k : Nat) (h' off' : Nat) : (s.cleanPend k).byte h' off' = s.byte h' off' := (rfl)

-- drawn
@[simp] theorem drawn_rd_other (n : Nat) (i : Nat) : (s.drawn n).rd i = s.rd i := (rfl)
@[simp] theorem drawn_sp_other (n : Nat) (i : Nat) : (s.drawn n).sp i = s.sp i := (rfl)
@[simp] theorem drawn_lv_other (n : Nat) (i : Nat) : (s.drawn n).lv i = s.lv i := (rfl)
@[simp] theorem drawn_cfg_other (n : Nat) (i : Nat) : (s.drawn n).cfg i = s.cfg i := (rfl)
@[simp] theorem drawn_dk_other (n : Nat) (i : Nat) : (s.drawn n).dk i = s.dk i := (rfl)
@[simp] theorem drawn_queue_other (n : Nat) (i : Nat) : (s.drawn n).queue i = s.queue i := (rfl)
@[simp] theorem drawn_safeOf_other (n : Nat) (i : Nat) : (s.drawn n).safeOf i = s.safeOf i := (rfl)
@[simp] theorem drawn_head_other (n : Nat) (i : Nat) : (s.drawn n).head i = s.head i := (rfl)
@[simp] theorem drawn_dp_other (n : Nat) (i : Nat) : (s.drawn n).dp i = s.dp i := (rfl)
@[simp] theorem drawn_group_other (n : Nat) (i : Nat) : (s.drawn n).group i = s.group i := (rfl)
@[simp] theorem drawn_tile_other (n : Nat) (i : Nat) : (s.drawn n).tile i = s.tile i := (rfl)
@[simp] theorem drawn_scaler_other (n : Nat) (i : Nat) : (s.drawn n).scaler i = s.scaler i := (rfl)
@[simp] theorem drawn_rod_other (n : Nat) (i : Nat) : (s.drawn n).rod i = s.rod i := (rfl)
@[simp] theorem drawn_sign_other (n : Nat) (i : Nat) : (s.drawn n).sign i = s.sign i := (rfl)
@[simp] theorem drawn_port_other (n : Nat) (i : Nat) : (s.drawn n).port i = s.port i := (rfl)
@[simp] theorem drawn_rxs_other (n : Nat) (i : Nat) : (s.drawn n).rxs i = s.rxs i := (rfl)
@[simp] theorem drawn_txs_other (n : Nat) (i : Nat) : (s.drawn n).txs i = s.txs i := (rfl)
@[simp] theorem drawn_pll_other (n : Nat) (i : Nat) : (s.drawn n).pll i = s.pll i := (rfl)
@[simp] theorem drawn_metered_other (n : Nat) (i : Nat) : (s.drawn n).metered i = s.metered i := (rfl)
@[simp] theorem drawn_pc_other (n : Nat) (i : Nat) : (s.drawn n).pc i = s.pc i := (rfl)
@[simp] theorem drawn_surface_other (n : Nat) (i : Nat) : (s.drawn n).surface i = s.surface i := (rfl)
@[simp] theorem drawn_src_other (n : Nat) (i : Nat) : (s.drawn n).src i = s.src i := (rfl)
@[simp] theorem drawn_wclass_other (n : Nat) (i : Nat) : (s.drawn n).wclass i = s.wclass i := (rfl)
@[simp] theorem drawn_byte_other (n : Nat) (h' off' : Nat) : (s.drawn n).byte h' off' = s.byte h' off' := (rfl)

-- bump
@[simp] theorem bump_sp_other (o n : Nat) (i : Nat) : (s.bump o n).sp i = s.sp i := wr_sp_other s _ _ _
@[simp] theorem bump_lv_other (o n : Nat) (i : Nat) : (s.bump o n).lv i = s.lv i := wr_lv_other s _ _ _
@[simp] theorem bump_cfg_other (o n : Nat) (i : Nat) : (s.bump o n).cfg i = s.cfg i := wr_cfg_other s _ _ _
@[simp] theorem bump_dk_other (o n : Nat) (i : Nat) : (s.bump o n).dk i = s.dk i := wr_dk_other s _ _ _
@[simp] theorem bump_queue_other (o n : Nat) (i : Nat) : (s.bump o n).queue i = s.queue i := wr_queue_other s _ _ _
@[simp] theorem bump_safeOf_other (o n : Nat) (i : Nat) : (s.bump o n).safeOf i = s.safeOf i := wr_safeOf_other s _ _ _
@[simp] theorem bump_head_other (o n : Nat) (i : Nat) : (s.bump o n).head i = s.head i := wr_head_other s _ _ _
@[simp] theorem bump_dp_other (o n : Nat) (i : Nat) : (s.bump o n).dp i = s.dp i := wr_dp_other s _ _ _
@[simp] theorem bump_group_other (o n : Nat) (i : Nat) : (s.bump o n).group i = s.group i := wr_group_other s _ _ _
@[simp] theorem bump_tile_other (o n : Nat) (i : Nat) : (s.bump o n).tile i = s.tile i := wr_tile_other s _ _ _
@[simp] theorem bump_scaler_other (o n : Nat) (i : Nat) : (s.bump o n).scaler i = s.scaler i := wr_scaler_other s _ _ _
@[simp] theorem bump_rod_other (o n : Nat) (i : Nat) : (s.bump o n).rod i = s.rod i := wr_rod_other s _ _ _
@[simp] theorem bump_sign_other (o n : Nat) (i : Nat) : (s.bump o n).sign i = s.sign i := wr_sign_other s _ _ _
@[simp] theorem bump_port_other (o n : Nat) (i : Nat) : (s.bump o n).port i = s.port i := wr_port_other s _ _ _
@[simp] theorem bump_rxs_other (o n : Nat) (i : Nat) : (s.bump o n).rxs i = s.rxs i := wr_rxs_other s _ _ _
@[simp] theorem bump_txs_other (o n : Nat) (i : Nat) : (s.bump o n).txs i = s.txs i := wr_txs_other s _ _ _
@[simp] theorem bump_pll_other (o n : Nat) (i : Nat) : (s.bump o n).pll i = s.pll i := wr_pll_other s _ _ _
@[simp] theorem bump_metered_other (o n : Nat) (i : Nat) : (s.bump o n).metered i = s.metered i := wr_metered_other s _ _ _
@[simp] theorem bump_pc_other (o n : Nat) (i : Nat) : (s.bump o n).pc i = s.pc i := wr_pc_other s _ _ _
@[simp] theorem bump_surface_other (o n : Nat) (i : Nat) : (s.bump o n).surface i = s.surface i := wr_surface_other s _ _ _
@[simp] theorem bump_src_other (o n : Nat) (i : Nat) : (s.bump o n).src i = s.src i := wr_src_other s _ _ _
@[simp] theorem bump_wclass_other (o n : Nat) (i : Nat) : (s.bump o n).wclass i = s.wclass i := wr_wclass_other s _ _ _
@[simp] theorem bump_byte_other (o n : Nat) (h' off' : Nat) : (s.bump o n).byte h' off' = s.byte h' off' := wr_byte_other s _ _ _ _

-- setFlag
@[simp] theorem setFlag_sp_other (o j : Nat) (i : Nat) : (s.setFlag o j).sp i = s.sp i := wr_sp_other s _ _ _
@[simp] theorem setFlag_lv_other (o j : Nat) (i : Nat) : (s.setFlag o j).lv i = s.lv i := wr_lv_other s _ _ _
@[simp] theorem setFlag_cfg_other (o j : Nat) (i : Nat) : (s.setFlag o j).cfg i = s.cfg i := wr_cfg_other s _ _ _
@[simp] theorem setFlag_dk_other (o j : Nat) (i : Nat) : (s.setFlag o j).dk i = s.dk i := wr_dk_other s _ _ _
@[simp] theorem setFlag_queue_other (o j : Nat) (i : Nat) : (s.setFlag o j).queue i = s.queue i := wr_queue_other s _ _ _
@[simp] theorem setFlag_safeOf_other (o j : Nat) (i : Nat) : (s.setFlag o j).safeOf i = s.safeOf i := wr_safeOf_other s _ _ _
@[simp] theorem setFlag_head_other (o j : Nat) (i : Nat) : (s.setFlag o j).head i = s.head i := wr_head_other s _ _ _
@[simp] theorem setFlag_dp_other (o j : Nat) (i : Nat) : (s.setFlag o j).dp i = s.dp i := wr_dp_other s _ _ _
@[simp] theorem setFlag_group_other (o j : Nat) (i : Nat) : (s.setFlag o j).group i = s.group i := wr_group_other s _ _ _
@[simp] theorem setFlag_tile_other (o j : Nat) (i : Nat) : (s.setFlag o j).tile i = s.tile i := wr_tile_other s _ _ _
@[simp] theorem setFlag_scaler_other (o j : Nat) (i : Nat) : (s.setFlag o j).scaler i = s.scaler i := wr_scaler_other s _ _ _
@[simp] theorem setFlag_rod_other (o j : Nat) (i : Nat) : (s.setFlag o j).rod i = s.rod i := wr_rod_other s _ _ _
@[simp] theorem setFlag_sign_other (o j : Nat) (i : Nat) : (s.setFlag o j).sign i = s.sign i := wr_sign_other s _ _ _
@[simp] theorem setFlag_port_other (o j : Nat) (i : Nat) : (s.setFlag o j).port i = s.port i := wr_port_other s _ _ _
@[simp] theorem setFlag_rxs_other (o j : Nat) (i : Nat) : (s.setFlag o j).rxs i = s.rxs i := wr_rxs_other s _ _ _
@[simp] theorem setFlag_txs_other (o j : Nat) (i : Nat) : (s.setFlag o j).txs i = s.txs i := wr_txs_other s _ _ _
@[simp] theorem setFlag_pll_other (o j : Nat) (i : Nat) : (s.setFlag o j).pll i = s.pll i := wr_pll_other s _ _ _
@[simp] theorem setFlag_metered_other (o j : Nat) (i : Nat) : (s.setFlag o j).metered i = s.metered i := wr_metered_other s _ _ _
@[simp] theorem setFlag_pc_other (o j : Nat) (i : Nat) : (s.setFlag o j).pc i = s.pc i := wr_pc_other s _ _ _
@[simp] theorem setFlag_surface_other (o j : Nat) (i : Nat) : (s.setFlag o j).surface i = s.surface i := wr_surface_other s _ _ _
@[simp] theorem setFlag_src_other (o j : Nat) (i : Nat) : (s.setFlag o j).src i = s.src i := wr_src_other s _ _ _
@[simp] theorem setFlag_wclass_other (o j : Nat) (i : Nat) : (s.setFlag o j).wclass i = s.wclass i := wr_wclass_other s _ _ _
@[simp] theorem setFlag_byte_other (o j : Nat) (h' off' : Nat) : (s.setFlag o j).byte h' off' = s.byte h' off' := wr_byte_other s _ _ _ _

-- wrBits
@[simp] theorem wrBits_sp_other (o hi lo v : Nat) (i : Nat) : (s.wrBits o hi lo v).sp i = s.sp i := wr_sp_other s _ _ _
@[simp] theorem wrBits_lv_other (o hi lo v : Nat) (i : Nat) : (s.wrBits o hi lo v).lv i = s.lv i := wr_lv_other s _ _ _
@[simp] theorem wrBits_cfg_other (o hi lo v : Nat) (i : Nat) : (s.wrBits o hi lo v).cfg i = s.cfg i := wr_cfg_other s _ _ _
@[simp] theorem wrBits_dk_other (o hi lo v : Nat) (i : Nat) : (s.wrBits o hi lo v).dk i = s.dk i := wr_dk_other s _ _ _
@[simp] theorem wrBits_queue_other (o hi lo v : Nat) (i : Nat) : (s.wrBits o hi lo v).queue i = s.queue i := wr_queue_other s _ _ _
@[simp] theorem wrBits_safeOf_other (o hi lo v : Nat) (i : Nat) : (s.wrBits o hi lo v).safeOf i = s.safeOf i := wr_safeOf_other s _ _ _
@[simp] theorem wrBits_head_other (o hi lo v : Nat) (i : Nat) : (s.wrBits o hi lo v).head i = s.head i := wr_head_other s _ _ _
@[simp] theorem wrBits_dp_other (o hi lo v : Nat) (i : Nat) : (s.wrBits o hi lo v).dp i = s.dp i := wr_dp_other s _ _ _
@[simp] theorem wrBits_group_other (o hi lo v : Nat) (i : Nat) : (s.wrBits o hi lo v).group i = s.group i := wr_group_other s _ _ _
@[simp] theorem wrBits_tile_other (o hi lo v : Nat) (i : Nat) : (s.wrBits o hi lo v).tile i = s.tile i := wr_tile_other s _ _ _
@[simp] theorem wrBits_scaler_other (o hi lo v : Nat) (i : Nat) : (s.wrBits o hi lo v).scaler i = s.scaler i := wr_scaler_other s _ _ _
@[simp] theorem wrBits_rod_other (o hi lo v : Nat) (i : Nat) : (s.wrBits o hi lo v).rod i = s.rod i := wr_rod_other s _ _ _
@[simp] theorem wrBits_sign_other (o hi lo v : Nat) (i : Nat) : (s.wrBits o hi lo v).sign i = s.sign i := wr_sign_other s _ _ _
@[simp] theorem wrBits_port_other (o hi lo v : Nat) (i : Nat) : (s.wrBits o hi lo v).port i = s.port i := wr_port_other s _ _ _
@[simp] theorem wrBits_rxs_other (o hi lo v : Nat) (i : Nat) : (s.wrBits o hi lo v).rxs i = s.rxs i := wr_rxs_other s _ _ _
@[simp] theorem wrBits_txs_other (o hi lo v : Nat) (i : Nat) : (s.wrBits o hi lo v).txs i = s.txs i := wr_txs_other s _ _ _
@[simp] theorem wrBits_pll_other (o hi lo v : Nat) (i : Nat) : (s.wrBits o hi lo v).pll i = s.pll i := wr_pll_other s _ _ _
@[simp] theorem wrBits_metered_other (o hi lo v : Nat) (i : Nat) : (s.wrBits o hi lo v).metered i = s.metered i := wr_metered_other s _ _ _
@[simp] theorem wrBits_pc_other (o hi lo v : Nat) (i : Nat) : (s.wrBits o hi lo v).pc i = s.pc i := wr_pc_other s _ _ _
@[simp] theorem wrBits_surface_other (o hi lo v : Nat) (i : Nat) : (s.wrBits o hi lo v).surface i = s.surface i := wr_surface_other s _ _ _
@[simp] theorem wrBits_src_other (o hi lo v : Nat) (i : Nat) : (s.wrBits o hi lo v).src i = s.src i := wr_src_other s _ _ _
@[simp] theorem wrBits_wclass_other (o hi lo v : Nat) (i : Nat) : (s.wrBits o hi lo v).wclass i = s.wclass i := wr_wclass_other s _ _ _
@[simp] theorem wrBits_byte_other (o hi lo v : Nat) (h' off' : Nat) : (s.wrBits o hi lo v).byte h' off' = s.byte h' off' := wr_byte_other s _ _ _ _

-- setBytes
@[simp] theorem setBytes_rd_other (h off : Nat) (bs : List Byte) (i : Nat) : (s.setBytes h off bs).rd i = s.rd i := (rfl)
@[simp] theorem setBytes_sp_other (h off : Nat) (bs : List Byte) (i : Nat) : (s.setBytes h off bs).sp i = s.sp i := (rfl)
@[simp] theorem setBytes_lv_other (h off : Nat) (bs : List Byte) (i : Nat) : (s.setBytes h off bs).lv i = s.lv i := (rfl)
@[simp] theorem setBytes_cfg_other (h off : Nat) (bs : List Byte) (i : Nat) : (s.setBytes h off bs).cfg i = s.cfg i := (rfl)
@[simp] theorem setBytes_dk_other (h off : Nat) (bs : List Byte) (i : Nat) : (s.setBytes h off bs).dk i = s.dk i := (rfl)
@[simp] theorem setBytes_queue_other (h off : Nat) (bs : List Byte) (i : Nat) : (s.setBytes h off bs).queue i = s.queue i := (rfl)
@[simp] theorem setBytes_safeOf_other (h off : Nat) (bs : List Byte) (i : Nat) : (s.setBytes h off bs).safeOf i = s.safeOf i := (rfl)
@[simp] theorem setBytes_head_other (h off : Nat) (bs : List Byte) (i : Nat) : (s.setBytes h off bs).head i = s.head i := (rfl)
@[simp] theorem setBytes_dp_other (h off : Nat) (bs : List Byte) (i : Nat) : (s.setBytes h off bs).dp i = s.dp i := (rfl)
@[simp] theorem setBytes_group_other (h off : Nat) (bs : List Byte) (i : Nat) : (s.setBytes h off bs).group i = s.group i := (rfl)
@[simp] theorem setBytes_tile_other (h off : Nat) (bs : List Byte) (i : Nat) : (s.setBytes h off bs).tile i = s.tile i := (rfl)
@[simp] theorem setBytes_scaler_other (h off : Nat) (bs : List Byte) (i : Nat) : (s.setBytes h off bs).scaler i = s.scaler i := (rfl)
@[simp] theorem setBytes_rod_other (h off : Nat) (bs : List Byte) (i : Nat) : (s.setBytes h off bs).rod i = s.rod i := (rfl)
@[simp] theorem setBytes_sign_other (h off : Nat) (bs : List Byte) (i : Nat) : (s.setBytes h off bs).sign i = s.sign i := (rfl)
@[simp] theorem setBytes_port_other (h off : Nat) (bs : List Byte) (i : Nat) : (s.setBytes h off bs).port i = s.port i := (rfl)
@[simp] theorem setBytes_rxs_other (h off : Nat) (bs : List Byte) (i : Nat) : (s.setBytes h off bs).rxs i = s.rxs i := (rfl)
@[simp] theorem setBytes_txs_other (h off : Nat) (bs : List Byte) (i : Nat) : (s.setBytes h off bs).txs i = s.txs i := (rfl)
@[simp] theorem setBytes_pll_other (h off : Nat) (bs : List Byte) (i : Nat) : (s.setBytes h off bs).pll i = s.pll i := (rfl)
@[simp] theorem setBytes_metered_other (h off : Nat) (bs : List Byte) (i : Nat) : (s.setBytes h off bs).metered i = s.metered i := (rfl)
@[simp] theorem setBytes_pc_other (h off : Nat) (bs : List Byte) (i : Nat) : (s.setBytes h off bs).pc i = s.pc i := (rfl)
@[simp] theorem setBytes_surface_other (h off : Nat) (bs : List Byte) (i : Nat) : (s.setBytes h off bs).surface i = s.surface i := (rfl)
@[simp] theorem setBytes_src_other (h off : Nat) (bs : List Byte) (i : Nat) : (s.setBytes h off bs).src i = s.src i := (rfl)
@[simp] theorem setBytes_wclass_other (h off : Nat) (bs : List Byte) (i : Nat) : (s.setBytes h off bs).wclass i = s.wclass i := (rfl)

-- zeroBytes
@[simp] theorem zeroBytes_rd_other (h lo hi : Nat) (i : Nat) : (s.zeroBytes h lo hi).rd i = s.rd i := (rfl)
@[simp] theorem zeroBytes_sp_other (h lo hi : Nat) (i : Nat) : (s.zeroBytes h lo hi).sp i = s.sp i := (rfl)
@[simp] theorem zeroBytes_lv_other (h lo hi : Nat) (i : Nat) : (s.zeroBytes h lo hi).lv i = s.lv i := (rfl)
@[simp] theorem zeroBytes_cfg_other (h lo hi : Nat) (i : Nat) : (s.zeroBytes h lo hi).cfg i = s.cfg i := (rfl)
@[simp] theorem zeroBytes_dk_other (h lo hi : Nat) (i : Nat) : (s.zeroBytes h lo hi).dk i = s.dk i := (rfl)
@[simp] theorem zeroBytes_queue_other (h lo hi : Nat) (i : Nat) : (s.zeroBytes h lo hi).queue i = s.queue i := (rfl)
@[simp] theorem zeroBytes_safeOf_other (h lo hi : Nat) (i : Nat) : (s.zeroBytes h lo hi).safeOf i = s.safeOf i := (rfl)
@[simp] theorem zeroBytes_head_other (h lo hi : Nat) (i : Nat) : (s.zeroBytes h lo hi).head i = s.head i := (rfl)
@[simp] theorem zeroBytes_dp_other (h lo hi : Nat) (i : Nat) : (s.zeroBytes h lo hi).dp i = s.dp i := (rfl)
@[simp] theorem zeroBytes_group_other (h lo hi : Nat) (i : Nat) : (s.zeroBytes h lo hi).group i = s.group i := (rfl)
@[simp] theorem zeroBytes_tile_other (h lo hi : Nat) (i : Nat) : (s.zeroBytes h lo hi).tile i = s.tile i := (rfl)
@[simp] theorem zeroBytes_scaler_other (h lo hi : Nat) (i : Nat) : (s.zeroBytes h lo hi).scaler i = s.scaler i := (rfl)
@[simp] theorem zeroBytes_rod_other (h lo hi : Nat) (i : Nat) : (s.zeroBytes h lo hi).rod i = s.rod i := (rfl)
@[simp] theorem zeroBytes_sign_other (h lo hi : Nat) (i : Nat) : (s.zeroBytes h lo hi).sign i = s.sign i := (rfl)
@[simp] theorem zeroBytes_port_other (h lo hi : Nat) (i : Nat) : (s.zeroBytes h lo hi).port i = s.port i := (rfl)
@[simp] theorem zeroBytes_rxs_other (h lo hi : Nat) (i : Nat) : (s.zeroBytes h lo hi).rxs i = s.rxs i := (rfl)
@[simp] theorem zeroBytes_txs_other (h lo hi : Nat) (i : Nat) : (s.zeroBytes h lo hi).txs i = s.txs i := (rfl)
@[simp] theorem zeroBytes_pll_other (h lo hi : Nat) (i : Nat) : (s.zeroBytes h lo hi).pll i = s.pll i := (rfl)
@[simp] theorem zeroBytes_metered_other (h lo hi : Nat) (i : Nat) : (s.zeroBytes h lo hi).metered i = s.metered i := (rfl)
@[simp] theorem zeroBytes_pc_other (h lo hi : Nat) (i : Nat) : (s.zeroBytes h lo hi).pc i = s.pc i := (rfl)
@[simp] theorem zeroBytes_surface_other (h lo hi : Nat) (i : Nat) : (s.zeroBytes h lo hi).surface i = s.surface i := (rfl)
@[simp] theorem zeroBytes_src_other (h lo hi : Nat) (i : Nat) : (s.zeroBytes h lo hi).src i = s.src i := (rfl)
@[simp] theorem zeroBytes_wclass_other (h lo hi : Nat) (i : Nat) : (s.zeroBytes h lo hi).wclass i = s.wclass i := (rfl)

-- within one structure
@[simp] theorem setPc_surface_other (p : Nat) (x : Pc) (i : Nat) : (s.setPc p x).surface i = s.surface i := (rfl)
@[simp] theorem setSurface_pc_other (h : Nat) (x : Option Surface) (i : Nat) : (s.setSurface h x).pc i = s.pc i := (rfl)
@[simp] theorem setCfg_col_src (o : Nat) (v : Word) : (s.setCfg o v).col.src = s.col.src := (rfl)
@[simp] theorem setCfg_col_phase (o : Nat) (v : Word) : (s.setCfg o v).col.phase = s.col.phase := (rfl)
@[simp] theorem setCfg_col_bad (o : Nat) (v : Word) : (s.setCfg o v).col.bad = s.col.bad := (rfl)
@[simp] theorem setCfg_col_selfWait (o : Nat) (v : Word) : (s.setCfg o v).col.selfWait = s.col.selfWait := (rfl)
@[simp] theorem setCfg_col_inj (o : Nat) (v : Word) : (s.setCfg o v).col.inj = s.col.inj := (rfl)
@[simp] theorem setCfg_col_faults (o : Nat) (v : Word) : (s.setCfg o v).col.faults = s.col.faults := (rfl)
@[simp] theorem setCfg_col_armed (o : Nat) (v : Word) : (s.setCfg o v).col.armed = s.col.armed := (rfl)
@[simp] theorem setCfg_col_comparing (o : Nat) (v : Word) : (s.setCfg o v).col.comparing = s.col.comparing := (rfl)
@[simp] theorem setCfg_col_passArmed (o : Nat) (v : Word) : (s.setCfg o v).col.passArmed = s.col.passArmed := (rfl)
@[simp] theorem wr_func_other (o : Nat) (v : Word) (i : Nat) : (s.wr o v).func i = s.func i := (rfl)  -- setCfg_func_other
@[simp] theorem setCfg_func_other (o : Nat) (v : Word) (i : Nat) : (s.setCfg o v).func i = s.func i := (rfl)  -- setCfg_func_other
@[simp] theorem setSp_func_other (o : Nat) (v : Word) (i : Nat) : (s.setSp o v).func i = s.func i := (rfl)  -- setCfg_func_other
@[simp] theorem setFlag_func_other (o j : Nat) (i : Nat) : (s.setFlag o j).func i = s.func i := (rfl)  -- setCfg_func_other
@[simp] theorem wrBits_func_other (o hi lo v : Nat) (i : Nat) : (s.wrBits o hi lo v).func i = s.func i := (rfl)  -- setCfg_func_other
@[simp] theorem bump_func_other (o n : Nat) (i : Nat) : (s.bump o n).func i = s.func i := (rfl)  -- setCfg_func_other
@[simp] theorem emit_func_other (o : Out) (i : Nat) : (s.emit o).func i = s.func i := (rfl)  -- setCfg_func_other
@[simp] theorem setQueue_func_other (q : Nat) (x : Queue) (i : Nat) : (s.setQueue q x).func i = s.func i := (rfl)  -- setCfg_func_other
@[simp] theorem setCfg_src_other (o : Nat) (v : Word) (i : Nat) : (s.setCfg o v).src i = s.src i := (rfl)
-- setMaster
@[simp] theorem setMaster_rd_other (m : Master) (x : MState) (i : Nat) : (s.setMaster m x).rd i = s.rd i := by cases m <;> rfl
@[simp] theorem setMaster_sp_other (m : Master) (x : MState) (i : Nat) : (s.setMaster m x).sp i = s.sp i := by cases m <;> rfl
@[simp] theorem setMaster_lv_other (m : Master) (x : MState) (i : Nat) : (s.setMaster m x).lv i = s.lv i := by cases m <;> rfl
@[simp] theorem setMaster_cfg_other (m : Master) (x : MState) (i : Nat) : (s.setMaster m x).cfg i = s.cfg i := by cases m <;> rfl
@[simp] theorem setMaster_dk_other (m : Master) (x : MState) (i : Nat) : (s.setMaster m x).dk i = s.dk i := by cases m <;> rfl
@[simp] theorem setMaster_queue_other (m : Master) (x : MState) (i : Nat) : (s.setMaster m x).queue i = s.queue i := by cases m <;> rfl
@[simp] theorem setMaster_safeOf_other (m : Master) (x : MState) (i : Nat) : (s.setMaster m x).safeOf i = s.safeOf i := by cases m <;> rfl
@[simp] theorem setMaster_head_other (m : Master) (x : MState) (i : Nat) : (s.setMaster m x).head i = s.head i := by cases m <;> rfl
@[simp] theorem setMaster_dp_other (m : Master) (x : MState) (i : Nat) : (s.setMaster m x).dp i = s.dp i := by cases m <;> rfl
@[simp] theorem setMaster_group_other (m : Master) (x : MState) (i : Nat) : (s.setMaster m x).group i = s.group i := by cases m <;> rfl
@[simp] theorem setMaster_tile_other (m : Master) (x : MState) (i : Nat) : (s.setMaster m x).tile i = s.tile i := by cases m <;> rfl
@[simp] theorem setMaster_scaler_other (m : Master) (x : MState) (i : Nat) : (s.setMaster m x).scaler i = s.scaler i := by cases m <;> rfl
@[simp] theorem setMaster_rod_other (m : Master) (x : MState) (i : Nat) : (s.setMaster m x).rod i = s.rod i := by cases m <;> rfl
@[simp] theorem setMaster_sign_other (m : Master) (x : MState) (i : Nat) : (s.setMaster m x).sign i = s.sign i := by cases m <;> rfl
@[simp] theorem setMaster_port_other (m : Master) (x : MState) (i : Nat) : (s.setMaster m x).port i = s.port i := by cases m <;> rfl
@[simp] theorem setMaster_rxs_other (m : Master) (x : MState) (i : Nat) : (s.setMaster m x).rxs i = s.rxs i := by cases m <;> rfl
@[simp] theorem setMaster_txs_other (m : Master) (x : MState) (i : Nat) : (s.setMaster m x).txs i = s.txs i := by cases m <;> rfl
@[simp] theorem setMaster_pll_other (m : Master) (x : MState) (i : Nat) : (s.setMaster m x).pll i = s.pll i := by cases m <;> rfl
@[simp] theorem setMaster_metered_other (m : Master) (x : MState) (i : Nat) : (s.setMaster m x).metered i = s.metered i := by cases m <;> rfl
@[simp] theorem setMaster_pc_other (m : Master) (x : MState) (i : Nat) : (s.setMaster m x).pc i = s.pc i := by cases m <;> rfl
@[simp] theorem setMaster_surface_other (m : Master) (x : MState) (i : Nat) : (s.setMaster m x).surface i = s.surface i := by cases m <;> rfl
@[simp] theorem setMaster_src_other (m : Master) (x : MState) (i : Nat) : (s.setMaster m x).src i = s.src i := by cases m <;> rfl
@[simp] theorem setMaster_wclass_other (m : Master) (x : MState) (i : Nat) : (s.setMaster m x).wclass i = s.wclass i := by cases m <;> rfl
@[simp] theorem setMaster_byte_other (m : Master) (x : MState) (h' off' : Nat) : (s.setMaster m x).byte h' off' = s.byte h' off' := by cases m <;> rfl
-- setFunc
@[simp] theorem setFunc_rd_other (k : Nat) (x : Func) (i : Nat) : (s.setFunc k x).rd i = s.rd i := by unfold setFunc; split <;> rfl
@[simp] theorem setFunc_sp_other (k : Nat) (x : Func) (i : Nat) : (s.setFunc k x).sp i = s.sp i := by unfold setFunc; split <;> rfl
@[simp] theorem setFunc_lv_other (k : Nat) (x : Func) (i : Nat) : (s.setFunc k x).lv i = s.lv i := by unfold setFunc; split <;> rfl
@[simp] theorem setFunc_cfg_other (k : Nat) (x : Func) (i : Nat) : (s.setFunc k x).cfg i = s.cfg i := by unfold setFunc; split <;> rfl
@[simp] theorem setFunc_dk_other (k : Nat) (x : Func) (i : Nat) : (s.setFunc k x).dk i = s.dk i := by unfold setFunc; split <;> rfl
@[simp] theorem setFunc_queue_other (k : Nat) (x : Func) (i : Nat) : (s.setFunc k x).queue i = s.queue i := by unfold setFunc; split <;> rfl
@[simp] theorem setFunc_safeOf_other (k : Nat) (x : Func) (i : Nat) : (s.setFunc k x).safeOf i = s.safeOf i := by unfold setFunc; split <;> rfl
@[simp] theorem setFunc_head_other (k : Nat) (x : Func) (i : Nat) : (s.setFunc k x).head i = s.head i := by unfold setFunc; split <;> rfl
@[simp] theorem setFunc_dp_other (k : Nat) (x : Func) (i : Nat) : (s.setFunc k x).dp i = s.dp i := by unfold setFunc; split <;> rfl
@[simp] theorem setFunc_group_other (k : Nat) (x : Func) (i : Nat) : (s.setFunc k x).group i = s.group i := by unfold setFunc; split <;> rfl
@[simp] theorem setFunc_tile_other (k : Nat) (x : Func) (i : Nat) : (s.setFunc k x).tile i = s.tile i := by unfold setFunc; split <;> rfl
@[simp] theorem setFunc_scaler_other (k : Nat) (x : Func) (i : Nat) : (s.setFunc k x).scaler i = s.scaler i := by unfold setFunc; split <;> rfl
@[simp] theorem setFunc_rod_other (k : Nat) (x : Func) (i : Nat) : (s.setFunc k x).rod i = s.rod i := by unfold setFunc; split <;> rfl
@[simp] theorem setFunc_sign_other (k : Nat) (x : Func) (i : Nat) : (s.setFunc k x).sign i = s.sign i := by unfold setFunc; split <;> rfl
@[simp] theorem setFunc_port_other (k : Nat) (x : Func) (i : Nat) : (s.setFunc k x).port i = s.port i := by unfold setFunc; split <;> rfl
@[simp] theorem setFunc_rxs_other (k : Nat) (x : Func) (i : Nat) : (s.setFunc k x).rxs i = s.rxs i := by unfold setFunc; split <;> rfl
@[simp] theorem setFunc_txs_other (k : Nat) (x : Func) (i : Nat) : (s.setFunc k x).txs i = s.txs i := by unfold setFunc; split <;> rfl
@[simp] theorem setFunc_pll_other (k : Nat) (x : Func) (i : Nat) : (s.setFunc k x).pll i = s.pll i := by unfold setFunc; split <;> rfl
@[simp] theorem setFunc_metered_other (k : Nat) (x : Func) (i : Nat) : (s.setFunc k x).metered i = s.metered i := by unfold setFunc; split <;> rfl
@[simp] theorem setFunc_pc_other (k : Nat) (x : Func) (i : Nat) : (s.setFunc k x).pc i = s.pc i := by unfold setFunc; split <;> rfl
@[simp] theorem setFunc_surface_other (k : Nat) (x : Func) (i : Nat) : (s.setFunc k x).surface i = s.surface i := by unfold setFunc; split <;> rfl
@[simp] theorem setFunc_src_other (k : Nat) (x : Func) (i : Nat) : (s.setFunc k x).src i = s.src i := by unfold setFunc; split <;> rfl
@[simp] theorem setFunc_wclass_other (k : Nat) (x : Func) (i : Nat) : (s.setFunc k x).wclass i = s.wclass i := by unfold setFunc; split <;> rfl
@[simp] theorem setFunc_byte_other (k : Nat) (x : Func) (h' off' : Nat) : (s.setFunc k x).byte h' off' = s.byte h' off' := by unfold setFunc; split <;> rfl
-- hold and keeping
@[simp] theorem hold_rd (i : Nat) : (hold s t).rd i = t.rd i := (rfl)
@[simp] theorem keeping_rd (ps : List Part) (i : Nat) : (keeping ps s t).rd i = t.rd i := (rfl)
@[simp] theorem hold_sp (i : Nat) : (hold s t).sp i = t.sp i := (rfl)
@[simp] theorem keeping_sp (ps : List Part) (i : Nat) : (keeping ps s t).sp i = t.sp i := (rfl)
@[simp] theorem hold_lv (i : Nat) : (hold s t).lv i = t.lv i := (rfl)
@[simp] theorem keeping_lv (ps : List Part) (i : Nat) : (keeping ps s t).lv i = if ps.contains .force then t.lv i else s.lv i := by
  unfold lv; simp only [keeping_live]; split <;> rfl
@[simp] theorem hold_cfg (i : Nat) : (hold s t).cfg i = t.cfg i := (rfl)
@[simp] theorem keeping_cfg (ps : List Part) (i : Nat) : (keeping ps s t).cfg i = if ps.contains .force then t.cfg i else s.cfg i := by
  unfold cfg; simp only [keeping_unit]; split <;> rfl
@[simp] theorem hold_dk (i : Nat) : (hold s t).dk i = t.dk i := (rfl)
@[simp] theorem keeping_dk (ps : List Part) (i : Nat) : (keeping ps s t).dk i = t.dk i := (rfl)
@[simp] theorem hold_queue (i : Nat) : (hold s t).queue i = t.queue i := (rfl)
@[simp] theorem keeping_queue (ps : List Part) (i : Nat) : (keeping ps s t).queue i = if ps.contains .queues then t.queue i else s.queue i := by
  unfold queue; simp only [keeping_queues]; split <;> rfl
@[simp] theorem hold_safeOf (i : Nat) : (hold s t).safeOf i = t.safeOf i := (rfl)
@[simp] theorem keeping_safeOf (ps : List Part) (i : Nat) : (keeping ps s t).safeOf i = t.safeOf i := (rfl)
@[simp] theorem hold_head (i : Nat) : (hold s t).head i = t.head i := (rfl)
@[simp] theorem keeping_head (ps : List Part) (i : Nat) : (keeping ps s t).head i = if ps.contains .outputs then t.head i else s.head i := by
  unfold head; simp only [keeping_heads]; split <;> rfl
@[simp] theorem hold_dp (i : Nat) : (hold s t).dp i = t.dp i := (rfl)
@[simp] theorem keeping_dp (ps : List Part) (i : Nat) : (keeping ps s t).dp i = if ps.contains .outputs then t.dp i else s.dp i := by
  unfold dp; simp only [keeping_dps]; split <;> rfl
@[simp] theorem hold_group (i : Nat) : (hold s t).group i = t.group i := (rfl)
@[simp] theorem keeping_group (ps : List Part) (i : Nat) : (keeping ps s t).group i = if ps.contains .compose then t.group i else s.group i := by
  unfold group; simp only [keeping_groups]; split <;> rfl
@[simp] theorem hold_tile (i : Nat) : (hold s t).tile i = t.tile i := (rfl)
@[simp] theorem keeping_tile (ps : List Part) (i : Nat) : (keeping ps s t).tile i = if ps.contains .compose then t.tile i else s.tile i := by
  unfold tile; simp only [keeping_tiles]; split <;> rfl
@[simp] theorem hold_scaler (i : Nat) : (hold s t).scaler i = t.scaler i := (rfl)
@[simp] theorem keeping_scaler (ps : List Part) (i : Nat) : (keeping ps s t).scaler i = if ps.contains .compose then t.scaler i else s.scaler i := by
  unfold scaler; simp only [keeping_scalers]; split <;> rfl
@[simp] theorem hold_rod (i : Nat) : (hold s t).rod i = t.rod i := (rfl)
@[simp] theorem keeping_rod (ps : List Part) (i : Nat) : (keeping ps s t).rod i = if ps.contains .compose then t.rod i else s.rod i := by
  unfold rod; simp only [keeping_rods]; split <;> rfl
@[simp] theorem hold_sign (i : Nat) : (hold s t).sign i = t.sign i := (rfl)
@[simp] theorem keeping_sign (ps : List Part) (i : Nat) : (keeping ps s t).sign i = if ps.contains .compose then t.sign i else s.sign i := by
  unfold sign; simp only [keeping_signs]; split <;> rfl
@[simp] theorem hold_port (i : Nat) : (hold s t).port i = t.port i := (rfl)
@[simp] theorem keeping_port (ps : List Part) (i : Nat) : (keeping ps s t).port i = t.port i := (rfl)
@[simp] theorem hold_rxs (i : Nat) : (hold s t).rxs i = t.rxs i := (rfl)
@[simp] theorem keeping_rxs (ps : List Part) (i : Nat) : (keeping ps s t).rxs i = if ps.contains .receive then t.rxs i else s.rxs i := by
  unfold rxs; simp only [keeping_rx]; split <;> rfl
@[simp] theorem hold_txs (i : Nat) : (hold s t).txs i = t.txs i := (rfl)
@[simp] theorem keeping_txs (ps : List Part) (i : Nat) : (keeping ps s t).txs i = t.txs i := (rfl)
@[simp] theorem hold_pll (i : Nat) : (hold s t).pll i = t.pll i := (rfl)
@[simp] theorem keeping_pll (ps : List Part) (i : Nat) : (keeping ps s t).pll i = if ps.contains .timing then t.pll i else s.pll i := by
  unfold pll; simp only [keeping_trs]; split <;> rfl
@[simp] theorem hold_metered (i : Nat) : (hold s t).metered i = t.metered i := (rfl)
@[simp] theorem keeping_metered (ps : List Part) (i : Nat) : (keeping ps s t).metered i = if ps.contains .health then t.metered i else s.metered i := by
  unfold metered; simp only [keeping_health]; split <;> rfl
@[simp] theorem hold_pc (i : Nat) : (hold s t).pc i = t.pc i := (rfl)
@[simp] theorem keeping_pc (ps : List Part) (i : Nat) : (keeping ps s t).pc i = if ps.contains .store then t.pc i else s.pc i := by
  unfold pc; simp only [keeping_store]; split <;> rfl
@[simp] theorem hold_surface (i : Nat) : (hold s t).surface i = t.surface i := (rfl)
@[simp] theorem keeping_surface (ps : List Part) (i : Nat) : (keeping ps s t).surface i = if ps.contains .store then t.surface i else s.surface i := by
  unfold surface; simp only [keeping_store]; split <;> rfl
@[simp] theorem hold_src (i : Nat) : (hold s t).src i = t.src i := (rfl)
@[simp] theorem keeping_src (ps : List Part) (i : Nat) : (keeping ps s t).src i = t.src i := (rfl)
@[simp] theorem hold_wclass (i : Nat) : (hold s t).wclass i = t.wclass i := (rfl)
@[simp] theorem keeping_wclass (ps : List Part) (i : Nat) : (keeping ps s t).wclass i = if ps.contains .compose then t.wclass i else s.wclass i := by
  unfold wclass; simp only [keeping_fsh]; split <;> rfl
@[simp] theorem hold_byte (h' off' : Nat) : (hold s t).byte h' off' = t.byte h' off' := (rfl)
@[simp] theorem keeping_byte (ps : List Part) (h' off' : Nat) : (keeping ps s t).byte h' off' = if ps.contains .store then t.byte h' off' else s.byte h' off' := by
  unfold byte; simp only [keeping_hbm]; split <;> rfl
@[simp] theorem hold_master (m : Master) : (hold s t).master m = t.master m := by cases m <;> rfl
@[simp] theorem keeping_master (ps : List Part) (m : Master) : (keeping ps s t).master m = if ps.contains .masters then t.master m else s.master m := by
  cases m <;> rfl
@[simp] theorem hold_func (k : Nat) : (hold s t).func k = t.func k := (rfl)
@[simp] theorem keeping_func (ps : List Part) (k : Nat) : (keeping ps s t).func k = t.func k := (rfl)

end Sys2Proof.Machine.State
end

