-- ==== Sys2Proof/Laws/Jobs.lean ====
section
/-!
SUPPORT. What the end of a job leaves in its queue (R329, R336): no job, and L is the job's sequence number. The records, messages and raises
that go with it touch no queue.
-/
namespace Sys2Proof.Machine

theorem raise_queues (s : State) (k : Nat) : (raise s k).queues = s.queues := by simp [raise, raiseFull]
theorem raiseFull_queues (s : State) (k d : Nat) (i : Bool) (w : Word) : (raiseFull s k d i w).queues = s.queues := by simp [raiseFull]
theorem queueWrite_queues (s : State) (q k a : Nat) (d : List Byte) : (queueWrite s q k a d).queues = s.queues := by unfold queueWrite; split <;> simp [State.setFlag]
theorem writeSlot_queues (s : State) (q : Nat) (i : Word) (o : Nat) (d : List Byte) : (writeSlot s q i o d).queues = s.queues := by
  unfold writeSlot; dsimp only; split
  · rw [forEach_keeps State.queues _ (fun s w => by simp [State.setSpw])]
  · split
    · rw [queueWrite_queues]
    · rfl
theorem writeIndex_queues (s : State) (q : Nat) : (writeIndex s q).queues = s.queues := by
  unfold writeIndex; split
  · rfl
  · rw [queueWrite_queues]
theorem loseRecord_queues (s : State) (k : Nat) : (loseRecord s k).queues = s.queues := by simp [loseRecord]
theorem writeRecord_queues (s : State) (k : Nat) (a b : List Byte) : (writeRecord s k a b).queues = s.queues := by simp [writeRecord]
theorem sendMsix_queues (s : State) (k v : Nat) : (sendMsix s k v).queues = s.queues := by 
  unfold sendMsix; dsimp only; repeat' split
  all_goals simp
theorem evrMessage_queues (s : State) (k : Nat) : (evrMessage s k).queues = s.queues := by
  unfold evrMessage; dsimp only; repeat' split
  all_goals simp [sendMsix_queues]
theorem flushLost_queues (s : State) (k : Nat) : (flushLost s k).queues = s.queues := by
  unfold flushLost; dsimp only; split
  · rfl
  · simp [writeRecord_queues]
theorem postRecord_queues (s : State) (k : Nat) (a b : List Byte) : (postRecord s k a b).1.queues = s.queues := by
  unfold postRecord; dsimp only; repeat' split
  all_goals simp [loseRecord_queues, evrMessage_queues, writeRecord_queues, flushLost_queues]
theorem event_queues (s : State) (q : Nat) (e : List Byte) (c n : Nat) (b : Bool) : (completionEvent s q e c n b).queues = s.queues := by
  unfold completionEvent
  split
  · simp [State.setFlag]
  · split
    · rfl
    · have h : ∀ k h b, (withoutMessage s k b (fun s => postRecord s k h (([BitVec.ofNat 8 q, BitVec.ofNat 8 c] ++ leBytes 2 n ++ leBytes 8 s.time64 ++
          slice e 4 4 ++ List.replicate 12 0#8)))).1.queues = s.queues := by
        intro k h b; unfold withoutMessage; dsimp only; rw [State.setCfg_queues, postRecord_queues]; split <;> simp
      dsimp only
      split
      · rw [raise_queues, h]
      · rw [h]
theorem writeCompletion_queues (s : State) (q : Nat) (i : Word) (e : List Byte) (c n m : Nat) (a b d : Bool) :
    (writeCompletion s q i e c n m a b d).queues = (s.setQueue q { s.queue q with done := (s.queue q).done + 1#32 }).queues := by
  unfold writeCompletion; dsimp only
  have h : ∀ (t : State) (x : Queue), (t.setQueue q x).queues = kset (fun _ => Queue.reset) t.queues q x := fun _ _ => rfl
  repeat' split
  all_goals simp [raiseQ, raiseFull_queues, sendMsix_queues, event_queues, writeIndex_queues, h, writeSlot_queues]
theorem poll_queue (s : State) (q : Nat) : (pollQueue s q).queue q = s.queue q ∨ (pollQueue s q).queue q = { s.queue q with bell := false, reading := true } := by
  unfold pollQueue; dsimp only; split
  · right; simp
  · left; rfl
/-- What the end of a job leaves in its queue. -/
theorem finish_queue (s : State) (q c : Nat) (b : Bool) (j : Job) (h : (s.queue q).job = some j) :
    ((finishJob s q c b).queue q).job = none ∧ ((finishJob s q c b).queue q).last = j.seq := by
  unfold finishJob; simp only [h]
  simp only [State.queue, keeping, List.contains_cons]
  simp
  generalize e : writeCompletion _ q _ _ _ _ _ _ _ _ = t
  have ht : t.queue q = { s.queue q with job := none, last := j.seq, lastB := j.seq, done := (s.queue q).done + 1#32 } := by
    subst e; unfold State.queue; rw [writeCompletion_queues]; simp [State.setQueue, State.queue]
  rcases poll_queue t q with hp | hp <;> unfold State.queue at hp <;> rw [hp] <;> unfold State.queue at ht <;> simp [ht]

/-- The end of a job touches no other queue. -/
theorem finish_other (s : State) (q c : Nat) (b : Bool) (k : Nat) (hk : k ≠ q) : (finishJob s q c b).queue k = s.queue k := by
  unfold finishJob; dsimp only
  split
  · rfl
  · unfold State.queue
    simp only [keeping, List.contains_cons]
    simp
    generalize e : writeCompletion _ q _ _ _ _ _ _ _ _ = t
    have ht : t.queue k = s.queue k := by subst e; unfold State.queue; rw [writeCompletion_queues]; simp [State.setQueue, kget_kset, hk]
    have hp : (pollQueue t q).queue k = t.queue k := by
      unfold pollQueue; dsimp only; split
      · simp [State.queue_setQueue, hk]
      · rfl
    exact hp.trans ht

end Sys2Proof.Machine
end

