-- ==== Sys2Proof/Laws/Writes.lean ====
section
/-!
SUPPORT. What a register write and a word write do once they are accepted: each lands in its unit, after which the unit's own effect follows.
-/
namespace Sys2Proof.Machine
open Sys2Proof.Claims

theorem setMaster_setMaster (s : State) (m : Master) (x y : MState) : (s.setMaster m x).setMaster m y = s.setMaster m y := by cases m <;> rfl
theorem master_wr (s : State) (o : Nat) (v : Word) (m : Master) : (s.wr o v).master m = s.master m := by cases m <;> rfl
@[simp] theorem master_emit (s : State) (x : Out) (m : Master) : (s.emit x).master m = s.master m := by cases m <;> rfl
@[simp] theorem master_setSp (s : State) (k : Nat) (v : Word) (m : Master) : (s.setSp k v).master m = s.master m := by cases m <;> rfl
theorem master_bumpFresh (s : State) (m : Master) : s.bumpFresh.master m = s.master m := by cases m <;> rfl

-- A bus error is logged with the function (R310): nothing else changes.
@[simp] theorem logRequest_lmp (s : State) : logRequest s .lmp = s := rfl
theorem setFunc_master (s : State) (k : Nat) (x : Func) (m : Master) : (s.setFunc k x).master m = s.master m := by
  cases m
  · exact State.setFunc_lmp s k x
  · exact State.setFunc_pf0 s k x
  · exact State.setFunc_pf1 s k x
theorem unitBits_eq {o : Nat} {k : Word} (v : Word) (h : (findRow o).map (fun r => r.rw ||| r.wo) = some k) : unitBits o v = v &&& k := by
  unfold unitBits
  cases e : findRow o with
  | none => simp [e] at h
  | some r => simp [e] at h; simp [h]

theorem merge_and (old v m : Word) : merge old v m &&& m = v &&& m := by
  unfold merge
  ext i hi
  simp
  cases m[i] <;> simp
theorem and_or (v a b : Word) : (v &&& a) ||| (v &&& b) = v &&& (a ||| b) := by
  ext i hi
  simp
  cases v[i] <;> simp

theorem master_stored (s : State) (m : Master) (o : Nat) (v : Word) : ((stored s m o v).master m).wq = (s.master m).wq := by cases m <;> rfl

theorem acceptReg_single (s s1 : State) (m : Master) (o : Nat) (v y z : Word) (r : RegRow) (hr : findRow o = some r) (hp : singleReg o = true)
    (hw : mayWrite s m o = true) (hh : heldValue s ⟨m, s.priv m, false, []⟩ o (merge (s.rd o) v (rwBits o)) (v &&& r.wo) = (s1, some (y, z))) :
    acceptReg s ⟨m, s.priv m, false, []⟩ r o v = (s1.wr o y, some ((y &&& r.rw) ||| z)) := by
  simp only [singleReg, hr, Bool.and_eq_true, Bool.not_eq_true', decide_eq_true_eq, Option.isNone_iff_eq_none] at hp
  obtain ⟨⟨⟨⟨h1, h2⟩, h3⟩, h4⟩, h5⟩ := hp
  simp only [mayWrite, hr, Bool.and_eq_true, Bool.or_eq_true, Bool.not_eq_true'] at hw
  have hd : deckGroups s r o = [] := by simp [deckGroups, h2]
  have hv : regVerdict s ⟨m, s.priv m, false, []⟩ r o v = .store (merge (s.rd o) v r.rw) := by
    unfold regVerdict
    rw [if_neg (by simp [hw.1]), if_neg h1]
    rw [if_neg (by rintro ⟨a, b⟩; rcases hw.2 with h | h <;> simp_all)]
    simp [hd, committing, h4, h5]
  have hb : rwBits o = r.rw := by simp [rwBits, hr]
  rw [hb] at hh
  simp [acceptReg, hv, hh]

/-- A master with no write waiting makes no commit by one. -/
theorem writerOf_idle (s : State) (m : Master) (h : (s.master m).wq = []) : writerOf s m = ⟨m, s.priv m, false, []⟩ := by
  simp [writerOf, commitsAhead, h]

/-- The mirror stays when it already shows what a write leaves. -/
theorem showLast_shown (s : State) (w : QWrite) (h : merge (s.rd w.at_) w.v (rwBits w.at_) = s.rd w.at_) : showLast s w = s := by
  unfold showLast
  cases e : findRow w.at_ with
  | none => rfl
  | some r => simp [rwBits, e] at h; simp [h]

theorem merge_merge (old v z m : Word) (h : z &&& m = 0#32) : merge (merge old v m) ((v &&& m) ||| z) m = merge old v m := by
  have e : ((v &&& m) ||| z) &&& m = v &&& m := by
    have : ((v &&& m) ||| z) &&& m = (v &&& m) ||| (z &&& m) := by ext i hi; simp; cases m[i] <;> simp
    rw [this, h]; simp
  unfold merge
  rw [e]
  ext i hi
  simp
  cases m[i] <;> simp

/-- A write to a single register by a master that may write it and has no write waiting is accepted. -/
theorem acceptWrite_single (s s1 : State) (m : Master) (o : Nat) (v y z : Word) (r : RegRow) (h3 : (s.master m).wq = []) (h4 : s.reaches m = true)
    (he : earlyWrite s m o = false)
    (hr : findRow o = some r) (hp : singleReg o = true) (hw : mayWrite s m o = true)
    (hh : heldValue s ⟨m, s.priv m, false, []⟩ o (merge (s.rd o) v (rwBits o)) (v &&& r.wo) = (s1, some (y, z))) :
    acceptWrite s m o v = pushWrite (s1.wr o y) m ⟨false, o, (y &&& r.rw) ||| z, s.priv m⟩ := by
  have hm : perMaster o = false := by simp only [singleReg, Bool.and_eq_true, Bool.not_eq_true'] at hp; exact hp.1.1.2
  unfold acceptWrite
  have ha := acceptReg_single s s1 m o v y z r hr hp hw hh
  rw [if_neg (by simp [h4]), if_neg (by simp [h3, queueDepth]), if_neg (by simp [he])]
  simp [hr, hm, writerOf_idle s m h3, ha]

theorem settle_push (crcs : List Section → Bool) (s t : State) (m : Master) (w : QWrite) (h3 : (s.master m).wq = []) (ht : t.master m = s.master m) :
    settle crcs m s (pushWrite t m w) = applyWrite crcs (t.setMaster m
      { s.master m with done := (s.master m).done + 1#16, ahead := (s.master m).ahead - 1 }) m w := by
  simp [settle, pushWrite, ht, h3, drainWrites, takeEffect, setMaster_setMaster]

/-- A write to a single register, by a master that may write it and has no write waiting, reaches the unit at once. -/
theorem writeNow_single (s s1 : State) (m : Master) (o : Nat) (v y z : Word) (r : RegRow) (h3 : (s.master m).wq = []) (h4 : s.reaches m = true) (he : earlyWrite s m o = false)
    (hr : findRow o = some r) (hp : singleReg o = true) (hw : mayWrite s m o = true)
    (hh : heldValue s.bumpFresh ⟨m, s.priv m, false, []⟩ o (merge (s.rd o) v (rwBits o)) (v &&& r.wo) = (s1, some (y, z)))
    (hm1 : s1.master m = s.master m) :
    writeNow s m o v = applyWrite (freeCrcs s) ((s1.wr o y).setMaster m
      { s.master m with done := (s.master m).done + 1#16, ahead := (s.master m).ahead - 1 }) m ⟨false, o, (y &&& r.rw) ||| z, s.priv m⟩ := by
  unfold writeNow
  have h4' : s.bumpFresh.reaches m = true := by cases m <;> exact h4
  rw [acceptWrite_single s.bumpFresh s1 m o v y z r (by simpa [master_bumpFresh] using h3) h4' he hr hp hw hh]
  have := settle_push (freeCrcs s) s.bumpFresh (s1.wr o y) m ⟨false, o, (y &&& r.rw) ||| z, s.priv m⟩
    (by simpa [master_bumpFresh] using h3) (by rw [master_wr, hm1, master_bumpFresh])
  rw [master_bumpFresh] at this
  exact this

theorem heldValue_plain (s : State) (w : Writer) (o : Nat) (x z : Word) (hp : plainReg o = true) : heldValue s w o x z = (s, some (x, z)) := by
  simp only [plainReg, Bool.and_eq_true, decide_eq_true_eq, Option.isNone_iff_eq_none] at hp
  obtain ⟨⟨⟨⟨-, h6⟩, h9⟩, h10⟩, h11⟩ := hp
  simp [heldValue, h6, h9, h10, h11]

theorem held_merge (r : RegRow) (o : Nat) (old v z : Word) (hr : findRow o = some r) :
    (merge old v (rwBits o) &&& r.rw) ||| z = (v &&& rwBits o) ||| z := by simp [rwBits, hr, merge_and]

/-- The WO bits of the register at `o`. -/
def woBits (o : Nat) : Word := ((findRow o).map (·.wo)).getD 0#32

theorem unitBits_parts (o : Nat) (v : Word) : (v &&& rwBits o) ||| (v &&& woBits o) = unitBits o v := by
  unfold rwBits woBits unitBits
  cases findRow o <;> simp [and_or]

/-- A write to a single register that holds what is written, by a master that may write it and has no write waiting, reaches the unit at once. -/
theorem writeNow_held (s : State) (m : Master) (o : Nat) (v z : Word) (h3 : (s.master m).wq = []) (h4 : s.reaches m = true) (he : earlyWrite s m o = false) (hp : singleReg o = true) (hw : mayWrite s m o = true)
    (hh : heldValue s.bumpFresh ⟨m, s.priv m, false, []⟩ o (merge (s.rd o) v (rwBits o)) (v &&& woBits o) = (s.bumpFresh, some (merge (s.rd o) v (rwBits o), z))) :
    writeNow s m o v = applyWrite (freeCrcs s) (stored s m o v) m ⟨false, o, (v &&& rwBits o) ||| z, s.priv m⟩ := by
  obtain ⟨r, hr⟩ : ∃ r, findRow o = some r := by
    cases e : findRow o with
    | none => simp [singleReg, e] at hp
    | some r => exact ⟨r, rfl⟩
  rw [writeNow_single s s.bumpFresh m o v _ z r h3 h4 he hr hp hw (by simpa [woBits, hr] using hh) (master_bumpFresh s m), held_merge r o _ v z hr]
  rfl

/-- Register `o` is single and the `k`-th handler is its own, with instance `i`; decided once for every instance. -/
def handled (k i o : Nat) : Bool :=
  singleReg o && decide (o ≠ R.LDR_CTRL ∧ o ≠ R.LDR_UPD_CMD ∧ o ≠ R.GLB_VIEW ∧ o < R.GLB_IDX_SEL) &&
  (handlers.take k).all (fun h => (h.indexAt o).isNone) && (match handlers[k]? with | some h => decide (h.indexAt o = some i) | none => false) && woBits o &&& rwBits o == 0#32

theorem findSome_at {α β : Type} (f : α → Option β) (l : List α) (k : Nat) (a : α) (b : β) (h1 : l[k]? = some a) (h2 : f a = some b)
    (h3 : ∀ x ∈ l.take k, f x = none) : l.findSome? f = some b := by
  induction l generalizing k with
  | nil => simp at h1
  | cons x l ih =>
    cases k with
    | zero => simp at h1; subst h1; simp [h2]
    | succ k =>
      have hx : f x = none := h3 x (by simp)
      simp [hx]
      exact ih k (by simpa using h1) (fun y hy => h3 y (by simp [hy]))

theorem regEffect_handled (s : State) (w : Writer) (k i o : Nat) (v : Word) (hd : Handler) (hk : handlers[k]? = some hd) (h : handled k i o = true) :
    regEffect s w o v = keeping (.force :: hd.parts) s (hd.act s w i v) := by
  simp only [handled, Bool.and_eq_true, hk, decide_eq_true_eq] at h
  obtain ⟨⟨⟨-, h3⟩, h4⟩, -⟩ := h
  have e : handlers.findSome? (fun h => (h.indexAt o).map (fun i => (h, i))) = some (hd, i) := by
    refine findSome_at _ _ k hd _ hk (by simp [h4]) (fun x hx => ?_)
    have := List.all_eq_true.mp h3 x hx
    simpa using this
  simp only [regEffect, e]

/-- A write to a register with a handler acts at once. -/
theorem rd_stored (s : State) (m : Master) (o : Nat) (v : Word) : (stored s m o v).rd o = merge (s.rd o) v (rwBits o) := by
  cases m <;> simp [stored, State.rd, State.wr, State.bumpFresh, State.setMaster]

/-- A write that has reached its unit through a handler: the mirror shows it already. -/
theorem applyWrite_stored (crcs : List Section → Bool) (s : State) (m : Master) (k i o : Nat) (v z : Word) (p : Bool) (hd : Handler)
    (hk : handlers[k]? = some hd) (hh : handled k i o = true) (hz : z &&& rwBits o = 0#32) :
    applyWrite crcs (stored s m o v) m ⟨false, o, (v &&& rwBits o) ||| z, p⟩ =
      keeping (.force :: hd.parts) (stored s m o v) (hd.act (stored s m o v) ⟨m, p, false, []⟩ i ((v &&& rwBits o) ||| z)) := by
  have h2 : o ≠ R.LDR_CTRL ∧ o ≠ R.LDR_UPD_CMD ∧ o ≠ R.GLB_VIEW ∧ o < R.GLB_IDX_SEL := by
    simp only [handled, Bool.and_eq_true, decide_eq_true_eq] at hh; exact hh.1.1.1.2
  have hm : perMaster o = false := by
    simp only [handled, singleReg, Bool.and_eq_true, Bool.not_eq_true'] at hh; exact hh.1.1.1.1.1.1.2
  have e := showLast_shown (stored s m o v) ⟨false, o, (v &&& rwBits o) ||| z, p⟩
    (by rw [rd_stored]; exact merge_merge _ _ _ _ hz)
  simp only [applyWrite, hm, h2.1, h2.2.1, if_false, Bool.false_eq_true, e]
  exact regEffect_handled _ _ k i o _ hd hk hh

theorem acts_held {c : Instr} {s : State} {m : Master} {o : Nat} {v z : Word} {f : State → State} (k i : Nat) (hd : Handler) (h : Writes s m)
    (hw : mayWrite s m o = true) (hx : exec c s = runOn Part.device s (fun s => writeNow s m o v)) (hh : handled k i o = true)
    (hv : heldValue s.bumpFresh ⟨m, s.priv m, false, []⟩ o (merge (s.rd o) v (rwBits o)) (v &&& woBits o) = (s.bumpFresh, some (merge (s.rd o) v (rwBits o), z)))
    (hk : handlers[k]? = some hd) (hz : z &&& rwBits o = 0#32)
    (hf : hd.act (stored s m o v) ⟨m, s.priv m, false, []⟩ i ((v &&& rwBits o) ||| z) = f (stored s m o v)) : Acts c s m o v hd.parts f := by
  have hp : singleReg o = true := by simp only [handled, Bool.and_eq_true] at hh; exact hh.1.1.1.1
  unfold Acts Gives
  rw [hx, runOn_on h.1.1 h.1.2, writeNow_held s m o v z h.2.2.1 h.2.2.2 (by simp [earlyWrite, State.released, h.2.1]) hp hw hv,
    applyWrite_stored _ s m k i o v z _ hd hk hh hz, hf]

theorem acts_of {c : Instr} {s : State} {m : Master} {o : Nat} {v : Word} {f : State → State} (k i : Nat) (hd : Handler) (h : Writes s m)
    (hw : mayWrite s m o = true) (hx : exec c s = runOn Part.device s (fun s => writeNow s m o v)) (hp : plainReg o = true) (hh : handled k i o = true)
    (hk : handlers[k]? = some hd) (hf : hd.act (stored s m o v) ⟨m, s.priv m, false, []⟩ i (unitBits o v) = f (stored s m o v)) : Acts c s m o v hd.parts f :=
  acts_held k i hd h hw hx hh (heldValue_plain _ _ o _ _ hp) hk
    (by simp only [handled, Bool.and_eq_true, beq_iff_eq] at hh
        have e : (v &&& woBits o) &&& rwBits o = v &&& (woBits o &&& rwBits o) := by ext i hi; simp [Bool.and_assoc]
        rw [e, hh.2]; simp)
    (by rw [unitBits_parts]; exact hf)

/-- A word of a space that is neither read-only, nor decked, nor reserved is written at once, and the window moves on. -/
theorem wordNow_plain (s : State) (m : Master) (code a : Nat) (v : Word) (p : SpaceRow) (h : Writes s m) (hp : findSpace code = some p)
    (hw : mayWriteSpace s m code = true) (h1 : p.readOnly = false) (h2 : p.decked = false) (h3 : wordReserved code a = false) (h4 : a < p.words)
    (h5 : p.words ≤ 16777216) (h6 : code < 128) : wordNow s m code a v = spaceEffect (storedWord s m code a) code a v := by
  obtain ⟨-, hr, hq, hx⟩ := h
  have hrow : ∃ r, findRow R.GLB_IDX_DATA = some r := ⟨_, rfl⟩
  obtain ⟨r, hrow⟩ := hrow
  have hper : perMaster R.GLB_IDX_DATA = true := rfl
  have ea : bits (word a) 23 0 = a := by simp [bits, word]; omega
  have ec : bits (word code) 6 0 = code := by simp [bits, word]; omega
  have hw' : (p.writeOpen || s.priv m) = true := by simpa [mayWriteSpace, hp] using hw
  have n1 : R.GLB_IDX_DATA ≠ R.GLB_VIEW := by decide
  have n2 : R.GLB_IDX_DATA ≠ R.GLB_IDX_SEL := by decide
  have n3 : R.GLB_IDX_DATA ≠ R.GLB_IDX_ADDR := by decide
  have hpr : ∀ x : MState, (s.setMaster m x).priv m = s.priv m := by intro x; cases m <;> rfl
  have ed : skey code a / 16777216 = code := by simp only [skey]; omega
  have em : skey code a % 16777216 = a := by simp only [skey]; omega
  have ew : (word a).toNat = a := by simp [word]; omega
  have hcode : p.code = code := by
    have := List.find?_some hp
    simpa using this
  unfold wordNow
  rw [if_neg (by simp [earlyWrite, State.released, hr, hx])]
  simp only []
  have key : acceptWrite (s.setMaster m { s.master m with sel := word code, addr := word a }) m R.GLB_IDX_DATA v =
      advance (pushWrite (s.setMaster m { s.master m with sel := word code, addr := word a }) m ⟨true, skey code a, v, s.priv m⟩) m false false false := by
    unfold acceptWrite
    rw [if_neg (by simp; cases m <;> exact hx), if_neg (by simp [hq, queueDepth]), if_neg (by simp [earlyWrite, State.released, hr])]
    simp only [hrow, hper, if_true, masterWrite, n1, n2, n3, if_false]
    have hf : windowFlags (s.setMaster m { s.master m with sel := word code, addr := word a }) m true = (false, false, false) := by
      unfold windowFlags
      simp only [State.master_setMaster_self, ec, ea, hp]
      rw [if_neg (by omega), if_neg (by simp [h1, h3, hcode])]
      cases hpo : p.writeOpen <;> simp_all
    unfold windowWrite windowStore
    simp only [State.master_setMaster_self, ec, ea, hp, hf, h1, h2, h3, hpr]
    simp
  rw [key]
  simp [settle, advance, startFetch, pushWrite, setMaster_setMaster, hq, drainWrites, takeEffect, applyWrite, ed, em, ew, storedWord]

/-- A word of a plain space acts at once. -/
theorem actsWord_of {c : Instr} {s : State} {m : Master} {code a : Nat} {v : Word} {f : State → State} (p : SpaceRow) (h : Writes s m)
    (hw : mayWriteSpace s m code = true) (hx : exec c s = runOn Part.device s (fun s => wordNow s m code a v)) (hp : findSpace code = some p)
    (h1 : p.readOnly = false) (h2 : p.decked = false) (h3 : wordReserved code a = false) (h4 : a < p.words) (h5 : p.words ≤ 16777216) (h6 : code < 128)
    (ps : List Part) (hf : ∀ u, spaceEffect u code a v = keeping ps u (f u)) : ActsWord c s m code a ps f := by
  unfold ActsWord Gives
  rw [hx, runOn_on h.1.1 h.1.2, wordNow_plain s m code a v p h hp hw h1 h2 h3 h4 h5 h6, hf]

end Sys2Proof.Machine
end

