-- ==== Sys2Proof/Machine/Balls.lean ====
section
/-!
DEFINITION. What the balls of the device show from PORST_N on (17_electrical_package.md, R438): the states of reset, until each unit takes
its balls over.
-/
namespace Sys2Proof.Machine

/-- How a ball is driven. -/
inductive Drive where
  | low
  | high
  /-- High impedance; an open-drain ball is released. -/
  | highZ
  /-- The idle state of the bus the ball belongs to (AVSBus). -/
  | busIdle
  /-- Electrical idle of a serial lane. -/
  | electricalIdle
  /-- A PCI Express lane of a device in reset. -/
  | pcieReset
  /-- An input. -/
  | input
  /-- The unit that owns the ball drives it by its own rules. -/
  | unit
  deriving DecidableEq, Repr

inductive Ball where
  | lmpD
  | lmpBerrN
  | i2cSda
  | i2cScl
  | lmpIntN
  | faultN
  | xspiClk
  | xspiCsN
  | xspiDq
  | xspiDqs
  | xspiResetN
  | avsClk
  | avsMdata
  | lockA
  | bslOut
  | dpLane (d : Fin 16)
  | ethLane (p : Fin 16)
  | pcieLane
  | gpio (n : Fin 16)
  deriving DecidableEq, Repr

/-- An open-drain ball: low or released. -/
def openDrain (isHigh : Bool) : Drive := if isHigh then .highZ else .low

/-- The state of a ball (R438). DEDUCED: under BOOT_MODE 01 step 3 of R44 does not touch the flash, and its balls stay as at reset until the
first flash command or RELOAD. -/
def ball (s : State) : Ball → Drive
  | .lmpD => if s.mgmt then .unit else .highZ
  | .lmpBerrN | .i2cSda | .i2cScl => if s.mgmt then .unit else .highZ
  | .lmpIntN => if s.mgmt then openDrain s.lmpIntN else .highZ
  | .faultN => openDrain s.faultN
  | .xspiClk | .xspiResetN => if s.ldr.xspi then .unit else .low
  | .xspiCsN => if s.ldr.xspi then .unit else .high
  | .xspiDq | .xspiDqs => if s.ldr.xspi then .unit else .highZ
  | .avsClk | .avsMdata => if s.mgmt then .unit else .busIdle
  | .lockA => if s.mgmt then .unit else .low
  | .bslOut => if s.trs.bslDriven then .unit else .highZ
  | .dpLane d => if dpEn s d then .unit else .electricalIdle
  | .ethLane p => if portOn s p then .unit else .electricalIdle
  | .pcieLane => if bit (s.rd R.HWQ_PCIE_STAT) 16 then .unit else .pcieReset
  | .gpio _ => .input

end Sys2Proof.Machine
end

