-- ==== Sys2Proof/Tests/Witnesses.lean ====
section
/-!
SUPPORT. For each statement with hypotheses, states and operands that meet them together, one group for each clause, at the ends of the
ranges where there are ranges.
-/
namespace Sys2Proof.Tests
open Sys2Proof Sys2Proof.Machine Sys2Proof.Claims

-- The proofs are closed evaluations: one at a time, so that their stacks do not add up.
set_option Elab.async false

/-- A function that the root complex has mapped. -/
def mapped : Func := { Func.reset with cfg := { PciCfg.reset with memory := true } }

/-- A device that runs, with its memory trained and both functions mapped, in a state of the loader. -/
def dev (st : LdrState) : State :=
  let s : State := { State.reset with powered := true, mgmt := true, ldr := { Ldr.init with state := st }, store := { Store.reset with trained := true } }
  (s.setFunc 0 mapped).setFunc 1 mapped

/-- A device that the loader has released. -/
def up : State := dev .released

/-- A job of a type on the way, with the bytes of its header from byte 16 on. -/
def job (typ : Nat) (phase : JobPhase) (body : List Byte) : Job :=
  ⟨0, typ, [List.replicate 16 0#8 ++ body ++ List.replicate (48 - body.length) 0#8], 1, 1, true, false, phase, 0, 0, 0, false, false, 0, [], [], [], [], [], [], []⟩

/-- The device with a job at board queue 0. -/
def withJob (j : Job) (s : State) : State := s.setQueue 0 { Queue.reset with job := some j }

/-- A device with every pseudo-channel free. -/
def full : State := hbmTrainingEffect up []

/-- A placement that any pseudo-channel serves. -/
def anywhere : List Byte := List.replicate 16 0xFF#8 ++ List.replicate 16 0#8

/-- A surface of 4 by 4 pixels of 4 bytes, in one stripe. -/
def surf : Surface := ⟨4, 4, 1, 32, 4, 1, 0, 1, false, false, 0, 0, [0], []⟩

/-- A device with surface 1 placed. -/
def stored1 : State := full.setSurface 1 (some surf)

/-- A header page with one section of 64 bytes. -/
def onePage : List Byte :=
  List.replicate 6 0#8 ++ [1#8] ++ List.replicate 57 0#8 ++ ([1#8, 0#8, 0#8, 0#8] ++ leBytes 4 0x100 ++ leBytes 4 64 ++ leBytes 4 0) ++ List.replicate 176 0#8

/-- A request for line 0 of surface 1, due at 100. -/
def req : LineReq := ⟨5, 1, 0, 0, 100, 0, false, false, [], none, []⟩

/-- A line that a pass has asked for. -/
def raLine : RaLine := ⟨0, 1, 0, 2, 0, [], false, [], false, 100, 0, 0, true, 9, 1, []⟩

/-- The fetch of a layer for a step at tile 0. -/
def sjob : ScaleJob := ⟨0, 0, ⟨0, 0, 0, 0, 0, 4, []⟩, 0, 1, 450, 0, 4, [], [], [], 0, 0, 4, []⟩

/-- A bead with its VOID mark and good parity. -/
def voidBead : BitVec 137 := BitVec.ofNat 137 (2 ^ 128 + 2 ^ 136)

/-- A commit on the way, with tag 1. -/
def commit1 : Commit := ⟨1, none, true, 1, false, false, 0, 0⟩

/-- Registers of a scene: head 0 of 4 by 4 pixels in group 0, its timing generator and output on. -/
def sceneRegs : List (Nat × Word) :=
  [(R.OWB_Hnn_HTIME0 0, 4#32), (R.OWB_Hnn_VTIME0 0, 4#32), (R.SEQ_Gn_HEADS 0, 1#32), (R.OWB_Hnn_TG_CTRL 0, 0x80000000#32), (R.OWB_Hnn_OUT_EN 0, 1#32)]

/-- Words of a scene: surface 1 as the one layer of head 0, in one step of four lines. -/
def sceneWords : List (Nat × Nat × Word) :=
  [(Space.LAYER_DESC, 0, 0x80000000#32), (Space.LAYER_DESC, 1, 0x10000#32), (Space.LAYER_DESC, 3, 0x40004#32), (Space.LAYER_DESC, 5, 0x40004#32),
   (Space.RECKON, 0, 0xC000#32), (Space.RECKON, 1, 0x80#32), (Space.RECKON, 4, 0x40000000#32), (Space.LSET, 0, 0#32), (Space.LAYER_SRC, 0, 0x10000#32)]

/-- The scene in the pending deck and in the live one. -/
def scene : State :=
  sceneWords.foldl (fun s w => (s.setSpw w.1 w.2.1 w.2.2).setLv (skey w.1 w.2.1) w.2.2) (sceneRegs.foldl (fun s r => ((s.wr r.1 r.2).setCfg r.1 r.2).setDk r.1 r.2) stored1)

/-- A page that FINISH takes: one section of 64 bytes, with its CRCs. -/
def imagePage : List (Nat × Word) :=
  [(0, 0x4453594C#32), (1, 0x10001#32), (2, 1#32), (3, 0x140#32), (4, 0x3B05120#32), (11, 0x198524A6#32), (15, 0xD7259022#32), (16, 1#32), (17, 0x100#32),
   (18, 64#32), (19, 0x8DFEA7AE#32)]

/-- A device whose update has erased its target and holds that page. -/
def image : State :=
  imagePage.foldl (fun s w => s.setSpw Space.FLASH_PAGE w.1 w.2) { up with ldr := { up.ldr with erased := true } }

/-- A frame of 64 bytes of a type, with its check sequence. -/
def eth (typ : Nat) : List Byte :=
  let b := List.replicate 12 0#8 ++ [BitVec.ofNat 8 (typ / 256), BitVec.ofNat 8 typ, 0#8, 5#8] ++ List.replicate 44 0#8
  b ++ leBytes 4 (crcEth b)

/-- What comes with a frame: one uncorrectable FEC codeword. -/
def noted : RxNote := ⟨false, false, 0, 1, .good⟩

/-- A device whose port 15 has its link. -/
def linked : State := up.setPort 15 { Port.reset with link := true }

/-- The carry of tile 0. -/
def carry1 : UnitCarry := ⟨416, none, 0, none, 0, false, false, 0, 0⟩

/-- An upload of lines 0 and 1 of surface 1. -/
def upload : Job := job Typ.SURFACE_UPLOAD .running (leBytes 2 1 ++ leBytes 2 1 ++ List.replicate 20 0#8 ++ leBytes 2 0 ++ leBytes 2 2)

/-- A device whose PF1 has surface 1 in its first window. -/
def window : State := stored1.setCfg (R.HWQ_Fk_AWww_CTRL 1 0) 0x80000001#32

/-- Whether a command answers a next state. -/
def answers (c : Instr) (s : State) : Bool := match exec c s with | .next _ => true | _ => false

/-- An entry of an OFFLINE_COMPOSE chain: a layer of 4 by 4 pixels from surface 1. -/
def entry0 : List Byte :=
  List.replicate 16 0#8 ++ [0x80000000, 0x10000, 0, 0x40004, 0, 0x40004, 0, 0].flatMap (leBytes 4) ++ List.replicate 16 0#8

/-- An OFFLINE_COMPOSE job of one layer onto surface 1. -/
def composing : Job :=
  let j := job Typ.OFFLINE_COMPOSE .running (leBytes 2 1)
  { j with entries := j.entries ++ [entry0], read := 2, want := 2 }

/-- The surface, and a tile and a scaler in service. -/
def inService2 : State :=
  (stored1.setMetered 416 { up.metered 416 with eff := 1 }).setMetered (scalerUnit up 0) { up.metered (scalerUnit up 0) with eff := 1 }

theorem witness_PorstEdges :
    State.reset.powered = false := by
  decide +kernel

theorem witness_LoaderEvents :
    (Runs { State.reset with powered := true } ∧ ({ State.reset with powered := true } : State).mgmt = false) ∧
    (Runs (dev .probe) ∧ (dev .probe).ldr.state = .probe ∧ (dev .probe).ldr.reloading = false) ∧
    (let s : State := { dev .probe with ldr := { (dev .probe).ldr with slow := true } }; Runs s ∧ (List.replicate 256 0#8).length = 256 ∧
      (9 : Nat) ≤ 9 ∧ (9 : Nat) ≤ 12 ∧ 9 ≤ (12 : Nat) ∧ (12 : Nat) ≤ 12 ∧ s.ldr.state = .probe ∧ s.ldr.reloading = false ∧ s.ldr.slow = true) ∧
    (let s : State := { dev .load with ldr := { (dev .load).ldr with copy := 1, copyA := { CopyInfo.reset with page := onePage } } };
      Runs s ∧ s.ldr.state = .load ∧ s.ldr.held = none ∧
      ((loadSections s)[s.ldr.sec]?.map Section.len) = some (List.replicate 64 0#8).length ∧ s.store.trained = true) ∧
    (Runs (dev .scrub) ∧ (dev .scrub).ldr.state = .scrub) ∧
    (let s : State := { dev .probe with store := Store.reset }; Runs s ∧ s.mgmt = true ∧ s.store.trained = false ∧ s.ldr.held = none) ∧
    (let s := (dev .load).wr R.LDR_STAT 0x800#32; Runs s ∧ s.ldr.state = .load ∧ s.ldr.held = none ∧ bits (s.rd R.LDR_STAT) 11 10 = 2 ∧ s.ldr.dqs < 3) ∧
    (let s := ({ dev .load with ldr := { (dev .load).ldr with dqs := 3 } } : State).wr R.LDR_STAT 0x800#32; Runs s ∧ s.ldr.state = .load ∧
      s.ldr.held = none ∧ bits (s.rd R.LDR_STAT) 11 10 = 2 ∧ 3 ≤ s.ldr.dqs) ∧
    (Runs (dev .settle) ∧ (dev .settle).ldr.state = .settle ∧ (dev .settle).ldr.crcWait = 0 ∧
      lockWaitMs ((dev .settle).ldr.info (dev .settle).ldr.copy).page = 0) ∧
    (let s : State := { up with ldr := { up.ldr with startHold := true } }; Runs s ∧ s.ldr.startHold = true ∧ s.col.phase = 0) ∧
    (let s : State := { up with ldr := { up.ldr with reloading := true } }; Runs s ∧ s.ldr.reloading = true ∧ scrubPending s = 0) ∧
    (let s : State := { up with ldr := { up.ldr with upd := 1 } }; Runs s ∧ s.ldr.upd = 1) ∧
    (Runs up ∧ up.mgmt = true ∧ up.ldr.state = .released) := by
  refine ⟨?_, ?_, ?_, ?_, ?_, ?_, ?_, ?_, ?_, ?_, ?_, ?_, ?_⟩ <;> (try unfold Runs) <;> decide +kernel

theorem witness_SupplyAndClockEvents :
    Runs up ∧ up.trs.xoStopped = false := by
  unfold Runs; decide +kernel

theorem witness_SurfaceJobs :
    (let j := job Typ.SURFACE_ALLOC .act (leBytes 2 1 ++ leBytes 2 1 ++ leBytes 2 1 ++ [0x01#8] ++ List.replicate 9 0#8 ++ anywhere)
    let s := withJob j full
    let h := le j.head 16 2
    let r := pinRec (slice j.head 32 32)
    let x := wantedSurface (le j.head 18 2) (le j.head 20 2) (byteAt j.head 22) r
    let need := if x.duplex then 2 * x.stripes else x.stripes
    Runs s ∧ s.store.trained = true ∧ s.jobIn 0 Typ.SURFACE_ALLOC .act = some j ∧ formatKnown (byteAt j.head 22) = true ∧
      sizeOk (byteAt j.head 22) (le j.head 18 2) (le j.head 20 2) = true ∧ pinOk s r = true ∧ h ≠ 0 ∧ s.surface h = none ∧
      need ≤ freeInside s x.mask ∧ need ≤ freeStripes s ∧ (placeSurface s x.mask x.apart x.heat x.stripes x.duplex).isSome = true) ∧
    (let j := job Typ.SURFACE_FREE .act (leBytes 2 1)
    let s := withJob j stored1
    Runs s ∧ s.store.trained = true ∧ s.jobIn 0 Typ.SURFACE_FREE .act = some j ∧ s.surface (le j.head 16 2) = some surf ∧
      handleInUse s (le j.head 16 2) 0 = false ∧
      s.store.carries = [] ∧ s.rx = []) ∧
    (let j := job Typ.SURFACE_FREE .act (leBytes 2 1)
    let s := withJob j (stored1.setCfg (R.OWB_Hnn_WB_CTRL 31) 0x80000001#32)
    Runs s ∧ s.store.trained = true ∧ s.jobIn 0 Typ.SURFACE_FREE .act = some j ∧ s.surface (le j.head 16 2) = some surf ∧
      handleInUse s (le j.head 16 2) 0 = true) ∧
    (let j := job Typ.SURFACE_FREE .act (leBytes 2 2)
    let s := withJob j stored1
    Runs s ∧ s.store.trained = true ∧ s.jobIn 0 Typ.SURFACE_FREE .act = some j ∧ j.rerun = false ∧ s.surface (le j.head 16 2) = none) ∧
    (let j := job Typ.PIN_HINT .act (leBytes 2 1 ++ List.replicate 14 0#8 ++ anywhere)
    let s := withJob j stored1
    let r := pinRec (slice j.head 32 32)
    Runs s ∧ s.store.trained = true ∧ s.jobIn 0 Typ.PIN_HINT .act = some j ∧ s.surface (le j.head 16 2) = some surf ∧ pinOk s r = true ∧
      r.duplex = surf.duplex ∧ fitsMask s surf r.mask = true ∧ (∀ p ∈ surf.place ++ surf.twins, permits r.mask p = true) ∧ s.store.carries = []) := by
  refine ⟨?_, ?_, ?_, ?_, ?_⟩ <;> (try unfold Runs) <;> decide +kernel

theorem witness_StoreEvents :
    (let s := up.setPc 127 { Pc.reset with scrub := 1 }; Runs s ∧ (s.pc 127).scrub ≠ 0) ∧
    (Runs full ∧ (full.pc 127).lostTraining = false ∧ (full.pc 127).state = .active) ∧
    (let s := up.setCfg R.IHM_PG_CTRL 2#32; Runs s ∧ bit (s.cfg R.IHM_PG_CTRL) 1 = true ∧ s.store.trained = true ∧ hbmQuiet s = true) ∧
    (let s := full.setPc 0 { full.pc 0 with lostTraining := true }; Runs s ∧ (s.pc 0).lostTraining = true ∧ (s.pc 0).state = .active ∧
      s.store.carries = [] ∧ stripesOn s 0 = [] ∧ (∀ q, q < 128 → (s.pc q).state = .active) ∧ s.queues = []) ∧
    (Runs full ∧ full.store.selfRefresh = false ∧ full.health.level < 2 ∧ readable full 127 = true ∧ full.col.inj = none ∧ full.queues = []) ∧
    (Runs full ∧ readable full 0 = true ∧ full.store.trained = true ∧ (⟨true, false, []⟩ : Ready).s0 = true) ∧
    (Runs stored1 ∧ stored1.store.selfRefresh = false ∧ stored1.health.level < 2 ∧ readable stored1 0 = true ∧ stored1.col.inj = none ∧
      stored1.queues = [] ∧ stored1.surface 1 = some surf ∧ surf.duplex = false ∧
      4 * ((stored1.pc 0).spared.length + 1) ≤ 3 * stored1.variant.spareRows ∧ (stored1.pc 0).ues = []) ∧
    (let s : State := { up with store := { up.store with balCtrl := 0x400A0300#32 } }; Runs s ∧ bit s.store.balCtrl 0 = false) ∧
    (let c : Carry := ⟨1, 0, false, .balance, some 5, none⟩
    let s : State := { stored1 with store := { stored1.store with carries := [c] } }
    Runs s ∧ s.queues = [] ∧ s.store.carries = [c] ∧ c.target = some 5 ∧ s.health.level < 2 ∧ s.surface c.handle = some surf ∧
      (s.pc 5).state = .active ∧
      permits surf.mask 5 = true ∧ scrubPending (s.setPc 0 { s.pc 0 with scrub := (s.pc 0).scrub + 1 }) ≤ 65536) := by
  refine ⟨?_, ?_, ?_, ?_, ?_, ?_, ?_, ?_, ?_⟩ <;> (try unfold Runs) <;> decide +kernel

theorem witness_FetchEvents :
    (let j : ScaleJob := { sjob with needs := [(3, 2)], reqs := [req] }; let s := up.setScaler 79 ⟨[j]⟩; Runs s ∧ (s.scaler 79).jobs = [j] ∧
      jobVoided s 79 j = false ∧ j.needs = [(3, 2)] ∧ j.reqs.length < 2 ∧
      bufferChosen s j ((s.viewFor j.step.group j.step.frame).desc j.desc) = true ∧ raHit s j 3 = none ∧ Ecc.ue = .ue) ∧
    (let j : ScaleJob := { sjob with needs := [(3, 2)] }
    let s := (up.setScaler 79 ⟨[j]⟩).setGroup 0 { Group.reset with ra := [{ raLine with desc := 0, line := 3, tag := false, frame := 0 }] }
    Runs s ∧ (s.scaler 79).jobs = [j] ∧ jobVoided s 79 j = false ∧
      bufferChosen s j ((s.viewFor j.step.group j.step.frame).desc j.desc) = true ∧ (raHit s j 3).isSome = true) ∧
    (let j : ScaleJob := { sjob with reqs := [req] }; let s : State := { up.setScaler 0 ⟨[j]⟩ with time := 101 }; Runs s ∧
      (s.scaler 0).jobs = [j] ∧ j.reqs = [req] ∧ req.deadline < s.time) ∧
    (let r : LineReq := { req with void := true }; let j : ScaleJob := { sjob with reqs := [r] };
      let s : State := { up.setScaler 0 ⟨[j]⟩ with time := 100 }; Runs s ∧ (s.scaler 0).jobs = [j] ∧ j.reqs = [r] ∧ s.time ≤ r.deadline ∧
      r.void = true ∧ r.held = none) ∧
    (let j : ScaleJob := { sjob with reqs := [req] }; let s : State := { stored1.setScaler 0 ⟨[j]⟩ with time := 100 }; Runs s ∧
      (s.scaler 0).jobs = [j] ∧ j.reqs = [req] ∧ s.time ≤ req.deadline ∧ req.void = false ∧ req.held = none ∧ req.flips = [] ∧
      (memLine s req.handle req.line).isSome = true) ∧
    (let r : LineReq := { req with held := some (List.replicate 32 0#8) }; let j : ScaleJob := { sjob with reqs := [r] };
      let s : State := { stored1.setScaler 0 ⟨[j]⟩ with time := 100 }; Runs s ∧ (s.scaler 0).jobs = [j] ∧ j.reqs = [r] ∧ s.time ≤ r.deadline ∧
      r.held = some (List.replicate 32 0#8)) ∧
    (let j : ScaleJob := { sjob with reqs := [req] }; let s := up.setScaler 7 ⟨[j]⟩; Runs s ∧
      (List.range 80).find? (fun l => (s.scaler l).jobs.any (fun j => j.reqs.any (fun r => r.id == 5))) = some 7 ∧ (s.scaler 7).jobs = [j] ∧
      j.reqs.find? (fun r => r.id == 5) = some req) ∧
    (let j : ScaleJob := { sjob with reqs := [req] }
    let s := stored1.setScaler 0 ⟨[j]⟩
    let b := (beadSite s 0 (.fetchSwitch 5 0)).getD ⟨[], 0, 0, false, false⟩
    Runs s ∧ s.col.inj = none ∧ beadSite s 0 (.fetchSwitch 5 0) = some b ∧ inOrder s 0 b = true ∧ (s.rod 0).errs.length < 4 ∧
      (s.within 1000000 (s.rod 0).errs).length < 4 ∧ beadGood (mkBead 0 b.st b.ra (b.bead + 1 == b.beads) false ^^^ 1#137) = false) ∧
    (Runs up ∧ (∀ c : Nat, c < 4 → max (([1] : List Nat).getD c 0) (([] : List Nat).getD c 0) ≤ bits ((up.setCfg (R.FSH_Wc_BACKLOG 0) 1#32).cfg (R.FSH_Wc_BACKLOG c)) 23 0)) ∧
    (let c : Commit := { commit1 with state := 2 }
    let s := (scene.setGroup 0 { Group.reset with commit := some c }).setCfg R.FSH_RA_QUOTA 1#32
    let ns := (raNeeds s 0).zipIdx.filter (fun e => !(s.group 0).ra.any (fun r => r.tag && r.pos == e.2) && !(fenced s e.1.desc && !s.sig e.1.handle))
    Runs s ∧ (s.group 0).commit = some c ∧ (c.state = 2 ∨ c.state = 3) ∧ ns.head?.map (fun e => (e.1.beads, e.2)) = some (2, 0) ∧
      raAsked s 0 + 2 ≤ raQuota s 0 ∧ ((List.range 8).map (raAsked s)).sum + 2 ≤ 1048576) := by
  refine ⟨?_, ?_, ?_, ?_, ?_, ?_, ?_, ?_, ?_, ?_⟩ <;> (try unfold Runs) <;> decide +kernel

theorem witness_PlanEvents :
    (let s : State := { up with planQ := [7, 0] }; Runs s ∧ s.planning = none ∧ s.planQ = [7, 0]) ∧
    (let r : PlanResult := ⟨7, 3, 0, none, 0xFFFF, 0, Plan.empty, []⟩;
      let s := ({ up with planning := some r } : State).setGroup 7 { Group.reset with commit := some commit1 }; Runs s ∧ s.planning = some r ∧
      (s.group 7).commit = some commit1 ∧ r.reason ≠ 0) ∧
    (let r : PlanResult := ⟨0, 0, 0, none, 0xFFFF, 0, Plan.empty, []⟩;
      let s := ({ up with planning := some r } : State).setGroup 0 { Group.reset with commit := some commit1 }; Runs s ∧ s.planning = some r ∧
      (s.group 0).commit = some commit1 ∧ r.reason = 0 ∧ commit1.cancelled = false) := by
  refine ⟨?_, ?_, ?_⟩ <;> (try unfold Runs) <;> decide +kernel

theorem witness_CompositionEvents :
    (let x : Group := { Group.reset with live := { Plan.empty with steps := 2 }, frame := 1, seqFrame := 1, started := true }
    let s := (scene.setGroup 0 x).setHead 0 { Head.reset with state := .running, frame := 1 }
    let t := (s.viewFor 0 1).step 0 0
    Runs s ∧ s.ldr.state = .released ∧ (s.group 0).live.steps ≠ 0 ∧ seqNext s 0 = some (0, { x with pos := 1 }) ∧ s.col.inj = none ∧
      stepUe (s.viewFor 0 1) 0 0 t = false ∧ t.op ≠ 1 ∧ stepBad (s.viewFor 0 1) 0 t = false ∧ headComposes s 0 t.head 1 = true ∧
      (s.tile t.tile).queue.length < 4) ∧
    (let st : Step := ⟨0, 0, 0, 0, 0, 4, [0#32]⟩
    let s := (scene.setTile 31 { Tile.reset with queue := [st] }).setMetered (tileUnit scene 31) { scene.metered (tileUnit scene 31) with eff := 3 }
    Runs s ∧ (s.tile 31).run = none ∧ (s.tile 31).queue = [st] ∧
      slotsUsed s st.head + slotsAhead s st + st.lines ≤ 131072 / max 1 (activeSize (s.viewFor st.group st.frame) st.head).1 ∧
      (s.metered (tileFor s 31 st)).eff ≠ 7 ∧
      unitVoid s (tileFor s 31 st) = true) ∧
    (let st : Step := ⟨0, 0, 0, 0, 0, 4, [0#32]⟩
    let s := (scene.setTile 31 { Tile.reset with queue := [st] }).setMetered (tileUnit scene 31) { scene.metered (tileUnit scene 31) with eff := 1 }
    Runs s ∧ (s.tile 31).run = none ∧ (s.tile 31).queue = [st] ∧
      slotsUsed s st.head + slotsAhead s st + st.lines ≤ 131072 / max 1 (activeSize (s.viewFor st.group st.frame) st.head).1 ∧
      (s.metered (tileFor s 31 st)).eff ≠ 7 ∧
      unitVoid s (tileFor s 31 st) = false ∧ s.health.lostTiles.contains 31 = false) ∧
    (let st : Step := ⟨0, 0, 0, 0, 0, 4, [0#32]⟩; let s := scene.setTile 0 { Tile.reset with run := some st, y := 4 }; Runs s ∧
      (s.tile 0).run = some st ∧ st.y0 + st.lines ≤ (s.tile 0).y) ∧
    (let st : Step := ⟨0, 0, 0, 0, 0, 4, [0#32]⟩
    let e : Entry := ⟨0#32, [⟨3, [some 0#64, none, some 0#64, some 0#64], false⟩], 0, 0, false, 0, [], []⟩
    let s := scene.setTile 0 { Tile.reset with run := some st, y := 3, entries := [e] }
    Runs s ∧ (s.tile 0).run = some st ∧ (s.tile 0).entries[0]? = some e ∧
      (match layAt s ((s.viewFor st.group st.frame).withBad (s.tile 0).bad) st (s.tile 0).y e with | some (some l) => l.holed | _ => false) = true ∧ e.rung = 0 ∧ (s.tile 0).y < st.y0 + st.lines) ∧
    (let l : ResLine := ⟨0, 0, [], 0⟩;
      let s := (up.setHead 31 { Head.reset with results := [l] }).setMetered (converterUnit 31) { up.metered (converterUnit 31) with eff := 7 }; Runs s ∧ (s.head 31).results = [l] ∧ unitVoid s (converterUnit 31) = true) ∧
    (let l : ResLine := ⟨0, 0, [], 0⟩;
      let s := (up.setHead 31 { Head.reset with results := [l] }).setMetered (converterUnit 31) { up.metered (converterUnit 31) with eff := 1 }; Runs s ∧ (s.head 31).results = [l] ∧ unitVoid s (converterUnit 31) = false) ∧
    (let s := scene.setHead 0 { Head.reset with state := .running, scanning := true, line := 3 }; Runs s ∧ (s.head 0).scanning = true ∧
      (s.head 0).due = false ∧ (s.head 0).line < (activeSize (s.headView 0) 0).2) ∧
    (let s := scene.setHead 0 { Head.reset with state := .running, scanning := true, line := 3, due := true }; Runs s ∧
      (s.head 0).scanning = true ∧ (s.head 0).due = true) := by
  refine ⟨?_, ?_, ?_, ?_, ?_, ?_, ?_, ?_, ?_⟩ <;> (try unfold Runs) <;> decide +kernel

theorem witness_CommitRequests :
    (Writes up .lmp ∧ mayWrite up .lmp (R.SEQ_Gn_COMMIT 7) = true ∧ (0xFFFF#16 : BitVec 16) ≠ 0#16 ∧ (up.group 7).commit = none ∧
      (up.group 7).waiters = []) ∧
    (let s := up.setGroup 0 { Group.reset with commit := some commit1 }; Writes s .lmp ∧ mayWrite s .lmp (R.SEQ_Gn_COMMIT 0) = true ∧
      ((1#16 : BitVec 16) = 0#16 ∨ (s.group 0).commit ≠ none ∨ (s.group 0).waiters ≠ [])) ∧
    (Writes up .pf0 ∧ mayWrite up .pf0 (R.SEQ_Gn_COMMIT 0) = true ∧
      ((0#16 : BitVec 16) = 0#16 ∨ (up.group 0).commit ≠ none ∨ (up.group 0).waiters ≠ [])) ∧
    (let s := up.setGroup 0 { Group.reset with commit := some commit1 }; Writes s .lmp ∧ mayWrite s .lmp (R.SEQ_Gn_COMMIT 0) = true ∧
      (s.group 0).commit = some commit1 ∧ commit1.tag = (1#16).toNat ∧ (commit1.priv = true → s.priv .lmp = true)) ∧
    (let s := up.setGroup 0 { Group.reset with commit := some commit1 }; Writes s .lmp ∧ mayWrite s .lmp (R.SEQ_Gn_COMMIT 0) = true ∧
      (s.group 0).commit = some commit1 ∧ commit1.tag ≠ (2#16).toNat) ∧
    (let j := job Typ.COMMIT .act (leBytes 2 7)
    let s := withJob j up
    Runs s ∧ s.jobIn 0 Typ.COMMIT .act = some j ∧ j.rerun = false ∧ (s.group (jobGroup j)).commit = none ∧ (s.group (jobGroup j)).waiters = [] ∧
      (commitRecords j).all (fun r => recordOk s (jobGroup j) r.1) = true) ∧
    (let j := job Typ.COMMIT .act (leBytes 2 7)
    let s := (withJob j up).setGroup 7 { Group.reset with waiters := [1] }
    Runs s ∧ s.jobIn 0 Typ.COMMIT .act = some j ∧ j.rerun = false ∧ (s.group (jobGroup j)).waiters ≠ [] ∧
      (commitRecords j).all (fun r => recordOk s (jobGroup j) r.1) = true) ∧
    (let j : Job := { job Typ.COMMIT .act (leBytes 2 7 ++ leBytes 2 1 ++ leBytes 2 1) with entries := (job Typ.COMMIT .act (leBytes 2 7 ++ leBytes 2 1 ++ leBytes 2 1)).entries ++ [List.replicate 16 0#8 ++ List.replicate 48 0xFF#8] }
    let s := withJob j up
    Runs s ∧ s.jobIn 0 Typ.COMMIT .act = some j ∧ j.rerun = false ∧ (commitRecords j).all (fun r => recordOk s (jobGroup j) r.1) = false) ∧
    (let j : Job := { job Typ.COMMIT .act (leBytes 2 7) with rerun := true }
    let s := (withJob j up).setGroup 7 { Group.reset with lastJob := some (0, 0#16, 0) }
    Runs s ∧ s.jobIn 0 Typ.COMMIT .act = some j ∧ j.rerun = true ∧ (s.group (jobGroup j)).lastJob = some (0, j.seq, 0)) ∧
    (let j : Job := { job Typ.COMMIT .act (leBytes 2 7) with rerun := true }
    let s := (withJob j up).setGroup 7 { Group.reset with lastJob := some (0, 0#16, 5) }
    Runs s ∧ s.jobIn 0 Typ.COMMIT .act = some j ∧ j.rerun = true ∧ (s.group (jobGroup j)).lastJob = some (0, j.seq, 5)) ∧
    (let j := job Typ.COMMIT .slot (leBytes 2 7); let s := (withJob j up).setGroup 7 { Group.reset with waiters := [0] }; Runs s ∧
      (s.group 7).waiters = [0] ∧ (s.group 7).commit = none ∧ s.jobIn 0 Typ.COMMIT .slot = some j) := by
  refine ⟨?_, ?_, ?_, ?_, ?_, ?_, ?_, ?_, ?_, ?_, ?_⟩ <;> (try unfold Writes) <;> (try unfold Runs) <;> decide +kernel

theorem witness_LoaderWrites :
    (Runs (dev .held) ∧ ((dev .held).master .lmp).wq = [] ∧ (dev .held).reaches .lmp = true ∧ (dev .held).priv .lmp = true ∧
      (dev .held).ldr.state = .held) ∧
    (Runs (dev .waitHost) ∧ ((dev .waitHost).master .pf0).wq = [] ∧ (dev .waitHost).reaches .pf0 = true ∧ (dev .waitHost).priv .pf0 = true ∧
      (dev .waitHost).hostStates = true) ∧
    (Runs (dev .noImage) ∧ ((dev .noImage).master .lmp).wq = [] ∧ (dev .noImage).reaches .lmp = true ∧ (dev .noImage).priv .lmp = true ∧
      (dev .noImage).hostStates = true) ∧
    (Runs up ∧ (up.master .lmp).wq = [] ∧ up.reaches .lmp = true ∧ up.priv .lmp = true ∧ up.released = true ∧ up.ldr.upd = 0) ∧
    (let s := (({ up with ldr := { up.ldr with erased := true } } : State).setCfg R.LDR_UPD_ADDR 0x100#32).wr R.LDR_STAT 0x90000#32; Runs s ∧
      (s.master .lmp).wq = [] ∧ s.reaches .lmp = true ∧ s.priv .lmp = true ∧ s.released = true ∧ s.ldr.upd = 0 ∧
      bits (s.cfg R.LDR_UPD_ADDR) 27 8 ≠ 0 ∧ s.ldr.erased = true ∧
      256 * bits (s.cfg R.LDR_UPD_ADDR) 27 8 < halfOfFlash (bits (s.rd R.LDR_STAT) 19 16)) := by
  refine ⟨?_, ?_, ?_, ?_, ?_⟩ <;> (try unfold Runs) <;> decide +kernel

theorem witness_CompositionWrites :
    (Writes up .lmp ∧ mayWrite up .lmp R.SSP_RETIRE_CMD = true) ∧
    (Writes up .lmp ∧ mayWriteSpace up .lmp Space.COEF = true ∧ bankInUse up ((0xFFF#12).toNat / 256) = false) ∧
    (Writes up .lmp ∧ mayWriteSpace up .lmp Space.LAYER_CNT = true) ∧
    (Writes stored1 .pf1 ∧ mayWriteSpace stored1 .pf1 Space.FENCE = true ∧ (stored1.surface 1).isSome = true) ∧
    (Writes up .lmp ∧ mayWriteSpace up .lmp Space.LAYER_SRC = true) := by
  refine ⟨?_, ?_, ?_, ?_, ?_⟩ <;> (try unfold Writes) <;> (try unfold Runs) <;> decide +kernel

theorem witness_OutputWrites :
    (let s := up.setHead 31 { Head.reset with state := .running }; Writes s .lmp ∧ mayWrite s .lmp (R.OWB_Hnn_RESET 31) = true ∧
      (s.head 31).state ≠ .dark ∧ (s.head 31).state ≠ .gap) ∧
    (Writes up .lmp ∧ mayWrite up .lmp (R.OWB_Ddd_CTRL 15) = true) ∧
    (let s := (up.setDp 15 { Dp.reset with hpd := true }).setCfg (R.OWB_Ddd_CTRL 15) 0x80000000#32; Writes s .lmp ∧
      mayWrite s .lmp (R.OWB_Ddd_AUX_CMD 15) = true ∧ dpEn s 15 = true ∧ (s.dp 15).hpd = true ∧ (s.dp 15).aux = none) ∧
    (Writes up .lmp ∧ mayWrite up .lmp (R.OWB_Hnn_SAFE_CTRL 31) = true) ∧
    (Writes up .lmp ∧ mayWriteSpace up .lmp Space.SAFE_FRAME = true ∧ safeFrameHeld up ((0x3FFFF#18).toNat / 32768) = [] ∧
      64 ≤ (0x3FFFF#18).toNat % 32768 ∧ 64 ≤ (64#18).toNat % 32768) ∧
    (let s := up.setSafe 3 { Safe.reset with active := true, mode := 1, frame := 7 }; Writes s .lmp ∧
      mayWriteSpace s .lmp Space.SAFE_FRAME = true ∧ safeFrameHeld s ((0x38000#18).toNat / 32768) ≠ []) := by
  refine ⟨?_, ?_, ?_, ?_, ?_, ?_⟩ <;> (try unfold Writes) <;> (try unfold Runs) <;> decide +kernel

theorem witness_NetworkWrites :
    (Writes up .lmp ∧ mayWriteSpace up .lmp Space.NMP_RXS = true ∧ mayWriteSpace up .lmp Space.NMP_TXS = true) ∧
    (Writes up .lmp ∧ mayWriteSpace up .lmp Space.NMP_RXC = true ∧ (0xFFD#12).toNat % 16 < 14) ∧
    (Writes up .lmp ∧ mayWriteSpace up .lmp Space.NMP_TXC = true ∧ (507#12).toNat < 512 ∧ (507#12).toNat % 8 < 4) ∧
    (Writes up .lmp ∧ mayWrite up .lmp (R.NMP_Pnn_GCL_CTRL 15) = true ∧ (up.port 15).pend = none ∧ 1 ≤ bits 0x100#32 8 0 ∧
      bits 0x100#32 8 0 ≤ 256 ∧ 1 ≤ bits 1#32 8 0 ∧ bit 1#32 30 = false) ∧
    (let s := up.setPort 15 { Port.reset with pend := some ⟨1, 0, true⟩ }; Writes s .lmp ∧ mayWrite s .lmp (R.NMP_Pnn_GCL_CTRL 15) = true ∧
      (s.port 15).pend.isSome = true) ∧
    (Writes up .lmp ∧ mayWrite up .lmp (R.NMP_Pnn_RESET 15) = true) := by
  refine ⟨?_, ?_, ?_, ?_, ?_, ?_⟩ <;> (try unfold Writes) <;> (try unfold Runs) <;> decide +kernel

theorem witness_TimingWrites :
    Writes up .lmp ∧ mayWrite up .lmp R.TRS_TOD_SET_HI = true ∧ mayWrite up .lmp R.TRS_REF_CTRL = true ∧
      mayWrite up .lmp (R.TRS_REF_PRIOk 2) = true ∧ mayWrite up .lmp R.TRS_SYNC_CTRL = true := by
  unfold Writes; unfold Runs; decide +kernel

theorem witness_QueueWrites :
    (let s := up.setCfg (R.HWQ_Qnn_CFG 15) 0x80000004#32; Writes s .lmp ∧ mayWrite s .lmp (R.HWQ_Qnn_DB 15) = true ∧
      mayWrite s .lmp (R.HWQ_Qnn_PROD 15) = true ∧ bit (s.cfg (R.HWQ_Qnn_CFG 15)) 31 = true ∧ (s.queue 15).stopping = false) ∧
    (let s := up.setCfg (R.HWQ_Qnn_CFG 63) 0x80000004#32; Writes s .pf1 ∧ mayWrite s .pf1 (R.HWQ_Qnn_DB 63) = true ∧
      bit (s.cfg (R.HWQ_Qnn_CFG 63)) 31 = true ∧ (s.queue 63).stopping = false) ∧
    (Writes up .lmp ∧ mayWrite up .lmp R.GLB_FUNC_RESET = true) ∧
    (Writes up .pf1 ∧ mayWrite up .pf1 (R.HWQ_Qnn_CFG 63) = true ∧ bit (up.rd (R.HWQ_Qnn_CFG 63)) 31 = false ∧
      bit (up.cfg (R.HWQ_Qnn_CFG 63)) 31 = false ∧ bit 0x80000004#32 31 = true ∧
      enableOk up 63 (merge (up.rd (R.HWQ_Qnn_CFG 63)) 0x80000004#32 0x80FF001F#32) = true) ∧
    (Writes up .lmp ∧ mayWrite up .lmp (R.HWQ_Qnn_CFG 0) = true ∧ bit (up.rd (R.HWQ_Qnn_CFG 0)) 31 = false ∧ bit 0x80000003#32 31 = true ∧
      enableOk up 0 (merge (up.rd (R.HWQ_Qnn_CFG 0)) 0x80000003#32 0x80FF001F#32) = false) ∧
    (Writes up .pf1 ∧ mayWrite up .pf1 (R.HWQ_Fk_EVR_CFG 1) = true ∧ mayWrite up .pf1 (R.HWQ_Fk_EVR_CONS 1) = true) := by
  refine ⟨?_, ?_, ?_, ?_, ?_, ?_⟩ <;> (try unfold Writes) <;> (try unfold Runs) <;> decide +kernel

theorem witness_IntegrityWrites :
    (Writes up .lmp ∧ mayWrite up .lmp R.IHM_CFGCRC_CTRL = true ∧ up.col.armed = false ∧ mayWrite up .lmp R.IHM_CFGCRC_REF = true) ∧
    (let s : State := { up with col := { up.col with armed := true } }; Writes s .lmp ∧ mayWrite s .lmp R.IHM_CFGCRC_REF = true ∧ s.col.armed = true) ∧
    (Writes up .lmp ∧ mayWrite up .lmp R.IHM_PHASE = true) ∧
    (Writes up .lmp ∧ mayWriteSpace up .lmp Space.FC_SRC = true ∧ (319 : Fin 320).val ≠ 308) ∧
    (Writes up .lmp ∧ mayWrite up .lmp R.IHM_FC_CLEAR = true ∧ (319#9).toNat < 320 ∧ (319#9).toNat ≠ 308) ∧
    (Writes up .lmp ∧ mayWrite up .lmp (R.IHM_HISTq_CTRL 3) = true) ∧
    (Writes up .lmp ∧ mayWrite up .lmp R.IHM_INJ = true ∧ 1 ≤ bits 0x1000000#32 27 24 ∧ bits 0x8000000#32 27 24 ≤ 8) ∧
    (Writes up .lmp ∧ mayWrite up .lmp (R.IHM_CRCUu_CTRL 3) = true ∧ mayWrite up .lmp (R.IHM_CRCUu_DATA8 3) = true ∧
      mayWrite up .lmp (R.IHM_CRCUu_DATA16 3) = true ∧ mayWrite up .lmp (R.IHM_CRCUu_DATA32 3) = true) ∧
    (let s := (up.setMetered 0 { up.metered 0 with eff := 1 }).setMetered 400 { up.metered 400 with eff := 5 }; Writes s .lmp ∧
      mayWrite s .lmp R.IHM_CARRY_CMD = true ∧ commandUnit 0x80000000#32 = some 0 ∧ carryable s 0 = true) ∧
    (let s := up.setMetered 569 { up.metered 569 with eff := 1 }; Writes s .lmp ∧ mayWrite s .lmp R.IHM_UNIT_CMD = true ∧
      commandUnit 0x9300001F#32 = some 569 ∧ [0, 6, 7].contains (s.metered 569).eff = false ∧ carriedNow s 569 = false) := by
  refine ⟨?_, ?_, ?_, ?_, ?_, ?_, ?_, ?_, ?_, ?_⟩ <;> (try unfold Writes) <;> (try unfold Runs) <;> decide +kernel

theorem witness_FrameEvents :
    (Runs scene ∧ scene.released = true ∧ hasBoundary (scene.setCfg (R.OWB_Hnn_TG_CTRL 0) 0#32) 0 = true) ∧
    (let s := (scene.setHead 0 { Head.reset with state := .running }).setGroup 0 { Group.reset with started := true }; Runs s ∧ s.released = true ∧
      hasBoundary s 0 = true) ∧
    (let s := scene.setHead 0 { Head.reset with state := .starting, frame := 3 }; Runs s ∧ s.headGroup 0 = some 0 ∧ headRuns (s.head 0) = true ∧
      (s.head 0).scanning = false ∧ nextFrame s 0 0 = some 3) ∧
    (let s := (scene.setHead 0 { Head.reset with state := .running, frame := 3, first := false }).setGroup 0 { Group.reset with frame := 4, started := true }; Runs s ∧ s.headGroup 0 = some 0 ∧ headRuns (s.head 0) = true ∧ (s.head 0).scanning = false ∧ nextFrame s 0 0 = some 4) ∧
    (let s := (scene.setHead 0 { Head.reset with state := .running, frame := 3, first := false, gapDue := true, gapAt := 3 }).setGroup 0 { Group.reset with frame := 4 }; Runs s ∧ s.headGroup 0 = some 0 ∧ headRuns (s.head 0) = true ∧ (s.head 0).gapDue = true ∧ (s.head 0).scanning = false ∧ ((s.head 0).gapAt ≤ (s.head 0).frame ∨ (s.head 0).first = true)) ∧
    (let s := up.setHead 31 { Head.reset with divWait := true }; Runs s ∧ (s.head 31).divWait = true) ∧
    (let s := scene.setHead 0 { Head.reset with state := .running, scanning := true, line := 4 }
    Runs s ∧ (s.head 0).scanning = true ∧ (activeSize (s.headView 0) 0).2 = (s.head 0).line ∧
      (let s1 := wbEnd (compareMalformed s 0) 0; (s1.setHead 0 { s1.head 0 with scanning := false }).headGroup 0 = some 0)) ∧
    (let s := ((scene.setCfg (R.SEQ_Gn_HEADS 0) 0#32).setHead 0 { Head.reset with state := .running, scanning := true, line := 4 })
    Runs s ∧ (s.head 0).scanning = true ∧ (activeSize (s.headView 0) 0).2 = (s.head 0).line ∧
      (let s1 := wbEnd (compareMalformed s 0) 0; (s1.setHead 0 { s1.head 0 with scanning := false }).headGroup 0 = none)) := by
  refine ⟨?_, ?_, ?_, ?_, ?_, ?_, ?_, ?_⟩ <;> (try unfold Runs) <;> decide +kernel

theorem witness_WriteBackEvents :
    (let l : WbLine := ⟨⟨1, 3, [], 0⟩, 0, false⟩; let s := up.setHead 31 { Head.reset with wbq := [l] }; Runs s ∧ (s.head 31).wbq = [l] ∧
      (s.head 31).wb.dropped.contains (l.line.frame, l.line.y) = false) ∧
    (let l : WbLine := ⟨⟨1, 3, [], 0⟩, 0, false⟩;
      let s := up.setHead 31 { Head.reset with wbq := [l], wb := { Wb.reset with cur := some 2, frame := 1 } }; Runs s ∧
      (s.head 31).wbq = [l] ∧ (s.head 31).wb.cur = some 2 ∧ l.line.frame = (s.head 31).wb.frame ∧ (s.head 31).wb.done.contains l.line.y = false) ∧
    (let j := job Typ.CAPTURE .act ([0#8, 0#8] ++ leBytes 2 2 ++ leBytes 2 1)
    let s := withJob j (scene.setSurface 2 (some { surf with format := 4, pitch := 48 }))
    Runs s ∧ s.store.trained = true ∧ s.jobIn 0 Typ.CAPTURE .act = some j ∧
      wbCheck s (byteAt j.head 16) (le j.head 18 2) (byteAt j.head 17) = 0 ∧
      (s.head 0).wb.run = false ∧ (s.head 0).wb.recheck = false ∧ (s.headGroup 0).isSome = true) ∧
    (let j := job Typ.CAPTURE .act ([0#8, 0#8] ++ leBytes 2 3 ++ leBytes 2 1)
    let s := withJob j scene
    Runs s ∧ s.store.trained = true ∧ s.jobIn 0 Typ.CAPTURE .act = some j ∧ wbCheck s (byteAt j.head 16) (le j.head 18 2) (byteAt j.head 17) = 1) := by
  refine ⟨?_, ?_, ?_, ?_⟩ <;> (try unfold Runs) <;> decide +kernel

theorem witness_DisplayPortEvents :
    (let s := (up.setDp 15 { Dp.reset with trained := true }).setCfg (R.OWB_Ddd_CTRL 15) 0x80000000#32; Runs s ∧ dpEn s 15 = true ∧
      (s.dp 15).trained = true) ∧
    (let s := (up.setCfg (R.OWB_Ddd_CTRL 15) 0x80000980#32).wr (R.OWB_Ddd_STAT 15) 0x40000000#32
    let ok := [(⟨6, 2⟩ : DpConfig)].filter (fun c => decide (c.rate ≤ dpMaxRate s 15 ∧ c.lanes ≤ dpMaxLanes s 15))
    let good := candidates (ok.filter (carries s (dpSrc s 15)))
    Runs s ∧ dpLink s 15 = Link.TRAINING ∧
      (good ++ candidates (ok.filter (fun c => !carries s (dpSrc s 15) c))).find? [(⟨6, 2⟩ : DpConfig)].contains = some ⟨6, 2⟩ ∧
      good.contains ⟨6, 2⟩ = true) ∧
    (let s := up.wr (R.OWB_Ddd_STAT 0) 0x40000000#32; Runs s ∧ dpLink s 0 = Link.TRAINING) ∧
    (let s := ((up.setDp 0 { Dp.reset with hpd := true }).setCfg (R.OWB_Ddd_CTRL 0) 0x80000000#32).wr (R.OWB_Ddd_STAT 0) 0xC0000000#32; Runs s ∧
      dpEn s 0 = true ∧ (s.dp 0).hpd = true ∧ dpLink s 0 = Link.FAILED) ∧
    (let s := up.setDp 0 { Dp.reset with aux := some (0, 15, 0xFFFFF), defers := 7 }; Runs s ∧ (s.dp 0).aux = some (0, 15, 0xFFFFF) ∧
      7 ≤ (s.dp 0).defers) ∧
    (let s := up.setDp 0 { Dp.reset with aux := some (3, 0, 0), defers := 6 }; Runs s ∧ (s.dp 0).aux = some (3, 0, 0) ∧ (s.dp 0).defers < 7) := by
  refine ⟨?_, ?_, ?_, ?_, ?_, ?_⟩ <;> (try unfold Runs) <;> decide +kernel

theorem witness_ReceiveEvents :
    (Runs up ∧ (up.port 15).link = false) ∧
    (Runs linked ∧ (linked.port 15).link = true ∧ (linked.port 15).resetting = false ∧ noted.fecUncorr ≠ 0 ∧ [0#8] ≠ [] ∧
      { noted with fifoFull := true }.fifoFull = true) ∧
    (Runs linked ∧ (linked.port 15).link = true ∧ (linked.port 15).resetting = false ∧ List.replicate 64 0#8 ≠ [] ∧ noted.fifoFull = false ∧
      crcEth ((List.replicate 64 0#8).take (64 - 4)) ≠ leNat ((List.replicate 64 0#8).drop (64 - 4))) ∧
    (Runs linked ∧ leBytes 4 (crcEth []) ≠ [] ∧ (leBytes 4 (crcEth [])).length < 64 ∧
      crcEth ((leBytes 4 (crcEth [])).take (4 - 4)) = leNat ((leBytes 4 (crcEth [])).drop (4 - 4))) ∧
    (Runs linked ∧ (linked.port 15).link = true ∧ (linked.port 15).resetting = false ∧ noted.fifoFull = false ∧ 64 ≤ (eth 0x0800).length ∧
      (eth 0x0800).length ≤ 9216 ∧
      crcEth ((eth 0x0800).take ((eth 0x0800).length - 4)) = leNat ((eth 0x0800).drop ((eth 0x0800).length - 4)) ∧ be (eth 0x0800) 12 2 = 0x0800) ∧
    (Runs linked ∧ 64 ≤ (eth 0x8100).length ∧ (eth 0x8100).length ≤ 9216 ∧
      crcEth ((eth 0x8100).take ((eth 0x8100).length - 4)) = leNat ((eth 0x8100).drop ((eth 0x8100).length - 4)) ∧
      be (eth 0x8100) 12 2 = 0x8100 ∧ be (eth 0x8100) 14 2 % 4096 ≠ bits ((fecCount linked 15 noted).cfg (R.NMP_Pnn_VLAN 15)) 11 0) ∧
    (let f : RxFrame := ⟨7#32, none, true, [], [], []⟩; let s := up.setRxs 255 { RxStream.reset with frames := [f] }; Runs s ∧
      getRxFrame s 255 7#32 = some f ∧ f.closing = true) ∧
    (let s := up.setRxs 255 { RxStream.reset with liveA := true, liveB := true }; Runs s ∧ (s.rxs 255).liveA = true ∧ (s.rxs 255).liveB = true) := by
  refine ⟨?_, ?_, ?_, ?_, ?_, ?_, ?_, ?_⟩ <;> (try unfold Runs) <;> decide +kernel

theorem witness_PortEvents :
    (let s := linked.setPort 15 { linked.port 15 with queues := [(7, [⟨eth 0x0800, none, none⟩])] }; Runs s ∧ (s.port 15).link = true ∧
      (s.port 15).resetting = false ∧ (s.port 15).wire = none ∧ nextClass s 15 = some (7, false)) ∧
    (Runs linked ∧ (linked.port 15).wire = none ∧ nextClass linked 15 = none) ∧
    (let s := linked.setPort 15 { linked.port 15 with pend := some ⟨256, 0, true⟩, operLen := 256, entry := 255 }; Runs s ∧
      (s.port 15).pend = some ⟨256, 0, true⟩ ∧ (s.port 15).operLen ≠ 0) ∧
    (let s := linked.setPort 15 { linked.port 15 with ptp := { Ptp.reset with state := 6 } }; Runs s ∧ ptpMaySend s 15 = true) ∧
    (let s := linked.setPort 15 { linked.port 15 with ptp := { Ptp.reset with state := 9 } }; Runs s ∧
      ((ptpOf s 15).state = 8 ∨ (ptpOf s 15).state = 9)) ∧
    (let s := (linked.setPort 15 { linked.port 15 with ptp := { Ptp.reset with state := 4 } }).setCfg (R.NMP_Pnn_PTP_CTRL 15) 0x40000000#32;
      Runs s ∧ 4 ≤ (ptpOf s 15).state ∧ (ptpOf s 15).state ≠ 6 ∧ ptpRole s 15 = 1) ∧
    (let s := up.setCfg (R.NMP_Pnn_CTRL 15) 0x80000004#32; Runs s ∧ portOn s 15 = true ∧ (s.port 15).link = false) ∧
    (let s := linked.setPort 15 { linked.port 15 with resetting := true }; Runs s ∧ (s.port 15).link = true ∧ (s.port 15).resetting = true) := by
  refine ⟨?_, ?_, ?_, ?_, ?_, ?_, ?_, ?_⟩ <;> (try unfold Runs) <;> decide +kernel

theorem witness_ReferenceEvents :
    (let s := up.setCfg (R.TRS_REFINx_CTRL 1) 1#32; Runs s ∧ s.trs.tod = none ∧ s.trs.sel ≠ some 17 ∧ (refIn s 1).last = none ∧ refType s 1 = 1) ∧
    (let s := (up.setCfg (R.TRS_REFINx_CTRL 0) 3#32).setCfg (R.TRS_REFINx_PER 0) 16666667#32; Runs s ∧ s.trs.tod = none ∧ s.trs.sel ≠ some 16 ∧
      (refIn s 0).last = none ∧ refType s 0 = 3 ∧ s.trs.qual.contains 16 = false) ∧
    (let s : State := { setRefIn (up.setCfg (R.TRS_REFINx_CTRL 1) 1#32) 1 { refIn up 1 with last := some 0 } with up := 999900000 }
    Runs s ∧ s.trs.tod = none ∧ refType s 1 = 1 ∧ (refIn s 1).last = some 0 ∧ 9999 * 1000000000 ≤ 10000 * (s.up - 0) ∧
      10000 * (s.up - 0) ≤ 10001 * 1000000000) ∧
    (let s : State := { setRefIn (up.setCfg (R.TRS_REFINx_CTRL 1) 1#32) 1 { refIn up 1 with last := some 0 } with up := 999899999 }
    Runs s ∧ s.trs.tod = none ∧ refType s 1 = 1 ∧ (refIn s 1).last = some 0 ∧ 10000 * (s.up - 0) < 9999 * 1000000000 ∧ s.trs.sel ≠ some 17 ∧
      s.trs.qual.contains 17 = false) ∧
    (let s := setRefIn ((up.setCfg (R.TRS_REFINx_CTRL 1) 3#32).setCfg (R.TRS_REFINx_PER 1) 16666667#32) 1 { refIn up 1 with last := some 0 }
    Runs s ∧ s.trs.tod = none ∧ refType s 1 = 3 ∧ (refIn s 1).last = some 0 ∧ refPeriod s 1 = ((refPeriod s 1).1, (refPeriod s 1).2) ∧
      s.trs.sel ≠ some 17 ∧ s.trs.qual.contains 17 = false) ∧
    (let s := up.setCfg (R.TRS_REFINx_CTRL 1) 2#32; Runs s ∧ refType s 1 = 2 ∧ s.trs.sel ≠ some 17 ∧ s.trs.qual.contains 17 = false ∧ 9999 ≤ 9999 ∧
      10001 ≤ 10001 ∧ (9998 < 9999 ∨ 10001 < 9998) ∧ (10002 < 9999 ∨ 10001 < 10002)) ∧
    (let s := (up.setPort 15 { Port.reset with link := true, ptp := { Ptp.reset with state := 9, offset := some 0, rateOk := true, best := some ⟨0, 6, 0, 0, 0, 0, 0, 0⟩ } }); Runs s ∧ s.trs.qual.contains 15 = false ∧ refReady s 15 = true) ∧
    (let s := setRefIn (up.setCfg (R.TRS_REFINx_CTRL 1) 1#32) 1 { refIn up 1 with good := true }; Runs s ∧ s.trs.qual.contains 17 = false ∧
      refReady s 17 = true) ∧
    (let s : State := { up with trs := { up.trs with state := 1, e := -100 } }; Runs s ∧ s.trs.state = 1 ∧ s.trs.e.natAbs ≤ trsThresh s) ∧
    (let s : State := { up with trs := { up.trs with state := 2, sel := some 0, e := 801 } }; Runs s ∧ s.trs.sel = some 0 ∧ s.trs.state = 2 ∧
      8 * trsThresh s < s.trs.e.natAbs) ∧
    (let s := (({ up with trs := { up.trs with state := 2, sel := some 16, qual := [18] } } : State).setCfg R.TRS_REF_CTRL 2#32).setCfg (R.TRS_REF_PRIOk 2) 0x100#32; Runs s ∧ bestRef s = some 18 ∧ s.trs.state = 2 ∧ bit (s.cfg R.TRS_REF_CTRL) 1 = true ∧ s.trs.sel ≠ some 18) ∧
    (let s := ({ up with trs := { up.trs with state := 3 } } : State).setCfg R.TRS_HO_CTRL 0x10000#32; Runs s ∧ s.trs.state = 3 ∧
      bits (s.cfg R.TRS_HO_CTRL) 31 16 ≠ 0) ∧
    (let s := ({ up with trs := { up.trs with b := -1 } } : State).setCfg R.TRS_BLEED 1#32; Runs s ∧ bits (s.cfg R.TRS_BLEED) 6 0 ≠ 0 ∧ s.trs.b ≠ 0) := by
  refine ⟨?_, ?_, ?_, ?_, ?_, ?_, ?_, ?_, ?_, ?_, ?_, ?_, ?_⟩ <;> (try unfold Runs) <;> decide +kernel

theorem witness_TimingEvents :
    (let s : State := { up with trs := { up.trs with state := 2 } }; Runs s ∧ s.trs.state = 2) ∧
    (let s : State := { up with trs := { up.trs with state := 3 } }; Runs s ∧ s.trs.state = 3) ∧
    (let s := up.setCfg R.TRS_TEMP_CTRL 0x0F6E0000#32; Runs s ∧ tempSrc s = 0 ∧ [(1 / 2 : Rat)] ≠ [] ∧
      sampleFaults (bits (s.cfg R.TRS_TEMP_CTRL) 31 16) [1 / 2] = [] ∧
      (ntcTemp (bits (s.cfg R.TRS_TEMP_CTRL) 31 16) ([(1 / 2 : Rat)].sum / ([(1 / 2 : Rat)].length : Rat))).isSome = true) ∧
    (let s := up.setCfg R.TRS_TEMP_CTRL 0#32; Runs s ∧ tempSrc s = 0 ∧ (1 : Rat) ∈ [(1 : Rat), 0] ∧ (99 / 100 : Rat) < 1 ∧ (0 : Rat) < 5 / 1000) ∧
    (let s := up.setCfg R.TRS_TEMP_CTRL 1#32; Runs s ∧ tempSrc s = 1) ∧
    (let s := up.setPll 7 { Pll.init 7 with state := 1, band := 8, tried := [8] }; Runs s ∧ (s.pll 7).state = 1 ∧ (s.pll 7).tried ≠ [] ∧
      PllTry.upperRail ≠ .locked ∧ nextBand (s.pll 7).band (decide (PllTry.upperRail = .upperRail)) (s.pll 7).tried = some 9) ∧
    (let s := up.setPll 7 { Pll.init 7 with state := 1, tried := List.range 16 }; Runs s ∧ (s.pll 7).state = 1 ∧ (s.pll 7).tried ≠ [] ∧
      PllTry.lowerRail ≠ .locked ∧ nextBand (s.pll 7).band (decide (PllTry.lowerRail = .upperRail)) (s.pll 7).tried = none) ∧
    (let s := up.setPll 7 { Pll.init 7 with state := 2 }; Runs s ∧ (s.pll 7).state = 2) ∧
    (let s := up.setCfg R.TRS_SYNC_CTRL 0x40000000#32; Runs s ∧ s.trs.syncAt = none ∧ bit (s.cfg R.TRS_SYNC_CTRL) 30 = true) ∧
    (let s : State := { up with up := 999, trs := { up.trs with syncAt := some 0 } }; Runs s ∧ s.trs.syncAt = some 0 ∧ s.up < 0 + 1000) ∧
    (let s := (scene.setCfg R.TRS_SYNC_CTRL 0x80000001#32).wr R.TRS_SYNC_STAT 0x80000000#32; Runs s ∧ s.trs.syncAt = none ∧
      bit (s.cfg R.TRS_SYNC_CTRL) 30 = false ∧ bit (s.rd R.TRS_SYNC_STAT) 31 = true ∧ bit (s.cfg R.TRS_SYNC_CTRL) 0 = true ∧ s.groupHeads 0 = [0]) ∧
    (Runs up ∧ bit (up.cfg R.TRS_BSL_CTRL) 31 = false) ∧
    (let s := (((up.setCfg R.TRS_BSL_CTRL 0x80000000#32).setCfg (R.TRS_Gn_FREQ_LO 0) 0x5F5E100#32).setCfg (R.TRS_Gn_FREQ_HI 0) 0x10000#32).setPll 0 { Pll.init 0 with state := 2 }; Runs s ∧ bit ((bslRate s).cfg R.TRS_BSL_CTRL) 31 = true ∧ bit ((bslRate s).rd R.TRS_BSL_STAT) 30 = false ∧ ((bslRate s).pll (bits ((bslRate s).cfg R.TRS_BSL_CTRL) 18 16)).state = 2) ∧
    (let s : State := { up with trs := { up.trs with bslLink := true, bslFirst := true } }; Runs s ∧ s.trs.bslLink = true ∧ s.trs.bslFirst = true) ∧
    (let m := List.replicate 52 0#8; let s : State := { up with trs := { up.trs with bslLink := true } }; Runs s ∧ s.trs.bslLink = true ∧
      s.trs.bslFirst = false ∧ crc32c (slice m 1 47) ≠ le m 48 4 ∧ ([] : List Byte).length ≠ 52) ∧
    (let s : State := { up with trs := { up.trs with qual := [18] } }; Runs s ∧ s.trs.bslLink = false ∧ s.trs.qual.contains 18 = true) ∧
    (up.powered = true ∧ up.mgmt = true ∧ up.col.inj = none) := by
  refine ⟨?_, ?_, ?_, ?_, ?_, ?_, ?_, ?_, ?_, ?_, ?_, ?_, ?_, ?_, ?_, ?_, ?_⟩ <;> (try unfold Runs) <;> decide +kernel

theorem witness_RegisterAccess :
    (up.powered = true ∧ up.mgmt = true ∧ up.reaches .pf1 = true ∧ up.col.inj = none ∧ (BitVec.ofNat 24 (R.HWQ_Qnn_STAT 63)).toNat % 4 = 0 ∧
      (findRow (R.HWQ_Qnn_STAT 63)).isSome = true ∧ (BitVec.ofNat 24 (R.HWQ_Qnn_STAT 63)).toNat ≠ R.GLB_IDX_DATA ∧
      (BitVec.ofNat 24 (R.HWQ_Qnn_STAT 63)).toNat ≠ R.TRS_TIME_LO ∧ up.priv .pf1 = false ∧ up.priv .lmp = true) ∧
    (4 * (BitVec.ofNat 22 (R.HWQ_Qnn_STAT 63 / 4)).toNat = R.HWQ_Qnn_STAT 63 ∧ R.HWQ_Qnn_STAT 63 ≠ R.GLB_IDX_DATA ∧ R.HWQ_Qnn_STAT 63 ≠ R.TRS_TIME_LO) ∧
    ((up.func 0).cfg.memory = true ∧ (up.func 1).cfg.memory = true ∧ 2 < 3) ∧
    (Runs up ∧ up.ldr.state = .released ∧ up.reaches .lmp = true ∧ (BitVec.ofNat 24 (R.IHM_SPARE_CTRL)).toNat % 4 = 0 ∧
      (up.master .lmp).wq.length < 64 ∧ plainReg R.IHM_SPARE_CTRL = true ∧ mayWrite up .lmp R.IHM_SPARE_CTRL = true) ∧
    (let s := up.setMaster .pf1 { up.master .pf1 with wq := List.replicate 63 ⟨false, R.IHM_SPARE_CTRL, 0#32, true⟩ }; Runs s ∧
      s.ldr.state = .released ∧ s.reaches .pf1 = true ∧ (s.master .pf1).wq.length < 64 ∧
      (s.master .pf1).wq = ⟨false, R.IHM_SPARE_CTRL, 0#32, true⟩ :: List.replicate 62 ⟨false, R.IHM_SPARE_CTRL, 0#32, true⟩) := by
  refine ⟨?_, ?_, ?_, ?_, ?_⟩ <;> (try unfold Runs) <;> decide +kernel

theorem witness_WindowAccess :
    (Runs up ∧ up.ldr.state = .released ∧ up.reaches .pf1 = true ∧ (up.master .pf1).wq.length < 64) ∧
    (let s := up.setMaster .pf0 { up.master .pf0 with ready := false }; Runs s ∧ (s.master .pf0).ready = false ∧ (s.master .pf0).ahead = 0 ∧
      s.col.inj = none ∧ s.col.bad = [] ∧
      fetchFails s (bits (s.master .pf0).sel 6 0) (bits (s.master .pf0).addr 23 0) (fetchesLive (bits (s.master .pf0).sel 6 0) (s.master .pf0).fetchLive) = false) ∧
    (let s : State := { up.setMaster .lmp { up.master .lmp with ready := false, sel := word Space.LAYER_DESC } with failingPend := [skey Space.LAYER_DESC 0] }
    Runs s ∧ (s.master .lmp).ready = false ∧ (s.master .lmp).ahead = 0 ∧ windowFlags s .lmp false = (false, false, false) ∧
      fetchFails s (bits (s.master .lmp).sel 6 0) (bits (s.master .lmp).addr 23 0) (fetchesLive (bits (s.master .lmp).sel 6 0) (s.master .lmp).fetchLive) = true) ∧
    (let s := up.setMaster .lmp { up.master .lmp with sel := word Space.LAYER_DESC }; Runs s ∧ windowFlags s .lmp false = (false, false, false) ∧
      (s.master .lmp).ready = true ∧ s.reaches .lmp = true ∧ s.mgmt = true ∧ s.col.inj = none) ∧
    (windowFlags (up.setMaster .pf1 { up.master .pf1 with sel := word Space.FC_SRC }) .pf1 false ≠ (false, false, false)) ∧
    (let s := up.setMaster .lmp { up.master .lmp with sel := word Space.LAYER_DESC, addr := 0x7FFF#32 }
    (findSpace (bits (s.master .lmp).sel 6 0)).any (fun p => decide (bits (s.master .lmp).addr 23 0 < p.words) && !p.readOnly && p.decked &&
      !wordReserved p.code (bits (s.master .lmp).addr 23 0) && mayWriteSpace s .lmp p.code &&
      (committing s (writerOf s .lmp) (wordGroups s (s.master .lmp).wq p.code (bits (s.master .lmp).addr 23 0))).isNone) = true) ∧
    (let s := up.setMaster .lmp { up.master .lmp with sel := word Space.FC_SRC, addr := 319#32 }
    (findSpace (bits (s.master .lmp).sel 6 0)).any (fun p => decide (bits (s.master .lmp).addr 23 0 < p.words) && !p.readOnly && !p.decked &&
      !wordReserved p.code (bits (s.master .lmp).addr 23 0) && mayWriteSpace s .lmp p.code) = true) ∧
    (let w : QWrite := ⟨true, skey Space.LAYER_DESC 0x7FFF, 0xFFFFFFFF#32, true⟩
    let s := up.setMaster .lmp { up.master .lmp with wq := [w] }
    Runs s ∧ (s.master .lmp).wq = [w] ∧ w.indirect = true ∧ (findSpace (w.at_ / 16777216)).any (fun p => p.decked) = true ∧
      wordReserved (w.at_ / 16777216) (w.at_ % 16777216) = false) := by
  refine ⟨?_, ?_, ?_, ?_, ?_, ?_, ?_, ?_⟩ <;> (try unfold Runs) <;> decide +kernel

theorem witness_RefusedAccess :
    (Master.pf0 ≠ .lmp ∧ up.powered = true ∧ up.mgmt = true ∧ up.reaches .pf0 = true ∧ (up.func 0).cfg.memory = true ∧
      (0xFFFFFC#24).toNat % 4 = 0 ∧ findRow (0xFFFFFC#24).toNat = none) ∧
    (findRow (4 * (0x3FFFFF#22).toNat) = none ∧ (14#4 : BitVec 4) ≠ 15#4 ∧ Runs up ∧ up.mgmt = true ∧ up.ldr.state = .released) ∧
    (let s := up.setMaster .pf0 { up.master .pf0 with wq := List.replicate 64 ⟨false, 0, 0#32, true⟩ }; Runs s ∧ s.reaches .pf0 = true ∧
      64 ≤ (s.master .pf0).wq.length) ∧
    (let s := dev .settle; Runs s ∧ s.reaches .pf1 = true ∧ (s.master .pf1).wq.length < 64 ∧ s.ldr.state ≠ .released ∧ s.ldr.state ≠ .waitHost ∧
      s.ldr.state ≠ .noImage ∧ s.ldr.state ≠ .held) ∧
    (Runs up ∧ up.ldr.state = .released ∧ up.reaches .pf1 = true ∧ (up.master .pf1).wq.length < 64 ∧
      (findRow R.IHM_AVS_CTRL).any (fun r => r.priv == .priv && (r.rw ||| r.wo) != 0#32) = true ∧ up.priv .pf1 = false ∧
      perMaster R.IHM_AVS_CTRL = false ∧ R.IHM_AVS_CTRL % 4 = 0 ∧ ownerOk up R.IHM_AVS_CTRL (writerOf up .pf1) = true) ∧
    ((findRow R.IHM_FC_SUMMARY).any (fun r => (r.rw ||| r.wo) == 0#32) = true ∧ perMaster R.IHM_FC_SUMMARY = false ∧ R.IHM_FC_SUMMARY % 4 = 0 ∧
      ownerOk up R.IHM_FC_SUMMARY (writerOf up .lmp) = true) ∧
    ((findRow (R.HWQ_Qnn_SEQ 16)).isSome = true ∧ perMaster (R.HWQ_Qnn_SEQ 16) = false ∧ R.HWQ_Qnn_SEQ 16 % 4 = 0 ∧
      ownerOk up (R.HWQ_Qnn_SEQ 16) (writerOf up .pf1) = false) ∧
    (let s := up.setMaster .lmp { up.master .lmp with sel := 0x7F#32 }; Runs s ∧ s.reaches .lmp = true ∧ (s.master .lmp).wq.length < 64 ∧
      findSpace (bits (s.master .lmp).sel 6 0) = none) ∧
    (let s := up.setMaster .pf1 { up.master .pf1 with sel := word Space.FC_SRC, addr := 320#32 }
    Runs s ∧ s.reaches .pf1 = true ∧
      (findSpace (bits (s.master .pf1).sel 6 0)).any (fun p => decide (p.words = bits (s.master .pf1).addr 23 0)) = true) ∧
    (let s := up.setMaster .pf1 { up.master .pf1 with sel := word Space.FC_SRC, addr := 319#32 }
    Runs s ∧ s.reaches .pf1 = true ∧ s.priv .pf1 = false ∧
      (findSpace (bits (s.master .pf1).sel 6 0)).any (fun p => decide (bits (s.master .pf1).addr 23 0 < p.words) && !p.readOnly &&
      !wordReserved p.code (bits (s.master .pf1).addr 23 0) && !p.writeOpen) = true) ∧
    (let s := (up.setFunc 0 Func.reset).setFunc 1 Func.reset; Runs s ∧ (s.func 0).cfg.memory = false ∧ (s.func 1).cfg.memory = false) := by
  refine ⟨?_, ?_, ?_, ?_, ?_, ?_, ?_, ?_, ?_, ?_, ?_⟩ <;> (try unfold Runs) <;> decide +kernel

theorem witness_CollectorEvents :
    (Runs up ∧ sourceReserved 0 = false ∧ historyOf 0 = none ∧ sourceReserved 319 = false ∧ historyOf 319 = none) ∧
    (let s := up.setSrc 319 { SrcSt.reset with win := true }; Runs s ∧ (s.src 319).win = true ∧ s.col.bad.contains (1024 + 319) = false) ∧
    (let s := ((scene.setLv (skey Space.TALLY_REGION 2044) 0x80100000#32).setLv (skey Space.TALLY_REGION 2046) 0x40004#32).setSign 511 { scene.sign 511 with rows := 4 }
    Runs s ∧ (List.range 32).find? (fun h => (regionOf (s.headView h).lv 511).en && (regionOf (s.headView h).lv 511).head == h) = some 0 ∧
      regionMalformed (s.headView 0) 511 (regionOf (s.headView 0).lv 511) = false ∧ (s.sign 511).done = false ∧
      (s.sign 511).rows = (regionOf (s.headView 0).lv 511).h) ∧
    (Runs up ∧ up.col.bad.contains 0 = false ∧ up.col.selfWait = 0) ∧
    (let s : State := { up with col := { up.col with selfWait := 2 } }; Runs s ∧ s.col.selfWait = 2 ∧ s.col.bad = []) ∧
    (let s : State := { up with col := { up.col with selfWait := 1 } }; Runs s ∧ s.col.selfWait = 1 ∧ s.col.bad = []) ∧
    (let s : State := { up with col := { up.col with selfWait := 1, bad := [0] } }; Runs s ∧ s.col.selfWait = 1 ∧ s.col.bad ≠ []) ∧
    (Runs up ∧ up.mgmt = true ∧ mismatch up 38 = some true) := by
  refine ⟨?_, ?_, ?_, ?_, ?_, ?_, ?_, ?_⟩ <;> (try unfold Runs) <;> decide +kernel

theorem witness_CarryEvents :
    (let s := up.setMetered 0 { up.metered 0 with eff := 1 }; Runs s ∧ s.mgmt = true ∧ (s.metered 0).eff ≠ 6 ∧ (s.metered 0).eff ≠ 7 ∧ unitClass 0 ≠ 1) ∧
    (let s := up.setMetered 416 { up.metered 416 with eff := 1 }; Runs s ∧ s.mgmt = true ∧ unitClass 416 = 1 ∧ logicalOf s 416 ≠ none ∧
      [0, 3, 6, 7].contains (s.metered 416).eff = false) ∧
    (let x : UnitCarry := { carry1 with spare := some 448 }; let s := up.setCarry 1 (some x); Runs s ∧ UnitClass.code .tile ≠ 0 ∧
      s.carry (UnitClass.code .tile) = some x ∧ x.ready = false ∧ x.reason ≠ 1 ∧ x.spare = some 448) ∧
    (let x : UnitCarry := { carry1 with switched := true }; let s := up.setCarry 1 (some x); Runs s ∧ s.carry (UnitClass.code .tile) = some x ∧
      x.reason ≠ 1 ∧ x.switched = true ∧ stillServes s x.unit = false) ∧
    (let x : UnitCarry := { carry1 with unit := 0, spare := some 400 }; let s := up.setCarry 0 (some x); Runs s ∧ s.carry 0 = some x ∧
      x.switched = false ∧ x.spare = some 400) ∧
    (let x : UnitCarry := { carry1 with unit := 0, switched := true }; let s := up.setCarry 0 (some x); Runs s ∧ s.carry 0 = some x ∧
      x.switched = true ∧ x.reason ≠ 1) ∧
    (let s := (up.setMetered 569 { up.metered 569 with eff := 3 }).setMetered 0 { up.metered 0 with eff := 4 }; Runs s ∧ (s.metered 569).eff = 3 ∧
      (s.metered 0).eff = 4) ∧
    (let s := (up.setCfg R.IHM_PG_CTRL 1#32).setMetered 400 { up.metered 400 with eff := 5 }; Runs s ∧ s.mgmt = true ∧
      bit (s.cfg R.IHM_PG_CTRL) 0 = true ∧ logicalOf s 400 = none ∧ unitClass 400 ≠ 3 ∧ freeSpare s 400 = true) ∧
    (let s := up.setCfg R.IHM_PG_CTRL 0#32; Runs s ∧ bit (s.cfg R.IHM_PG_CTRL) 0 = false) := by
  refine ⟨?_, ?_, ?_, ?_, ?_, ?_, ?_, ?_, ?_⟩ <;> (try unfold Runs) <;> decide +kernel

theorem witness_SupplyEvents :
    (let s := up.setCfg R.IHM_AVS_CTRL 0x83E80320#32
    Runs s ∧ s.mgmt = true ∧ s.released = true ∧ bit (s.cfg R.IHM_AVS_CTRL) 31 = true ∧ s.health.busErr = false ∧
      (∀ u, u < 570 → effState s u = 2 → (s.metered u).period ≤ 0)) ∧
    (let s := up.setCfg R.IHM_AVS_CTRL 0#32; Runs s ∧ s.mgmt = true ∧ s.health.busErr = false ∧
      (s.released = false ∨ bit (s.cfg R.IHM_AVS_CTRL) 31 = false)) ∧
    (let s : State := { up with health := { up.health with busErr := true } }; Runs s ∧ s.mgmt = true ∧ s.health.busErr = true) ∧
    (Runs up ∧ up.mgmt = true ∧ (∀ u, u < 570 → effState up u = 2 → (up.metered u).period ≤ 1000)) ∧
    (let x : Temps := ⟨38400 :: List.replicate 15 33280, [0, 255, 105, 90], []⟩
    let s := up.setCfg R.IHM_THERM_CTRL 0x78777600#32
    Runs s ∧ s.mgmt = true ∧ x.die.length = 16 ∧ (∀ j, j < 16 → -14080 ≤ x.die.getD j 0 ∧ x.die.getD j 0 ≤ 38400) ∧
      (∀ i, i < 16 → ∀ j, j < 16 → x.die.getD i 0 ≤ x.die.getD j 0 + 5120) ∧ (∀ j, j < 16 → x.die.getD j 0 ≤ x.die.getD 0 0) ∧
      bits (s.cfg R.IHM_THERM_CTRL) 15 8 = 118 ∧ bits (s.cfg R.IHM_THERM_CTRL) 23 16 = 119 ∧ bits (s.cfg R.IHM_THERM_CTRL) 31 24 = 120) ∧
    (let x : Temps := ⟨List.replicate 16 (-14080), [0, 0, 0, 0], []⟩
    x.die.length = 16 ∧ (∀ j, j < 16 → -14080 ≤ x.die.getD j 0 ∧ x.die.getD j 0 ≤ 38400) ∧ (∀ j, j < 16 → x.die.getD j 0 ≤ x.die.getD 15 0)) ∧
    (let x : Temps := ⟨List.replicate 8 0 ++ List.replicate 8 (-14081), [0, 0, 0, 0], []⟩
    x.die.length = 16 ∧ x.die.getD 15 0 < -14080 ∧ ((⟨[38401], [], []⟩ : Temps).die.getD 0 0) > 38400) ∧
    (let x : Temps := ⟨List.replicate 15 25599 ++ [26879], [84, 0, 84, 0], []⟩
    let y : Temps := ⟨25600 :: List.replicate 15 25600, [0, 0, 0, 0], []⟩
    Runs up ∧ up.mgmt = true ∧ x.die.length = 16 ∧ (∀ j, j < 15 → x.die.getD j 0 < x.die.getD 15 0) ∧ up.health.level = 0 ∧
      up.cfg R.IHM_THERM_CTRL = 0x73696405#32 ∧ 25600 ≤ x.die.getD 15 0 ∧ x.die.getD 15 0 < 26880 ∧ y.die.length = 16 ∧
      (∀ j, j < 16 → y.die.getD j 0 ≤ y.die.getD 0 0) ∧ 25600 ≤ y.die.getD 0 0) := by
  refine ⟨?_, ?_, ?_, ?_, ?_, ?_, ?_, ?_⟩ <;> (try unfold Runs) <;> decide +kernel

theorem witness_LineJobs :
    (let j : Job := { upload with phase := .act }
    let s := (stored1.setQueue 16 { Queue.reset with job := some j }).setFunc 0 { mapped with cfg := { mapped.cfg with busMaster := true } }
    Runs s ∧ s.store.trained = true ∧ s.jobIn 16 Typ.SURFACE_UPLOAD .act = some j ∧ uploadCheck s 16 j = none) ∧
    (let j : Job := { upload with phase := .act }
    let s := withJob j up
    Runs s ∧ s.store.trained = true ∧ s.jobIn 0 Typ.SURFACE_UPLOAD .act = some j ∧ (uploadCheck s 0 j).isSome = true) ∧
    (let j : Job := { upload with pos := 0 }
    let s := (stored1.setQueue 63 { Queue.reset with job := some j }).setFunc 1 { mapped with cfg := { mapped.cfg with busMaster := true } }
    Runs s ∧ s.jobIn 63 Typ.SURFACE_UPLOAD .running = some j ∧ queueOwner s 63 = some 1 ∧ s.busMaster 1 = true ∧
      j.pos + 1 < le ((uploadSegments j).getD j.seg []) 2 2) ∧
    (let j : Job := { upload with pos := 1 }
    let s := (stored1.setQueue 63 { Queue.reset with job := some j }).setFunc 1 { mapped with cfg := { mapped.cfg with busMaster := true } }
    Runs s ∧ s.jobIn 63 Typ.SURFACE_UPLOAD .running = some j ∧ queueOwner s 63 = some 1 ∧ s.busMaster 1 = true ∧
      le ((uploadSegments j).getD j.seg []) 2 2 ≤ j.pos + 1 ∧
      (uploadSegments j).length ≤ j.seg + 1) ∧
    (let j : Job := job Typ.SURFACE_UPLOAD .running (leBytes 2 1 ++ leBytes 2 2 ++ List.replicate 20 0#8 ++ leBytes 2 0 ++ leBytes 2 1)
    let k : Job := { j with entries := j.entries ++ [List.replicate 64 0#8] }
    le ((uploadSegments k).getD k.seg []) 2 2 ≤ k.pos + 1 ∧ k.seg + 1 < (uploadSegments k).length) ∧
    (let s := stored1.setQueue 63 { Queue.reset with job := some upload }
    Runs s ∧ s.jobIn 63 Typ.SURFACE_UPLOAD .running = some upload ∧ queueOwner s 63 = some 1 ∧ s.busMaster 1 = false) ∧
    (let j := job Typ.SURFACE_COPY .act (leBytes 2 1 ++ leBytes 2 2 ++ leBytes 2 0 ++ leBytes 2 0 ++ leBytes 2 2)
    let s := withJob j stored1
    Runs s ∧ s.store.trained = true ∧ s.jobIn 0 Typ.SURFACE_COPY .act = some j ∧ s.health.level < 3 ∧ copyCheck s j = some Code.BAD_HANDLE ∧
      copyCheck (s.setSurface 2 (some surf)) j = none) ∧
    (let j := job Typ.SURFACE_COPY .running (leBytes 2 1 ++ leBytes 2 2 ++ leBytes 2 0 ++ leBytes 2 0 ++ leBytes 2 2)
    let s := withJob j stored1
    Runs s ∧ s.jobIn 0 Typ.SURFACE_COPY .running = some j ∧ (fetchLine s (le j.head 16 2) (le j.head 20 2 + j.pos) []).1 ≠ .void ∧
      j.pos + 1 < le j.head 24 2) ∧
    (let j := job Typ.FILL .act (leBytes 2 1 ++ leBytes 2 0 ++ leBytes 2 4)
    let s := withJob j stored1
    Runs s ∧ s.store.trained = true ∧ s.jobIn 0 Typ.FILL .act = some j ∧ s.health.level < 3 ∧ fillCheck s j = none) ∧
    (let j := job Typ.FILL .act (leBytes 2 1 ++ leBytes 2 1 ++ leBytes 2 4)
    let s := withJob j stored1
    Runs s ∧ s.store.trained = true ∧ s.jobIn 0 Typ.FILL .act = some j ∧ s.health.level < 3 ∧ fillCheck s j = some Code.RANGE) ∧
    (let j := job Typ.FILL .running (leBytes 2 1 ++ leBytes 2 0 ++ leBytes 2 4 ++ [4#8])
    let s := withJob j stored1
    Runs s ∧ s.jobIn 0 Typ.FILL .running = some j ∧ s.surface (le j.head 16 2) = some surf ∧ j.pos + 1 < le j.head 20 2) ∧
    (let j := job Typ.OFFLINE_COMPOSE .act (leBytes 2 1)
    let s := withJob j stored1
    Runs s ∧ s.store.trained = true ∧ s.jobIn 0 Typ.OFFLINE_COMPOSE .act = some j ∧ s.health.level < 3 ∧ offlineCheck s j = some Code.BAD_FORMAT) ∧
    (let j := job Typ.OFFLINE_COMPOSE .act (leBytes 2 2)
    let s := withJob { j with entries := j.entries ++ [entry0] } (stored1.setSurface 2 (some { surf with format := 4, pitch := 48 }))
    (s.jobIn 0 Typ.OFFLINE_COMPOSE .act).map (offlineCheck s) = some none) ∧
    (let j : Job := { composing with pos := 2, units := [416, scalerUnit up 0] }
    let s := withJob j inService2
    Runs s ∧ s.jobIn 0 Typ.OFFLINE_COMPOSE .running = some j ∧ s.surface (le j.head 16 2) = some surf ∧ (offlineDescs j)[j.seg]?.isSome = true ∧
      ¬ (j.pos = 0 ∧ 2 ≤ s.health.level) ∧ (offlineUnits s 0 j).map Prod.fst = some [416, scalerUnit up 0] ∧ j.pos + 1 < surf.height) ∧
    (let s : State := withJob composing { inService2 with health := { inService2.health with level := 2 } }
    Runs s ∧ s.jobIn 0 Typ.OFFLINE_COMPOSE .running = some composing ∧ s.surface (le composing.head 16 2) = some surf ∧
      (offlineDescs composing)[composing.seg]?.isSome = true ∧ composing.pos = 0 ∧ 2 ≤ s.health.level) ∧
    (let j := job Typ.TALLY_QUERY .act []; Runs (withJob j up) ∧ (withJob j up).jobIn 0 Typ.TALLY_QUERY .act = some j) := by
  refine ⟨?_, ?_, ?_, ?_, ?_, ?_, ?_, ?_, ?_, ?_, ?_, ?_, ?_, ?_, ?_, ?_⟩ <;> (try unfold Runs) <;> decide +kernel

theorem witness_QueueEvents :
    (let s := ((up.setCfg (R.HWQ_Qnn_CFG 16) 0x80000004#32).setQueue 16 { Queue.reset with reading := true }).setFunc 0 { mapped with cfg := { mapped.cfg with busMaster := true } }
    Runs s ∧ (leBytes 4 16).length = 4 ∧ (s.queue 16).reading = true ∧ queueFetches s 16 = true ∧ boardQueue 16 = false ∧
      queueOwner s 16 = some 0 ∧ s.busMaster 0 = true ∧
      (word (leNat (leBytes 4 16)) - s.rd (R.HWQ_Qnn_CONS 16)).toNat ≤ ringSize s 16 ∧ s.rd (R.HWQ_Qnn_CONS 16) ≠ word (leNat (leBytes 4 16))) ∧
    (let s := (up.setCfg (R.HWQ_Qnn_CFG 15) 0x80000004#32).setQueue 15 { Queue.reset with reading := true }; Runs s ∧ (s.queue 15).reading = true ∧
      queueFetches s 15 = true ∧ boardQueue 15 = true) ∧
    (let s := (up.setCfg (R.HWQ_Qnn_CFG 15) 0x80000004#32).setQueue 15 { Queue.reset with prod := 1#32 }
    let ws := entryWords 15 (slotAddr s 15 (nextEntry s 15))
    let t : State := { s with failing := ws.map (fun w => skey w.1 w.2) }
    Runs s ∧ boardQueue 15 = true ∧ Ecc.good ≠ .ue ∧ s.col.inj = none ∧ queueFetches s 15 = true ∧ s.rd (R.HWQ_Qnn_CONS 15) ≠ (s.queue 15).prod ∧
      ws.any (fun w => s.failing.contains (skey w.1 w.2)) = false ∧ ws.any (fun w => t.failing.contains (skey w.1 w.2)) = true ∧
      queueFetches t 15 = true) ∧
    (let j : Job := { job Typ.FILL .chain [] with entries := [List.replicate 64 0#8, List.replicate 64 0#8], read := 1 }
    let s := (up.setCfg (R.HWQ_Qnn_CFG 15) 0x80000004#32).setQueue 15 { Queue.reset with job := some j }
    queueFetches s 15 = true ∧ rereads s 15 = true) ∧
    (let s := ((up.setCfg (R.HWQ_Qnn_CFG 63) 0x80000004#32).setQueue 63 { Queue.reset with prod := 1#32 }).setFunc 1 { mapped with cfg := { mapped.cfg with busMaster := true } }
    Runs s ∧ (List.replicate 64 0#8).length = 64 ∧ boardQueue 63 = false ∧ s.col.inj = none ∧ queueFetches s 63 = true ∧
      s.rd (R.HWQ_Qnn_CONS 63) ≠ (s.queue 63).prod ∧ queueOwner s 63 = some 1 ∧ s.busMaster 1 = true) ∧
    (let s := up.setFunc 1 { Func.reset with resetting := true, flr := true }
    Runs s ∧ (∀ q, q < 64 → (ownedQueues s 2).contains q = true → (s.queue q).stopping = false) ∧ (s.func 1).resetting = true ∧
      (s.func 1).flr = true) ∧
    (let s := up.setFunc 1 { Func.reset with holdoff := true }; Runs s ∧ (s.func 1).holdoff = true ∧ (s.func 1).covered = false) ∧
    (let s := up.setFunc 1 { Func.reset with holdoff := true, covered := true }; Runs s ∧ (s.func 1).holdoff = true ∧ (s.func 1).covered = true) ∧
    (let s := up.setFunc 0 { mapped with pba := [vectorCount 0 - 1], cfg := { mapped.cfg with msix := true, busMaster := true } }
    Runs s ∧ (s.func 0).cfg.memory = true ∧ vectorCount 0 - 1 < vectorCount 0 ∧ (s.func 0).unmasked.contains (vectorCount 0 - 1) = false ∧
      (s.func 0).pba = [vectorCount 0 - 1] ∧
      (s.func 0).cfg.msix = true ∧ (s.func 0).cfg.busMaster = true ∧ (s.func 0).cfg.functionMask = false) ∧
    (Runs up ∧ (up.func 1).cfg.memory = true ∧ 31 < vectorCount 1 ∧ (up.func 1).unmasked.contains 31 = false ∧ (up.func 1).pba = [] ∧
      (up.func 0).pba = [] ∧ up.mgmt = true ∧ bit (up.rd R.HWQ_PCIE_STAT) 16 = false ∧ (State.reset.func 1).cfg.memory = false) ∧
    (let s := up.wr R.HWQ_PCIE_STAT (pcieStat 16 5); Runs s ∧ s.mgmt = true ∧ bit (s.rd R.HWQ_PCIE_STAT) 16 = true ∧
      15 % 64 < bits (s.rd R.HWQ_PCIE_STAT) 9 4 ∧ 4 % 16 < bits (s.rd R.HWQ_PCIE_STAT) 3 0) := by
  refine ⟨?_, ?_, ?_, ?_, ?_, ?_, ?_, ?_, ?_, ?_, ?_⟩ <;> (try unfold Runs) <;> decide +kernel

theorem witness_ApertureAccess :
    (Runs window ∧ (window.func 1).cfg.memory = true ∧ apSite window 1 (8#30).toNat = some (1, surf, 8) ∧ 8 + 120 ≤ surf.lines * surf.pitch ∧
      surf.lines * surf.pitch < 8 + 121) ∧
    (Runs up ∧ (up.func 0).cfg.memory = true ∧ apSite up 0 (0x3FFFFFFF#30).toNat = none) ∧
    (let s := window.setFunc 1 Func.reset; Runs s ∧ (s.func 1).cfg.memory = false) ∧
    (apSite window 1 (0x2F#30).toNat = some (1, surf, 47) ∧ 47 + [1#8].length ≤ surf.lines * surf.pitch ∧
      47 / surf.pitch = (47 + [1#8].length - 1) / surf.pitch ∧ 47 < 47 / surf.pitch * surf.pitch + surf.payload ∧
      rodsVoid window (rodsFor .ingest) (47 / surf.pitch) = false) ∧
    (let s : State := { window with health := { window.health with lostRods := rodsFor .ingest } }
    rodsVoid s (rodsFor .ingest) (47 / surf.pitch) = true ∧ apSite s 1 (0x2F#30).toNat = some (1, surf, 47)) ∧
    (apSite window 1 (0x30#30).toNat = some (1, surf, 48) ∧ 48 / surf.pitch * surf.pitch + surf.payload ≤ 48 ∧
      48 + [1#8].length ≤ surf.lines * surf.pitch) := by
  refine ⟨?_, ?_, ?_, ?_, ?_, ?_⟩ <;> (try unfold Runs) <;> decide +kernel

theorem witness_FrameOfRegisterWrites :
    (up.master .lmp).wq = [] ∧ (up.master .pf0).wq = [] ∧ (up.master .pf1).wq = [] ∧ (writeReaches (.headReset .lmp 0)).isSome = true := by
  decide +kernel

theorem witness_ShutdownLasts :
    let s : State := { up with dead := true }; s.dead = true ∧ s.powered = true ∧ s.pending.head? ≠ some .porstNAssert := by
  decide +kernel

theorem witness_DeckWrites :
    (let o := R.OWB_Hnn_HTIME0 0
    Runs scene ∧ scene.ldr.state = .released ∧ scene.reaches .lmp = true ∧ (BitVec.ofNat 24 o).toNat % 4 = 0 ∧
      (scene.master .lmp).wq.length < 64 ∧
      (findRow o).any (fun r => (r.cls == .group || r.cls == .disruptive) && (r.rw ||| r.wo) != 0#32 &&
        (committing scene (writerOf scene .lmp) (deckGroups scene r o)).isNone) = true ∧
      mayWrite scene .lmp o = true ∧ perMaster o = false ∧ isWm o = false ∧ regQueue o = none ∧ (∀ g, g < 8 → o ≠ R.SEQ_Gn_HEADS g) ∧
      (o < 0x20000 ∨ 0x40000 ≤ o)) ∧
    (let o := R.OWB_Hnn_HTIME0 0
    let w : QWrite := ⟨false, o, 5#32, true⟩
    let s := scene.setMaster .lmp { scene.master .lmp with wq := [w] }
    Runs s ∧ (s.master .lmp).wq = [w] ∧ w.indirect = false ∧ (findRow w.at_).any (fun r => r.cls == .group || r.cls == .disruptive) = true ∧
      perMaster w.at_ = false ∧
      (handlers.findSome? fun h => (h.indexAt w.at_).map fun _ => ()) = none) ∧
    (let o := R.OWB_Hnn_HTIME0 0
    let s := scene.setGroup 0 { Group.reset with commit := some commit1 }
    Runs s ∧ s.reaches .lmp = true ∧ (s.master .lmp).wq.length < 64 ∧ mayWrite s .lmp o = true ∧ perMaster o = false ∧
      (findRow o).any (fun r => (r.rw ||| r.wo) != 0#32 && committing s (writerOf s .lmp) (deckGroups s r o) == some 0) = true) := by
  refine ⟨?_, ?_, ?_⟩ <;> (try unfold Runs) <;> decide +kernel

theorem witness_IdleStepPassesTime :
    up.pending = [] ∧ up.powered = true ∧ up.trs.xoStopped = false ∧ State.reset.powered = false := by
  decide +kernel

theorem witness_EveryCommandAnswers :
    porst (.porstNAssert) = true := by
  decide +kernel

theorem witness_NothingActsInReset :
    State.reset.powered = false ∧ porst .supplyExcursion = false := by
  decide +kernel

theorem witness_NothingActsAfterShutdown :
    let s : State := { up with dead := true }; s.powered = true ∧ s.dead = true ∧ porst .supplyExcursion = false ∧
      mirrorReads .supplyExcursion = false := by
  decide +kernel

theorem witness_FrameOfEveryCommand :
    Part.store ∉ reaches (.refinEdge 0) := by
  decide +kernel

theorem witness_LineWrites :
    stored1.surface 1 = some surf ∧ 3 < surf.lines ∧ 4 ≤ surf.pitch ∧ surf.payload + 4 ≤ surf.pitch ∧ 31 < surf.pitch ∧ surf.lines ≤ 4 ∧
      stored1.surface 2 = none := by
  decide +kernel

theorem witness_LineLayout :
    (5 : Nat) ≠ tailValue 1 0 [] ∧ 5 ≠ not32 (tailValue 1 0 []) := by
  decide +kernel

theorem witness_TimeSnapshot :
    (up.powered = true ∧ up.mgmt = true ∧ up.reaches .pf1 = true ∧ up.col.inj = none) ∧
    (Part.masters ∉ reaches .bslLinkLost ∧
      (match exec (.timeLoRead .pf1) up with
        | .next t => (later [none, some .bslLinkLost, none] t).any (fun w => w.powered && w.mgmt && w.reaches .pf1 && w.col.inj.isNone)
        | _ => false) = true) := by
  refine ⟨?_, ?_⟩ <;> decide +kernel

theorem witness_ForceLines :
    (let s := up.setSrc 5 { SrcSt.reset with level := 3, heads := 0x80000000#32 }; (s.src 5).level = 3 ∧ bit (s.src 5).heads 31 = true) ∧
    (let s := up.setSrc 308 { SrcSt.reset with level := 1 }; 1 ≤ (s.src 308).level) ∧
    (let s := up.setCfg (R.OWB_Hnn_SAFE_CTRL 31) 0x800#32; bit (s.cfg (R.OWB_Hnn_SAFE_CTRL 31)) 11 = true) ∧
    ((up.src 308).level = 0 ∧ (∀ e ∈ up.col.src, e.2.level = 3 → bit e.2.heads 31 = false) ∧ bit (up.cfg (R.OWB_Hnn_SAFE_CTRL 31)) 11 = false) ∧
    ((up.safeOf 31).active = false ∧ bit (up.cfg (R.OWB_Hnn_SAFE_CTRL 31)) 10 = false) ∧
    (let s := up.setCfg (R.OWB_Hnn_SAFE_CTRL 31) 0xC00#32; (s.safeOf 31).active = false ∧ forceLine s 31 = true ∧
      bit (s.cfg (R.OWB_Hnn_SAFE_CTRL 31)) 10 = true ∧ (s.head 31).emits = false) ∧
    (let s := (up.setCfg (R.OWB_Hnn_SAFE_CTRL 31) 0xC00#32).setHead 31 { Head.reset with emits := true }; (s.safeOf 31).active = false ∧
      forceLine s 31 = true ∧ bit (s.cfg (R.OWB_Hnn_SAFE_CTRL 31)) 10 = true ∧ (s.head 31).emits = true) := by
  refine ⟨?_, ?_, ?_, ?_, ?_, ?_, ?_⟩ <;> decide +kernel

theorem witness_ProducerIndex :
    (let s := up.setCfg (R.HWQ_Qnn_CFG 0) 4#32; (16#32 - s.rd (R.HWQ_Qnn_CONS 0)).toNat ≤ ringSize s 0 ∧ (16#32 : Word) ≠ s.rd (R.HWQ_Qnn_CONS 0)) ∧
    (let s := up.setCfg (R.HWQ_Qnn_CFG 0) 4#32; ringSize s 0 < (17#32 - s.rd (R.HWQ_Qnn_CONS 0)).toNat) := by
  refine ⟨?_, ?_⟩ <;> decide +kernel

theorem witness_LoaderCommandsComplete :
    (Runs (dev .held) ∧ ((dev .held).master .lmp).wq = [] ∧ (dev .held).reaches .lmp = true ∧ (dev .held).priv .lmp = true ∧
      (dev .held).ldr.state = .held) ∧
    (Runs (dev .noImage) ∧ ((dev .noImage).master .pf0).wq = [] ∧ (dev .noImage).reaches .pf0 = true ∧ (dev .noImage).priv .pf0 = true ∧
      (dev .noImage).hostStates = true) ∧
    (Runs up ∧ (up.master .pf0).wq = [] ∧ up.reaches .pf0 = true ∧ up.priv .pf0 = true ∧ up.released = true ∧ up.ldr.upd = 0 ∧ up.ldr.erased = false) ∧
    (let s := (({ dev .waitHost with ldr := { (dev .waitHost).ldr with erased := true } } : State).setCfg R.LDR_UPD_ADDR 0xFF00#32).wr R.LDR_STAT 0x90000#32; Runs s ∧ (s.master .lmp).wq = [] ∧ s.reaches .lmp = true ∧ s.priv .lmp = true ∧ s.hostStates = true ∧ s.ldr.upd = 0 ∧ bits (s.cfg R.LDR_UPD_ADDR) 27 8 ≠ 0 ∧ s.ldr.erased = true ∧ 256 * bits (s.cfg R.LDR_UPD_ADDR) 27 8 < halfOfFlash (bits (s.rd R.LDR_STAT) 19 16)) ∧
    (let s : State := { up with ldr := { up.ldr with upd := 3 } }; Runs s ∧ s.ldr.upd = 3 ∧ s.ldr.updResult = 0) := by
  refine ⟨?_, ?_, ?_, ?_, ?_⟩ <;> (try unfold Runs) <;> decide +kernel

theorem witness_FrameOfLineCommands :
    (let s := (stored1.setQueue 63 { Queue.reset with job := some upload }).setFunc 1 { mapped with cfg := { mapped.cfg with busMaster := true } }
    Runs s ∧ s.jobIn 63 Typ.SURFACE_UPLOAD .running = some upload ∧ s.surface (le upload.head 16 2) = some surf ∧ 4 ≤ surf.pitch ∧
      (jobDst upload).map (·.1) = some 1 ∧
      answers (.surfaceUpload 63 [.ok (List.replicate 16 1#8)]) s = true) ∧
    (let j := job Typ.SURFACE_COPY .running (leBytes 2 1 ++ leBytes 2 1 ++ leBytes 2 0 ++ leBytes 2 2 ++ leBytes 2 2)
    let s := withJob j stored1
    Runs s ∧ s.jobIn 0 Typ.SURFACE_COPY .running = some j ∧ s.surface (le j.head 18 2) = some surf ∧ answers (.surfaceCopy 0 1) s = true) ∧
    (let j := job Typ.FILL .running (leBytes 2 1 ++ leBytes 2 0 ++ leBytes 2 4 ++ [4#8])
    let s := withJob j stored1
    Runs s ∧ s.jobIn 0 Typ.FILL .running = some j ∧ s.surface (le j.head 16 2) = some surf ∧ answers (.fill 0 1) s = true) ∧
    (let s := withJob { composing with units := [416, scalerUnit up 0] } inService2
    Runs s ∧ (s.jobIn 0 Typ.OFFLINE_COMPOSE .running).isSome = true ∧ s.surface (le composing.head 16 2) = some surf ∧
      answers (.offlineCompose 0 1 []) s = true) ∧
    (let s := withJob (job Typ.TALLY_QUERY .act []) stored1
    Runs s ∧ ((s.queue 0).job.map jobDst) = some none ∧ answers (.fill 0 3) s = true) ∧
    (let l : WbLine := ⟨⟨1, 3, [], 0⟩, 0, false⟩
    let s := stored1.setHead 31 { Head.reset with wbq := [l], wb := { Wb.reset with cur := some 1, frame := 1 } }
    Runs s ∧ (s.head 31).wbq = [l] ∧ (s.head 31).wb.cur = some 1 ∧ s.surface 1 = some surf ∧ answers (.wbBeadArrival 31 1 false) s = true) ∧
    (Runs up ∧ (up.head 31).wbq = [] ∧ (up.head 31).wb.cur = none ∧ answers (.wbBeadArrival 31 1 true) up = true) ∧
    (Runs window ∧ apSite window 1 (8#30).toNat = some (1, surf, 8) ∧ surf.payload + 4 ≤ surf.pitch ∧
      answers (.apertureWrite 1 8#30 [1#8, 2#8]) window = true) ∧
    (let s := window.setFunc 1 Func.reset; Runs s ∧ apSite s 0 (8#30).toNat = none ∧ (s.func 1).cfg.memory = false ∧
      answers (.apertureWrite 1 8#30 [1#8]) s = true) := by
  refine ⟨?_, ?_, ?_, ?_, ?_, ?_, ?_, ?_, ?_⟩ <;> (try unfold Runs) <;> decide +kernel

theorem witness_FrameOfReception :
    (let s := stored1
    Runs s ∧ s.surface 1 = some surf ∧ 4 ≤ surf.pitch ∧ ¬ (skeyByte 1 (2 * surf.pitch) ≤ skeyByte 1 0 ∧
      skeyByte 1 0 < skeyByte 1 (2 * surf.pitch) + surf.pitch) ∧
      answers (.rodBeadReceive 80 1#137 (.ssp 1 2 0)) s = true) ∧
    (Runs linked ∧ ringOrder (rxHandle linked 255) (rxRing linked 255) none = ringOrder (rxHandle linked 255) (rxRing linked 255) none ∧
      answers (.ethRxFrame 15 (eth 0x0800) noted) linked = true) := by
  refine ⟨?_, ?_⟩ <;> (try unfold Runs) <;> decide +kernel

/-- A unit in service whose meter is quiet, at the ends of the numbers. -/
def metered1 : State := (up.setMetered 0 { up.metered 0 with eff := 1, overs := 14 }).setMetered 569 { up.metered 569 with eff := 1 }

theorem drift_low (u : Nat) : driftOf u (ratioOf 0 1) < warnDrift metered1 := by
  have hw : warnDrift metered1 = 20 := by decide +kernel
  have hr : ratioOf 0 1 = 0 := by decide +kernel
  rw [hw, hr]
  simp only [driftOf, roundDiv]
  have : (0 : Int) ≤ (2 * -(1024 * (((0 : Nat) : Int) - (Config.fusedBase u).toNat)) + (Config.fusedBase u).toNat) / (2 * (Config.fusedBase u).toNat) :=
    Int.ediv_nonneg (by omega) (by omega)
  split
  · omega
  · split
    · rename_i h0 h1
      omega
    · omega

/-- A base ratio in the middle of its range: what the meter reads then lies far above it. -/
theorem drift_high (u : Nat) (h1 : 1 ≤ (Config.fusedBase u).toNat) (h2 : (Config.fusedBase u).toNat ≤ 60000) :
    warnDrift metered1 ≤ driftOf u (ratioOf 65535 4096) := by
  have hw : warnDrift metered1 = 20 := by decide +kernel
  have hr : ratioOf 65535 4096 = 65535 := by decide +kernel
  rw [hw, hr]
  simp only [driftOf, roundDiv]
  rw [if_neg (by omega), if_pos (by omega)]
  have : (20 : Int) ≤ (2 * (1024 * (((65535 : Nat) : Int) - (Config.fusedBase u).toNat)) + (Config.fusedBase u).toNat) / (2 * (Config.fusedBase u).toNat) := by
    rw [Int.le_ediv_iff_mul_le (by omega)]
    push_cast
    omega
  omega

theorem witness_MeterEvents :
    (Runs metered1 ∧ metered1.mgmt = true ∧ inService metered1 0 = true ∧ inService metered1 569 = true ∧ metered1.mgmt = true ∧ (100000 : Nat) ≤ 100000 ∧ (metered1.metered 0).cond = 0 ∧
      (metered1.metered 0).overs < 15 ∧ (metered1.metered 569).cond = 0 ∧ (metered1.metered 569).overs < 15 ∧ [3, 4, 6, 7].contains (metered1.metered 0).eff = false) ∧
    (Runs up ∧ (inService up 1 = false ∨ 99999 < 100000)) ∧
    (let s := (dev .settle).setMetered 400 { up.metered 400 with eff := 5 }
     Runs s ∧ s.mgmt = true ∧ s.released = false ∧ (s.metered 400).eff = 5 ∧ logicalOf (raise (setReqEff s 400 7) 313) 400 = none ∧ unitClass 400 ≠ 3) := by
  refine ⟨?_, ?_, ?_⟩ <;> (try unfold Runs) <;> decide +kernel

theorem witness_QuietKept :
    (State.reset.quiet ∧ step State.reset = .next State.reset) ∧
    (let s : State := { State.reset with pending := [.supplyExcursion] }; s.quiet ∧ step s = .next State.reset) ∧ up.quiet :=
  ⟨⟨fun _ => rfl, rfl⟩, ⟨fun _ => rfl, rfl⟩, fun h => absurd h (by decide)⟩

theorem witness_HeldByEveryCommand : exec .supplyExcursion State.reset = .next State.reset ∧ porst .supplyExcursion = false := ⟨rfl, rfl⟩

theorem witness_MemoryOperations : stored1.memoryWf = true ∧ (stored1.setBytes 1 0 [1#8]).memoryWf = true := by decide +kernel

theorem witness_Crc32c : 0xE3069283 < 256 ^ 4 ∧ (0 : Nat) < 256 ^ 0 := by decide +kernel

theorem witness_PixelArithmetic : (0 : Nat) < 65536 ∧ 65535 < 65536 ∧ 0x7BFF ≤ 0x7BFF ∧ 0x8000 ≤ 0x8000 ∧ 0x7C00 < 0x7C01 := by decide +kernel

theorem witness_AfterReset : (findRow R.HWQ_QMAP2).isSome = true := by decide +kernel

theorem witness_RegisterMap : rowsGlb ≠ [] ∧ rowsNmp ≠ [] := by decide +kernel

end Sys2Proof.Tests
end

