-- ==== Sys2Proof/Tests/Slice0.lean ====
section
/-!
SUPPORT. Operands outside the device's own form, each found by the check; the worked examples of spec/; and single commands on small states.
-/
namespace Sys2Proof.Tests
open Sys2Proof Sys2Proof.Machine

-- The proofs are closed evaluations: one at a time, so that their stacks do not add up.
set_option Elab.async false

-- Operands outside the device's own form.

/-- One ill-formed term for each check of `Instr.wf`. -/
def illFormed : List Instr :=
  [.ldrHeadersRead none false [] (List.replicate 256 0#8), .ldrHeadersRead none false (List.replicate 256 0#8) (List.replicate 255 0#8),
   .queueEntryRead 63 (.ok (List.replicate 63 0#8)) .good none, .prodIndexRead 16 (.ok [0#8]), .dpTrainingDone 0 [⟨7, 0⟩] [], .dpTrainingDone 0 [⟨0, 3⟩] [],
   .dpTrainingDone 0 [] [⟨0, 0⟩], .ethRxFrame 0 (List.replicate 63 0#8) ⟨false, false, 0, 0, .good⟩, .bslMessageRx (List.replicate 51 0#8), .apertureRead 0 0#30 0,
   .apertureWrite 0 0#30 [], .registerWrite .lmp 2#24 15#4 0#32, .rcRegisterRead .pf0 1#24 1 .good, .rcRegisterRead .lmp 0#24 2 .good, .rcRegisterRead .pf1 0#24 0 .good, .tempConversionEnd (.samples []), .fshRefillTick [] [0, 0, 0, 0], .fshRefillTick [0, 0, 0, 0] [0],
   .thermalUpdate ⟨[], [], []⟩, .thermalUpdate ⟨List.replicate 16 0, [0], []⟩, .thermalUpdate ⟨List.replicate 16 0, [], List.replicate 5 0#8⟩]

theorem test_ill_formed_terms : illFormed.all (fun c => !c.wf) = true := by decide +kernel
/-- A frame of 63 bytes with a good checksum is counted as a frame nobody wants (R249). -/
theorem test_runt_counted : (match exec (.ethRxFrame 0 (List.replicate 63 0#8) ⟨false, false, 0, 0, .good⟩) ((up.setCfg (R.NMP_Pnn_CTRL 0) 0x80000001#32).setPort 0 { Port.reset with link := true }) with
    | .next t => t.rd (R.NMP_Pnn_RX_OTHER 0) + t.rd (R.NMP_Pnn_RX_BAD 0)
    | _ => 0#32) = 1#32 := by
  decide +kernel

-- Worked examples.

/-- Words of a live deck. -/
def deck (ws : List (Nat × Nat × Word)) : DeckView := ⟨[], ws.map (fun w => (skey w.1 w.2.1, w.2.2)), [], []⟩

/-- The sizes of the Anvey Quay surfaces (03_surfaces_placement.md). -/
theorem test_sizes_of_surfaces :
    pitchOf (payloadLen 0x01 3840) = 15376 ∧ pitchOf (payloadLen 0x08 1920) = 5136 ∧ ceilDiv (15376 * 2160) stripeBytes = 507 ∧ ceilDiv (5136 * 1080) stripeBytes = 85 := by
  decide +kernel

/-- Primaries and twins of a DUPLEX surface on stacks 0 and 2 (03_surfaces_placement.md): stripe 10 begins on pseudo-channel 5, with its twin
on the next position. -/
theorem test_placement_of_twins :
    ((placeSurface full (0xFFFFFFFF + 0xFFFFFFFF * 2 ^ 64) 0 1 12 true).map (fun p => (p.1, p.2.1))) =
      some ([0, 64, 1, 65, 2, 66, 3, 67, 4, 68, 5, 69], [64, 1, 65, 2, 66, 3, 67, 4, 68, 5, 69, 6]) := by
  decide +kernel

/-- Input matrix set 0 of the camera at Corrow Street (04_layers_composition.md). -/
def cameraMatrix : DeckView :=
  let n (x : Int) : Nat := (x % 65536).toNat
  let pair (a b : Int) : Word := word (n a + 65536 * n b)
  deck [(Space.LAYER_DESC, 0x8000, pair 4783 0), (Space.LAYER_DESC, 0x8001, pair 7365 4783), (Space.LAYER_DESC, 0x8002, pair (-876) (-2189)),
    (Space.LAYER_DESC, 0x8003, pair 4783 8678), (Space.LAYER_DESC, 0x8004, pair 0 0), (Space.LAYER_DESC, 0x8005, pair 4096 32768),
    (Space.LAYER_DESC, 0x8006, pair 32768 0)]

theorem test_input_matrix : (List.range 3).map (fun i => imtxOut cameraMatrix 0x8000 i 32128 28672 40960) = [47464, 29232, 24056] := by decide +kernel

/-- EOTF table 0 at the entries of the example. -/
def cameraEotf : DeckView :=
  deck [(Space.LUT_EOTF, 370, 0x37610000#32), (Space.LUT_EOTF, 371, 0x00003767#32), (Space.LUT_EOTF, 228, 0x30A0309A#32),
    (Space.LUT_EOTF, 187, 0x2DC20000#32), (Space.LUT_EOTF, 188, 0x00002DCB#32)]

theorem test_eotf : [47464, 29232, 24056].map (fun x => ((eotfLookup cameraEotf 0 0 x).run 0).1) = [0x3765, 0x309E, 0x2DCA] := by decide +kernel

/-- The blend of the example, over the background (2^-6, 2^-5, 2^-4). -/
theorem test_blend :
    ((blend (deck []) 0 { descOf (fun _ => 0#32) with galpha := 0xC000 } ⟨0x3765, 0x309E, 0x2DCA, hOne⟩ hOne false ⟨0x2400, 0x2800, 0x2C00, hOne⟩).run 0).1 =
      ⟨0x359C, 0x2F6D, 0x2D58, hOne⟩ := by
  decide +kernel

/-- Head 3's OETF table at the entries of the example. -/
def cameraOetf : DeckView :=
  deck [(Space.LUT_OETF, 6144 + 1715, word (42345 * 65536)), (Space.LUT_OETF, 6144 + 1716, 0#32), (Space.LUT_OETF, 6144 + 1517, word (26706 * 65536)),
    (Space.LUT_OETF, 6144 + 1518, word 26730), (Space.LUT_OETF, 6144 + 1451, word 23290)]

theorem test_oetf_and_dither :
    [0x359C, 0x2F6D, 0x2D58].map (fun p => (oetfLookup cameraOetf 3 p, dither 1 10 1925 602 0 (oetfLookup cameraOetf 3 p))) =
      [(42345, 662), (26712, 418), (23290, 364)] := by
  decide +kernel

/-- Phases of the dashboard window (05_scaling.md): 1280 to 1920 and 720 to 1080. -/
theorem test_phases :
    (List.range 3).map (Axis.index ⟨1280, 1920, false, false, 0, 1280⟩) = [(-1, 53), (0, 32), (1, 11)] ∧
      (Axis.index ⟨720, 1080, false, false, 0, 720⟩ 1) = (0, 32) := by
  decide +kernel

/-- The filters of the window: horizontal at u = 2 of rows 0 to 2, vertical at v = 1, and the edge modes at u = 0. -/
theorem test_filters :
    [[40, 60, 100, 120], [50, 80, 120, 160], [60, 90, 140, 200]].map (fun r => ((filterTaps 0x01 ([-60, 956, 141, -13].zip (r.map (· * 256)))).run 0).1) =
        [16875, 22080, 24895] ∧
      ((filterTaps 0x01 [(-64, 16875), (576, 16875), (576, 22080), (-64, 24895)]).run 0).1 = 19302 ∧
      [-2, -1, 0, 1].map (Axis.at ⟨1280, 1920, false, false, 0, 1280⟩ 0) = [some 0, some 0, some 0, some 1] ∧
      [-2, -1, 0, 1].map (Axis.at ⟨1280, 1920, false, false, 0, 1280⟩ 1) = [some 2, some 1, some 0, some 1] := by
  decide +kernel

/-- Beads and time of a band of the concourse (06_reckoning_tables.md). -/
theorem test_band_times : tauOf 17 3840 2 / 136000 = 32672 / 136000 ∧ tauOf 34 1920 1 / 544000 = 32672 / 544000 := by decide +kernel

/-- The safe-frame pixel of Corrow Street (09_outputs_writeback.md): cell 36,240 of safe frame 2, palette entry 3. -/
theorem test_safe_frame_pixel :
    (safePixel ((((up.setSpw Space.SAFE_FRAME 65536 (word (480 + 65536 * 270))).setSpw Space.SAFE_FRAME 70130 3#32).setSpw Space.SAFE_FRAME (65536 + 22)
      0xBF00FFC0#32)) 2 8 3840 2160 1925 602).1 = pack3 255 191 0 := by
  decide +kernel

/-- The RTP timestamp of a frame at TAI 1,900,000,000 s, and Gmax of RGB at 10 bits (10_network_media.md). -/
theorem test_stream_numbers : (1900000000 * 1000000000 * 9 / 100000) % 4294967296 = 0x0A41B000 ∧ gMax false 15 = 96 := by decide +kernel

/-- Sources 304 at SAFE and 307 at NOTE (14_integrity_safety.md). -/
def forgotten : State := (up.setSrc 304 { SrcSt.reset with level := 3, heads := 8#32 }).setSrc 307 { SrcSt.reset with level := 1 }

theorem test_fault_summary :
    forgotten.fcSummary = 0x80000400#32 ∧ forgotten.fcSrcn 9 = 0x00090000#32 ∧ forgotten.faultN = false ∧ forceLine forgotten 3 = true ∧ forceLine forgotten 2 = false := by
  decide +kernel

/-- Addresses of Corrow Street (16_register_summary.md). -/
theorem test_addresses :
    findRow 0x2C4100 = none ∧ R.NMP_Pnn_PTP_CTRL 8 = 0x2A0140 ∧ (findRow 0x2A0140).map (·.base) = some (R.NMP_Pnn_PTP_CTRL 0) ∧ R.OWB_Hnn_SAFE_STAT 21 = 0x22A034 ∧
      (findRow 0x22A034).map (·.base) = some (R.OWB_Hnn_SAFE_STAT 0) ∧ findRow 0x22A074 = none ∧ lut3dAddr 3 1 0 0 = 0x60002 := by
  decide +kernel

/-- CRC-32C of "123456789" (R48). -/
theorem test_crc32c : crc32c [0x31#8, 0x32#8, 0x33#8, 0x34#8, 0x35#8, 0x36#8, 0x37#8, 0x38#8, 0x39#8] = 0xE3069283 := by decide +kernel

-- Single commands.

/-- A field of the state a command gives. -/
def after {α : Type} (c : Instr) (s : State) (f : State → α) : Option α :=
  match exec c s with
  | .next t => some (f t)
  | _ => none

theorem test_reset_registers : State.reset.rd R.IHM_AVS_CTRL = 0x83B60384#32 ∧ State.reset.rd R.TRS_LOOP = 0x30640223#32 ∧ State.reset.rd R.TRS_STATE = 0x00001F00#32 := by
  decide +kernel
theorem test_read_unmapped : after (.rcRegisterRead .pf0 0x2C4100#24 1 .good) up (fun t => (t.pf0.berr, t.out)) = some (0x802C4100#32, [.read .pf0 0#32, .busError .pf0]) := by
  decide +kernel
theorem test_rc_read_clears : after (.rcRegisterRead .lmp 0x22A034#24 1 .good) (up.wr 0x22A034 0xFFFFFFFF#32) (fun t => t.rd 0x22A034) = some 0xC7FFFFFF#32 := by decide +kernel
theorem test_plain_write : after (.registerWrite .lmp (BitVec.ofNat 24 R.IHM_SPARE_CTRL) 15#4 0xFFFFFFFF#32) up (fun t => (t.rd R.IHM_SPARE_CTRL, t.lmp.wq.length)) =
    some (0xFFFF0007#32, 1) := by
  decide +kernel
theorem test_masked_write : after (.wmRegisterWrite .pf0 0 0x00030001#32) (up.wr (R.GLB_FLAGSn 0) 6#32) (fun t => t.rd (R.GLB_FLAGSn 0)) = some 5#32 := by decide +kernel
theorem test_release_denied_to_pf1 : after (.safeReleaseWrite .pf1 3 0x1502#32) up (fun t => t.out) = some [] := by decide +kernel
theorem test_doorbell : after (.doorbell .lmp 0) (up.setCfg (R.HWQ_Qnn_CFG 0) 0x80000004#32) (fun t => (t.queue 0).reading) = some true := by decide +kernel
theorem test_raise_in_start : ((raise up 304).src 304).level = 2 := by decide +kernel
theorem test_raise_in_run : ((raise { up with col := { up.col with phase := 1 } } 304).src 304).level = 3 := by decide +kernel
theorem test_scrub_frees_stripe : after (.stripeScrubDone 5) (up.setPc 5 { Pc.reset with scrub := 2, free := 7 }) (fun t => ((t.pc 5).scrub, (t.pc 5).free)) = some (1, 8) := by
  decide +kernel
theorem test_bleed : after .buildoutBleedStep (({ up with trs := { up.trs with b := 37 } } : State).setCfg R.TRS_BLEED 10#32) (fun t => t.trs.b) = some 36 := by decide +kernel
theorem test_head_ends_line : after (.lineLeft 0) (scene.setHead 0 { Head.reset with state := .running, scanning := true, due := true, line := 3 }) (fun t => (t.head 0).line) =
    some 4 := by
  decide +kernel
theorem test_idle_tick : (match step up with | .next t => (t.time, t.up) | _ => (0, 0)) = (5, 5) := by decide +kernel

end Sys2Proof.Tests
end

/-!
PROOFS. Start-up image (02_startup_image.md): CRC-32C and the little-endian fields of R48.
-/
namespace Sys2Proof.Machine

/-- A byte step is eight bit steps on the register with the byte merged into its low end. -/
theorem crcByte_eq_iterate (poly c : Nat) (b : Byte) : crcByte poly c b = (crcBit poly)^[8] (c ^^^ b.toNat) := by
  simp only [crcByte, Function.iterate_succ_apply, Function.iterate_zero_apply]

/-- A bit step stays within the width of its polynomial. -/
theorem crcBit_lt {w poly c : Nat} (hp : poly < 2 ^ w) (hc : c < 2 ^ w) : crcBit poly c < 2 ^ w := by
  have hhalf : c / 2 < 2 ^ w := (Nat.div_le_self c 2).trans_lt hc
  unfold crcBit
  split
  · exact Nat.xor_lt_two_pow hhalf hp
  · exact hhalf

theorem iterate_crcBit_lt {w poly c : Nat} (hp : poly < 2 ^ w) (hc : c < 2 ^ w) (n : Nat) : (crcBit poly)^[n] c < 2 ^ w := by
  induction n generalizing c with
  | zero => exact hc
  | succ n ih => exact ih (crcBit_lt hp hc)

/-- A byte step stays within the width of its polynomial, when a byte fits in it. -/
theorem crcByte_lt {w poly c : Nat} (hw : 8 ≤ w) (hp : poly < 2 ^ w) (hc : c < 2 ^ w) (b : Byte) : crcByte poly c b < 2 ^ w := by
  have hb : b.toNat < 2 ^ w := b.isLt.trans_le (Nat.pow_le_pow_right (by decide) hw)
  rw [crcByte_eq_iterate]
  exact iterate_crcBit_lt hp (Nat.xor_lt_two_pow hc hb) 8

theorem crc32cStep_lt {c : Nat} (hc : c < 2 ^ 32) (bs : List Byte) : crc32cStep c bs < 2 ^ 32 := by
  induction bs generalizing c with
  | nil => exact hc
  | cons b bs ih => exact ih (crcByte_lt (by decide) (by decide) hc b)

/-- CRC-32C with its bit step written out, as R48 gives it. -/
theorem crc32c_eq_bitwise (bs : List Byte) :
    crc32c bs = (bs.foldl (fun c b =>
      (fun r => if r % 2 = 1 then (r / 2) ^^^ 0x82F63B78 else r / 2)^[8] (c ^^^ b.toNat)) 0xFFFFFFFF) ^^^ 0xFFFFFFFF := by
  have hstep : crcByte 0x82F63B78 = fun c b => (crcBit 0x82F63B78)^[8] (c ^^^ b.toNat) :=
    funext₂ (crcByte_eq_iterate _)
  rw [crc32c, crc32cStep, hstep]
  rfl

theorem crc32c_lt (bs : List Byte) : crc32c bs < 2 ^ 32 :=
  Nat.xor_lt_two_pow (crc32cStep_lt (by decide) bs) (by decide)

/-- The `n` low bytes of a number, read back least significant first, are its residue modulo 256^n. -/
theorem leNat_leBytes (n v : Nat) : leNat (leBytes n v) = v % 256 ^ n := by
  induction n generalizing v with
  | zero => exact (Nat.mod_one v).symm
  | succ n ih =>
    calc leNat (leBytes (n + 1) v)
        = v % 256 + 256 * (v / 256 % 256 ^ n) := by simp [leBytes, leNat, ih]
      _ = v % 256 ^ (n + 1) := by rw [Nat.pow_succ', Nat.mod_mul]

end Sys2Proof.Machine

namespace Sys2Proof.Proofs
open Sys2Proof.Machine

/-- Settles O53: a byte step is eight bit steps, every step stays below 2^32, and a field of `n` bytes reads back modulo 256^n; the check value
of "123456789" is a closed evaluation. -/
theorem crc32c : Obligations.Crc32c := by
  unfold Obligations.Crc32c
  refine ⟨?checkValue, crc32c_eq_bitwise, crc32c_lt, ?littleEndian⟩
  case checkValue => decide +kernel
  case littleEndian =>
    intro n v hv
    rw [leNat_leBytes, Nat.mod_eq_of_lt hv]

end Sys2Proof.Proofs

/-!
PROOFS. Timing reference (11_timing_reference.md): the snapshot of the device time that a read of TRS_TIME_LO takes (R278).
-/
namespace Sys2Proof.Machine
open Sys2Proof.Claims

-- A master's read of a sound word.

/-- With no injection armed, the mirror's own check finds a sound word sound. -/
theorem mirrorCheck_good {s : State} (hinj : s.col.inj = none) : mirrorCheck s .good = s := by
  simp [mirrorCheck, sramCheck, injectCheck, hinj]

theorem reaches_bumpFresh (s : State) (m : Master) : s.bumpFresh.reaches m = s.reaches m := by cases m <;> rfl

/-- A read of a sound word of a register outside the indirect window answers the word, with the side effects of the register. -/
theorem readReg_good {s : State} {m : Master} {o : Nat} {r : RegRow} (hmgmt : s.mgmt = true) (hreach : s.reaches m = true) (hinj : s.col.inj = none)
    (hrow : findRow o = some r) (hdata : o ≠ R.GLB_IDX_DATA) :
    readReg s m o .good = (readEffect s.bumpFresh m r o (readWord_ s.bumpFresh m r o)).emit (.read m (readWord_ s.bumpFresh m r o)) := by
  have hcheck : mirrorCheck s.bumpFresh .good = s.bumpFresh := mirrorCheck_good hinj
  simp [readReg, hmgmt, hreach, hrow, hdata, hcheck, answerWord, readWord_]

/-- A register of the timebase with neither write-only nor clear-on-read bits, open to every master. -/
def timeRow (o : Nat) : RegRow := ⟨o, 0x0, 1, 0x0, 1, 0x0#32, 0x0#32, 0x0#32, .open_, 0x0#32, .none_⟩

theorem findRow_timeLo : findRow R.TRS_TIME_LO = some (timeRow R.TRS_TIME_LO) := by decide
theorem findRow_timeHi : findRow R.TRS_TIME_HI = some (timeRow R.TRS_TIME_HI) := by decide

/-- Every master is shown all of such a register. -/
theorem shownTo_timeRow (s : State) (m : Master) (o o' : Nat) (v : Word) : shownTo s m (timeRow o) o' v = v := by
  simp [shownTo, timeRow, privOnly, and_full]

/-- TRS_TIME_LO shows the lower half of the device time. -/
theorem readWord_timeLo (s : State) (m : Master) : readWord_ s m (timeRow R.TRS_TIME_LO) R.TRS_TIME_LO = word s.time64 := by
  rw [readWord_, shownTo_timeRow]
  rfl

/-- TRS_TIME_HI shows the latch of the master that reads. -/
theorem readWord_timeHi (s : State) (m : Master) : readWord_ s m (timeRow R.TRS_TIME_HI) R.TRS_TIME_HI = (s.master m).timeHi := by
  rw [readWord_, shownTo_timeRow]
  rfl

/-- A read of TRS_TIME_LO answers the lower half of the device time and latches the upper half (R278). -/
theorem readReg_timeLo {s : State} {m : Master} (hmgmt : s.mgmt = true) (hreach : s.reaches m = true) (hinj : s.col.inj = none) :
    readReg s m R.TRS_TIME_LO .good =
      (s.bumpFresh.setMaster m { s.master m with timeHi := word (s.time64 / 4294967296) }).emit (.read m (word s.time64)) := by
  rw [readReg_good hmgmt hreach hinj findRow_timeLo (by decide), readWord_timeLo, readEffect, if_pos rfl, master_bumpFresh]
  rfl

/-- A read of TRS_TIME_HI answers the latch of its master. -/
theorem readReg_timeHi {s : State} {m : Master} (hmgmt : s.mgmt = true) (hreach : s.reaches m = true) (hinj : s.col.inj = none) :
    readReg s m R.TRS_TIME_HI .good = s.bumpFresh.emit (.read m (s.master m).timeHi) := by
  rw [readReg_good hmgmt hreach hinj findRow_timeHi (by decide), readWord_timeHi, master_bumpFresh, readEffect, if_neg (by decide),
    if_neg (by simp [timeRow])]

theorem exec_timeLoRead_eq (m : Master) (s : State) :
    exec (.timeLoRead m) s = runMirror s (fun s => keeping [.masters] s (readReg s m R.TRS_TIME_LO .good)) := rfl

theorem exec_rcRegisterRead_eq (m : Master) (off : BitVec 24) (dws : Nat) (ecc : Ecc) (s : State) :
    exec (.rcRegisterRead m off dws ecc) s =
      runMirror s (fun s => keeping [.masters] s (readRegs s m (wordOffset off) (if m = .lmp then 1 else dws) ecc)) := rfl

/-- TIME_LO_READ of a powered device: the answer, and the latch. -/
theorem exec_timeLoRead {s : State} {m : Master} (hpow : s.powered = true) (hmgmt : s.mgmt = true) (hreach : s.reaches m = true)
    (hinj : s.col.inj = none) :
    ∃ t, exec (.timeLoRead m) s = .next t ∧ t.out = .read m (word s.time64) :: s.out ∧
      (t.master m).timeHi = word (s.time64 / 4294967296) := by
  rw [exec_timeLoRead_eq, runMirror_on hpow, readReg_timeLo hmgmt hreach hinj]
  refine ⟨_, rfl, ?answer, ?latch⟩
  case answer => simp
  case latch => simp

/-- A read of the one word TRS_TIME_HI of a powered device answers the latch. -/
theorem exec_rcRegisterRead_timeHi {s : State} {m : Master} (hpow : s.powered = true) (hmgmt : s.mgmt = true) (hreach : s.reaches m = true)
    (hinj : s.col.inj = none) :
    ∃ t, exec (.rcRegisterRead m (BitVec.ofNat 24 R.TRS_TIME_HI) 1 .good) s = .next t ∧ t.out = .read m (s.master m).timeHi :: s.out := by
  have hoff : wordOffset (BitVec.ofNat 24 R.TRS_TIME_HI) = R.TRS_TIME_HI := by decide
  have hread : readRegs s m R.TRS_TIME_HI 1 .good = s.bumpFresh.emit (.read m (s.master m).timeHi) := by
    rw [readRegs, if_pos (.inl le_rfl), readReg_timeHi hmgmt hreach hinj]
  rw [exec_rcRegisterRead_eq, runMirror_on hpow, hoff, ite_self, hread]
  exact ⟨_, rfl, by simp⟩

-- What leaves the masters as they are.

/-- PORST_N reaches the masters: a command that does not is none of its two. -/
theorem porst_of_not_reaches_masters {c : Instr} (hc : Part.masters ∉ reaches c) : porst c = false := by
  cases c
  case porstNAssert => exact absurd (by decide) hc
  case porstNRise => exact absurd (by decide : Part.masters ∈ .power :: Part.device) hc
  all_goals rfl

/-- A command that does not reach the masters leaves each of them as it is. -/
theorem exec_keeps_master {c : Instr} {s t : State} (hc : Part.masters ∉ reaches c) (h : exec c s = .next t) (m : Master) :
    t.master m = s.master m := by
  have hkeep : ∀ u, (hold s (keeping (reaches c) s u)).master m = s.master m := fun u => by
    rw [State.hold_master, State.keeping_master, if_neg (by simpa using hc)]
  obtain ⟨f, hf⟩ | ⟨-, f, hf⟩ := exec_form c (porst_of_not_reaches_masters hc)
  · obtain rfl | rfl := runOn_cases ((hf s).symm.trans h)
    · rfl
    · exact hkeep _
  · obtain rfl | rfl := runMirror_cases ((hf s).symm.trans h)
    · rfl
    · exact hkeep _

/-- The passing of time leaves the masters as they are. -/
theorem tick_master (s : State) (m : Master) : (tick s).master m = s.master m := by
  unfold tick
  split
  · cases m <;> rfl
  · rfl

/-- So does any sequence of such commands and of periods of the clock. -/
theorem later_keeps_master (m : Master) {cs : List (Option Instr)} {s w : State} (hcs : ∀ c, some c ∈ cs → Part.masters ∉ reaches c)
    (h : later cs s = some w) : w.master m = s.master m := by
  induction cs generalizing s with
  | nil =>
    obtain rfl : s = w := by simpa [later] using h
    rfl
  | cons x cs ih =>
    have hrest : ∀ c, some c ∈ cs → Part.masters ∉ reaches c := fun c hc => hcs c (List.mem_cons_of_mem x hc)
    cases x with
    | none => exact (ih hrest h).trans (tick_master s m)
    | some c =>
      rw [later] at h
      split at h
      next t ht => exact (ih hrest h).trans (exec_keeps_master (hcs c List.mem_cons_self) ht m)
      next => cases h

-- The two halves.

theorem time64_lt (s : State) : s.time64 < 18446744073709551616 := by
  unfold State.time64
  omega

/-- The device time is the two words that a snapshot shows of it. -/
theorem time64_eq_words (s : State) : (word s.time64).toNat + 4294967296 * (word (s.time64 / 4294967296)).toNat = s.time64 := by
  have hlt := time64_lt s
  simp only [word, BitVec.toNat_ofNat]
  omega

end Sys2Proof.Machine

namespace Sys2Proof.Proofs
open Sys2Proof.Machine Sys2Proof.Claims

/-- Settles O54: the read of TRS_TIME_LO latches the upper half, no step in between changes the latch, and the read of TRS_TIME_HI answers it. -/
theorem timeSnapshot : Obligations.TimeSnapshot := by
  unfold Obligations.TimeSnapshot
  intro m s hpow hmgmt hreach hinj
  obtain ⟨t, ht, hlo, hlatch⟩ := exec_timeLoRead hpow hmgmt hreach hinj
  refine ⟨word s.time64, word (s.time64 / 4294967296), t, ht, hlo, time64_eq_words s, ?_⟩
  intro cs w hcs hw hpow' hmgmt' hreach' hinj'
  have hkept : (w.master m).timeHi = word (s.time64 / 4294967296) := by
    rw [later_keeps_master m hcs hw, hlatch]
  rw [← hkept]
  exact exec_rcRegisterRead_timeHi hpow' hmgmt' hreach' hinj'

end Sys2Proof.Proofs

/-!
PROOFS. Integrity and safety (14_integrity_safety.md): the level of the force lines (R379), and what the evaluation of a line leaves of its head's
safe state (R240, R242).
-/
namespace Sys2Proof.Machine

-- The level of a force line.

/-- What a key reads as is listed, or is what an unlisted key reads as. -/
theorem kget_mem_or_default {α : Type} (d : Nat → α) (m : KMap α) (k : Nat) : (k, kget d m k) ∈ m ∨ kget d m k = d k := by
  induction m with
  | nil => exact .inr rfl
  | cons e m ih =>
    obtain ⟨a, v⟩ := e
    by_cases hk : k = a
    · exact .inl (by simp [kget, hk])
    · rw [kget, if_neg hk]
      exact ih.imp_left (List.mem_cons_of_mem _)

/-- A latched source is among those that the collector lists. -/
theorem src_mem_of_latched {s : State} {src : Nat} (h : (s.src src).level ≠ 0) : (src, s.src src) ∈ s.col.src :=
  (kget_mem_or_default _ s.col.src src).resolve_right fun hd => h (congrArg SrcSt.level hd)

/-- The three causes of R379. -/
theorem forceLine_iff (s : State) (h : Nat) :
    forceLine s h = true ↔ 1 ≤ (s.src 308).level ∨ (∃ e ∈ s.col.src, e.2.level = 3 ∧ bit e.2.heads h = true) ∨
      bit (s.cfg (R.OWB_Hnn_SAFE_CTRL h)) 11 = true := by
  simp only [forceLine, Bool.or_eq_true, List.any_eq_true, Bool.and_eq_true, decide_eq_true_eq, or_assoc]

theorem forceLine_of_latched_safe {s : State} {h src : Nat} (hlevel : (s.src src).level = 3) (hhead : bit (s.src src).heads h = true) :
    forceLine s h = true :=
  (forceLine_iff s h).mpr (.inr (.inl ⟨_, src_mem_of_latched (by simp [hlevel]), hlevel, hhead⟩))

/-- With none of the three causes, the line is low. -/
theorem forceLine_low {s : State} {h : Nat} (hself : (s.src 308).level = 0) (hsrc : ∀ e ∈ s.col.src, e.2.level = 3 → bit e.2.heads h = false)
    (hforce : bit (s.cfg (R.OWB_Hnn_SAFE_CTRL h)) 11 = false) : forceLine s h = false := by
  refine Bool.eq_false_iff.mpr fun hhigh => ?_
  obtain hs | ⟨e, he, hlevel, hhead⟩ | hf := (forceLine_iff s h).mp hhigh
  · omega
  · exact Bool.false_ne_true ((hsrc e he hlevel).symm.trans hhead)
  · exact Bool.false_ne_true (hforce.symm.trans hf)

-- A line as it is evaluated.

/-- A rise sets the line of its head, with the cause, and withdraws a release. -/
theorem noteRise_safeOf (c : Nat) (s : State) (h : Nat) :
    (noteRise c s h).safeOf h =
      if (forceLine s h && !(s.safeOf h).line) = true then { s.safeOf h with line := true, cause := c, releasing := false } else s.safeOf h := by
  unfold noteRise
  dsimp only
  split
  · split <;> simp
  · rfl

section
variable {β : Type} (g : State → β) {h : Nat} (hset : ∀ t x, g (t.setSafe h x) = g t) (hflag : ∀ t o i, g (t.setFlag o i) = g t)
include hset hflag

/-- A rise sets no more than the safe state of its head and a flag. -/
theorem noteRise_keeps (c : Nat) (s : State) : g (noteRise c s h) = g s := by
  unfold noteRise
  dsimp only
  split
  · split <;> simp only [hset, hflag]
  · rfl

theorem noteLine_keeps (c : Nat) (s : State) : g (noteLine c s h) = g s := by
  unfold noteLine
  split <;> simp only [hset, noteRise_keeps g hset hflag]

end

theorem noteRise_safeOf_other {h k : Nat} (hk : h ≠ k) (c : Nat) (s : State) : (noteRise c s k).safeOf h = s.safeOf h :=
  noteRise_keeps (·.safeOf h) (fun t x => by rw [State.safeOf_setSafe, if_neg hk]) (fun t o i => t.setFlag_safeOf_other o i h) c s

theorem noteLine_cfg (c : Nat) (s : State) (h o : Nat) : (noteLine c s h).cfg o = s.cfg o :=
  noteLine_keeps (·.cfg o) (fun t x => t.setSafe_cfg_other h x o) (fun t o' i => t.setFlag_cfg_other o' i o) c s

theorem noteLine_head (c : Nat) (s : State) (h k : Nat) : (noteLine c s h).head k = s.head k :=
  noteLine_keeps (·.head k) (fun t x => t.setSafe_head_other h x k) (fun t o i => t.setFlag_head_other o i k) c s

theorem noteLine_forcible (c : Nat) (s : State) (h k : Nat) : forcible (noteLine c s h) k = forcible s k := by
  rw [forcible, noteLine_cfg, noteLine_head, forcible]

/-- The line of the head is what its causes make it. -/
theorem noteLine_line (c : Nat) (s : State) (h : Nat) : ((noteLine c s h).safeOf h).line = forceLine s h := by
  unfold noteLine
  split
  next hhigh =>
    rw [noteRise_safeOf, hhigh]
    cases hline : (s.safeOf h).line <;> simp [hline]
  next hlow => simpa using hlow

/-- Whether the head is in its safe state is not changed yet. -/
theorem noteLine_active (c : Nat) (s : State) (h : Nat) : ((noteLine c s h).safeOf h).active = (s.safeOf h).active := by
  have hrise : ((noteRise c s h).safeOf h).active = (s.safeOf h).active := by
    rw [noteRise_safeOf]
    split <;> rfl
  unfold noteLine
  split <;> simp [hrise]

-- What touches no safe state: records and messages to the host, latches, history, and what a port that goes off discards.

section
variable (s : State) (h : Nat)

theorem loseRecord_safeOf (k : Nat) : (loseRecord s k).safeOf h = s.safeOf h := by simp [loseRecord]

theorem writeRecord_safeOf (k : Nat) (a b : List Byte) : (writeRecord s k a b).safeOf h = s.safeOf h := by simp [writeRecord]

theorem sendMsix_safeOf (k v : Nat) : (sendMsix s k v).safeOf h = s.safeOf h := by
  unfold sendMsix
  dsimp only
  split_ifs <;> simp

theorem evrMessage_safeOf (k : Nat) : (evrMessage s k).safeOf h = s.safeOf h := by
  unfold evrMessage
  dsimp only
  split_ifs <;> simp [sendMsix_safeOf]

theorem flushLost_safeOf (k : Nat) : (flushLost s k).safeOf h = s.safeOf h := by
  unfold flushLost
  dsimp only
  split_ifs <;> simp [writeRecord_safeOf]

theorem postRecord_safeOf (k : Nat) (a b : List Byte) : (postRecord s k a b).1.safeOf h = s.safeOf h := by
  unfold postRecord
  dsimp only
  split_ifs <;> simp [loseRecord_safeOf, evrMessage_safeOf, writeRecord_safeOf, flushLost_safeOf]

theorem postSource_safeOf (src detail : Nat) : (postSource s src detail).1.safeOf h = s.safeOf h := by
  unfold postSource
  dsimp only
  split_ifs <;> simp [postRecord_safeOf]

theorem rewritten_safeOf (ws : List Nat) : (rewritten s ws).safeOf h = s.safeOf h := by
  unfold rewritten
  split <;> rfl

theorem latch_safeOf (src : Nat) (inj : Bool) (own : Word) : (latch s src inj own).safeOf h = s.safeOf h := by
  simp [latch, rewritten_safeOf]

theorem history_safeOf (q : Nat) (w0 w1 : Word) : (history s q w0 w1).safeOf h = s.safeOf h := by simp [history]

theorem auxSend_safeOf (d : Nat) : (auxSend s d).safeOf h = s.safeOf h := by
  unfold auxSend
  split
  · split <;> simp
  · rfl

theorem dpSafeOff_safeOf (d : Nat) : (dpSafeOff s d).safeOf h = s.safeOf h := by
  unfold dpSafeOff
  dsimp only
  split <;> simp [auxSend_safeOf]

theorem creditChange_safeOf (p k : Nat) (c : Int) : (creditChange s p k c).safeOf h = s.safeOf h := by
  unfold creditChange
  split <;> simp

theorem dropFrames_safeOf (p : Nat) (f : TxFrame → Bool) : (dropFrames s p f).safeOf h = s.safeOf h := by
  unfold dropFrames
  rw [State.setPort_safeOf_other, forEach_keeps (·.safeOf h) _ fun t _ => creditChange_safeOf t h _ _ _]

end

-- An entry leaves alone every head whose line is high: a raise acts on the lines that it finds low.

theorem forEach_induct {α : Type} {P : State → Prop} {f : State → α → State} (hf : ∀ s a, P s → P (f s a)) {s : State} (hs : P s) (xs : List α) :
    P (forEach xs s f) :=
  List.foldlRecOn xs f hs fun t ht a _ => hf t a ht

section
variable {s : State} {h : Nat} {x : Safe} (hx : x.line = true) (hs : s.safeOf h = x)
include hx hs

theorem noteRise_stands (src k : Nat) : (noteRise src s k).safeOf h = x := by
  by_cases hk : h = k
  · subst hk
    rw [noteRise_safeOf, if_neg (by simp [hs, hx]), hs]
  · rw [noteRise_safeOf_other hk, hs]

theorem latchLines_stands (src : Nat) (inj : Bool) (own : Word) : (latchLines s src inj own).safeOf h = x :=
  forEach_induct (P := (·.safeOf h = x)) (fun _ k ht => noteRise_stands hx ht src k) ((latch_safeOf s h src inj own).trans hs) _

theorem raiseCounted_stands (src detail : Nat) (inj : Bool) (own : Word) : (raiseCounted s src detail inj own).safeOf h = x := by
  have hraise : (latchLines (postSource s src detail).1 src inj own).safeOf h = x :=
    latchLines_stands hx ((postSource_safeOf s h src detail).trans hs) src inj own
  unfold raiseCounted
  dsimp only
  split
  · exact latchLines_stands hx ((postSource_safeOf _ h 286 0).trans hraise) 286 false 0#32
  · exact hraise

theorem useWords_stands (ws : List Nat) : (useWords s ws).safeOf h = x :=
  forEach_induct (P := (·.safeOf h = x)) (fun _ _ ht => raiseCounted_stands hx (by simpa using ht) 308 0 false 0#32) hs _

theorem raiseCore_stands (src detail : Nat) (inj : Bool) (own : Word) : (raiseCore s src detail inj own).safeOf h = x := by
  unfold raiseCore
  split
  · exact raiseCounted_stands hx hs _ _ _ _
  · exact raiseCounted_stands hx (useWords_stands hx hs _) _ _ _ _

theorem reportSafe_stands (w0 w1 : Word) : (reportSafe s w0 w1).safeOf h = x :=
  raiseCore_stands hx ((history_safeOf s h 2 w0 w1).trans hs) 307 0 false 0#32

theorem cutStream_stands (st : Nat) : (cutStream s st).safeOf h = x := by
  unfold cutStream
  dsimp only
  split
  · exact raiseCore_stands hx (by simpa using hs) _ _ _ _
  · exact hs

theorem portOff_stands (k : Nat) : (portOff s k).safeOf h = x := by
  unfold portOff
  refine forEach_induct (P := (·.safeOf h = x)) (fun t st ht => ?cut) ?drop _
  case cut =>
    dsimp only
    split
    · exact cutStream_stands hx ht st
    · exact ht
  case drop =>
    rw [forEach_keeps (·.safeOf h) _ fun t _ => dropFrames_safeOf t h _ _, forEach_keeps (·.safeOf h) _ fun t d => ?off, hs]
    case off =>
      split
      · exact dpSafeOff_safeOf t h d
      · rfl

end

-- The entry.

/-- The safe state of head `h` once it is entered: MODE and FRAME in force are latched (R240). -/
def entered (s : State) (h : Nat) : Safe :=
  { s.safeOf h with
    active := true
    mode := bits (s.cfg (R.OWB_Hnn_SAFE_CTRL h)) 9 8
    frame := bits (s.cfg (R.OWB_Hnn_SAFE_CTRL h)) 2 0
    releasing := false
    held := false }

/-- What the entry itself raises leaves the state entered as it is. -/
theorem enterSafe_safeOf {s : State} {h : Nat} (hline : (s.safeOf h).line = true) (force : Bool) (cause : Nat) (w1 : Word) :
    (enterSafe s h force cause w1).safeOf h = entered s h := by
  have hx : (entered s h).line = true := hline
  unfold enterSafe
  dsimp only
  refine reportSafe_stands hx ?_ _ _
  have hset : ((s.setSafe h (entered s h)).wr (R.OWB_Hnn_SAFE_STAT h)
      (satField ((s.setSafe h (entered s h)).rd (R.OWB_Hnn_SAFE_STAT h)) 15 0 1)).safeOf h = entered s h := by simp
  split
  · exact portOff_stands hx hset h
  · exact hset

/-- A head that may not be forced stays as it is, in its safe state or out of it (R16). -/
theorem enterForced_active_of_not_forcible {s : State} {h : Nat} (hf : forcible s h = false) :
    ((enterForced s h).safeOf h).active = (s.safeOf h).active := by
  simp only [enterForced, hf, Bool.false_eq_true, if_false]
  split
  · rfl
  · split
    · rw [State.safeOf_setSafe_self]
    · rfl

/-- A high line that SAFE_EN = 1 meets with OUT_EN.EN = 0 is latched (R242). -/
theorem enterForced_safeOf_of_held {s : State} {h : Nat} (hline : (s.safeOf h).line = true) (hact : (s.safeOf h).active = false)
    (hen : bit (s.cfg (R.OWB_Hnn_SAFE_CTRL h)) 10 = true) (hout : (s.head h).emits = false) :
    (enterForced s h).safeOf h = { s.safeOf h with held := true } := by
  simp [enterForced, forcible, hline, hact, hen, hout]

/-- A high line takes a head that may be forced into its safe state. -/
theorem enterForced_safeOf_of_forcible {s : State} {h : Nat} (hline : (s.safeOf h).line = true) (hact : (s.safeOf h).active = false)
    (hf : forcible s h = true) : (enterForced s h).safeOf h = entered s h := by
  simp only [enterForced, hline, hact, hf, Bool.not_true, Bool.or_self, Bool.false_eq_true, if_false, if_true]
  exact enterSafe_safeOf (s := s.bumpFresh) hline _ _ _

end Sys2Proof.Machine

namespace Sys2Proof.Proofs
open Sys2Proof.Machine

/-- Settles O55: the line is the OR of its three causes; an evaluation sets the line to that level first, and what a head's entry then raises acts
only on lines that are still low, so the state it has entered stands. -/
theorem forceLines : Obligations.ForceLines := by
  unfold Obligations.ForceLines
  refine ⟨fun s h src => forceLine_of_latched_safe, fun s h hself => (forceLine_iff s h).mpr (.inl hself),
    fun s h hforce => (forceLine_iff s h).mpr (.inr (.inr hforce)), fun s h => forceLine_low, ?notForced, ?latched, ?entry⟩
  case notForced =>
    intro s c h hact hnot
    have hf : forcible (noteLine c s h) h = false := by
      rw [noteLine_forcible, forcible, Bool.and_eq_false_iff]
      exact hnot
    rw [updateForce1, enterForced_active_of_not_forcible hf, noteLine_active, hact]
  case latched =>
    intro s c h hact hhigh hen hout
    rw [updateForce1, enterForced_safeOf_of_held ((noteLine_line c s h).trans hhigh) ((noteLine_active c s h).trans hact)
      (by rw [noteLine_cfg, hen]) (by rw [noteLine_head, hout])]
  case entry =>
    intro s c h hact hhigh hen hout
    have hline := (noteLine_line c s h).trans hhigh
    have hf : forcible (noteLine c s h) h = true := by
      rw [noteLine_forcible, forcible, hen, hout, Bool.and_self]
    rw [updateForce1, enterForced_safeOf_of_forcible hline ((noteLine_active c s h).trans hact) hf, ← noteLine_cfg c s h]
    exact ⟨rfl, hline, rfl, rfl⟩

end Sys2Proof.Proofs

/-!
PROOFS. All commands (02_startup_image.md, 13_register_access.md, 15_health_spares_power.md, 17_electrical_package.md): what every command holds and
what it leaves, PORST_N low, and thermal shutdown.
-/
namespace Sys2Proof.Machine
-- One proof at a time, so that the stacks of the evaluations do not add up.
set_option Elab.async false

open Sys2Proof.Claims

-- What a command other than PORST_N's answers.

/-- With PORST_N low nothing acts. -/
theorem exec_of_unpowered {c : Instr} {s : State} (hc : porst c = false) (hp : s.powered = false) : exec c s = .next s := by
  obtain ⟨f, hf⟩ | ⟨-, f, hf⟩ := exec_form c hc
  · rw [hf, runOn_off (.inl hp)]
  · rw [hf, runMirror_off hp]

/-- After a thermal shutdown only reads of the mirror act. -/
theorem exec_of_dead {c : Instr} {s : State} (hc : porst c = false) (hd : s.dead = true) (hr : mirrorReads c = false) : exec c s = .next s := by
  obtain ⟨f, hf⟩ | ⟨hread, -⟩ := exec_form c hc
  · rw [hf, runOn_off (.inr hd)]
  · exact absurd (hr.symm.trans hread) Bool.false_ne_true

/-- A command answers a next state: the same, or one held to the parts that the command reaches. -/
theorem exec_held {c : Instr} (s : State) (hc : porst c = false) :
    exec c s = .next s ∨ ∃ u, exec c s = .next (hold s (keeping (reaches c) s u)) := by
  obtain ⟨f, hf⟩ | ⟨-, f, hf⟩ := exec_form c hc <;> rw [hf]
  · unfold runOn run
    split
    · exact .inr ⟨_, rfl⟩
    · exact .inl rfl
  · unfold runMirror
    split
    · exact .inr ⟨_, rfl⟩
    · exact .inl rfl

theorem exec_next_held {c : Instr} {s t : State} (hc : porst c = false) (h : exec c s = .next t) :
    t = s ∨ ∃ u, t = hold s (keeping (reaches c) s u) := by
  obtain he | ⟨u, he⟩ := exec_held s hc
  · exact .inl (Host.Outcome.next.inj (h.symm.trans he))
  · exact .inr ⟨u, Host.Outcome.next.inj (h.symm.trans he)⟩

/-- The two commands by which PORST_N changes. -/
theorem eq_of_porst {c : Instr} (hc : porst c = true) :
    c = .porstNAssert ∨ ∃ gpio bank33, c = .porstNRise gpio bank33 := by
  cases c
  case porstNAssert => exact .inl rfl
  case porstNRise gpio bank33 => exact .inr ⟨gpio, bank33, rfl⟩
  all_goals cases hc

theorem exec_porstNRise (gpio : BitVec 3) (bank33 : Bool) (s : State) : exec (.porstNRise gpio bank33) s = execPorstNRise gpio bank33 s := rfl

theorem porstNRise_on {s : State} (gpio : BitVec 3) (bank33 : Bool) (hp : s.powered = true) : exec (.porstNRise gpio bank33) s = .next s := by
  rw [exec_porstNRise, execPorstNRise, if_pos hp]

/-- A part that a command does not reach stays. -/
theorem same_of_held {ps : List Part} {p : Part} (s u : State) (hp : p ∉ ps) : same p s (hold s (keeping ps s u)) := by
  have hc : ps.contains p = false := by simpa using hp
  cases p <;> simp only [same, State.hold_mgmt, State.hold_dead, State.hold_hbm, State.hold_store, State.hold_unit, State.hold_live, State.hold_ldr,
    State.hold_lmp, State.hold_pf0, State.hold_pf1, State.hold_queues, State.hold_heads, State.hold_dps, State.hold_groups, State.hold_planQ,
    State.hold_planning, State.hold_tiles, State.hold_scalers, State.hold_fsh, State.hold_rods, State.hold_signs, State.hold_rx, State.hold_trs,
    State.hold_time, State.hold_health, keeping, hc, Bool.false_eq_true, if_false, and_self]

theorem same_refl (p : Part) (s : State) : same p s s := by
  cases p <;> simp only [same, and_self]

/-- PORST_N reaches every part. -/
theorem reaches_porst {c : Instr} (p : Part) (hc : porst c = true) : p ∈ reaches c := by
  have hall : p ∈ Part.power :: Part.device := by cases p <;> decide
  obtain rfl | ⟨gpio, bank33, rfl⟩ := eq_of_porst hc <;> exact hall

-- Time that passes with no command waiting.

/-- With PORST_N low or XO_IN stopped, no time passes. -/
theorem tick_stopped {s : State} (h : s.powered = false ∨ s.trs.xoStopped = true) : tick s = s := by
  rw [tick, if_neg]
  obtain h | h := h <;> simp [h]

theorem tick_running {s : State} (hp : s.powered = true) (hx : s.trs.xoStopped = false) :
    tick s = { s with time := s.time + (s.frac + 5 * (timeParts + s.trs.y)) / timeParts,
                      frac := (s.frac + 5 * (timeParts + s.trs.y)) % timeParts, up := s.up + 5 } := by
  simp [tick, hp, hx]

theorem tick_powered (s : State) : (tick s).powered = s.powered := by
  unfold tick
  split <;> rfl

theorem tick_dead (s : State) : (tick s).dead = s.dead := by
  unfold tick
  split <;> rfl

theorem step_of_empty {s : State} (h : s.pending = []) : step s = .next (tick s) := by simp [step, h]
theorem step_of_cons {s : State} {c : Instr} {rest : List Instr} (h : s.pending = c :: rest) : step s = exec c { s with pending := rest } := by
  simp [step, h]

-- The device with PORST_N low.

/-- The device at reset, with the parts of `s` that a reset leaves. -/
def atReset (s : State) : State :=
  { State.reset with variant := s.variant, pending := s.pending, out := s.out, fresh := s.fresh, ldr := { Ldr.init with bank33 := s.ldr.bank33 } }

/-- A device at reset stays so when its waiting commands alone change. -/
theorem quiet_pending {s : State} (h : s.quiet) (cs : List Instr) : State.quiet { s with pending := cs } :=
  fun hp => (congrArg (fun u => { u with pending := cs }) (h hp) :)

theorem quiet_of_powered {s : State} (h : s.powered = true) : s.quiet := fun hp => absurd (h.symm.trans hp) (by decide)

theorem quiet_atReset (s : State) : (atReset s).quiet := fun _ => rfl

/-- Every command keeps a device with PORST_N low at reset. -/
theorem quiet_exec {c : Instr} {s t : State} (hq : s.quiet) (h : exec c s = .next t) : t.quiet := by
  cases hc : porst c with
  | true =>
    obtain rfl | ⟨gpio, bank33, rfl⟩ := eq_of_porst hc
    · obtain rfl : atReset s = t := Host.Outcome.next.inj h
      exact quiet_atReset s
    · cases hp : s.powered with
      | true =>
        obtain rfl : s = t := Host.Outcome.next.inj ((porstNRise_on gpio bank33 hp).symm.trans h)
        exact hq
      | false =>
        rw [exec_porstNRise, execPorstNRise, if_neg (by simp [hp])] at h
        obtain rfl := Host.Outcome.next.inj h
        exact quiet_of_powered rfl
  | false =>
    cases hp : s.powered with
    | false =>
      obtain rfl : s = t := Host.Outcome.next.inj ((exec_of_unpowered hc hp).symm.trans h)
      exact hq
    | true =>
      obtain rfl | ⟨u, rfl⟩ := exec_next_held hc h
      · exact hq
      · exact quiet_of_powered hp

-- Thermal shutdown.

/-- The reads of the mirror reach the masters alone. -/
theorem reaches_of_mirrorReads {c : Instr} (hr : mirrorReads c = true) : reaches c = [.masters] := by
  cases c
  case timeLoRead => rfl
  case lmpReadCycle => rfl
  case rcRegisterRead => rfl
  case idxDataRead => rfl
  all_goals cases hr

/-- After a shutdown only the reads of the mirror act, and they do not reach the power; a rise of PORST_N finds it high. -/
theorem dead_exec {c : Instr} {s t : State} (hd : s.dead = true) (hp : s.powered = true) (hne : c ≠ .porstNAssert) (h : exec c s = .next t) :
    t.dead = true := by
  cases hc : porst c with
  | true =>
    obtain rfl | ⟨gpio, bank33, rfl⟩ := eq_of_porst hc
    · exact absurd rfl hne
    · obtain rfl : s = t := Host.Outcome.next.inj ((porstNRise_on gpio bank33 hp).symm.trans h)
      exact hd
  | false =>
    cases hr : mirrorReads c with
    | false =>
      obtain rfl : s = t := Host.Outcome.next.inj ((exec_of_dead hc hd hr).symm.trans h)
      exact hd
    | true =>
      obtain rfl | ⟨u, rfl⟩ := exec_next_held hc h
      · exact hd
      · rw [State.hold_dead, reaches_of_mirrorReads hr, State.keeping_dead, if_neg (by decide), hd]

end Sys2Proof.Machine

namespace Sys2Proof.Proofs
-- One proof at a time, so that the stacks of the evaluations do not add up.
set_option Elab.async false

open Sys2Proof.Machine Sys2Proof.Claims

/-- Settles O43: each command keeps the device at reset while PORST_N is low, and the passing of time leaves it. -/
theorem quietKept : Obligations.QuietKept := by
  unfold Obligations.QuietKept
  intro s t hq hstep
  cases hpend : s.pending with
  | nil =>
    obtain rfl : tick s = t := Host.Outcome.next.inj ((step_of_empty hpend).symm.trans hstep)
    intro hp
    have hoff : s.powered = false := (tick_powered s).symm.trans hp
    rw [tick_stopped (.inl hoff)]
    exact hq hoff
  | cons c rest => exact quiet_exec (quiet_pending hq rest) ((step_of_cons hpend).symm.trans hstep)

/-- Settles O42: the state after reset is its own reset, with empty maps. -/
theorem quietAtReset : Obligations.QuietAtReset := ⟨fun _ => rfl, rfl, rfl, rfl⟩

/-- Settles O39: PORST_N answers a next state by its own rules, every other command by what it is held to. -/
theorem everyCommandAnswers : Obligations.EveryCommandAnswers := by
  unfold Obligations.EveryCommandAnswers
  intro c s
  cases hc : porst c with
  | true =>
    obtain rfl | ⟨gpio, bank33, rfl⟩ := eq_of_porst hc
    · exact ⟨_, rfl⟩
    · rw [exec_porstNRise, execPorstNRise]
      split <;> exact ⟨_, rfl⟩
  | false =>
    obtain h | ⟨u, h⟩ := exec_held s hc <;> exact ⟨_, h⟩

/-- Settles O40. -/
theorem nothingActsInReset : Obligations.NothingActsInReset := fun _ _ hp hc => exec_of_unpowered hc hp

/-- Settles O41. -/
theorem nothingActsAfterShutdown : Obligations.NothingActsAfterShutdown := fun _ _ _ hd hc hr => exec_of_dead hc hd hr

/-- Settles O44: PORST_N names the parts that it keeps, and `hold` those that every other command keeps. -/
theorem heldByEveryCommand : Obligations.HeldByEveryCommand := by
  unfold Obligations.HeldByEveryCommand
  refine ⟨fun c s t h => ?keepsQueue, fun c s t hc h => ?keepsLevel⟩
  case keepsQueue =>
    cases hc : porst c with
    | true =>
      obtain rfl | ⟨gpio, bank33, rfl⟩ := eq_of_porst hc
      · obtain rfl : atReset s = t := Host.Outcome.next.inj h
        exact ⟨rfl, rfl⟩
      · rw [exec_porstNRise, execPorstNRise] at h
        split at h <;> obtain rfl := Host.Outcome.next.inj h <;> exact ⟨rfl, rfl⟩
    | false =>
      obtain rfl | ⟨u, rfl⟩ := exec_next_held hc h <;> exact ⟨rfl, rfl⟩
  case keepsLevel =>
    obtain rfl | ⟨u, rfl⟩ := exec_next_held hc h <;> exact ⟨rfl, rfl, rfl⟩

/-- Settles O45: PORST_N reaches every part, and every other command is held to the parts it reaches. -/
theorem frameOfEveryCommand : Obligations.FrameOfEveryCommand := by
  unfold Obligations.FrameOfEveryCommand
  intro c s t p hp h
  have hc : porst c = false := Bool.eq_false_iff.mpr fun hc => hp (reaches_porst p hc)
  obtain rfl | ⟨u, rfl⟩ := exec_next_held hc h
  · exact same_refl p _
  · exact same_of_held s u hp

/-- Settles O47: no command but PORST_N_ASSERT ends the shutdown, and the passing of time leaves it. -/
theorem shutdownLasts : Obligations.ShutdownLasts := by
  unfold Obligations.ShutdownLasts
  intro s t hd hp hstep hne
  cases hpend : s.pending with
  | nil =>
    obtain rfl : tick s = t := Host.Outcome.next.inj ((step_of_empty hpend).symm.trans hstep)
    rw [tick_dead, hd]
  | cons c rest =>
    rw [step_of_cons hpend] at hstep
    exact dead_exec (c := c) (s := { s with pending := rest }) hd hp (fun hc => hne (by rw [hpend, hc]; rfl)) hstep

/-- Settles O37. -/
theorem stepRunsFrontCommand : Obligations.StepRunsFrontCommand := fun _ _ _ => rfl

/-- Settles O38: 5 ns of the oscillator are 5 (1 + y) ns of the device, whole nanoseconds and the rest. -/
theorem idleStepPassesTime : Obligations.IdleStepPassesTime := by
  unfold Obligations.IdleStepPassesTime
  refine ⟨fun s hpend hp hx => ⟨tick s, step_of_empty hpend, ?_⟩, fun s hpend h => by rw [step_of_empty hpend, tick_stopped h]⟩
  rw [tick_running hp hx]
  refine ⟨rfl, ?_⟩
  simp only [timeParts]
  omega

end Sys2Proof.Proofs

/-!
PROOFS. Surface memory and line tails (03_surfaces_placement.md), the decks a commit moves (08_commits_updates.md), the fault pins
(14_integrity_safety.md) and the producer index of a queue (12_work_queues.md).
-/
namespace Sys2Proof.Machine
-- One proof at a time, so that the stacks of the evaluations do not add up.
set_option Elab.async false

open Sys2Proof.Claims

-- Maps in canonical form.

/-- Below its bound a map in canonical form lists nothing. -/
theorem kget_below {α : Type} [DecidableEq α] (d : Nat → α) {m : KMap α} {lo k : Nat} (hm : kwfFrom d lo m = true) (hk : k < lo) : kget d m k = d k := by
  induction m generalizing lo with
  | nil => rfl
  | cons e m ih =>
    obtain ⟨a, v⟩ := e
    simp only [kwfFrom, Bool.and_eq_true, decide_eq_true_eq] at hm
    obtain ⟨⟨hlo, -⟩, hrest⟩ := hm
    rw [kget, if_neg (by omega), ih hrest (by omega)]

/-- The first entry of a map in canonical form is the least key that does not read as an unlisted one. -/
theorem kwfFrom_ext {α : Type} [DecidableEq α] (d : Nat → α) {m n : KMap α} {lo lo' : Nat} (hm : kwfFrom d lo m = true) (hn : kwfFrom d lo' n = true)
    (h : ∀ k, kget d m k = kget d n k) : m = n := by
  induction m generalizing n lo lo' with
  | nil =>
    cases n with
    | nil => rfl
    | cons e n =>
      obtain ⟨b, w⟩ := e
      simp only [kwfFrom, Bool.and_eq_true, decide_eq_true_eq] at hn
      exact absurd (by simpa [kget] using (h b).symm) hn.1.2
  | cons e m ih =>
    obtain ⟨a, v⟩ := e
    have hm' := hm
    simp only [kwfFrom, Bool.and_eq_true, decide_eq_true_eq] at hm
    obtain ⟨⟨-, hv⟩, hmrest⟩ := hm
    cases n with
    | nil => exact absurd (by simpa [kget] using h a) hv
    | cons e' n =>
      obtain ⟨b, w⟩ := e'
      simp only [kwfFrom, Bool.and_eq_true, decide_eq_true_eq] at hn
      obtain ⟨⟨-, hw⟩, hnrest⟩ := hn
      have hkey : a = b := by
        by_contra hne
        obtain hlt | hlt := Nat.lt_or_gt_of_ne hne
        · have := h a
          rw [kget, if_pos rfl, kget, if_neg (by omega), kget_below d hnrest (by omega)] at this
          exact hv this
        · have := h b
          rw [kget, if_neg (by omega), kget_below d hmrest (by omega), kget, if_pos rfl] at this
          exact hw this.symm
      subst hkey
      have hval : v = w := by simpa [kget] using h a
      subst hval
      rw [ih hmrest hnrest fun k => ?_]
      by_cases hk : k = a
      · rw [hk, kget_below d hmrest (by omega), kget_below d hnrest (by omega)]
      · simpa [kget, hk] using h k

-- A line written whole.

theorem slice_length (bs : List Byte) (off len : Nat) : (slice bs off len).length = len := by
  simp only [slice, List.length_append, List.length_take, List.length_drop, List.length_replicate]
  omega

theorem leBytes_length (n v : Nat) : (leBytes n v).length = n := by
  induction n generalizing v with
  | zero => rfl
  | succ n ih => simp [leBytes, ih]

theorem padBody_length (x : Surface) (payload : List Byte) : (padBody x payload).length = x.pitch - 4 := slice_length _ _ _

/-- A byte of a slice is that of the list, and 0 behind the list's end. -/
theorem slice_getD (bs : List Byte) {off len i : Nat} (hi : i < len) : (slice bs off len).getD i 0#8 = bs.getD (off + i) 0#8 := by
  simp only [slice, List.getD_eq_getElem?_getD]
  by_cases h : i < ((bs.drop off).take len).length
  · rw [List.getElem?_append_left h, List.getElem?_take, if_pos hi, List.getElem?_drop]
  · rw [List.getElem?_append_right (by omega)]
    simp only [List.length_take, List.length_drop] at h ⊢
    rw [List.getElem?_replicate, List.getElem?_eq_none (by omega : bs.length ≤ off + i)]
    split <;> rfl

/-- A body byte is the payload's, or a zero pad byte. -/
theorem padBody_getD (x : Surface) (payload : List Byte) {b : Nat} (hb : b < x.pitch - 4) :
    (padBody x (payload.take x.payload)).getD b 0#8 = if b < x.payload then payload.getD b 0#8 else 0#8 := by
  rw [padBody, slice_getD _ hb, Nat.zero_add]
  simp only [List.getD_eq_getElem?_getD, List.getElem?_take]
  split <;> rfl

theorem writeLine_of_line {s : State} {h i : Nat} {x : Surface} (payload : List Byte) (poison : Bool) (hx : s.surface h = some x) (hi : i < x.lines) :
    writeLine s h i payload poison = writeBody s h x i (padBody x (payload.take x.payload)) poison := by
  simp [writeLine, hx, hi]

theorem writeLine_of_no_line {s : State} {h i : Nat} {x : Surface} (payload : List Byte) (poison : Bool) (hx : s.surface h = some x) (hi : x.lines ≤ i) :
    writeLine s h i payload poison = s := by
  simp [writeLine, hx, Nat.not_lt.mpr hi]

theorem writeLine_of_no_surface {s : State} {h : Nat} (i : Nat) (payload : List Byte) (poison : Bool) (hx : s.surface h = none) :
    writeLine s h i payload poison = s := by
  simp [writeLine, hx]

/-- Key of a byte of a line, from the line's first. -/
theorem skeyByte_add (h off b : Nat) : skeyByte h (off + b) = skeyByte h off + b := by simp only [skeyByte]; omega

/-- The write of a line changes no byte outside the line. -/
theorem writeLine_byte_outside {s : State} {h i : Nat} {x : Surface} (payload : List Byte) (poison : Bool) {h' off' : Nat} (hx : s.surface h = some x)
    (hpitch : 4 ≤ x.pitch) (hout : skeyByte h' off' < skeyByte h (i * x.pitch) ∨ skeyByte h (i * x.pitch) + x.pitch ≤ skeyByte h' off') :
    (writeLine s h i payload poison).byte h' off' = s.byte h' off' := by
  by_cases hi : i < x.lines
  · rw [writeLine_of_line payload poison hx hi, writeBody, State.byte_setBytes, if_neg]
    simp only [List.length_append, padBody_length, leBytes_length]
    omega
  · rw [writeLine_of_no_line payload poison hx (by omega)]

/-- A byte of a line that is written: of its body, or of its tail. -/
theorem writeLine_byte_inside {s : State} {h i : Nat} {x : Surface} (payload : List Byte) (poison : Bool) {b : Nat} (hx : s.surface h = some x)
    (hi : i < x.lines) (hpitch : 4 ≤ x.pitch) (hb : b < x.pitch) :
    (writeLine s h i payload poison).byte h (i * x.pitch + b) =
      if b + 4 < x.pitch then (if b < x.payload then payload.getD b 0#8 else 0#8)
      else (leBytes 4 (if poison then not32 (tailValue h i (padBody x (payload.take x.payload)))
        else tailValue h i (padBody x (payload.take x.payload)))).getD (b + 4 - x.pitch) 0#8 := by
  have hlen := padBody_length x (payload.take x.payload)
  rw [writeLine_of_line payload poison hx hi, writeBody, State.byte_setBytes, skeyByte_add, if_pos]
  · rw [Nat.add_sub_cancel_left]
    by_cases hbody : b + 4 < x.pitch
    · rw [if_pos hbody, ← padBody_getD x payload (by omega), List.getD_append _ _ _ _ (by omega)]
    · rw [if_neg hbody, List.getD_append_right _ _ _ _ (by omega), hlen]
      congr 1
      omega
  · simp only [List.length_append, hlen, leBytes_length]
    omega

theorem writeLine_keeps {β : Type} (g : State → β) (hset : ∀ t h off bs, g (State.setBytes t h off bs) = g t) (s : State) (h i : Nat)
    (payload : List Byte) (poison : Bool) : g (writeLine s h i payload poison) = g s := by
  unfold writeLine
  split
  · rfl
  · split
    · exact hset _ _ _ _
    · rfl

theorem tailValue_eq (h i : Nat) (body : List Byte) :
    tailValue h i body = crc32c ([BitVec.ofNat 8 h, BitVec.ofNat 8 (h / 256), BitVec.ofNat 8 i, BitVec.ofNat 8 (i / 256)] ++ body) := rfl

/-- The complement of a value differs from it: in bit 0 already. -/
theorem not32_ne (n : Nat) : not32 n ≠ n := by
  intro h
  have hbit := congrArg (Nat.testBit · 0) h
  simp only [not32, Nat.testBit_xor] at hbit
  revert hbit
  cases n.testBit 0 <;> decide

-- The decks of a group.

theorem kget_krange {α : Type} (d : Nat → α) (m : KMap α) (lo hi k : Nat) (hk : lo ≤ k ∧ k < hi) : kget d (krange m lo hi) k = kget d m k := by
  induction m with
  | nil => rfl
  | cons e m ih =>
    obtain ⟨a, v⟩ := e
    rw [krange]
    split
    · simp only [kget, ih]
    · next hout => rw [ih, kget, if_neg (by rintro rfl; exact hout hk)]

theorem krange_keys {α : Type} {m : KMap α} {lo hi : Nat} {e : Nat × α} (he : e ∈ krange m lo hi) : lo ≤ e.1 ∧ e.1 < hi := by
  induction m with
  | nil => cases he
  | cons x m ih =>
    obtain ⟨a, v⟩ := x
    rw [krange] at he
    split at he
    · next hin =>
      obtain rfl | he := List.mem_cons.mp he
      · exact hin
      · exact ih he
    · exact ih he

/-- Entries written one over another: the first of a key is the one that stays. -/
theorem kget_foldr_kset {α : Type} [DecidableEq α] (d : Nat → α) (es m : KMap α) (k : Nat) :
    kget d (es.foldr (fun e m => kset d m e.1 e.2) m) k = if k ∈ es.map Prod.fst then kget d es k else kget d m k := by
  induction es with
  | nil => simp
  | cons e es ih =>
    obtain ⟨a, v⟩ := e
    by_cases hk : k = a
    · simp [kget, hk]
    · simp only [List.foldr_cons, kget_kset, kget, hk, if_false, ih, List.map_cons, List.mem_cons, false_or]

/-- A copied range reads as its source, the rest as before. -/
theorem kget_kcopy {α : Type} [DecidableEq α] (d : Nat → α) (src dst : KMap α) (lo hi k : Nat) :
    kget d (kcopy d src dst lo hi) k = if lo ≤ k ∧ k < hi then kget d src k else kget d dst k := by
  rw [kcopy, kget_foldr_kset, kget_kclear]
  by_cases hk : lo ≤ k ∧ k < hi
  · rw [if_pos hk, if_pos hk]
    split
    · exact kget_krange d src lo hi k hk
    · next hmem => rw [← kget_krange d src lo hi k hk, kget_of_not_mem d _ _ hmem]
  · rw [if_neg hk, if_neg hk, if_neg]
    intro hmem
    obtain ⟨e, he, rfl⟩ := List.mem_map.mp hmem
    exact hk (krange_keys he)

theorem kget_foldl_kcopy {α : Type} [DecidableEq α] (d : Nat → α) (src : KMap α) (k : Nat) (rs : List (Nat × Nat)) (dst : KMap α) :
    kget d (rs.foldl (fun m r => kcopy d src m r.1 r.2) dst) k = if ∃ r ∈ rs, r.1 ≤ k ∧ k < r.2 then kget d src k else kget d dst k := by
  induction rs generalizing dst with
  | nil => simp
  | cons r rs ih =>
    rw [List.foldl_cons, ih, kget_kcopy]
    by_cases hr : r.1 ≤ k ∧ k < r.2
    · simp [hr]
    · rw [if_neg hr]
      exact if_congr (by simp [hr]) rfl rfl

/-- The registers of a commit take their pending values, one after another. -/
theorem forEach_setCfg_dk (os : List Nat) (s : State) (o : Nat) :
    (forEach os s (fun s o => s.setCfg o (s.dk o))).cfg o = if o ∈ os then s.dk o else s.cfg o := by
  induction os generalizing s with
  | nil => simp [forEach]
  | cons a os ih =>
    have hstep := ih (s.setCfg a (s.dk a))
    simp only [forEach, List.foldl_cons] at hstep ⊢
    rw [hstep, State.setCfg_dk_other, State.cfg_setCfg]
    by_cases ha : o = a
    · subst ha; simp
    · simp [ha]

/-- The copies are made in the settings in force; the words and the lists of failing words come with them. -/
theorem copyDecks_unit (s : State) (g : Nat) : (copyDecks s g).unit = (forEach (deckRegs s g) s (fun s o => s.setCfg o (s.dk o))).unit := by
  rw [copyDecks]

theorem copyDecks_cfg (s : State) (g o : Nat) : (copyDecks s g).cfg o = if o ∈ deckRegs s g then s.dk o else s.cfg o := by
  rw [← forEach_setCfg_dk, State.cfg, copyDecks_unit, ← State.cfg]

theorem copyDecks_live (s : State) (g : Nat) :
    (copyDecks s g).live = (deckRanges s g).foldl (fun m r => kcopy spaceReset s.spaces m r.1 r.2) s.live := by
  have hregs : (forEach (deckRegs s g) s (fun s o => s.setCfg o (s.dk o))).live = s.live :=
    forEach_keeps State.live (fun s o => s.setCfg o (s.dk o)) (fun _ _ => rfl) _ s
  rw [copyDecks, ← hregs]

theorem copyDecks_lv (s : State) (g k : Nat) : (copyDecks s g).lv k = if ∃ r ∈ deckRanges s g, r.1 ≤ k ∧ k < r.2 then s.sp k else s.lv k := by
  rw [State.lv, copyDecks_live]
  exact kget_foldl_kcopy spaceReset s.spaces k (deckRanges s g) s.live

theorem copyDecks_keeps {β : Type} (g : State → β) (hcfg : ∀ t o v, g (State.setCfg t o v) = g t)
    (hlive : ∀ t l f n, g { t with live := l, failing := f, mended := n } = g t) (s : State) (grp : Nat) : g (copyDecks s grp) = g s := by
  unfold copyDecks
  rw [hlive]
  exact forEach_keeps g _ (fun t o => hcfg t o _) _ s

-- The fault pins.

theorem bit_foldl_setBit {α : Type} (f : α → Nat) (hf : ∀ e, f e < 32) (es : List α) (w : Word) {i : Nat} (hi : i < 32) :
    bit (es.foldl (fun w e => setBit w (f e) true) w) i = (bit w i || es.any (fun e => decide (f e = i))) := by
  induction es generalizing w with
  | nil => simp
  | cons e es ih =>
    rw [List.foldl_cons, ih, bit_setBit w (f e) i true (hf e) hi, List.any_cons]
    by_cases he : f e = i
    · simp [he]
    · rw [if_neg (Ne.symm he)]
      simp [he]

theorem bit_zero (i : Nat) : bit 0#32 i = false := by simp [bit]

theorem word_ne_zero_iff {w : Word} : w ≠ 0#32 ↔ ∃ i, i < 32 ∧ bit w i = true := by
  constructor
  · intro hw
    by_contra hnone
    refine hw (word_ext fun i hi => ?_)
    rw [bit_zero, Bool.eq_false_iff]
    exact fun h => hnone ⟨i, hi, h⟩
  · rintro ⟨i, -, h⟩ rfl
    exact Bool.false_ne_true ((bit_zero i).symm.trans h)

theorem summaryBit_le (src : Nat) : summaryBit src ≤ 10 := by
  unfold summaryBit
  split_ifs <;> omega

/-- The bits of the blocks and of the collector itself in the summary word. -/
def summaryBlocks (s : State) : Word :=
  setBit ((s.col.src.filter (fun e => 2 ≤ e.2.level)).foldl (fun w e => setBit w (summaryBit e.1) true) 0#32) 30 (decide (1 ≤ (s.src 308).level))

theorem fcSummary_eq (s : State) : s.fcSummary = setBit (summaryBlocks s) 31 (summaryBlocks s != 0#32) := rfl

theorem bit_summaryBlocks (s : State) {i : Nat} (hi : i < 32) :
    bit (summaryBlocks s) i = if i = 30 then decide (1 ≤ (s.src 308).level)
      else (s.col.src.filter (fun e => 2 ≤ e.2.level)).any (fun e => decide (summaryBit e.1 = i)) := by
  rw [summaryBlocks, bit_setBit _ 30 i _ (by decide) hi,
    bit_foldl_setBit (fun e : Nat × SrcSt => summaryBit e.1) (fun e => (summaryBit_le e.1).trans_lt (by decide)) _ _ hi, bit_zero, Bool.false_or]

/-- Something shows in the summary word: a source latched at DEGRADE or above, or the collector itself. -/
theorem summaryBlocks_ne_zero (s : State) : summaryBlocks s ≠ 0#32 ↔ (∃ e ∈ s.col.src, 2 ≤ e.2.level) ∨ 1 ≤ (s.src 308).level := by
  rw [word_ne_zero_iff]
  constructor
  · rintro ⟨i, hi, hbit⟩
    rw [bit_summaryBlocks s hi] at hbit
    split at hbit
    · exact .inr (of_decide_eq_true hbit)
    · obtain ⟨e, he, -⟩ := List.any_eq_true.mp hbit
      obtain ⟨hmem, hlevel⟩ := List.mem_filter.mp he
      exact .inl ⟨e, hmem, of_decide_eq_true hlevel⟩
  · rintro (⟨e, hmem, hlevel⟩ | hself)
    · have hle := summaryBit_le e.1
      refine ⟨summaryBit e.1, by omega, ?_⟩
      rw [bit_summaryBlocks s (by omega), if_neg (by omega)]
      exact List.any_eq_true.mpr ⟨e, List.mem_filter.mpr ⟨hmem, decide_eq_true hlevel⟩, decide_eq_true rfl⟩
    · refine ⟨30, by decide, ?_⟩
      rw [bit_summaryBlocks s (by decide), if_pos rfl]
      exact decide_eq_true hself

theorem bit_fcSummary_31 (s : State) : bit s.fcSummary 31 = true ↔ (∃ e ∈ s.col.src, 2 ≤ e.2.level) ∨ 1 ≤ (s.src 308).level := by
  rw [fcSummary_eq, bit_setBit _ 31 31 _ (by decide) (by decide), if_pos rfl, bne_iff_ne, summaryBlocks_ne_zero]

/-- Which of the low 16 bits of two words meet. -/
theorem masked_ne_zero_iff (a b : Word) : (a &&& b &&& 0xFFFF#32) ≠ 0#32 ↔ ∃ i, i < 16 ∧ bit a i = true ∧ bit b i = true := by
  have hmask : ∀ i, bit 0xFFFF#32 i = decide (i < 16) := fun i => Nat.testBit_two_pow_sub_one 16 i
  rw [word_ne_zero_iff]
  simp only [bit_and, hmask, Bool.and_eq_true, decide_eq_true_eq]
  exact ⟨fun ⟨i, _, ⟨ha, hb⟩, hi⟩ => ⟨i, hi, ha, hb⟩, fun ⟨i, hi, ha, hb⟩ => ⟨i, by omega, ⟨ha, hb⟩, hi⟩⟩

-- The producer index.

theorem pollQueue_keeps {β : Type} (g : State → β) (hset : ∀ t q x, g (State.setQueue t q x) = g t) (s : State) (q : Nat) : g (pollQueue s q) = g s := by
  unfold pollQueue
  dsimp only
  split
  · exact hset _ _ _
  · rfl

theorem pollQueue_prod (s : State) (q : Nat) : ((pollQueue s q).queue q).prod = (s.queue q).prod := by
  obtain h | h := poll_queue s q <;> rw [h]

/-- A queue whose producer is ahead of its consumer does not read the index anew. -/
theorem pollQueue_of_ahead {s : State} {q : Nat} (h : s.rd (R.HWQ_Qnn_CONS q) ≠ (s.queue q).prod) : pollQueue s q = s := by
  unfold pollQueue
  dsimp only
  rw [if_neg fun hc => h hc.2.2.1]

theorem takeIndex_valid {s : State} {q : Nat} {p : Word} (h : (p - s.rd (R.HWQ_Qnn_CONS q)).toNat ≤ ringSize s q) :
    takeIndex s q p = pollQueue (s.setQueue q { s.queue q with reading := false, prod := p }) q := by
  rw [takeIndex, if_pos h]

theorem takeIndex_invalid {s : State} {q : Nat} {p : Word} (h : ringSize s q < (p - s.rd (R.HWQ_Qnn_CONS q)).toNat) :
    takeIndex s q p = pollQueue (raiseQ ((s.setQueue q { s.queue q with reading := false, prod := s.rd (R.HWQ_Qnn_CONS q) }).setFlag
      (R.HWQ_Qnn_STAT q) 0) 282 q) q := by
  rw [takeIndex, if_neg (Nat.not_le.mpr h)]

end Sys2Proof.Machine

namespace Sys2Proof.Proofs
-- One proof at a time, so that the stacks of the evaluations do not add up.
set_option Elab.async false

open Sys2Proof.Machine Sys2Proof.Claims

/-- Settles O50: the laws of the sparse map, and that its canonical form is unique. -/
theorem memoryOperations : Obligations.MemoryOperations :=
  ⟨fun s h off bs h' off' => s.byte_setBytes h off bs h' off', fun s h lo hi h' off' => s.byte_zeroBytes h lo hi h' off',
    fun s h off bs => s.memoryWf_setBytes h off bs, fun s h lo hi => s.memoryWf_zeroBytes h lo hi,
    fun _ _ hs ht hread => kwfFrom_ext _ hs ht hread⟩

/-- Settles O51: a line is its padded body and its tail, as long as the pitch. -/
theorem lineWrites : Obligations.LineWrites :=
  ⟨tailValue_eq, fun _ _ _ _ payload poison _ hx hi hpitch _ hb => writeLine_byte_inside payload poison hx hi hpitch hb,
    fun _ _ _ _ payload poison _ _ hx hpitch hout => writeLine_byte_outside payload poison hx hpitch hout,
    fun _ _ _ _ payload poison hx hi => writeLine_of_no_line payload poison hx hi,
    fun _ _ i payload poison hx => writeLine_of_no_surface i payload poison hx,
    fun s h i payload poison => ⟨writeLine_keeps State.regs (fun _ _ _ _ => rfl) s h i payload poison,
      writeLine_keeps State.store (fun _ _ _ _ => rfl) s h i payload poison⟩⟩

/-- Settles O52: the pitch is a rounding up to 16, and the classes are tried in order, which the complement of a tail cannot pass as the tail. -/
theorem lineLayout : Obligations.LineLayout := by
  unfold Obligations.LineLayout
  refine ⟨fun p => ?pitch, fun w => ?payload, tailValue_eq, fun h i body => ?good, fun h i body => ?poison, fun h i t body ht hn => ?other⟩
  case pitch =>
    have hpitch : pitchOf p = 16 * ((p + 19) / 16) := by simp [pitchOf, ceilDiv]
    omega
  case payload => simp [payloadLen, ceilDiv]
  case good => simp [classify]
  case poison => simp [classify, not32_ne]
  case other => simp [classify, ht, hn]

/-- Settles O49: the registers are copied one by one and the ranges of words one after another; nothing else is written but the lists of failing
words. -/
theorem commitMovesEveryDeck : Obligations.CommitMovesEveryDeck := by
  unfold Obligations.CommitMovesEveryDeck
  refine fun s g => ⟨copyDecks_cfg s g, copyDecks_lv s g, ?_, ?_, ?_, ?_, ?_⟩
  · exact copyDecks_keeps State.regs (fun _ _ _ => rfl) (fun _ _ _ _ => rfl) s g
  · exact copyDecks_keeps State.deck (fun _ _ _ => rfl) (fun _ _ _ _ => rfl) s g
  · exact copyDecks_keeps State.spaces (fun _ _ _ => rfl) (fun _ _ _ _ => rfl) s g
  · exact copyDecks_keeps State.hbm (fun _ _ _ => rfl) (fun _ _ _ _ => rfl) s g
  · exact copyDecks_keeps State.groups (fun _ _ _ => rfl) (fun _ _ _ _ => rfl) s g

/-- Settles O56: bit 31 of the summary word shows whether anything is latched at DEGRADE or above, bit 30 the collector's own source. -/
theorem faultPins : Obligations.FaultPins := by
  unfold Obligations.FaultPins
  refine ⟨fun s => ?faultN, fun s => ?self, fun s => ?lmpInt⟩
  case faultN =>
    rw [State.faultN, Bool.and_eq_true, Bool.not_eq_true', Bool.eq_false_iff, ne_eq, bit_fcSummary_31]
    push Not
    exact Iff.rfl.and (Iff.rfl.and Nat.lt_one_iff)
  case self =>
    rw [fcSummary_eq, bit_setBit _ 31 30 _ (by decide) (by decide), if_neg (by decide), bit_summaryBlocks s (by decide), if_pos rfl]
  case lmpInt =>
    rw [State.lmpIntN, Bool.not_eq_false', Bool.or_eq_true, bne_iff_ne, masked_ne_zero_iff, Bool.and_eq_true]

/-- Settles O57: a valid index is taken and an invalid one leaves the consumer's; a queue that has entries to fetch is not polled. -/
theorem producerIndex : Obligations.ProducerIndex := by
  unfold Obligations.ProducerIndex
  refine ⟨fun s q p h => ?taken, fun s q p h hne => ?whole, fun s q p h => ⟨?left, takeIndex_invalid h⟩⟩
  case taken =>
    rw [takeIndex_valid h, pollQueue_prod, pollQueue_keeps State.regs (fun _ _ _ => rfl), pollQueue_keeps State.out (fun _ _ _ => rfl),
      State.queue_setQueue_self]
    exact ⟨rfl, rfl, rfl⟩
  case whole =>
    rw [takeIndex_valid h, pollQueue_of_ahead, State.queue_setQueue_self]
    rw [State.queue_setQueue_self, State.setQueue_rd_other]
    exact hne.symm
  case left =>
    rw [takeIndex_invalid h, pollQueue_prod, raiseQ, State.queue, raiseFull_queues, ← State.queue, State.setFlag_queue_other, State.queue_setQueue_self]

end Sys2Proof.Proofs

/-!
PROOFS. The arithmetic of composition and scaling (04_layers_composition.md, 05_scaling.md): where a rounded magnitude passes the largest finite
value, and what a calculation then counts (R103, R133).
-/
namespace Sys2Proof.Machine
-- One proof at a time, so that the stacks of the evaluations do not add up.
set_option Elab.async false


-- Rounding.

theorem roundEven_le (n d : Nat) : roundEven n d ≤ n / d + 1 := by
  unfold roundEven
  dsimp only
  split <;> omega

theorem div_le_roundEven (n d : Nat) : n / d ≤ roundEven n d := by
  unfold roundEven
  dsimp only
  split <;> omega

/-- From an odd quotient the rounding is upward at one half already. -/
theorem roundEven_of_odd {n d : Nat} (hodd : n / d % 2 = 1) : roundEven n d = n / d + 1 ↔ d * (2 * (n / d) + 1) ≤ 2 * n := by
  have hn := Nat.div_add_mod n d
  have hsplit : d * (2 * (n / d) + 1) = 2 * (d * (n / d)) + d := by ring
  unfold roundEven
  dsimp only
  split <;> omega

/-- The binade of a magnitude whose units have more than eleven bits. -/
theorem binade {q : Nat} (hq : 2048 ≤ q) : 1024 * 2 ^ (Nat.log2 q - 10) ≤ q ∧ q < 2048 * 2 ^ (Nat.log2 q - 10) := by
  have hlog : 11 ≤ Nat.log2 q := (Nat.le_log2 (by omega)).mpr (by simpa using hq)
  have hlow := Nat.log2_self_le (show q ≠ 0 by omega)
  have hhigh := Nat.lt_log2_self (n := q)
  have hpow : 2 ^ Nat.log2 q = 1024 * 2 ^ (Nat.log2 q - 10) := by
    rw [show (1024 : Nat) = 2 ^ 10 by rfl, ← Nat.pow_add, Nat.add_sub_cancel' (by omega)]
  rw [Nat.pow_succ] at hhigh
  omega

/-- The significand of a magnitude in its binade: eleven bits. -/
theorem significand {n d k : Nat} (hlow : 1024 * 2 ^ k ≤ n / d) (hhigh : n / d < 2048 * 2 ^ k) : 1024 ≤ n / (d * 2 ^ k) ∧ n / (d * 2 ^ k) < 2048 := by
  rw [← Nat.div_div_eq_div_mul]
  exact ⟨(Nat.le_div_iff_mul_le (by positivity)).mpr hlow, Nat.div_lt_of_lt_mul (by linarith)⟩

/-- A magnitude is rounded beyond the largest finite value from 65,520 on: half a unit of the last binade above 65,504. -/
theorem hMax_lt_hRoundMag {n d : Nat} (hd : 0 < d) : hMax < hRoundMag n d ↔ 65520 * 2 ^ 24 * d ≤ n := by
  have hquot : ∀ c, c * d ≤ n ↔ c ≤ n / d := fun c => (Nat.le_div_iff_mul_le hd).symm
  rw [hRoundMag]
  by_cases hsmall : n / d < 2048
  · have hle := roundEven_le n d
    rw [if_pos hsmall, hquot]
    simp only [hMax, pow_zero, mul_one]
    omega
  · rw [if_neg hsmall]
    obtain ⟨hlow, hhigh⟩ := binade (Nat.not_lt.mp hsmall)
    generalize Nat.log2 (n / d) - 10 = k at hlow hhigh
    obtain ⟨hsig, hsig'⟩ := significand hlow hhigh
    have hle := roundEven_le n (d * 2 ^ k)
    have hge := div_le_roundEven n (d * 2 ^ k)
    simp only [hMax]
    obtain hk | rfl | hk := Nat.lt_trichotomy k 29
    · have hpow : 2 ^ k ≤ 2 ^ 28 := Nat.pow_le_pow_right (by decide) (by omega)
      rw [hquot]
      omega
    · have hlast : 29 * 1024 + roundEven n (d * 2 ^ 29) > 31743 ↔ n / (d * 2 ^ 29) = 2047 ∧ roundEven n (d * 2 ^ 29) = n / (d * 2 ^ 29) + 1 := by omega
      have hn := Nat.div_add_mod n (d * 2 ^ 29)
      have hmod := Nat.mod_lt n (show 0 < d * 2 ^ 29 by positivity)
      constructor
      · intro h
        obtain ⟨hq, hup⟩ := hlast.mp h
        rw [roundEven_of_odd (by rw [hq]), hq] at hup
        linarith
      · intro h
        refine hlast.mpr ?_
        have hq : n / (d * 2 ^ 29) = 2047 := by
          have : 2047 ≤ n / (d * 2 ^ 29) := (Nat.le_div_iff_mul_le (by positivity)).mpr (by linarith)
          omega
        refine ⟨hq, (roundEven_of_odd (by rw [hq])).mpr ?_⟩
        rw [hq]
        linarith
    · have hpow : 2 ^ 30 ≤ 2 ^ k := Nat.pow_le_pow_right (by decide) hk
      rw [hquot]
      omega

/-- A rounded result: replaced and counted beyond the range, as it is otherwise. -/
theorem hRound_run (neg : Bool) (n d c : Nat) :
    (hRound neg n d).run c = if hMax < hRoundMag n d then ((if neg then 32768 else 0) + hMax, c + 1) else ((if neg then 32768 else 0) + hRoundMag n d, c) := by
  unfold hRound
  dsimp only
  split <;> rfl

theorem hRound_finite (neg : Bool) (n d c : Nat) : ((hRound neg n d).run c).1 % 32768 ≤ 0x7BFF := by
  rw [hRound_run]
  by_cases h : hMax < hRoundMag n d
  · rw [if_pos h]
    cases neg <;> simp [hMax]
  · rw [if_neg h]
    simp only [hMax] at h
    cases neg <;> simp <;> omega

theorem hRound_sign (neg : Bool) (n d c : Nat) : ((hRound neg n d).run c).1 / 32768 = if neg then 1 else 0 := by
  rw [hRound_run]
  by_cases h : hMax < hRoundMag n d
  · rw [if_pos h]
    cases neg <;> simp [hMax]
  · rw [if_neg h]
    simp only [hMax] at h
    cases neg <;> simp <;> omega

/-- What is counted, and what then stands for the result. -/
theorem hRound_counts {d : Nat} (hd : 0 < d) (neg : Bool) (n c : Nat) :
    if 65520 * 2 ^ 24 * d ≤ n then (hRound neg n d).run c = (if neg then 0xFBFF else 0x7BFF, c + 1) else ((hRound neg n d).run c).2 = c := by
  rw [hRound_run]
  split
  · next h =>
    rw [if_pos ((hMax_lt_hRoundMag hd).mpr h)]
    cases neg <;> rfl
  · next h => rw [if_neg fun hm => h ((hMax_lt_hRoundMag hd).mp hm)]

theorem hAdd_counts (a b c : Nat) :
    if 65520 * 2 ^ 24 ≤ (hInt a + hInt b).natAbs then (hAdd a b).run c = (if hInt a + hInt b < 0 then 0xFBFF else 0x7BFF, c + 1)
    else ((hAdd a b).run c).2 = c := by
  have h := hRound_counts (d := 1) (by decide) (decide (hInt a + hInt b < 0) || (decide (hInt a + hInt b = 0) && hNeg a && hNeg b))
    (hInt a + hInt b).natAbs c
  rw [Nat.mul_one] at h
  rw [hAdd]
  split
  · next hbig =>
    rw [if_pos hbig] at h
    have hzero : hInt a + hInt b ≠ 0 := by omega
    simpa [hzero] using h
  · next hsmall => rwa [if_neg hsmall] at h

/-- A flipped pattern has the opposite value. -/
theorem hInt_hFlip {b : Nat} (hb : b < 65536) : hInt (hFlip b) = -hInt b := by
  have hneg : ∀ p, p < 65536 → hNeg p = decide (32768 ≤ p) := fun p hp => by
    rw [hNeg, Nat.testBit_eq_decide_div_mod_eq]
    simp only [decide_eq_decide]
    omega
  by_cases h : 32768 ≤ b
  · have hmod : (b - 32768) % 32768 = b % 32768 := by omega
    have hunits : hUnits (b - 32768) = hUnits b := by simp only [hUnits, hmod]
    simp only [hInt, hFlip, hneg b hb, h, decide_true, if_true, hneg (b - 32768) (by omega), show ¬ 32768 ≤ b - 32768 by omega, decide_false,
      Bool.false_eq_true, if_false, hunits, neg_neg]
  · have hmod : (b + 32768) % 32768 = b % 32768 := by omega
    have hunits : hUnits (b + 32768) = hUnits b := by simp only [hUnits, hmod]
    simp only [hInt, hFlip, hneg b hb, h, decide_false, Bool.false_eq_true, if_false, hneg (b + 32768) (by omega),
      show 32768 ≤ b + 32768 by omega, decide_true, if_true, hunits]

theorem hSub_counts {b : Nat} (a c : Nat) (hb : b < 65536) :
    if 65520 * 2 ^ 24 ≤ (hInt a - hInt b).natAbs then (hSub a b).run c = (if hInt a < hInt b then 0xFBFF else 0x7BFF, c + 1)
    else ((hSub a b).run c).2 = c := by
  have h := hAdd_counts a (hFlip b) c
  rw [hInt_hFlip hb, ← sub_eq_add_neg] at h
  simpa only [hSub, sub_neg] using h

theorem hMul_counts (a b c : Nat) :
    if 65520 * 2 ^ 48 ≤ hUnits a * hUnits b then (hMul a b).run c = (if hNeg a = hNeg b then 0x7BFF else 0xFBFF, c + 1)
    else ((hMul a b).run c).2 = c := by
  have h := hRound_counts (d := 16777216) (by decide) (hNeg a != hNeg b) (hUnits a * hUnits b) c
  rw [show 65520 * 2 ^ 24 * 16777216 = 65520 * 2 ^ 48 by norm_num] at h
  cases ha : hNeg a <;> cases hb : hNeg b <;> simpa [hMul, ha, hb] using h

/-- sat over all patterns (R103 rule 4). -/
theorem hSat_of_lt {p : Nat} (hp : p < 65536) : hSat p = if p ≤ 0x7BFF then p else if p = 0x7C00 then 0x7BFF else 0 := by
  have hneg : hNeg p = decide (32768 ≤ p) := by
    rw [hNeg, Nat.testBit_eq_decide_div_mod_eq]
    simp only [decide_eq_decide]
    omega
  simp only [hSat, hneg, decide_eq_true_eq, hMax]
  split_ifs <;> omega

/-- The sum of a filter, rounded and clamped (R133). -/
theorem clampCode_run (acc : Int) (n : Nat) :
    (clampCode acc).run n =
      ((min (max ((acc + 512) / 1024) 0) 65535).toNat, if (acc + 512) / 1024 < 0 ∨ 65535 < (acc + 512) / 1024 then n + 1 else n) := by
  by_cases h : (acc + 512) / 1024 < 0 ∨ 65535 < (acc + 512) / 1024
  · rw [if_pos h]
    simp only [clampCode, h, if_true]
    rfl
  · rw [if_neg h]
    simp only [clampCode, h, if_false]
    rfl

end Sys2Proof.Machine

namespace Sys2Proof.Proofs
-- One proof at a time, so that the stacks of the evaluations do not add up.
set_option Elab.async false

open Sys2Proof.Machine

/-- Settles O58: every operation rounds once, and what is rounded passes the largest finite value from 65,520 on. -/
theorem pixelArithmetic : Obligations.PixelArithmetic := by
  unfold Obligations.PixelArithmetic
  refine ⟨fun a b n => ⟨hRound_finite _ _ _ n, hRound_finite _ _ _ n, hRound_finite _ _ _ n⟩, fun a b n => ?sign, hAdd_counts,
    fun a b n hb => hSub_counts a n hb, hMul_counts, fun p hp => ?sat, rfl, clampCode_run⟩
  case sign =>
    rw [hMul, hRound_sign]
    cases ha : hNeg a <;> cases hb : hNeg b <;> rfl
  case sat =>
    rw [hSat_of_lt hp]
    split_ifs <;> omega

end Sys2Proof.Proofs

/-!
PROOFS. The map of registers (16_register_summary.md) and the device after reset (02_startup_image.md, 17_electrical_package.md).
-/
namespace Sys2Proof.Machine
-- One proof at a time, so that the stacks of the evaluations do not add up.
set_option Elab.async false


-- Rows and the locations they take.

/-- Every location of a row is found as that row. -/
def rowFound (r : RegRow) : Bool :=
  (List.range r.count).all (fun i => (List.range r.count2).all (fun j => decide (findRow (r.base + i * r.stride + j * r.stride2) = some r)))

theorem rowFound_glb : rowsGlb.all rowFound = true := by decide +kernel
theorem rowFound_ldr : rowsLdr.all rowFound = true := by decide +kernel
theorem rowFound_hwq : rowsHwq.all rowFound = true := by decide +kernel
theorem rowFound_ihm : rowsIhm.all rowFound = true := by decide +kernel
theorem rowFound_trs : rowsTrs.all rowFound = true := by decide +kernel
theorem rowFound_seq : rowsSeq.all rowFound = true := by decide +kernel
theorem rowFound_ssp : rowsSsp.all rowFound = true := by decide +kernel
theorem rowFound_fsh : rowsFsh.all rowFound = true := by decide +kernel
theorem rowFound_sca : rowsSca.all rowFound = true := by decide +kernel
theorem rowFound_cmp : rowsCmp.all rowFound = true := by decide +kernel
theorem rowFound_owb : rowsOwb.all rowFound = true := by decide +kernel
theorem rowFound_dp : rowsDp.all rowFound = true := by decide +kernel
theorem rowFound_nmp : rowsNmp.all rowFound = true := by decide +kernel
theorem rowFound_idx : rowsIdx.all rowFound = true := by decide +kernel

-- Registers after reset.

theorem rd_reset (o : Nat) : State.reset.rd o = regReset o := rfl
theorem cfg_reset (o : Nat) : State.reset.cfg o = regReset o := rfl

/-- A register reads at reset as its row says, but for those whose places in a row differ. -/
theorem regReset_of_row {o : Nat} {r : RegRow} (hrow : findRow o = some r) (hshape : o ≠ R.FSH_Wc_SHAPE 1) (hmap : o ≠ R.HWQ_QMAP2)
    (hsca : ¬ (R.SCA_MAPnn 0 ≤ o ∧ o ≤ R.SCA_MAPnn 19)) : regReset o = r.reset := by
  rw [regReset, if_neg hshape, if_neg hmap, if_neg hsca, hrow]

/-- The scalers of a domain at reset (R123). -/
theorem scaMap_reset {l : Nat} (hl : l < 80) :
    bits (regReset (R.SCA_MAPnn (l / 4))) (8 * (l % 4) + 7) (8 * (l % 4)) = 22 * (l / 20) + l % 20 := by
  revert l
  decide +kernel

theorem dpLink_reset {d : Nat} (hd : d < 16) : dpLink State.reset d = 0 := by
  revert d
  decide +kernel

end Sys2Proof.Machine

namespace Sys2Proof.Proofs
-- One proof at a time, so that the stacks of the evaluations do not add up.
set_option Elab.async false

open Sys2Proof.Machine

/-- Settles O59, block by block: a row's locations lie in its block, and no row before it has them. -/
theorem registerMap : Obligations.RegisterMap := by
  unfold Obligations.RegisterMap
  intro r hr
  change rowFound r = true
  simp only [List.mem_append, or_assoc] at hr
  obtain h | h | h | h | h | h | h | h | h | h | h | h | h | h := hr
  · exact List.all_eq_true.mp rowFound_glb r h
  · exact List.all_eq_true.mp rowFound_ldr r h
  · exact List.all_eq_true.mp rowFound_hwq r h
  · exact List.all_eq_true.mp rowFound_ihm r h
  · exact List.all_eq_true.mp rowFound_trs r h
  · exact List.all_eq_true.mp rowFound_seq r h
  · exact List.all_eq_true.mp rowFound_ssp r h
  · exact List.all_eq_true.mp rowFound_fsh r h
  · exact List.all_eq_true.mp rowFound_sca r h
  · exact List.all_eq_true.mp rowFound_cmp r h
  · exact List.all_eq_true.mp rowFound_owb r h
  · exact List.all_eq_true.mp rowFound_dp r h
  · exact List.all_eq_true.mp rowFound_nmp r h
  · exact List.all_eq_true.mp rowFound_idx r h

/-- Settles O60: the state after reset holds what its definition names, and every map of it is empty. -/
theorem afterReset : Obligations.AfterReset := by
  unfold Obligations.AfterReset
  refine ⟨rfl, rfl, rfl, rfl, rfl, fun o r hrow hshape hmap hsca => ?registers, fun o => rfl, fun l hl => scaMap_reset hl, ?pcie, fun p => rfl,
    fun d hd => dpLink_reset hd, rfl, fun h => rfl, fun h off => rfl, fun q => rfl, fun h => rfl, fun m => ?queues, rfl, fun g => rfl, fun src => rfl,
    rfl, rfl⟩
  case registers =>
    rw [rd_reset, cfg_reset, regReset_of_row hrow hshape hmap hsca]
    exact ⟨rfl, rfl⟩
  case pcie => decide +kernel
  case queues => cases m <;> rfl

end Sys2Proof.Proofs

/-!
PROOFS. What a command gives and how it ends, what a raise leaves, and the edges of PORST_N, the supplies and the commands of start-up
(02_startup_image.md, 17_electrical_package.md).
-/
namespace Sys2Proof.Machine
-- One proof at a time, so that the stacks of the evaluations do not add up.
set_option Elab.async false

open Sys2Proof.Claims

-- What a command gives.

section
variable {c : Instr} {s : State} {ps : List Part} {f : State → State}

/-- A command of a device that runs gives what its meaning does. -/
theorem gives_of (hs : Runs s) (hx : ∀ s, exec c s = runOn ps s f) {u : State} (hu : f s = u) : Gives c s ps u := by
  obtain ⟨hp, hd⟩ := hs
  rw [Gives, hx, runOn_on hp hd, hu]

/-- What then holds, a command of a device that runs ends with. -/
theorem ends_of (hs : Runs s) (hx : ∀ s, exec c s = runOn ps s f) {P : State → Prop} (hP : P (hold s (keeping ps s (f s)))) : Ends c s P := by
  obtain ⟨hp, hd⟩ := hs
  exact ⟨_, (hx s).trans (runOn_on hp hd), hP⟩

end

/-- A command ends in the state that it gives. -/
theorem Gives.ends {c : Instr} {s : State} {ps : List Part} {u : State} (h : Gives c s ps u) {P : State → Prop} (hP : P (hold s (keeping ps s u))) :
    Ends c s P := ⟨_, h, hP⟩

-- What a raise leaves: every part of the state (R373).

section
variable (s : State) (src detail : Nat) (inj : Bool) (own : Word)

/-- A raise is held to no part of the device. -/
theorem raiseFull_keeps {β : Type} (g : State → β) (hg : ∀ u, g (keeping [] s u) = g s) : g (raiseFull s src detail inj own) = g s := hg _

@[simp] theorem raiseFull_unit : (raiseFull s src detail inj own).unit = s.unit := raiseFull_keeps _ _ _ _ _ State.unit fun _ => rfl
@[simp] theorem raiseFull_ldr : (raiseFull s src detail inj own).ldr = s.ldr := raiseFull_keeps _ _ _ _ _ State.ldr fun _ => rfl
@[simp] theorem raiseFull_store : (raiseFull s src detail inj own).store = s.store := raiseFull_keeps _ _ _ _ _ State.store fun _ => rfl
@[simp] theorem raiseFull_hbm : (raiseFull s src detail inj own).hbm = s.hbm := raiseFull_keeps _ _ _ _ _ State.hbm fun _ => rfl
@[simp] theorem raiseFull_dps : (raiseFull s src detail inj own).dps = s.dps := raiseFull_keeps _ _ _ _ _ State.dps fun _ => rfl
@[simp] theorem raiseFull_rx : (raiseFull s src detail inj own).rx = s.rx := raiseFull_keeps _ _ _ _ _ State.rx fun _ => rfl
@[simp] theorem raiseFull_trs : (raiseFull s src detail inj own).trs = s.trs := raiseFull_keeps _ _ _ _ _ State.trs fun _ => rfl
@[simp] theorem raiseFull_health : (raiseFull s src detail inj own).health = s.health := raiseFull_keeps _ _ _ _ _ State.health fun _ => rfl
@[simp] theorem raise_unit : (raise s src).unit = s.unit := raiseFull_unit _ _ _ _ _
@[simp] theorem raise_ldr : (raise s src).ldr = s.ldr := raiseFull_ldr _ _ _ _ _
@[simp] theorem raise_store : (raise s src).store = s.store := raiseFull_store _ _ _ _ _
@[simp] theorem raise_hbm : (raise s src).hbm = s.hbm := raiseFull_hbm _ _ _ _ _
@[simp] theorem raise_dps : (raise s src).dps = s.dps := raiseFull_dps _ _ _ _ _
@[simp] theorem raise_rx : (raise s src).rx = s.rx := raiseFull_rx _ _ _ _ _
@[simp] theorem raise_trs : (raise s src).trs = s.trs := raiseFull_trs _ _ _ _ _
@[simp] theorem raise_health : (raise s src).health = s.health := raiseFull_health _ _ _ _ _
@[simp] theorem raise_cfg_read (i : Nat) : (raise s src).cfg i = s.cfg i := raiseFull_keeps _ _ _ _ _ (·.cfg i) fun _ => rfl
@[simp] theorem raise_head_read (i : Nat) : (raise s src).head i = s.head i := raiseFull_keeps _ _ _ _ _ (·.head i) fun _ => rfl
@[simp] theorem raise_pll_read (i : Nat) : (raise s src).pll i = s.pll i := raiseFull_keeps _ _ _ _ _ (·.pll i) fun _ => rfl
@[simp] theorem raise_pc_read (i : Nat) : (raise s src).pc i = s.pc i := raiseFull_keeps _ _ _ _ _ (·.pc i) fun _ => rfl
@[simp] theorem raise_surface_read (i : Nat) : (raise s src).surface i = s.surface i := raiseFull_keeps _ _ _ _ _ (·.surface i) fun _ => rfl
@[simp] theorem raise_metered_read (i : Nat) : (raise s src).metered i = s.metered i := raiseFull_keeps _ _ _ _ _ (·.metered i) fun _ => rfl

end

end Sys2Proof.Machine

namespace Sys2Proof.Proofs
-- One proof at a time, so that the stacks of the evaluations do not add up.
set_option Elab.async false

open Sys2Proof.Machine Sys2Proof.Claims

/-- Settles O1: both edges of PORST_N as their meanings have them. -/
theorem porstEdges : Obligations.PorstEdges := by
  unfold Obligations.PorstEdges
  refine ⟨fun gpio b s hp => ?_, fun s => rfl⟩
  rw [exec_porstNRise, execPorstNRise, if_neg (by simp [hp])]
  rfl

/-- Settles O3. -/
theorem supplyAndClockEvents : Obligations.SupplyAndClockEvents := by
  unfold Obligations.SupplyAndClockEvents
  refine ⟨fun s hs => gives_of hs (fun _ => rfl) (by rw [supplyLost]), fun s hs hx => gives_of hs (fun _ => rfl) ?xoStops, fun s hs => gives_of hs (fun _ => rfl) (by rw [perstAssert])⟩
  case xoStops =>
    simp only [xoStop, hx, dpAllLost, Bool.false_eq_true, if_false]

end Sys2Proof.Proofs

namespace Sys2Proof.Machine
-- One proof at a time, so that the stacks of the evaluations do not add up.
set_option Elab.async false

open Sys2Proof.Claims

-- Start-up.

theorem leaveActive_ldr (s : State) (p : Nat) (st : PcState) : (leaveActive s p st).ldr = s.ldr := by
  unfold leaveActive
  dsimp only
  split_ifs <;> simp

theorem hbmTrainingEffect_ldr (s : State) (failed : List Nat) : (hbmTrainingEffect s failed).ldr = s.ldr := by
  rw [hbmTrainingEffect, State.setSurface_ldr, forEach_keeps State.ldr _ fun t p => ?_, forEach_keeps State.ldr _ fun t p => ?_]
  · rw [State.setPc_ldr]
  · rw [raise_ldr, leaveActive_ldr]

theorem passEnd_ldr (s : State) : (passEnd s).ldr = s.ldr := by
  unfold passEnd
  dsimp only
  split <;> simp [showCrc]

/-- LDR_STAT shows what the loader has become, in fields of its own. -/
theorem setLdr_ldr (s : State) (x : Ldr) : (setLdr s x).ldr = x := rfl

theorem setLdr_out (s : State) (x : Ldr) : (setLdr s x).out = s.out := rfl

theorem setLdr_mode (s : State) (x : Ldr) : bits ((setLdr s x).rd R.LDR_STAT) 11 10 = bits (s.rd R.LDR_STAT) 11 10 := by
  rw [setLdr, ldrShow, State.rd_wr_self]
  refine bits_congr fun i hlo hhi => ?_
  rw [bit_setBits _ 9 8 _ i (by decide) (by decide) (by omega), if_neg (by omega), bit_setBits _ 3 0 _ i (by decide) (by decide) (by omega),
    if_neg (by omega)]
  rfl

/-- An update command that ends leaves whether an ERASE has run. -/
theorem updEnd_ldr (s : State) (r : Nat) : (updEnd s r).ldr = { s.ldr with upd := 0, updResult := 0, dqs := 0, updPage := [] } := by
  rw [updEnd, raise_ldr, State.wr_ldr]

end Sys2Proof.Machine

namespace Sys2Proof.Proofs
-- One proof at a time, so that the stacks of the evaluations do not add up.
set_option Elab.async false

open Sys2Proof.Machine Sys2Proof.Claims

/-- Settles O2: in the state in which it acts, each command of start-up takes one branch of its meaning. -/
theorem loaderEvents : Obligations.LoaderEvents := by
  unfold Obligations.LoaderEvents
  refine ⟨fun s hs hm => ends_of hs (fun _ => rfl) ?clock, fun oct a b s hs hst hre => gives_of hs (fun _ => rfl) ?noFlash,
    fun d oct a b s hs ha hb hlo hhi hst hre hslow => gives_of hs (fun _ => rfl) ?headers,
    fun x data s hs hst hheld hx hlen htr => gives_of hs (fun _ => rfl) ?section_, fun s hs hst => gives_of hs (fun _ => rfl) ?scrub,
    fun failed s hs hm htr hheld => gives_of hs (fun _ => rfl) ?trained, fun s hs hst hheld hmode hdqs => gives_of hs (fun _ => rfl) ?retry,
    fun s hs hst hheld hmode hdqs => gives_of hs (fun _ => rfl) ?giveUp, fun s hs hst hwait hlock => gives_of hs (fun _ => rfl) ?settle_,
    fun s hs hstart hph => gives_of hs (fun _ => rfl) ?run_, fun s hs hre hscrub => ends_of hs (fun _ => rfl) ?scrubbed, fun s hs hupd => ends_of hs (fun _ => rfl) ?updated,
    fun s hs hm hst => gives_of hs (fun _ => rfl) ?pass⟩
  case clock => by_cases hb : s.ldr.bootMode = 1 <;> simp [clockReady, hm, State.when, setLdr, ldrShow, avsShow, hb]
  case noFlash => simp [headersRead, hst, hre]
  case headers =>
    have hsized : ∀ p : List Byte, p.length = 256 → sized 256 p = p := fun p hp => by rw [sized, List.take_left' hp]
    simp [headersRead, hst, hre, hslow, hsized a ha, hsized b hb, show ¬ (d < 9 ∨ 12 < d) by omega]
  case section_ => simp [sectionRead, hst, hheld, hx, hlen, htr]
  case scrub => simp [scrubDone, hst]
  case trained => simp [hbmReady, htr, hm, hbmTrainingEffect_ldr, hheld]
  case retry => simp [dqsTimeout, hst, hheld, hmode, hdqs]
  case giveUp => simp [dqsTimeout, hst, hheld, hmode, show ¬ s.ldr.dqs < 3 by omega]
  case settle_ => simp [settleEnd, hst, hwait, hlock] <;> rfl
  case run_ => simp [hstart, hph]
  case scrubbed => simp [reloadScrubbed, hre, hscrub, setLdr_ldr, setLdr_mode, setLdr_out, State.wrBits, bits_setBits]
  case updated =>
    simp [updDone, hupd, updEnd_ldr]
  case pass => simp [hm, crcPass, passEnd_ldr, hst]

end Sys2Proof.Proofs

/-!
PROOFS. The loader's own registers (02_startup_image.md, R61, R64, R65): a write that the unit meets at once, and what it then does.
-/
namespace Sys2Proof.Machine
-- One proof at a time, so that the stacks of the evaluations do not add up.
set_option Elab.async false

open Sys2Proof.Claims

-- A write as its unit meets it.

section
variable (s : State) (m : Master) (o : Nat) (v : Word)

@[simp] theorem stored_ldr : (stored s m o v).ldr = s.ldr := by simp [stored]
@[simp] theorem stored_cfg (i : Nat) : (stored s m o v).cfg i = s.cfg i := by simp [stored]
@[simp] theorem stored_sp (i : Nat) : (stored s m o v).sp i = s.sp i := by simp [stored]

theorem stored_rd_ne {i : Nat} (hi : i ≠ o) : (stored s m o v).rd i = s.rd i := by simp [stored, State.rd_wr, hi]

end

/-- A master that may write: a privileged one may write every register. -/
theorem mayWrite_of_priv {s : State} {m : Master} {o : Nat} (hp : s.priv m = true) (ho : (findRow o).isSome = true) : mayWrite s m o = true := by
  obtain ⟨r, hr⟩ := Option.isSome_iff_exists.mp ho
  simp [mayWrite, hr, hp, ownerOk]

/-- A write to a plain register that reaches the device in time enters the queue, and the mirror shows it. -/
theorem acceptWrite_plain {s : State} {m : Master} {o : Nat} (v : Word) (hwq : (s.master m).wq = []) (hreach : s.reaches m = true)
    (hearly : earlyWrite s m o = false) (hplain : plainReg o = true) (hmay : mayWrite s m o = true) :
    acceptWrite s m o v = pushWrite (s.wr o (merge (s.rd o) v (rwBits o))) m ⟨false, o, unitBits o v, s.priv m⟩ := by
  have hsingle : singleReg o = true := by
    simp only [plainReg, Bool.and_eq_true] at hplain
    exact hplain.1.1.1.1
  obtain ⟨r, hr⟩ : ∃ r, findRow o = some r := by
    cases e : findRow o with
    | none => simp [mayWrite, e] at hmay
    | some r => exact ⟨r, rfl⟩
  rw [acceptWrite_single s s m o v _ (v &&& r.wo) r hwq hreach hearly hr hsingle hmay (heldValue_plain _ _ _ _ _ hplain), held_merge r o _ v _ hr,
    ← unitBits_parts, woBits, hr]
  rfl

/-- A write to a plain register reaches its unit at once. -/
theorem writeNow_plain {s : State} {m : Master} {o : Nat} (v : Word) (hwq : (s.master m).wq = []) (hreach : s.reaches m = true)
    (hearly : earlyWrite s m o = false) (hplain : plainReg o = true) (hmay : mayWrite s m o = true) :
    writeNow s m o v = applyWrite (freeCrcs s) (stored s m o v) m ⟨false, o, unitBits o v, s.priv m⟩ := by
  have hsingle : singleReg o = true := by
    simp only [plainReg, Bool.and_eq_true] at hplain
    exact hplain.1.1.1.1
  rw [writeNow_held s m o v (v &&& woBits o) hwq hreach hearly hsingle hmay (heldValue_plain _ _ _ _ _ hplain), unitBits_parts]

-- LDR_CTRL and LDR_UPD_CMD.

theorem plainReg_ldrCtrl : plainReg R.LDR_CTRL = true := by decide +kernel
theorem plainReg_ldrUpdCmd : plainReg R.LDR_UPD_CMD = true := by decide +kernel
theorem unitBits_ldrCtrl (v : Word) : unitBits R.LDR_CTRL v = v &&& 3#32 := unitBits_eq v (by decide +kernel)
theorem unitBits_ldrUpdCmd (v : Word) : unitBits R.LDR_UPD_CMD v = v &&& 15#32 := unitBits_eq v (by decide +kernel)

theorem rwBits_ldrCtrl : rwBits R.LDR_CTRL = 0#32 := by decide +kernel
theorem rwBits_ldrUpdCmd : rwBits R.LDR_UPD_CMD = 0#32 := by decide +kernel

theorem merge_none (a b : Word) : merge a b 0#32 = a := by simp [merge, and_full]

/-- A held copy, and a loader that waits for the host, take the writes of a privileged master in time. -/
theorem earlyWrite_ldrCtrl {s : State} {m : Master} (hp : s.priv m = true) (hst : s.ldr.state = .held ∨ s.hostStates = true) :
    earlyWrite s m R.LDR_CTRL = false := by
  obtain h | h := hst <;> simp [earlyWrite, hp, h]

theorem earlyWrite_ldrUpd {s : State} {m : Master} (hp : s.priv m = true) (hst : s.released = true ∨ s.hostStates = true) :
    earlyWrite s m R.LDR_UPD_CMD = false := by
  obtain h | h := hst <;> simp [earlyWrite, hp, h]

theorem applyWrite_ldrCtrl (crcs : List Section → Bool) (s : State) (m : Master) (v : Word) (p : Bool) :
    applyWrite crcs s m ⟨false, R.LDR_CTRL, v, p⟩ = ldrCtrlEffect s v := by
  have hother : perMaster R.LDR_CTRL = false := by decide
  have hshown : showLast s ⟨false, R.LDR_CTRL, v, p⟩ = s := showLast_shown _ _ (by rw [rwBits_ldrCtrl, merge_none])
  simp only [applyWrite, hother, Bool.false_eq_true, if_false, if_true, hshown]

theorem applyWrite_ldrUpdCmd (crcs : List Section → Bool) (s : State) (m : Master) (v : Word) (p : Bool) :
    applyWrite crcs s m ⟨false, R.LDR_UPD_CMD, v, p⟩ = updCmdEffect s (bits v 3 0) crcs := by
  have hother : perMaster R.LDR_UPD_CMD = false := by decide
  have hctrl : R.LDR_UPD_CMD ≠ R.LDR_CTRL := by decide
  have hshown : showLast s ⟨false, R.LDR_UPD_CMD, v, p⟩ = s := showLast_shown _ _ (by rw [rwBits_ldrUpdCmd, merge_none])
  simp only [applyWrite, hother, hctrl, Bool.false_eq_true, if_false, if_true, hshown]

section
variable {s : State} {m : Master} (hwq : (s.master m).wq = []) (hreach : s.reaches m = true) (hp : s.priv m = true)
include hwq hreach hp

theorem writeNow_ldrCtrl (v : Word) (hst : s.ldr.state = .held ∨ s.hostStates = true) :
    writeNow s m R.LDR_CTRL v = ldrCtrlEffect (stored s m R.LDR_CTRL v) (v &&& 3#32) := by
  rw [writeNow_plain v hwq hreach (earlyWrite_ldrCtrl hp hst) plainReg_ldrCtrl (mayWrite_of_priv hp (by decide +kernel)), applyWrite_ldrCtrl,
    unitBits_ldrCtrl]

theorem writeNow_ldrUpdCmd (v : Word) (hst : s.released = true ∨ s.hostStates = true) :
    writeNow s m R.LDR_UPD_CMD v = updCmdEffect (stored s m R.LDR_UPD_CMD v) (bits (v &&& 15#32) 3 0) (freeCrcs s) := by
  rw [writeNow_plain v hwq hreach (earlyWrite_ldrUpd hp hst) plainReg_ldrUpdCmd (mayWrite_of_priv hp (by decide +kernel)), applyWrite_ldrUpdCmd,
    unitBits_ldrUpdCmd]

end

section
variable {s : State} (crcs : List Section → Bool) (hidle : s.ldr.upd = 0) (hst : s.released = true ∨ s.hostStates = true)
include hidle hst

/-- ERASE, with no command running. -/
theorem updCmdEffect_erase : updCmdEffect s 1 crcs = (updBusy s 1 0).emit (.flashErase (copyBase s (updTarget s))) := by
  rw [updCmdEffect, if_neg (by simp [hidle]), if_neg (not_not.mpr hst)]

theorem updCmdEffect_program : updCmdEffect s 2 crcs = updProgram s := by
  rw [updCmdEffect, if_neg (by simp [hidle]), if_neg (not_not.mpr hst)]

theorem updCmdEffect_finish :
    updCmdEffect s 3 crcs = if finishResult s crcs = 2 then updEnd s 2 else updBusy s 3 (finishResult s crcs) := by
  rw [updCmdEffect, if_neg (by simp [hidle]), if_neg (not_not.mpr hst)] <;> decide

end

theorem headerCode_congr {s t : State} (hvar : t.variant = s.variant) (half : Nat) (page : List Byte) : headerCode t half page = headerCode s half page := by
  unfold headerCode targetOk
  rw [hvar]

/-- What FINISH finds lies in the loader, the flash, the page buffer and the kind of the device. -/
theorem finishResult_congr {s t : State} (crcs : List Section → Bool) (hldr : t.ldr = s.ldr) (hstat : t.rd R.LDR_STAT = s.rd R.LDR_STAT)
    (hsp : ∀ k, t.sp k = s.sp k) (hvar : t.variant = s.variant) : finishResult t crcs = finishResult s crcs := by
  have hpage : flashPage t = flashPage s := by simp [flashPage, State.spw, hsp]
  unfold finishResult
  dsimp only
  rw [hpage, hldr, hstat, headerCode_congr hvar]

theorem finishResult_two {s : State} (crcs : List Section → Bool) : finishResult s crcs = 2 ↔ s.ldr.erased = false := by
  unfold finishResult
  dsimp only
  split_ifs <;> simp_all

end Sys2Proof.Machine

namespace Sys2Proof.Proofs
-- One proof at a time, so that the stacks of the evaluations do not add up.
set_option Elab.async false

open Sys2Proof.Machine Sys2Proof.Claims

/-- Settles O10: the write reaches the unit at once, and each command takes the branch of the loader's state. -/
theorem loaderWrites : Obligations.LoaderWrites := by
  unfold Obligations.LoaderWrites
  refine ⟨fun m s hs hwq hreach hp hst => gives_of hs (fun _ => rfl) ?release, fun m s hs hwq hreach hp hst => gives_of hs (fun _ => rfl) ?hostRelease,
    fun m s hs hwq hreach hp hst => gives_of hs (fun _ => rfl) ?reload, fun m s hs hwq hreach hp hst hidle => gives_of hs (fun _ => rfl) ?erase,
    fun m s hs hwq hreach hp hst hidle hpage her hin => gives_of hs (fun _ => rfl) ?program,
    fun m flash s hs hwq hreach hp hst hidle her => ends_of hs (fun _ => rfl) ?finish⟩
  case release =>
    have hnone : (stored s m R.LDR_CTRL 1#32).hostStates = false := by simp [State.hostStates, hst]
    rw [writeNow_ldrCtrl hwq hreach hp _ (.inl hst), ldrCtrlEffect, if_neg (by rw [hnone]; decide), if_pos ⟨by decide, by rw [stored_ldr, hst]⟩]
  case hostRelease =>
    have hhost : (stored s m R.LDR_CTRL 1#32).hostStates = true := by simpa [State.hostStates] using hst
    have hheld : (stored s m R.LDR_CTRL 1#32).ldr.state ≠ .held := by
      intro h
      rw [State.hostStates, h] at hhost
      cases hhost
    rw [writeNow_ldrCtrl hwq hreach hp _ (.inr hst), ldrCtrlEffect, if_neg fun h => absurd h.1 (by decide), if_neg fun h => hheld h.2, if_pos ⟨by decide, hhost⟩]
  case reload =>
    have hhost : (stored s m R.LDR_CTRL 2#32).hostStates = true := by simpa [State.hostStates] using hst
    rw [writeNow_ldrCtrl hwq hreach hp _ (.inr hst), ldrCtrlEffect, if_pos ⟨by decide, hhost⟩]
  case erase =>
    rw [writeNow_ldrUpdCmd hwq hreach hp _ hst, show bits (1#32 &&& 15#32) 3 0 = 1 by decide, updCmdEffect_erase _ (by rw [stored_ldr, hidle])
      (by simpa [State.released, State.hostStates] using hst)]
  case program =>
    have hstat : (stored s m R.LDR_UPD_CMD 2#32).rd R.LDR_STAT = s.rd R.LDR_STAT := stored_rd_ne _ _ _ _ (by decide)
    have hbuffer : flashPage (stored s m R.LDR_UPD_CMD 2#32) = flashPage s := by simp [flashPage, State.spw]
    rw [writeNow_ldrUpdCmd hwq hreach hp _ hst, show bits (2#32 &&& 15#32) 3 0 = 2 by decide, updCmdEffect_program _ (by rw [stored_ldr, hidle])
      (by simpa [State.released, State.hostStates] using hst), updProgram]
    simp only [stored_cfg, stored_ldr, hstat, hbuffer]
    rw [if_neg (by simp [hpage, her]), if_neg (Nat.not_le.mpr hin)]
  case finish =>
    rw [acceptWrite_plain 3#32 hwq hreach (earlyWrite_ldrUpd hp hst) plainReg_ldrUpdCmd (mayWrite_of_priv hp (by decide +kernel)),
      settle_push _ _ _ _ _ hwq (by rw [master_wr]), applyWrite_ldrUpdCmd]
    generalize hu : (s.wr R.LDR_UPD_CMD _).setMaster m _ = u
    have hldr : u.ldr = s.ldr := by rw [← hu, State.setMaster_ldr, State.wr_ldr]
    have hsp : ∀ k, u.sp k = s.sp k := fun k => by rw [← hu, State.setMaster_sp_other, State.wr_sp_other]
    have hresult : finishResult u (flashCrcs flash) = finishResult s (flashCrcs flash) :=
      finishResult_congr _ hldr (by rw [← hu, State.setMaster_rd_other, State.rd_wr, if_neg (by decide)]) hsp (by rw [← hu]; simp)
    have hrun : finishResult u (flashCrcs flash) ≠ 2 := by
      rw [ne_eq, finishResult_two, hldr, her]
      decide
    have hpage : flashPage u = flashPage s := by simp [flashPage, State.spw, hsp]
    have hout : u.out = s.out := by rw [← hu, State.setMaster_out, State.wr_out]
    rw [unitBits_ldrUpdCmd, show bits (3#32 &&& 15#32) 3 0 = 3 by decide, updCmdEffect_finish _ (by rw [hldr, hidle])
      (by simpa [State.released, State.hostStates, hldr] using hst), if_neg hrun, hresult]
    have hloader : Part.loader ∈ Part.device := by decide
    simp [updBusy, hpage, hout, hloader]

/-- A released device that has sent nothing and given no free value, with no update command running. -/
def freshDevice : State := { State.reset with powered := true, mgmt := true, ldr := { Ldr.init with state := .released } }

/-- How many free values a next state has given. -/
def nextFresh : Answer → Option Nat
  | .next t => some t.fresh
  | _ => none

/-- Refutes O11: a FINISH that comes out of order is a write that the fixed command carries with its flash, so it takes no free value;
the clause has it take one, as a plain write does. -/
theorem not_loaderCommandsComplete : ¬ Obligations.LoaderCommandsComplete := by
  unfold Obligations.LoaderCommandsComplete
  intro h
  obtain ⟨-, -, -, -, -, -, hfinish, -⟩ := h
  have hgives := hfinish .lmp [] freshDevice ⟨rfl, rfl⟩ rfl (by decide +kernel) (by decide +kernel) (.inl (by decide +kernel)) rfl rfl
  have hfresh := congrArg nextFresh hgives
  revert hfresh
  decide +kernel

end Sys2Proof.Proofs

/-!
PROOFS. Writes that act through a handler (R353), and the timing unit's own registers (11_timing_reference.md).
-/
namespace Sys2Proof.Machine
-- One proof at a time, so that the stacks of the evaluations do not add up.
set_option Elab.async false

open Sys2Proof.Claims

@[simp] theorem mem_device (p : Part) : p ∈ Part.device ↔ p ≠ .power := by cases p <;> decide

/-- Register `o` holds what is written, has the RW bits `rw` and the WO bits `wo`, and the `k`-th handler is its own, at index `i`. -/
def handledAs (k i o : Nat) (rw wo : Word) : Bool := handled k i o && plainReg o && decide (rwBits o = rw ∧ woBits o = wo)

theorem handledAs_iff {k i o : Nat} {rw wo : Word} :
    handledAs k i o rw wo = true ↔ handled k i o = true ∧ plainReg o = true ∧ rwBits o = rw ∧ woBits o = wo := by
  simp [handledAs, and_assoc]

theorem handled_single {k i o : Nat} (h : handled k i o = true) : singleReg o = true := by
  simp only [handled, Bool.and_eq_true] at h
  exact h.1.1.1.1

/-- The RW fields of a register in the map come into force. -/
theorem putRw_single {o : Nat} (s : State) (v : Word) (h : singleReg o = true) : putRw s o v = s.setCfg o (v &&& rwBits o) := by
  cases e : findRow o with
  | none => simp [singleReg, e] at h
  | some r => simp [putRw, rwBits, e]

theorem putRw_as {k i o : Nat} {rw wo : Word} (h : handledAs k i o rw wo = true) (s : State) (v : Word) : putRw s o v = s.setCfg o (v &&& rw) := by
  obtain ⟨hh, -, rfl, -⟩ := handledAs_iff.mp h
  exact putRw_single s v (handled_single hh)

/-- A write to such a register reaches its handler at once. -/
theorem acts_as {c : Instr} {s : State} {m : Master} {o k i : Nat} {v rw wo : Word} {ps : List Part} {act : State → Writer → Nat → Word → State} {f : State → State}
    (h : handledAs k i o rw wo = true) (hw : Writes s m) (hmay : mayWrite s m o = true) (hx : ∀ s, exec c s = runOn Part.device s (fun s => writeNow s m o v))
    (hk : ∃ b d n, handlers[k]? = some ⟨b, d, n, ps, act⟩)
    (hf : act (stored s m o v) ⟨m, s.priv m, false, []⟩ i (v &&& (rw ||| wo)) = f (stored s m o v)) : Acts c s m o v ps f := by
  obtain ⟨hh, hplain, rfl, rfl⟩ := handledAs_iff.mp h
  obtain ⟨b, d, n, hk⟩ := hk
  exact acts_of k i ⟨b, d, n, ps, act⟩ hw hmay (hx s) hplain hh hk (by rw [← unitBits_parts, and_or]; exact hf)

/-- What holds of the state that a write leaves. -/
theorem ends_of_acts {c : Instr} {s : State} {m : Master} {o : Nat} {v : Word} {ps : List Part} {f : State → State} {P : State → Prop} (h : Acts c s m o v ps f)
    (hP : P (hold s (keeping Part.device s (keeping (.force :: ps) (stored s m o v) (f (stored s m o v)))))) : Ends c s P := ⟨_, h, hP⟩

section
variable (s : State) (m : Master) (o : Nat) (v : Word)

@[simp] theorem stored_trs : (stored s m o v).trs = s.trs := by simp [stored]
@[simp] theorem stored_time : (stored s m o v).time = s.time := by simp [stored]

end

-- The timing unit's registers.

theorem handled_todHi : handledAs 27 0 R.TRS_TOD_SET_HI 0#32 (-1#32) = true := by decide +kernel
theorem handled_refCtrl : handledAs 22 0 R.TRS_REF_CTRL 0x1FF#32 0x80000000#32 = true := by decide +kernel
theorem handled_refPrio (k : Fin 3) : handledAs 23 k (R.TRS_REF_PRIOk k) (-1#32) 0#32 = true := by
  revert k
  decide +kernel
theorem handled_syncCtrl : handledAs 28 0 R.TRS_SYNC_CTRL 0xE0000FFF#32 0#32 = true := by decide +kernel

end Sys2Proof.Machine

namespace Sys2Proof.Proofs
-- One proof at a time, so that the stacks of the evaluations do not add up.
set_option Elab.async false

open Sys2Proof.Machine Sys2Proof.Claims

/-- Settles O15: each write reaches its handler, which acts on the state that the write leaves. -/
theorem timingWrites : Obligations.TimingWrites := by
  unfold Obligations.TimingWrites
  refine ⟨fun m v s hs hmay => ends_of_acts (acts_as (v := v) (f := fun u => todEffect u v) handled_todHi hs hmay (fun _ => rfl) ⟨_, _, _, rfl⟩ ?todSet) ?tod,
    fun m v s hs hmay => acts_as handled_refCtrl hs hmay (fun _ => rfl) ⟨_, _, _, rfl⟩ ?refCtrl,
    fun m k v s hs hmay => acts_as (handled_refPrio k) hs hmay ?prioRuns ⟨_, _, _, rfl⟩ ?prio,
    fun m v s hs hmay => acts_as handled_refCtrl hs hmay (fun _ => rfl) ⟨_, _, _, rfl⟩ ?stepNow,
    fun m v s hs hmay => ends_of_acts (acts_as (v := setBit v 31 true)
      (f := fun u => syncCtrlEffect (u.setCfg R.TRS_SYNC_CTRL (setBit v 31 true &&& 0xE0000FFF#32)) (setBit v 31 true &&& 0xE0000FFF#32))
      handled_syncCtrl hs hmay (fun _ => rfl) ⟨_, _, _, rfl⟩ ?sync) ?syncEnd⟩
  case todSet => simp [and_full]
  case tod => simp [todEffect]
  case refCtrl =>
    simp [putRw_as handled_refCtrl, refCtrlEffect, bit_and, bit_setBit, BitVec.and_assoc, setBit_and v 511#32 31 _ (by decide) (by decide)]
  case prioRuns =>
    fin_cases k <;> exact fun _ => rfl
  case prio => simp [putRw_as (handled_refPrio k), and_full]
  case stepNow =>
    have hnow : bit 2147484159#32 31 = true := by decide
    simp [putRw_as handled_refCtrl, refCtrlEffect, bit_and, bit_setBit, hnow, BitVec.and_assoc, setBit_and v 511#32 31 _ (by decide) (by decide)]
  case sync => simp [putRw_as handled_syncCtrl, BitVec.and_assoc]
  case syncEnd =>
    have hne : R.TRS_SYNC_STAT ≠ R.TRS_SYNC_CTRL := by decide
    have harm : bit 3758100479#32 31 = true := by decide
    simp [syncCtrlEffect, bit_and, bit_setBit, harm, stored_rd_ne _ _ _ _ hne]

end Sys2Proof.Proofs

/-!
PROOFS. Commits asked for and cancelled (08_commits_updates.md): the register SEQ_Gn_COMMIT and the COMMIT job.
-/
namespace Sys2Proof.Machine
-- One proof at a time, so that the stacks of the evaluations do not add up.
set_option Elab.async false

open Sys2Proof.Claims

@[simp] theorem stored_group (s : State) (m : Master) (o : Nat) (v : Word) (g : Nat) : (stored s m o v).group g = s.group g := by simp [stored]

theorem handled_commit (g : Fin 8) : handledAs 31 g (R.SEQ_Gn_COMMIT g) 0#32 0xFFFF0003#32 = true := by
  revert g
  decide +kernel

/-- The two fields of SEQ_Gn_COMMIT. -/
theorem bits_commitTag (tag : BitVec 16) {c : Nat} (hc : c < 4) : bits (word (tag.toNat * 65536 + c) &&& 0xFFFF0003#32) 31 16 = tag.toNat := by
  rw [bits_and_mask _ _ _ _ (by decide)]
  have htag := tag.isLt
  simp only [bits, word, BitVec.toNat_ofNat]
  omega

theorem bits_commitCmd (tag : BitVec 16) {c : Nat} (hc : c < 4) : bits (word (tag.toNat * 65536 + c) &&& 0xFFFF0003#32) 1 0 = c := by
  rw [bits_and_mask _ _ _ _ (by decide)]
  have htag := tag.isLt
  simp only [bits, word, BitVec.toNat_ofNat]
  omega

theorem commitWrite_commit (s : State) (w : Writer) (g : Nat) (tag : BitVec 16) :
    commitWrite s w g (word (tag.toNat * 65536 + 1) &&& 0xFFFF0003#32) = commitEffect s w.priv g tag.toNat := by
  simp only [commitWrite, bits_commitCmd tag (by decide : 1 < 4), bits_commitTag tag (by decide : 1 < 4)]

theorem commitWrite_cancel (s : State) (w : Writer) (g : Nat) (tag : BitVec 16) :
    commitWrite s w g (word (tag.toNat * 65536 + 2) &&& 0xFFFF0003#32) = cancelEffect s w.m w.priv g tag.toNat := by
  simp only [commitWrite, bits_commitCmd tag (by decide : 2 < 4), bits_commitTag tag (by decide : 2 < 4)]

/-- A COMMIT job that does not follow up a commit of its own begins one. -/
theorem commitJobAct_begin {s : State} {q : Nat} {j : Job} (hj : s.jobIn q Typ.COMMIT .act = some j)
    (hfirst : ∀ st, (s.group (jobGroup j)).lastJob = some (q, j.seq, st) → j.rerun = false) :
    commitJobAct s q = commitJobAct.begin_ s q j (jobGroup j) (s.group (jobGroup j)) := by
  rw [commitJobAct, hj]
  dsimp only
  split
  · next lq ls st hlast =>
    rw [if_neg]
    rintro ⟨hrerun, rfl, rfl⟩
    simp [hfirst st hlast] at hrerun
  · rfl

theorem commitJobAct_rerun {s : State} {q st : Nat} {j : Job} (hj : s.jobIn q Typ.COMMIT .act = some j) (hrerun : j.rerun = true)
    (hlast : (s.group (jobGroup j)).lastJob = some (q, j.seq, st)) :
    commitJobAct s q = if st = 0 then s.setJob q { j with phase := .commit } else completeJob s q (finalCode st) := by
  simp [commitJobAct, hj, hlast, hrerun]

end Sys2Proof.Machine

namespace Sys2Proof.Proofs
-- One proof at a time, so that the stacks of the evaluations do not add up.
set_option Elab.async false

open Sys2Proof.Machine Sys2Proof.Claims

/-- Settles O9: a write takes the branch of the slot and the tag, a job the branch of its records and of the slot. -/
theorem commitRequests : Obligations.CommitRequests := by
  unfold Obligations.CommitRequests
  refine ⟨fun m g tag s hs hmay htag hc hw => acts_as (handled_commit g) hs hmay (fun _ => rfl) ⟨_, _, _, rfl⟩ ?take,
    fun m g tag s hs hmay hno => acts_as (handled_commit g) hs hmay (fun _ => rfl) ⟨_, _, _, rfl⟩ ?reject,
    fun m g tag c s hs hmay hc htag hp => acts_as (handled_commit g) hs hmay (fun _ => rfl) ⟨_, _, _, rfl⟩ ?cancel,
    fun m g tag c s hs hmay hc htag => acts_as (handled_commit g) hs hmay (fun _ => rfl) ⟨_, _, _, rfl⟩ ?cancelReject,
    fun q j s hs hj hfirst => ⟨fun hok hc hw => gives_of hs (fun _ => rfl) ?job, fun hok hbusy => ends_of hs (fun _ => rfl) ?wait,
      fun hbad => gives_of hs (fun _ => rfl) ?bad⟩,
    fun q j st s hs hj hr hlast => ⟨fun hst => ends_of hs (fun _ => rfl) ?again, fun hst => gives_of hs (fun _ => rfl) ?final⟩,
    fun g q rest j s hs hw hc hj => gives_of hs (fun _ => rfl) ?slot⟩
  case take =>
    obtain ⟨-, hrel, -⟩ := hs
    have htag' : tag.toNat ≠ 0 := fun h => htag (BitVec.eq_of_toNat_eq h)
    rw [BitVec.zero_or, commitWrite_commit, commitEffect]
    simp [State.released, hrel, htag', hc, hw]
  case reject =>
    rw [BitVec.zero_or, commitWrite_commit, commitEffect, if_neg]
    rintro ⟨-, htag, hc, hw⟩
    rw [stored_group] at hc hw
    obtain rfl | h | h := hno
    · exact htag rfl
    · exact h (Option.isNone_iff_eq_none.mp hc)
    · exact h hw
  case cancel =>
    dsimp only
    rw [BitVec.zero_or, commitWrite_cancel, cancelEffect]
    simp only [stored_group, hc, htag, ne_eq, not_true_eq_false, if_false]
    rw [if_neg fun h => h.2 (hp h.1)]
  case cancelReject =>
    rw [BitVec.zero_or, commitWrite_cancel, cancelEffect]
    simp [hc, htag]
  case job =>
    rw [commitJobAct_begin hj hfirst]
    simp [commitJobAct.begin_, hok, hc, hw]
  case wait =>
    have hslot : ¬ ((s.group (jobGroup j)).commit.isNone = true ∧ (s.group (jobGroup j)).waiters = []) := by
      rintro ⟨hc, hw⟩
      obtain h | h := hbusy
      · exact h (Option.isNone_iff_eq_none.mp hc)
      · exact h hw
    rw [commitJobAct_begin hj hfirst, commitJobAct.begin_, if_neg (by simpa using hok), if_neg hslot]
    simp [State.setJob]
  case bad =>
    rw [commitJobAct_begin hj hfirst]
    simp [commitJobAct.begin_, hbad]
  case again =>
    rw [commitJobAct_rerun hj hr hlast, if_pos hst]
    simp [State.setJob]
  case final => rw [commitJobAct_rerun hj hr hlast, if_neg hst]
  case slot => simp [slotTaken, hw, hc, hj]

end Sys2Proof.Proofs

/-!
PROOFS. Words of the indirect spaces (R429), and the writes of the store, the coefficients, the fences and the layers' words.
-/
namespace Sys2Proof.Machine
-- One proof at a time, so that the stacks of the evaluations do not add up.
set_option Elab.async false

open Sys2Proof.Claims

-- What the write of a word does in each space that is neither decked nor read-only.

section
variable (s : State) (a : Nat) (v : Word)

theorem spaceEffect_fence : spaceEffect s Space.FENCE a v = keeping [.compose] s (if a % 2 = 0 then fenceWrite s (a / 2) v else s) := by
  unfold spaceEffect
  rfl
theorem spaceEffect_layerSrc : spaceEffect s Space.LAYER_SRC a v = keeping [] s (if a % 2 = 1 then s.setSpw Space.LAYER_SRC a 0#32 else s) := by
  unfold spaceEffect
  rfl
theorem spaceEffect_layerCnt : spaceEffect s Space.LAYER_CNT a v = keeping [] s (s.setSpw Space.LAYER_CNT a 0#32) := by
  unfold spaceEffect
  rfl
theorem spaceEffect_coef : spaceEffect s Space.COEF a v = keeping [] s (coefEffect s a v) := by
  simp +decide only [spaceEffect, spaceParts, if_true, if_false]
theorem spaceEffect_safeFrame : spaceEffect s Space.SAFE_FRAME a v = keeping [] s (safeFrameEffect s a v) := by
  unfold spaceEffect
  rfl
theorem spaceEffect_rxs : spaceEffect s Space.NMP_RXS a v = keeping [.store, .compose, .receive] s (rxConfigEffect s a v) := by
  unfold spaceEffect
  rfl
theorem spaceEffect_txs : spaceEffect s Space.NMP_TXS a v = keeping [] s (txConfigEffect s a v) := by
  unfold spaceEffect
  rfl
theorem spaceEffect_rxc : spaceEffect s Space.NMP_RXC a v = keeping [] s (nmpClearEffect s false a) := by
  unfold spaceEffect
  rfl
theorem spaceEffect_txc : spaceEffect s Space.NMP_TXC a v = keeping [] s (nmpClearEffect s true a) := by
  unfold spaceEffect
  rfl
theorem spaceEffect_fcSrc : spaceEffect s Space.FC_SRC a v = keeping [] s (fcSrcEffect s a v) := by
  unfold spaceEffect
  rfl

end

/-- What holds of the state that the write of a word leaves. -/
theorem ends_of_word {c : Instr} {s : State} {m : Master} {code a : Nat} {v : Word} {P : State → Prop} (p : SpaceRow) (h : Writes s m)
    (hw : mayWriteSpace s m code = true) (hx : ∀ s, exec c s = runOn Part.device s (fun s => wordNow s m code a v)) (hp : findSpace code = some p)
    (h1 : p.readOnly = false) (h2 : p.decked = false) (h3 : wordReserved code a = false) (h4 : a < p.words) (h5 : p.words ≤ 16777216) (h6 : code < 128)
    (hP : P (hold s (keeping Part.device s (spaceEffect (storedWord s m code a) code a v)))) : Ends c s P := by
  have hwrite := wordNow_plain s m code a v p h hp hw h1 h2 h3 h4 h5 h6
  obtain ⟨⟨hpow, hdead⟩, -⟩ := h
  exact ⟨_, by rw [hx, runOn_on hpow hdead, hwrite], hP⟩

/-- The effect of the write of a word, on the state that the write leaves. -/
theorem actsWord_as {c : Instr} {s : State} {m : Master} {code a : Nat} {v : Word} {ps : List Part} {f : State → State} (p : SpaceRow) (h : Writes s m)
    (hw : mayWriteSpace s m code = true) (hx : ∀ s, exec c s = runOn Part.device s (fun s => wordNow s m code a v)) (hp : findSpace code = some p)
    (h1 : p.readOnly = false) (h2 : p.decked = false) (h3 : wordReserved code a = false) (h4 : a < p.words) (h5 : p.words ≤ 16777216) (h6 : code < 128)
    (hf : spaceEffect (storedWord s m code a) code a v = keeping ps (storedWord s m code a) (f (storedWord s m code a))) : ActsWord c s m code a ps f := by
  have hwrite := wordNow_plain s m code a v p h hp hw h1 h2 h3 h4 h5 h6
  obtain ⟨⟨hpow, hdead⟩, -⟩ := h
  unfold ActsWord Gives
  rw [hx, runOn_on hpow hdead, hwrite, hf]

-- A write through the window changes its master only.

section
variable (s : State) (m : Master) (code a : Nat)

@[simp] theorem storedWord_sp (k : Nat) : (storedWord s m code a).sp k = s.sp k := by simp [storedWord]
@[simp] theorem storedWord_rd (o : Nat) : (storedWord s m code a).rd o = s.rd o := by simp [storedWord]
@[simp] theorem storedWord_spaces : (storedWord s m code a).spaces = s.spaces := by simp [storedWord]
@[simp] theorem storedWord_surface (h : Nat) : (storedWord s m code a).surface h = s.surface h := by simp [storedWord]
theorem bankInUse_storedWord (b : Nat) : bankInUse (storedWord s m code a) b = bankInUse s b := by cases m <;> rfl

end

theorem handled_retire : handledAs 32 0 R.SSP_RETIRE_CMD 0#32 0x8000007F#32 = true := by decide +kernel

/-- With one word set, that word reads as set, and no other word changes. -/
theorem words_of_spaces {s t : State} {k : Nat} {v : Word} (h : t.spaces = kset spaceReset s.spaces k v) :
    t.sp k = v ∧ ∀ k' : Nat, k' ≠ k → t.sp k' = s.sp k' := by
  have hsp : ∀ k', t.sp k' = (s.setSp k v).sp k' := fun k' => by rw [State.sp, h]; rfl
  exact ⟨by rw [hsp, State.sp_setSp_self], fun k' hk => by rw [hsp, State.sp_setSp, if_neg hk]⟩

theorem coefEffect_spaces {s : State} {a : Nat} (v : Word) (hfree : bankInUse s (a / 256) = false) :
    (coefEffect s a v).spaces = kset spaceReset s.spaces (skey Space.COEF a) (v &&& 0x0FFF0FFF#32) := by
  simp [coefEffect, hfree]

theorem fenceWrite_signalled (s : State) (h : Nat) : fenceWrite s h 0x80000000#32 = signalFence s h writerSoft := by
  rw [fenceWrite, if_pos (by decide)]

theorem fenceWrite_writing {s : State} {h : Nat} (hsurf : (s.surface h).isSome = true) :
    fenceWrite s h 0x40000000#32 = putFence s h (setBits (setBit (s.sp (fence0 h)) 31 false) 18 16 writerSoft) := by
  rw [fenceWrite, if_neg (by decide), if_pos (by decide), if_neg (by simpa using Option.isSome_iff_ne_none.mp hsurf)]

/-- A fence of a surface is signalled: the stamp moves on, and the words of the fence follow. -/
theorem signalFence_words {s : State} {h : Nat} (w : Nat) (hsurf : (s.surface h).isSome = true) :
    (signalFence s h w).sp (skey Space.FENCE (2 * h)) = fenceWord true false w ∧
      (signalFence s h w).sp (skey Space.FENCE (2 * h) + 1) = s.rd R.SEQ_FENCE_STAMP + 1#32 := by
  have h0 : skey Space.FENCE (2 * h) ≠ fence1 h := by simp [fence1, skey]
  have h1 : skey Space.FENCE (2 * h) + 1 = fence1 h := by simp [fence1, skey, Nat.add_assoc]
  rw [signalFence, if_neg (by simpa using Option.isSome_iff_ne_none.mp hsurf), h1]
  exact ⟨by rw [State.sp_setSp, if_neg h0, ← fence0, State.sp_setSp_self], by rw [State.sp_setSp_self]⟩

theorem signalFence_stamp {s : State} {h : Nat} (w : Nat) (hsurf : (s.surface h).isSome = true) :
    (signalFence s h w).rd R.SEQ_FENCE_STAMP = s.rd R.SEQ_FENCE_STAMP + 1#32 := by
  simp [signalFence, Option.isSome_iff_ne_none.mp hsurf]

end Sys2Proof.Machine

namespace Sys2Proof.Proofs
-- One proof at a time, so that the stacks of the evaluations do not add up.
set_option Elab.async false

open Sys2Proof.Machine Sys2Proof.Claims

/-- Settles O12: a retire command acts through its handler, the others are the writes of their words. -/
theorem compositionWrites : Obligations.CompositionWrites := by
  unfold Obligations.CompositionWrites
  refine ⟨fun m v s hs hmay => acts_as handled_retire hs hmay (fun _ => rfl) ⟨_, _, _, rfl⟩ ?retire,
    fun m addr v s hs hmay hfree => ends_of_word _ hs hmay (fun _ => rfl) rfl rfl rfl rfl addr.isLt (by decide) (by decide) ?coef,
    fun m desc w s hs hmay => ends_of_word _ hs hmay (fun _ => rfl) rfl rfl rfl rfl ?cntBound (by decide) (by decide) ?cnt,
    fun m handle s hs hmay hsurf => ends_of_word _ hs hmay (fun _ => rfl) rfl rfl rfl rfl ?fenceBound (by decide) (by decide) ?signal,
    fun m handle s hs hmay hsurf => actsWord_as _ hs hmay (fun _ => rfl) rfl rfl rfl rfl ?writingBound (by decide) (by decide) ?writing,
    fun m desc s hs hmay => ends_of_word _ hs hmay (fun _ => rfl) rfl rfl rfl rfl ?srcBound (by decide) (by decide) ?src⟩
  case retire => simp
  case coef =>
    refine words_of_spaces ?_
    rw [spaceEffect_coef]
    simp [coefEffect_spaces v ((bankInUse_storedWord s m Space.COEF addr.toNat _).trans hfree)]
  case cntBound => simp; omega
  case cnt =>
    refine words_of_spaces ?_
    rw [spaceEffect_layerCnt]
    simp
  case fenceBound | writingBound => simp; omega
  case signal =>
    have heven : 2 * handle.toNat % 2 = 0 := by omega
    have hhalf : 2 * handle.toNat / 2 = handle.toNat := by omega
    have hsurf' : ((storedWord s m Space.FENCE (2 * handle.toNat)).surface handle.toNat).isSome = true := by rw [storedWord_surface, hsurf]
    have hwords := signalFence_words writerSoft hsurf'
    rw [spaceEffect_fence, if_pos heven, hhalf, fenceWrite_signalled]
    simpa [signalFence_stamp _ hsurf'] using hwords
  case writing =>
    have heven : 2 * handle.toNat % 2 = 0 := by omega
    have hhalf : 2 * handle.toNat / 2 = handle.toNat := by omega
    rw [spaceEffect_fence, if_pos heven, hhalf, fenceWrite_writing (by rw [storedWord_surface, hsurf]), storedWord_sp, fence0]

  case srcBound => simp; omega
  case src =>
    refine words_of_spaces ?_
    rw [spaceEffect_layerSrc]
    simp

end Sys2Proof.Proofs

/-!
PROOFS. Writes to heads, DisplayPort ports and the safe state (09_outputs_writeback.md).
-/
namespace Sys2Proof.Machine
-- One proof at a time, so that the stacks of the evaluations do not add up.
set_option Elab.async false

open Sys2Proof.Claims

section
variable (s : State) (m : Master) (o : Nat) (v : Word)

@[simp] theorem stored_dp (d : Nat) : (stored s m o v).dp d = s.dp d := by simp [stored]
@[simp] theorem stored_released : (stored s m o v).released = s.released := by simp [State.released]
theorem dpEn_stored (d : Nat) : dpEn (stored s m o v) d = dpEn s d := by simp [dpEn]

end

theorem handled_headReset (h : Fin 32) : handledAs 33 h (R.OWB_Hnn_RESET h) 0#32 1#32 = true := by
  revert h
  decide +kernel
theorem handled_safeCtrl (h : Fin 32) : handledAs 34 h (R.OWB_Hnn_SAFE_CTRL h) 0xF07#32 0x1000#32 = true := by
  revert h
  decide +kernel
theorem handled_dpCtrl (d : Fin 16) : handledAs 36 d (R.OWB_Ddd_CTRL d) 0x80006DFF#32 0#32 = true := by
  revert d
  decide +kernel
theorem handled_auxCmd (d : Fin 16) : handledAs 37 d (R.OWB_Ddd_AUX_CMD d) 0#32 0xFF0FFFFF#32 = true := by
  revert d
  decide +kernel

/-- The fields of a command word of the AUX channel. -/
theorem auxWord_fields {typ : Nat} (len : Fin 16) (addr : BitVec 20) (ht : typ < 8) :
    bit (auxWord typ len addr.toNat &&& 0xFF0FFFFF#32) 31 = true ∧ bits (auxWord typ len addr.toNat &&& 0xFF0FFFFF#32) 30 28 = typ ∧
      bits (auxWord typ len addr.toNat &&& 0xFF0FFFFF#32) 27 24 = len ∧ bits (auxWord typ len addr.toNat &&& 0xFF0FFFFF#32) 19 0 = addr.toNat := by
  have haddr := addr.isLt
  have hlen := len.isLt
  have hgo : bit (0xFF0FFFFF#32) 31 = true := by decide
  rw [bits_and_mask _ _ 30 28 (by decide), bits_and_mask _ _ 27 24 (by decide), bits_and_mask _ _ 19 0 (by decide), bit_and, hgo, Bool.and_true]
  simp only [bit, bits, auxWord, word, BitVec.toNat_ofNat, Nat.testBit_eq_decide_div_mod_eq, decide_eq_true_eq]
  omega

/-- An AUX command of a port that may send one. -/
theorem auxCmdEffect_sends {s : State} {d : Nat} {typ : Nat} (len : Fin 16) (addr : BitVec 20) (ht : typ ≤ 3) (hen : dpEn s d = true)
    (hhpd : (s.dp d).hpd = true) (hfree : (s.dp d).aux = none) :
    auxCmdEffect s d (auxWord typ len addr.toNat &&& 0xFF0FFFFF#32) =
      auxSend ((s.setDp d { s.dp d with aux := some (typ, len, addr.toNat), defers := 0 }).wr (R.OWB_Ddd_AUX_STAT d) 0x80000000#32) d := by
  obtain ⟨hgo, htyp, hlen, haddr⟩ := auxWord_fields len addr (Nat.lt_of_le_of_lt ht (by decide))
  simp [auxCmdEffect, hgo, htyp, hlen, haddr, hen, hhpd, hfree, Nat.not_lt.mpr ht]

/-- SAFE_CTRL written: FORCE and the frame come into force, and RELEASE is what is written. -/
theorem safeCtrlWrite_eq (h : Fin 32) (u : State) (w : Word) :
    safeCtrlWrite u h (w &&& 0x1F07#32) = safeCtrlEffect (u.setCfg (R.OWB_Hnn_SAFE_CTRL h) (w &&& rwBits (R.OWB_Hnn_SAFE_CTRL h))) h
      (u.cfg (R.OWB_Hnn_SAFE_CTRL h)) (bit w 12) := by
  have hrw : rwBits (R.OWB_Hnn_SAFE_CTRL h) = 0xF07#32 := (handledAs_iff.mp (handled_safeCtrl h)).2.2.1
  have hrelease : bit 0x1F07#32 12 = true := by decide
  rw [safeCtrlWrite, putRw_as (handled_safeCtrl h), bit_and, hrelease, Bool.and_true, hrw, BitVec.and_assoc]
  rfl

/-- A write of SAFE_CTRL acts on what it writes. -/
theorem acts_safeCtrl {c : Instr} {s : State} {m : Master} {h : Fin 32} {w : Word} {release : Bool} (hs : Writes s m)
    (hmay : mayWrite s m (R.OWB_Hnn_SAFE_CTRL h) = true) (hx : ∀ s, exec c s = runOn Part.device s (fun s => writeNow s m (R.OWB_Hnn_SAFE_CTRL h) w))
    (hw : bit w 12 = release) : Acts c s m (R.OWB_Hnn_SAFE_CTRL h) w []
      (fun u => safeCtrlEffect (u.setCfg (R.OWB_Hnn_SAFE_CTRL h) (w &&& rwBits (R.OWB_Hnn_SAFE_CTRL h))) h (s.cfg (R.OWB_Hnn_SAFE_CTRL h)) release) :=
  acts_as (handled_safeCtrl h) hs hmay hx ⟨_, _, _, rfl⟩
    (by rw [show (0xF07#32 ||| 0x1000#32 : Word) = 0x1F07#32 by decide, safeCtrlWrite_eq, stored_cfg, hw])

theorem safeFrameEffect_held {s : State} {a : Nat} (v : Word) (hheld : safeFrameHeld s (a / 32768) ≠ []) : (safeFrameEffect s a v).spaces = s.spaces := by
  unfold safeFrameEffect
  split
  · contradiction
  · exact forEach_keeps (fun t => t.spaces) (fun s h => s.setFlag (R.OWB_Hnn_SAFE_STAT h) 29) (fun s h => by simp [State.setFlag]) _ _

theorem safeFrameEffect_word {s : State} {a : Nat} (v : Word) (hfree : safeFrameHeld s (a / 32768) = []) (ha : 64 ≤ a % 32768) :
    (safeFrameEffect s a v).spaces = kset spaceReset s.spaces (skey Space.SAFE_FRAME a) v := by
  have h16 : ¬ (16 ≤ a % 32768 ∧ a % 32768 < 48) := by omega
  have h48 : ¬ ((1 ≤ a % 32768 ∧ a % 32768 < 16) ∨ (48 ≤ a % 32768 ∧ a % 32768 < 64)) := by omega
  simp only [safeFrameEffect, hfree, if_neg h16, if_neg h48, State.setSpw_spaces]

theorem safeFrameHeld_storedWord (s : State) (m : Master) (code a f : Nat) : safeFrameHeld (storedWord s m code a) f = safeFrameHeld s f := by
  cases m <;> rfl

end Sys2Proof.Machine

namespace Sys2Proof.Proofs
-- One proof at a time, so that the stacks of the evaluations do not add up.
set_option Elab.async false

open Sys2Proof.Machine Sys2Proof.Claims

/-- Settles O13: each register acts through its handler on what is written, and a word of a frame in use stays. -/
theorem outputWrites : Obligations.OutputWrites := by
  unfold Obligations.OutputWrites
  refine ⟨fun m h s hs hmay hdark hgap => acts_as (handled_headReset h) hs hmay (fun _ => rfl) ⟨_, _, _, rfl⟩ ?reset,
    fun m d v s hs hmay => acts_as (handled_dpCtrl d) hs hmay (fun _ => rfl) ⟨_, _, _, rfl⟩ ?dp,
    fun m d len addr s hs hmay hen hhpd hfree => ?aux,
    fun m h v s hs hmay => ?safe,
    fun m addr v s hs hmay hfree ha => ends_of_word _ hs hmay (fun _ => rfl) rfl rfl rfl rfl addr.isLt (by decide) (by decide) ?frame,
    fun m addr v s hs hmay hheld => ends_of_word _ hs hmay (fun _ => rfl) rfl rfl rfl rfl addr.isLt (by decide) (by decide) ?held⟩
  case reset => simp [bit]
  case dp => simp [putRw_as (handled_dpCtrl d), BitVec.and_assoc]
  case aux =>
    have hsend (typ : Nat) (ht : typ ≤ 3) := auxCmdEffect_sends (s := stored s m (R.OWB_Ddd_AUX_CMD d) (auxWord typ len addr.toNat)) (d := d) len addr ht
      ((dpEn_stored _ _ _ _ _).trans hen) (by rw [stored_dp, hhpd]) (by rw [stored_dp, hfree])
    simp only [stored_dp] at hsend
    exact ⟨acts_as (handled_auxCmd d) hs hmay (fun _ => rfl) ⟨_, _, _, rfl⟩ (hsend 0 (by decide)),
      acts_as (handled_auxCmd d) hs hmay (fun _ => rfl) ⟨_, _, _, rfl⟩ (hsend 1 (by decide)),
      acts_as (handled_auxCmd d) hs hmay (fun _ => rfl) ⟨_, _, _, rfl⟩ (hsend 2 (by decide)),
      acts_as (handled_auxCmd d) hs hmay (fun _ => rfl) ⟨_, _, _, rfl⟩ (hsend 3 (by decide))⟩
  case safe =>
    have hforce : bit (setBit v 11 true) 12 = bit v 12 := by rw [bit_setBit _ _ _ _ (by decide) (by decide), if_neg (by decide)]
    have hrelease : bit (setBit v 12 true) 12 = true := by rw [bit_setBit _ _ _ _ (by decide) (by decide), if_pos rfl]
    have hclear : bit (setBits v 12 11 0) 12 = false := by rw [bit_setBits _ _ _ _ _ (by decide) (by decide) (by decide), if_pos (by decide)]; decide
    exact ⟨acts_safeCtrl hs hmay (fun _ => rfl) hforce, acts_safeCtrl hs hmay (fun _ => rfl) hrelease, acts_safeCtrl hs hmay (fun _ => rfl) hclear⟩
  case frame =>
    refine words_of_spaces ?_
    rw [spaceEffect_safeFrame]
    simp [safeFrameEffect_word v ((safeFrameHeld_storedWord s m _ _ _).trans hfree) ha]
  case held =>
    rw [spaceEffect_safeFrame]
    simp [safeFrameEffect_held v (fun h => hheld ((safeFrameHeld_storedWord s m _ _ _).symm.trans h))]

end Sys2Proof.Proofs

/-!
PROOFS. Writes whose acceptance fixes what they leave (R266, R317, R339, R366), and the writes to the streams and ports of the network (10_network_media.md).
-/
namespace Sys2Proof.Machine
-- One proof at a time, so that the stacks of the evaluations do not add up.
set_option Elab.async false

open Sys2Proof.Claims

/-- A register write that has been taken from the queue: the mirror shows `y`. -/
def landed (s s1 : State) (m : Master) (o : Nat) (y : Word) : State :=
  (s1.wr o y).setMaster m { s.master m with done := (s.master m).done + 1#16, ahead := (s.master m).ahead - 1 }

theorem merge_shown (y z k : Word) (h : z &&& k = 0#32) : merge y ((y &&& k) ||| z) k = y := by
  have hkeep : merge y ((y &&& k) ||| z) k = merge y y k := by
    have hmask : ((y &&& k) ||| z) &&& k = y &&& k := by
      rw [BitVec.or_comm, BitVec.and_comm _ k, BitVec.and_or_distrib_left, BitVec.and_comm k z, h, BitVec.zero_or, BitVec.and_comm k, BitVec.and_assoc,
        BitVec.and_self]
    unfold merge
    rw [hmask]
  rw [hkeep]
  unfold merge
  ext i hi
  simp
  cases k[i] <;> simp

/-- A write whose acceptance fixes the value it leaves reaches its handler at once, with that value. -/
theorem writeNow_fixed {s s1 : State} {m : Master} {o k i : Nat} {v y z : Word} (hd : Handler) (hs : Writes s m) (hmay : mayWrite s m o = true)
    (hh : handled k i o = true) (hk : handlers[k]? = some hd) (hz : z &&& rwBits o = 0#32)
    (hheld : heldValue s.bumpFresh ⟨m, s.priv m, false, []⟩ o (merge (s.rd o) v (rwBits o)) (v &&& woBits o) = (s1, some (y, z)))
    (hm1 : s1.master m = s.master m) :
    writeNow s m o v = keeping (.force :: hd.parts) (landed s s1 m o y) (hd.act (landed s s1 m o y) ⟨m, s.priv m, false, []⟩ i ((y &&& rwBits o) ||| z)) := by
  obtain ⟨-, hrel, hwq, hreach⟩ := hs
  have hsingle := handled_single hh
  obtain ⟨r, hr⟩ : ∃ r, findRow o = some r := by
    cases e : findRow o with
    | none => simp [singleReg, e] at hsingle
    | some r => exact ⟨r, rfl⟩
  have hrw : rwBits o = r.rw := by simp [rwBits, hr]
  have hshown : showLast (landed s s1 m o y) ⟨false, o, (y &&& rwBits o) ||| z, s.priv m⟩ = landed s s1 m o y := by
    refine showLast_shown _ _ ?_
    have hrd : (landed s s1 m o y).rd o = y := by simp [landed]
    simp only [hrd, merge_shown _ _ _ hz]
  have hother : perMaster o = false := by
    simp only [singleReg, Bool.and_eq_true, Bool.not_eq_true'] at hsingle
    exact hsingle.1.1.2
  obtain ⟨hctrl, hupd, -⟩ : o ≠ R.LDR_CTRL ∧ o ≠ R.LDR_UPD_CMD ∧ o ≠ R.GLB_VIEW ∧ o < R.GLB_IDX_SEL := by
    simp only [handled, Bool.and_eq_true, decide_eq_true_eq] at hh
    exact hh.1.1.1.2
  rw [writeNow_single s s1 m o v y z r hwq hreach (by simp [earlyWrite, State.released, hrel]) hr hsingle hmay (by simpa [woBits, hr] using hheld) hm1,
    ← hrw]
  simp only [applyWrite, hother, hctrl, hupd, if_false, Bool.false_eq_true]
  rw [← landed, hshown]
  exact regEffect_handled _ _ k i o _ hd hk hh

theorem ends_of_writeNow {c : Instr} {s t : State} {m : Master} {o : Nat} {v : Word} {P : State → Prop} (hs : Writes s m)
    (hx : ∀ s, exec c s = runOn Part.device s (fun s => writeNow s m o v)) (hw : writeNow s m o v = t) (hP : P (hold s (keeping Part.device s t))) :
    Ends c s P := by
  subst hw
  exact ends_of hs.1 hx hP

@[simp] theorem stored_port (s : State) (m : Master) (o : Nat) (v : Word) (p : Nat) : (stored s m o v).port p = s.port p := by simp [stored]

-- GCL_CTRL (R266).

theorem handled_gclCtrl (p : Fin 16) : handled 40 p (R.NMP_Pnn_GCL_CTRL p) = true := by
  revert p
  decide +kernel
theorem rwBits_gclCtrl (p : Fin 16) : rwBits (R.NMP_Pnn_GCL_CTRL p) = 0x800001FF#32 := by
  revert p
  decide +kernel
theorem woBits_gclCtrl (p : Fin 16) : woBits (R.NMP_Pnn_GCL_CTRL p) = 0x60000000#32 := by
  revert p
  decide +kernel
theorem handled_portReset (p : Fin 16) : handledAs 39 p (R.NMP_Pnn_RESET p) 0#32 1#32 = true := by
  revert p
  decide +kernel

theorem heldValue_gclCtrl (s : State) (w : Writer) (p : Fin 16) (v z : Word) :
    heldValue s w (R.NMP_Pnn_GCL_CTRL p) v z = gclHeld s w p true v z := by
  have hreg : ∀ p : Fin 16, regQueue (R.NMP_Pnn_GCL_CTRL p) = none ∧ ¬ (R.HWQ_QMAP0 ≤ R.NMP_Pnn_GCL_CTRL p ∧ R.NMP_Pnn_GCL_CTRL p ≤ R.HWQ_QMAP2) ∧
      R.NMP_Pnn_GCL_CTRL p ≠ R.IHM_CFGCRC_REF ∧ gclReg (R.NMP_Pnn_GCL_CTRL p) = some (p.val, true) := by decide +kernel
  obtain ⟨hq, hmap, href, hgcl⟩ := hreg p
  rw [heldValue, hq]
  dsimp only
  rw [if_neg hmap, if_neg fun h => href h.1, hgcl]

theorem bit_or (a b : Word) (i : Nat) : bit (a ||| b) i = (bit a i || bit b i) := by simp [bit, BitVec.toNat_or, Nat.testBit_or]

theorem bit_merge (old v k : Word) (i : Nat) : bit (merge old v k) i = if bit k i then bit v i else bit old i := by
  have hparts : bit (merge old v k) i = (bit old i && bit (~~~k) i || bit v i && bit k i) := by rw [merge, bit_or, bit_and, bit_and]
  rw [hparts]
  by_cases hi : i < 32
  · have hnot : bit (~~~k) i = !bit k i := by simp only [bit, BitVec.testBit_toNat, BitVec.getLsbD_not, hi, decide_true, Bool.true_and]
    rw [hnot]
    cases bit k i <;> simp
  · have hout : ∀ w : Word, bit w i = false := fun w => Nat.testBit_lt_two_pow (Nat.lt_of_lt_of_le w.isLt (Nat.pow_le_pow_right (by decide) (by omega)))
    simp [hout]

-- What GCL_CTRL does to its port, by the command it carries.

section
variable (s : State) (p : Nat) (v : Word)

@[simp] theorem gclShow_port (p' : Nat) : (gclShow s p).port p' = s.port p' := by simp [gclShow]
@[simp] theorem gclShow_cfg (o : Nat) : (gclShow s p).cfg o = s.cfg o := by simp [gclShow]

theorem gclShow_denied : bit ((gclShow s p).rd (R.NMP_Pnn_GCL_STAT p)) 28 = bit (s.rd (R.NMP_Pnn_GCL_STAT p)) 28 := by
  simp [gclShow, bit_setBits, bit_setBit]

theorem gclCtrlEffect_cfg : (gclCtrlEffect s p v).cfg (R.NMP_Pnn_GCL_CTRL p) = v &&& 0x800001FF#32 := by
  unfold gclCtrlEffect
  dsimp only
  split_ifs <;> simp

theorem gclCtrlEffect_other {p' : Nat} (hp : p' ≠ p) : (gclCtrlEffect s p v).port p' = s.port p' := by
  unfold gclCtrlEffect
  dsimp only
  split_ifs <;> simp [State.port_setPort, hp]

theorem gclCtrlEffect_denied (happly : bit v 30 = false) : bit ((gclCtrlEffect s p v).rd (R.NMP_Pnn_GCL_STAT p)) 28 = bit (s.rd (R.NMP_Pnn_GCL_STAT p)) 28 := by
  simp only [gclCtrlEffect, happly, Bool.false_eq_true, not_false_eq_true, if_true]
  split_ifs
  · rw [gclShow_denied]
    simp
  · rw [gclShow_denied]
    simp

theorem gclCtrlEffect_cancel (hcancel : bit v 29 = true) : (gclCtrlEffect s p v).port p = { s.port p with pend := none, operEn := bit v 31 } := by
  simp [gclCtrlEffect, hcancel]

theorem gclCtrlEffect_enable (hcancel : bit v 29 = false) (happly : bit v 30 = false) :
    (gclCtrlEffect s p v).port p = { s.port p with operEn := bit v 31 } := by
  simp [gclCtrlEffect, hcancel, happly]

theorem gclCtrlEffect_apply (hcancel : bit v 29 = false) (happly : bit v 30 = true) (hlen : gclLenOk (bits v 8 0) = true) :
    (gclCtrlEffect s p v).port p = { s.port p with pend := some ⟨bits v 8 0,
      hostAddr ((s.setCfg (R.NMP_Pnn_GCL_CTRL p) (v &&& 0x800001FF#32)).cfg (R.NMP_Pnn_GCL_BASE_LO p))
        ((s.setCfg (R.NMP_Pnn_GCL_CTRL p) (v &&& 0x800001FF#32)).cfg (R.NMP_Pnn_GCL_BASE_HI p)), bit v 31⟩ } := by
  simp [gclCtrlEffect, hcancel, happly, hlen]

end

-- What GCL_CTRL is accepted as, with no application pending and with one.

theorem bits_gclIdleWrite (v : Word) :
    bit (v &&& 0xC00001FF#32) 31 = bit v 31 ∧ bit (v &&& 0xC00001FF#32) 30 = bit v 30 ∧ bit (v &&& 0xC00001FF#32) 29 = false ∧
      bits (v &&& 0xC00001FF#32) 8 0 = bits v 8 0 ∧ v &&& 0xC00001FF#32 &&& 0x800001FF#32 = v &&& 0x800001FF#32 := by
  have h31 : bit 0xC00001FF#32 31 = true := by decide
  have h30 : bit 0xC00001FF#32 30 = true := by decide
  have h29 : bit 0xC00001FF#32 29 = false := by decide
  exact ⟨by rw [bit_and, h31, Bool.and_true], by rw [bit_and, h30, Bool.and_true], by rw [bit_and, h29, Bool.and_false], bits_and_mask _ _ _ _ (by decide),
    by rw [BitVec.and_assoc]; rfl⟩

/-- What a write of GCL_CTRL leaves while an application is pending: LEN as it was, and of the commands CANCEL only. -/
def gclPendingWrite (old v : Word) : Word :=
  (gclFixed old (merge old v 0x800001FF#32) &&& 0x800001FF#32) ||| (v &&& 0x20000000#32)

theorem bits_gclPendingWrite (old v : Word) :
    bit (gclPendingWrite old v) 31 = bit v 31 ∧ bit (gclPendingWrite old v) 30 = false ∧ bit (gclPendingWrite old v) 29 = bit v 29 ∧
      bits (gclPendingWrite old v &&& 0x800001FF#32) 8 0 = bits old 8 0 ∧ bit (gclPendingWrite old v &&& 0x800001FF#32) 31 = bit v 31 := by
  have hmask : ∀ i < 32, (bit 0x800001FF#32 i = (decide (i ≤ 8) || decide (i = 31))) ∧ (bit 0x20000000#32 i = decide (i = 29)) ∧
      (bit 0xA00001FF#32 i = (decide (i ≤ 8) || decide (i = 29) || decide (i = 31))) := by decide
  have hbit : ∀ i < 32, bit (gclPendingWrite old v) i = if i ≤ 8 then bit old i else if i = 29 ∨ i = 31 then bit v i else false := by
    intro i hi
    obtain ⟨h1, h2, h3⟩ := hmask i hi
    rw [gclPendingWrite, gclFixed, bit_or, bit_and, bit_and, bit_setBits _ _ _ _ _ (by decide) (by decide) hi, bit_and, bit_merge, bits_testBit, h1, h2, h3]
    by_cases hlow : i ≤ 8
    · have h29 : i ≠ 29 := by omega
      have h9 : i < 9 := by omega
      simp [hlow, h29, h9]
    · by_cases h29 : i = 29
      · simp [h29]
      · by_cases h31 : i = 31 <;> simp [hlow, h29, h31]
  have hlow : ∀ i ≤ 8, bit 0x800001FF#32 i = true := by decide
  have htop : bit 0x800001FF#32 31 = true := by decide
  refine ⟨by simp [hbit], by simp [hbit], by simp [hbit], bits_congr fun i h0 h8 => ?_, by simp [bit_and, hbit, htop]⟩
  rw [bit_and, hlow i h8, hbit i (by omega), if_pos h8, Bool.and_true]

/-- What the acceptance of such a write leaves: what it ignores is counted as denied. -/
def gclAccepted (s : State) (p : Nat) (v : Word) : State :=
  if gclIgnored (s.rd (R.NMP_Pnn_GCL_CTRL p)) (merge (s.rd (R.NMP_Pnn_GCL_CTRL p)) v 0x800001FF#32 ||| (v &&& 0x60000000#32)) then gclDeny s.bumpFresh p
  else s.bumpFresh

theorem gclAccepted_master (s : State) (p : Nat) (v : Word) (m : Master) : (gclAccepted s p v).master m = s.master m := by
  unfold gclAccepted
  split_ifs
  · rw [gclDeny, State.setFlag, master_wr, master_bumpFresh]
  · rw [master_bumpFresh]

theorem gclAccepted_port (s : State) (p : Nat) (v : Word) (p' : Nat) : (gclAccepted s p v).port p' = s.port p' := by
  unfold gclAccepted
  split_ifs <;> simp [gclDeny]

theorem gclAccepted_denied (s : State) (p : Nat) (v : Word) (happly : bit v 30 = true) : bit ((gclAccepted s p v).rd (R.NMP_Pnn_GCL_STAT p)) 28 = true := by
  have hbit : bit 0x60000000#32 30 = true := by decide
  rw [gclAccepted, if_pos (by simp [gclIgnored, bit_or, bit_and, happly, hbit])]
  simp [gclDeny, State.setFlag, bit_setBit]

section
variable {s : State} {m : Master} {p : Fin 16} (hs : Writes s m) (hmay : mayWrite s m (R.NMP_Pnn_GCL_CTRL p) = true)
include hs hmay

/-- With no application pending every field acts but CANCEL. -/
theorem writeNow_gclIdle (v : Word) (hpend : (s.port p).pend = none) :
    writeNow s m (R.NMP_Pnn_GCL_CTRL p) v = keeping [.force] (stored s m (R.NMP_Pnn_GCL_CTRL p) v)
      (gclCtrlEffect (stored s m (R.NMP_Pnn_GCL_CTRL p) v) p (v &&& 0xC00001FF#32)) := by
  obtain ⟨hruns, hrel, hwq, hreach⟩ := id hs
  have hahead : gclPendAhead s.bumpFresh ⟨m, s.priv m, false, []⟩ p = false := by simp [gclPendAhead, master_bumpFresh, hwq, hpend]
  have hcmd : v &&& 0x60000000#32 &&& ~~~0x20000000#32 = v &&& 0x40000000#32 := by rw [BitVec.and_assoc]; rfl
  have hheld : heldValue s.bumpFresh ⟨m, s.priv m, false, []⟩ (R.NMP_Pnn_GCL_CTRL p) (merge (s.rd (R.NMP_Pnn_GCL_CTRL p)) v (rwBits (R.NMP_Pnn_GCL_CTRL p)))
      (v &&& woBits (R.NMP_Pnn_GCL_CTRL p)) = (s.bumpFresh, some (merge (s.rd (R.NMP_Pnn_GCL_CTRL p)) v (rwBits (R.NMP_Pnn_GCL_CTRL p)), v &&& 0x40000000#32)) := by
    rw [heldValue_gclCtrl, gclHeld, if_neg (by rw [hahead]; decide), woBits_gclCtrl, if_pos rfl, hcmd]
  have hwrite := writeNow_fixed _ hs hmay (handled_gclCtrl p) rfl (by rw [rwBits_gclCtrl, BitVec.and_assoc]; simp) hheld (master_bumpFresh s m)
  rw [merge_and, rwBits_gclCtrl, and_or] at hwrite
  rw [stored, rwBits_gclCtrl]
  exact hwrite

/-- With one pending LEN stays as it was, and APPLY is denied. -/
theorem writeNow_gclPending (v : Word) (hpend : (s.port p).pend.isSome = true) :
    ∃ u : State, (∀ p', u.port p' = s.port p') ∧ (bit v 30 = true → bit (u.rd (R.NMP_Pnn_GCL_STAT p)) 28 = true) ∧
      writeNow s m (R.NMP_Pnn_GCL_CTRL p) v = keeping [.force] u (gclCtrlEffect u p (gclPendingWrite (s.rd (R.NMP_Pnn_GCL_CTRL p)) v)) := by
  obtain ⟨hruns, hrel, hwq, hreach⟩ := id hs
  have hahead : gclPendAhead s.bumpFresh ⟨m, s.priv m, false, []⟩ p = true := by simp [gclPendAhead, master_bumpFresh, hwq, hpend]
  have hmask : v &&& 0x60000000#32 &&& 0x20000000#32 = v &&& 0x20000000#32 := by rw [BitVec.and_assoc]; rfl
  have hheld : heldValue s.bumpFresh ⟨m, s.priv m, false, []⟩ (R.NMP_Pnn_GCL_CTRL p) (merge (s.rd (R.NMP_Pnn_GCL_CTRL p)) v (rwBits (R.NMP_Pnn_GCL_CTRL p)))
      (v &&& woBits (R.NMP_Pnn_GCL_CTRL p)) = (gclAccepted s p v, some (gclFixed (s.rd (R.NMP_Pnn_GCL_CTRL p)) (merge (s.rd (R.NMP_Pnn_GCL_CTRL p)) v 0x800001FF#32),
        v &&& 0x20000000#32)) := by
    rw [heldValue_gclCtrl, gclHeld, if_pos hahead, rwBits_gclCtrl, woBits_gclCtrl, hmask]
    rfl
  have hwrite := writeNow_fixed _ hs hmay (handled_gclCtrl p) rfl (by rw [rwBits_gclCtrl, BitVec.and_assoc]; simp) hheld (gclAccepted_master _ _ _ _)
  rw [rwBits_gclCtrl] at hwrite
  have hne : R.NMP_Pnn_GCL_STAT p ≠ R.NMP_Pnn_GCL_CTRL p := by simp [R.NMP_Pnn_GCL_STAT, R.NMP_Pnn_GCL_CTRL]
  exact ⟨_, fun p' => by simp [landed, gclAccepted_port], fun happly => by simp [landed, gclAccepted_denied _ _ _ happly, State.rd_wr, hne], hwrite⟩

end

end Sys2Proof.Machine

namespace Sys2Proof.Proofs
-- One proof at a time, so that the stacks of the evaluations do not add up.
set_option Elab.async false

open Sys2Proof.Machine Sys2Proof.Claims

/-- Settles O14: words of streams and counters act on themselves; a gate list goes by whether an application is pending. -/
theorem networkWrites : Obligations.NetworkWrites := by
  unfold Obligations.NetworkWrites
  refine ⟨fun m addr v s hs hmay => actsWord_as _ hs hmay (fun _ => rfl) rfl rfl rfl rfl addr.isLt (by decide) (by decide) (spaceEffect_rxs _ _ v),
    fun m addr v s hs hmay => actsWord_as _ hs hmay (fun _ => rfl) rfl rfl rfl rfl addr.isLt (by decide) (by decide) (spaceEffect_txs _ _ v),
    fun m addr s hs hmay hw => ends_of_word _ hs hmay (fun _ => rfl) rfl rfl rfl rfl addr.isLt (by decide) (by decide) (words_of_spaces ?rxc),
    fun m addr s hs hmay hin hw => ends_of_word _ hs hmay (fun _ => rfl) rfl rfl rfl rfl hin (by decide) (by decide) (words_of_spaces ?txc),
    fun m p v s hs hmay hidle h1 h256 => ends_of_writeNow hs (fun _ => rfl) (writeNow_gclIdle hs hmay _ hidle) ?apply,
    fun m p v s hs hmay hpend => ?cancel,
    fun m p v s hs hmay hpend => ?denied,
    fun m p v s hs hmay hidle happly => ends_of_writeNow hs (fun _ => rfl) (writeNow_gclIdle hs hmay _ hidle) ?enable,
    fun m p s hs hmay => acts_as (handled_portReset p) hs hmay (fun _ => rfl) ⟨_, _, _, rfl⟩ ?reset⟩
  case rxc =>
    rw [spaceEffect_rxc]
    simp [nmpClearEffect, hw]
  case txc =>
    rw [spaceEffect_txc]
    simp [nmpClearEffect, hw]
  case apply =>
    obtain ⟨h31, h30, h29, hlen, hcfg⟩ := bits_gclIdleWrite (setBit v 30 true)
    rw [bit_setBit _ _ _ _ (by decide) (by decide), if_neg (by decide)] at h31
    rw [bit_setBit _ _ _ _ (by decide) (by decide), if_pos rfl] at h30
    rw [bits_setBit _ _ _ _ _ (by decide) (by decide) (by decide)] at hlen
    replace hcfg := hcfg.trans (setBit_and v _ 30 true (by decide) (by decide))
    have hlo : R.NMP_Pnn_GCL_BASE_LO p ≠ R.NMP_Pnn_GCL_CTRL p := by simp [R.NMP_Pnn_GCL_BASE_LO, R.NMP_Pnn_GCL_CTRL]
    have hhi : R.NMP_Pnn_GCL_BASE_HI p ≠ R.NMP_Pnn_GCL_CTRL p := by simp [R.NMP_Pnn_GCL_BASE_HI, R.NMP_Pnn_GCL_CTRL]
    refine ⟨?_, by simp [gclCtrlEffect_cfg, hcfg], fun p' hp => by simp [gclCtrlEffect_other _ _ _ hp]⟩
    simp [gclCtrlEffect_apply _ _ _ h29 h30 (by simp [gclLenOk, hlen, h1, h256]), State.cfg_setCfg, hlo, hhi, hlen, h31]
  case cancel =>
    obtain ⟨u, hport, -, hwrite⟩ := writeNow_gclPending hs hmay (setBit v 29 true) hpend
    obtain ⟨h31, -, h29, hlen, hen⟩ := bits_gclPendingWrite (s.rd (R.NMP_Pnn_GCL_CTRL p)) (setBit v 29 true)
    rw [bit_setBit _ _ _ _ (by decide) (by decide), if_neg (by decide)] at h31 hen
    rw [bit_setBit _ _ _ _ (by decide) (by decide), if_pos rfl] at h29
    refine ends_of_writeNow hs (fun _ => rfl) hwrite ⟨by simp [gclCtrlEffect_cancel _ _ _ h29, hport, h31], ?_, ?_, fun p' hp => by
      simp [gclCtrlEffect_other _ _ _ hp, hport]⟩
    · simp [gclCtrlEffect_cfg, hlen]
    · simp [gclCtrlEffect_cfg, hen]
  case denied =>
    obtain ⟨u, hport, hdeny, hwrite⟩ := writeNow_gclPending hs hmay (setBit v 30 true) hpend
    obtain ⟨h31, h30, h29, -, -⟩ := bits_gclPendingWrite (s.rd (R.NMP_Pnn_GCL_CTRL p)) (setBit v 30 true)
    rw [bit_setBit _ _ _ _ (by decide) (by decide), if_neg (by decide)] at h31 h29
    have hflag := hdeny (by rw [bit_setBit _ _ _ _ (by decide) (by decide), if_pos rfl])
    refine ends_of_writeNow hs (fun _ => rfl) hwrite ⟨?_, by simp [gclCtrlEffect_denied _ _ _ h30, hflag], fun p' hp => by
      simp [gclCtrlEffect_other _ _ _ hp, hport]⟩
    cases hcancel : bit v 29 with
    | true => simp [gclCtrlEffect_cancel _ _ _ (h29.trans hcancel), hport, h31]
    | false => simp [gclCtrlEffect_enable _ _ _ (h29.trans hcancel) h30, hport, h31]
  case enable =>
    obtain ⟨h31, h30, h29, -, hcfg⟩ := bits_gclIdleWrite (setBit v 29 true)
    rw [bit_setBit _ _ _ _ (by decide) (by decide), if_neg (by decide)] at h31 h30
    replace hcfg := hcfg.trans (setBit_and v _ 29 true (by decide) (by decide))
    exact ⟨by simp [gclCtrlEffect_enable _ _ _ h29 (h30.trans happly), h31], by simp [gclCtrlEffect_cfg, hcfg], fun p' hp => by
      simp [gclCtrlEffect_other _ _ _ hp]⟩
  case reset => simp [bit]

end Sys2Proof.Proofs

/-!
PROOFS. Doorbells, producer indexes, resets of functions, and the settings of queues and event rings (12_work_queues.md).
-/
namespace Sys2Proof.Machine
-- One proof at a time, so that the stacks of the evaluations do not add up.
set_option Elab.async false

open Sys2Proof.Claims

@[simp] theorem stored_queue (s : State) (m : Master) (o : Nat) (v : Word) (q : Nat) : (stored s m o v).queue q = s.queue q := by simp [stored]
@[simp] theorem stored_func (s : State) (m : Master) (o : Nat) (v : Word) (k : Nat) : (stored s m o v).func k = s.func k := by simp [stored, State.func]

theorem handled_doorbell (q : Fin 64) : handled 5 q (R.HWQ_Qnn_DB q) = true := by
  revert q
  decide +kernel
theorem handled_prod (q : Fin 16) : handled 4 q (R.HWQ_Qnn_PROD q) = true := by
  revert q
  decide +kernel
theorem handled_queueCfg (q : Fin 64) : handled 3 q (R.HWQ_Qnn_CFG q) = true := by
  revert q
  decide +kernel
theorem rwBits_prod (q : Fin 16) : rwBits (R.HWQ_Qnn_PROD q) = 0xFFFFFFFF#32 ∧ woBits (R.HWQ_Qnn_PROD q) = 0#32 := by
  revert q
  decide +kernel
theorem rwBits_queueCfg (q : Fin 64) : rwBits (R.HWQ_Qnn_CFG q) = 0x80FF001F#32 ∧ woBits (R.HWQ_Qnn_CFG q) = 0#32 := by
  revert q
  decide +kernel
theorem handled_funcReset : handledAs 0 0 R.GLB_FUNC_RESET 0#32 7#32 = true := by decide +kernel
theorem handled_evrCfg (k : Fin 2) : handledAs 1 k (R.HWQ_Fk_EVR_CFG k) 0x80FFFF1F#32 0#32 = true := by
  revert k
  decide +kernel
theorem handled_evrCons (k : Fin 2) : handledAs 2 k (R.HWQ_Fk_EVR_CONS k) 0xFFFFFFFF#32 0#32 = true := by
  revert k
  decide +kernel

/-- A write to a register that holds what is written reaches its handler at once. -/
theorem acts_kept {c : Instr} {s : State} {m : Master} {o k i : Nat} {v : Word} {ps : List Part} {act : State → Writer → Nat → Word → State} {f : State → State}
    (hh : handled k i o = true) (hs : Writes s m) (hmay : mayWrite s m o = true) (hx : ∀ s, exec c s = runOn Part.device s (fun s => writeNow s m o v))
    (hk : ∃ b d n, handlers[k]? = some ⟨b, d, n, ps, act⟩) (hheld : ∀ (t : State) (w : Writer) (y z : Word), heldValue t w o y z = (t, some (y, z)))
    (hf : act (stored s m o v) ⟨m, s.priv m, false, []⟩ i (unitBits o v) = f (stored s m o v)) : Acts c s m o v ps f := by
  obtain ⟨b, d, n, hk⟩ := hk
  refine acts_held (z := v &&& woBits o) k i ⟨b, d, n, ps, act⟩ hs hmay (hx s) hh (hheld _ _ _ _) hk ?_ (by rw [unitBits_parts]; exact hf)
  simp only [handled, Bool.and_eq_true, beq_iff_eq] at hh
  rw [BitVec.and_assoc, hh.2, BitVec.and_zero]

-- What the registers of a queue hold of a write.

section
variable (s : State) (w : Writer) (v z : Word)

theorem heldValue_doorbell (q : Fin 64) : heldValue s w (R.HWQ_Qnn_DB q) v z = (s, some (v, z)) := by
  have hreg : ∀ q : Fin 64, regQueue (R.HWQ_Qnn_DB q) = some q.val ∧ queueHeld (R.HWQ_Qnn_DB q) = none ∧ R.HWQ_Qnn_DB q ≠ R.HWQ_Qnn_PROD q ∧
      R.HWQ_Qnn_DB q ≠ R.HWQ_Qnn_BASE_LO q ∧ R.HWQ_Qnn_DB q ≠ R.HWQ_Qnn_CFG q := by decide +kernel
  obtain ⟨hq, hheld, hprod, hbase, hcfg⟩ := hreg q
  simp [heldValue, hq, hheld, hprod, hbase, hcfg]

theorem heldValue_prod (q : Fin 16) : heldValue s w (R.HWQ_Qnn_PROD q) v z = (s, some (v, z)) := by
  have hreg : ∀ q : Fin 16, regQueue (R.HWQ_Qnn_PROD q) = some q.val ∧ queueHeld (R.HWQ_Qnn_PROD q) = none ∧ boardQueue q = true ∧
      R.HWQ_Qnn_PROD q ≠ R.HWQ_Qnn_BASE_LO q ∧ R.HWQ_Qnn_PROD q ≠ R.HWQ_Qnn_CFG q := by decide +kernel
  obtain ⟨hq, hheld, hboard, hbase, hcfg⟩ := hreg q
  simp [heldValue, hq, hheld, hboard, hbase, hcfg]

theorem heldValue_queueCfg (q : Fin 64) :
    heldValue s w (R.HWQ_Qnn_CFG q) v z = ((queueCfgValue s q v).2, some ((queueCfgValue s q v).1, z)) := by
  have hreg : ∀ q : Fin 64, regQueue (R.HWQ_Qnn_CFG q) = some q.val ∧ queueHeld (R.HWQ_Qnn_CFG q) = none ∧ R.HWQ_Qnn_CFG q ≠ R.HWQ_Qnn_PROD q ∧
      R.HWQ_Qnn_CFG q ≠ R.HWQ_Qnn_BASE_LO q := by decide +kernel
  obtain ⟨hq, hheld, hprod, hbase⟩ := hreg q
  simp [heldValue, hq, hheld, hprod, hbase]

end

/-- A queue that is off takes a setting that it may have, and stays off with one it may not have. -/
theorem queueCfgValue_ok {s : State} {q : Nat} {v : Word} (hoff : bit (s.rd (R.HWQ_Qnn_CFG q)) 31 = false) (hok : enableOk s q v = true) :
    queueCfgValue s q v = (v, s) := by
  simp [queueCfgValue, hoff, hok]

theorem queueCfgValue_bad {s : State} {q : Nat} {v : Word} (hoff : bit (s.rd (R.HWQ_Qnn_CFG q)) 31 = false) (hen : bit v 31 = true)
    (hbad : enableOk s q v = false) : queueCfgValue s q v = (setBit v 31 false, s.setFlag (R.HWQ_Qnn_STAT q) 1) := by
  simp [queueCfgValue, hoff, hen, hbad]

theorem writeNow_queueCfg {s s1 : State} {m : Master} {q : Fin 64} {v x : Word} (hs : Writes s m) (hmay : mayWrite s m (R.HWQ_Qnn_CFG q) = true)
    (hv : queueCfgValue s.bumpFresh q (merge (s.rd (R.HWQ_Qnn_CFG q)) v 0x80FF001F#32) = (x, s1)) (hm1 : s1.master m = s.master m) :
    writeNow s m (R.HWQ_Qnn_CFG q) v = keeping [.force, .queues] (landed s s1 m (R.HWQ_Qnn_CFG q) x)
      (queueCfgEffect ((landed s s1 m (R.HWQ_Qnn_CFG q) x).setCfg (R.HWQ_Qnn_CFG q) (x &&& 0x80FF001F#32)) (s1.cfg (R.HWQ_Qnn_CFG q)) q) := by
  obtain ⟨hrw, hwo⟩ := rwBits_queueCfg q
  have hcfg : (landed s s1 m (R.HWQ_Qnn_CFG q) x).cfg (R.HWQ_Qnn_CFG q) = s1.cfg (R.HWQ_Qnn_CFG q) := by simp [landed]
  have hwrite := writeNow_fixed (v := v) (y := x) (z := 0#32) _ hs hmay (handled_queueCfg q) rfl (BitVec.zero_and)
    ((heldValue_queueCfg _ _ _ _ q).trans (by rw [hrw, hwo, hv, BitVec.and_zero])) hm1
  simp only [putRw_single _ _ (handled_single (handled_queueCfg q)), hrw, BitVec.or_zero, BitVec.and_assoc, BitVec.and_self, hcfg] at hwrite
  exact hwrite

theorem ringDoorbell_on {s : State} {q : Nat} (hen : bit (s.cfg (R.HWQ_Qnn_CFG q)) 31 = true) (hrun : (s.queue q).stopping = false) :
    ringDoorbell s q = pollQueue (s.setQueue q { s.queue q with bell := true }) q := by
  simp [ringDoorbell, hen, hrun]

end Sys2Proof.Machine

namespace Sys2Proof.Proofs
-- One proof at a time, so that the stacks of the evaluations do not add up.
set_option Elab.async false

open Sys2Proof.Machine Sys2Proof.Claims

/-- Settles O16: each register acts through its handler; a queue's setting is judged as it is accepted. -/
theorem queueWrites : Obligations.QueueWrites := by
  unfold Obligations.QueueWrites
  refine ⟨fun m q s hs hmay hen hrun => acts_kept (handled_doorbell q) hs hmay (fun _ => rfl) ⟨_, _, _, rfl⟩ (fun t w y z => heldValue_doorbell t w y z q) ?bell,
    fun m q v s hs hmay hen hrun => acts_kept (handled_prod q) hs hmay (fun _ => rfl) ⟨_, _, _, rfl⟩ (fun t w y z => heldValue_prod t w y z q) ?prod,
    fun m s hs hmay => ⟨acts_as handled_funcReset hs hmay (fun _ => rfl) ⟨_, _, _, rfl⟩ ?board, acts_as handled_funcReset hs hmay (fun _ => rfl) ⟨_, _, _, rfl⟩ ?pf0,
      acts_as handled_funcReset hs hmay (fun _ => rfl) ⟨_, _, _, rfl⟩ ?pf1⟩,
    fun m q v s hs hmay hoff hcfg hen hok => ?enable,
    fun m q v s hs hmay hoff hen hbad => ?refuse,
    fun m k v s hs hmay => ends_of_acts (acts_as (v := setBit v 31 true) (f := fun u => evrCfgEffect (u.setCfg (R.HWQ_Fk_EVR_CFG k) (setBit v 31 true &&& 0x80FFFF1F#32)) k
      (setBit v 31 true &&& 0x80FFFF1F#32)) (handled_evrCfg k) hs hmay (fun _ => rfl) ⟨_, _, _, rfl⟩ ?evr) ?evrEnd,
    fun m k v s hs hmay => acts_as (handled_evrCons k) hs hmay (fun _ => rfl) ⟨_, _, _, rfl⟩ ?cons⟩
  case bell => rw [ringDoorbell_on (by rw [stored_cfg, hen]) (by rw [stored_queue, hrun]), stored_queue]
  case prod =>
    obtain ⟨hrw, hwo⟩ := rwBits_prod q
    have hall : unitBits (R.HWQ_Qnn_PROD q) v = v := by rw [← unitBits_parts, hrw, hwo, and_full, BitVec.and_zero, BitVec.or_zero]
    have hne : R.HWQ_Qnn_CFG q ≠ R.HWQ_Qnn_PROD q := by simp [R.HWQ_Qnn_CFG, R.HWQ_Qnn_PROD]
    rw [hall, putRw_single _ _ (handled_single (handled_prod q)), hrw, and_full, ringDoorbell_on (by simp [State.cfg_setCfg, hne, hen]) (by simp [hrun])]
    simp
  case board | pf0 | pf1 => rfl
  case enable =>
    have hne : R.HWQ_Qnn_CONS q ≠ R.HWQ_Qnn_CFG q := by simp [R.HWQ_Qnn_CFG, R.HWQ_Qnn_CONS]
    have h31 : bit 0x80FF001F#32 31 = true := by decide
    have hon : bit (merge (s.rd (R.HWQ_Qnn_CFG q)) v 0x80FF001F#32 &&& 0x80FF001F#32) 31 = true := by rw [merge_and, bit_and, hen, h31]; rfl
    refine ends_of_writeNow hs (fun _ => rfl) (writeNow_queueCfg hs hmay (queueCfgValue_ok hoff hok) (master_bumpFresh s m)) ?_
    rw [queueCfgEffect, if_pos (by simp [hon, hcfg])]
    refine ⟨by simp [landed, State.rd_wr, hne], by simp [merge_and], fun q' hq => by simp [landed, State.queue_setQueue, hq]⟩
  case refuse =>
    have hne : R.HWQ_Qnn_STAT q ≠ R.HWQ_Qnn_CFG q := by simp [R.HWQ_Qnn_CFG, R.HWQ_Qnn_STAT]
    have h31 : bit 0x80FF001F#32 31 = true := by decide
    have hon : bit (merge (s.rd (R.HWQ_Qnn_CFG q)) v 0x80FF001F#32) 31 = true := by rw [bit_merge, h31, if_pos rfl, hen]
    have hoff' : bit (setBit (merge (s.rd (R.HWQ_Qnn_CFG q)) v 0x80FF001F#32) 31 false) 31 = false := by
      rw [bit_setBit _ _ _ _ (by decide) (by decide), if_pos rfl]
    refine ends_of_writeNow hs (fun _ => rfl) (writeNow_queueCfg hs hmay (queueCfgValue_bad hoff hon hbad) (by
      rw [State.setFlag, master_wr, master_bumpFresh])) ?_
    rw [queueCfgEffect, if_neg (by simp [bit_and, hoff'])]
    simp [landed, State.rd_wr, hne, hoff', bit_and, State.setFlag]
  case evr => simp [putRw_as (handled_evrCfg k), BitVec.and_assoc]
  case evrEnd =>
    have h31 : bit (setBit v 31 true &&& 0x80FFFF1F#32) 31 = true := by
      rw [bit_and, bit_setBit _ _ _ _ (by decide) (by decide), if_pos rfl]
      decide
    simp [evrCfgEffect, h31, State.func_setFunc]
  case cons => simp [putRw_as (handled_evrCons k), and_full]

end Sys2Proof.Proofs

/-!
PROOFS. Writes to the collector, the configuration check, the injector, the host CRC units, and the carry and reset commands (13_register_access.md,
14_integrity_safety.md, 15_health_spares_power.md).
-/
namespace Sys2Proof.Machine
-- One proof at a time, so that the stacks of the evaluations do not add up.
set_option Elab.async false

open Sys2Proof.Claims

@[simp] theorem stored_col (s : State) (m : Master) (o : Nat) (v : Word) : (stored s m o v).col = s.col := by simp [stored]
@[simp] theorem stored_metered (s : State) (m : Master) (o : Nat) (v : Word) (u : Nat) : (stored s m o v).metered u = s.metered u := by simp [stored]
@[simp] theorem stored_health (s : State) (m : Master) (o : Nat) (v : Word) : (stored s m o v).health = s.health := by simp [stored]

/-- A register with no RW bit shows the same after a write. -/
theorem stored_rd_none {o : Nat} (hrw : rwBits o = 0#32) (s : State) (m : Master) (v : Word) (i : Nat) : (stored s m o v).rd i = s.rd i := by
  by_cases h : i = o
  · rw [h, rd_stored, hrw, merge_none]
  · exact stored_rd_ne s m o v h

/-- Whether a unit may be carried lies in the health unit and in the map of the scalers. -/
theorem carryable_congr {s t : State} (h : t.health = s.health) (hrd : ∀ i, t.rd i = s.rd i) (u : Nat) : carryable t u = carryable s u := by
  have hlogical : logicalOf t = logicalOf s := by
    funext v
    simp only [logicalOf, tileUnit, scalerUnit, physScaler, hrd, h]
  have hfree : freeSpare t = freeSpare s := by
    funext v
    simp only [freeSpare, State.metered, hlogical, h]
    rfl
  have hspare : chooseSpare t u = chooseSpare s u := by simp only [chooseSpare, freeSpares, State.metered, hfree, h]
  simp only [carryable, hspare, hlogical, inService, underCarry, carriedNow, State.metered, State.carry, State.waitingCarries, h]
  rfl

theorem carriedNow_stored (s : State) (m : Master) (o : Nat) (v : Word) (u : Nat) : carriedNow (stored s m o v) u = carriedNow s u := by cases m <;> rfl

theorem handled_crcCtrl : handledAs 11 0 R.IHM_CFGCRC_CTRL 1#32 0#32 = true := by decide +kernel
theorem handled_crcRef : handled 12 0 R.IHM_CFGCRC_REF = true := by decide +kernel
theorem masks_crcRef : rwBits R.IHM_CFGCRC_REF = 0xFFFFFFFF#32 ∧ woBits R.IHM_CFGCRC_REF = 0#32 := by decide +kernel
theorem handled_phase : handledAs 6 0 R.IHM_PHASE 0#32 3#32 = true := by decide +kernel
theorem handled_fcClear : handledAs 7 0 R.IHM_FC_CLEAR 0#32 0xE00001FF#32 = true := by decide +kernel
theorem handled_hist (q : Fin 4) : handledAs 9 q (R.IHM_HISTq_CTRL q) 0#32 1#32 = true := by
  revert q
  decide +kernel
theorem handled_inj : handledAs 10 0 R.IHM_INJ 0xFF0FFFF#32 0xC0000000#32 = true := by decide +kernel
theorem handled_crcu (u : Fin 4) : handledAs 13 u (R.IHM_CRCUu_CTRL u) 0#32 0x80000033#32 = true := by
  revert u
  decide +kernel
theorem handled_data8 (u : Fin 4) : handledAs 17 u (R.IHM_CRCUu_DATA8 u) 0#32 0xFF#32 = true := by
  revert u
  decide +kernel
theorem handled_data16 (u : Fin 4) : handledAs 18 u (R.IHM_CRCUu_DATA16 u) 0#32 0xFFFF#32 = true := by
  revert u
  decide +kernel
theorem handled_data32 (u : Fin 4) : handledAs 19 u (R.IHM_CRCUu_DATA32 u) 0#32 0xFFFFFFFF#32 = true := by
  revert u
  decide +kernel
theorem handled_carryCmd : handledAs 20 0 R.IHM_CARRY_CMD 0#32 0x870001FF#32 = true := by decide +kernel
theorem handled_unitCmd : handledAs 21 0 R.IHM_UNIT_CMD 0#32 0xF70001FF#32 = true := by decide +kernel

/-- The reference of the configuration check takes no write while the check is armed (R366). -/
theorem heldValue_crcRef (s : State) (w : Writer) (v z : Word) :
    heldValue s w R.IHM_CFGCRC_REF v z = if armAhead s w then (s.setFlag R.IHM_CFGCRC_STAT 26, none) else (s, some (v, z)) := by
  have hreg : regQueue R.IHM_CFGCRC_REF = none ∧ ¬ (R.HWQ_QMAP0 ≤ R.IHM_CFGCRC_REF ∧ R.IHM_CFGCRC_REF ≤ R.HWQ_QMAP2) ∧ gclReg R.IHM_CFGCRC_REF = none := by
    decide +kernel
  obtain ⟨hq, hmap, hgcl⟩ := hreg
  rw [heldValue, hq]
  dsimp only
  rw [if_neg hmap, hgcl]
  by_cases h : armAhead s w = true
  · rw [if_pos ⟨rfl, h⟩, if_pos h]
  · rw [if_neg fun e => h e.2, if_neg h]

/-- What the check of a write to a single register answers to a master that may write it. -/
theorem regVerdict_single {s : State} {m : Master} {o : Nat} (v : Word) {r : RegRow} (hr : findRow o = some r) (hsingle : singleReg o = true)
    (hmay : mayWrite s m o = true) : regVerdict s ⟨m, s.priv m, false, []⟩ r o v = .store (merge (s.rd o) v (rwBits o)) := by
  have hrw : rwBits o = r.rw := by simp [rwBits, hr]
  simp only [singleReg, hr, Bool.and_eq_true, Bool.not_eq_true', decide_eq_true_eq, Option.isNone_iff_eq_none] at hsingle
  obtain ⟨⟨⟨⟨hbits, hdeck⟩, -⟩, hwm⟩, hheads⟩ := hsingle
  simp only [mayWrite, hr, Bool.and_eq_true, Bool.or_eq_true, Bool.not_eq_true'] at hmay
  obtain ⟨howner, hpriv⟩ := hmay
  have hopen : ¬ (s.priv m = false ∧ privOnly s r o = true) := by
    rintro ⟨h1, h2⟩
    simp [h1, h2] at hpriv
  simp [regVerdict, howner, hbits, hopen, hwm, deckGroups, hdeck, committing, hheads, hrw]

/-- A write that its acceptance drops leaves what the acceptance leaves. -/
theorem writeNow_dropped {s s1 : State} {m : Master} {o : Nat} {v : Word} (hs : Writes s m) (hmay : mayWrite s m o = true) (hsingle : singleReg o = true)
    (hheld : heldValue s.bumpFresh ⟨m, s.priv m, false, []⟩ o (merge (s.rd o) v (rwBits o)) (v &&& woBits o) = (s1, none))
    (hm1 : s1.master m = s.master m) : writeNow s m o v = s1 := by
  obtain ⟨-, hrel, hwq, hreach⟩ := hs
  obtain ⟨r, hr⟩ : ∃ r, findRow o = some r := by
    cases e : findRow o with
    | none => simp [singleReg, e] at hsingle
    | some r => exact ⟨r, rfl⟩
  have hdrop : acceptWrite s.bumpFresh m o v = s1 := by
    have hheld' : heldValue s.bumpFresh ⟨m, s.bumpFresh.priv m, false, []⟩ o (merge (s.rd o) v (rwBits o)) (v &&& r.wo) = (s1, none) := by
      rw [← hheld, woBits, hr]
      rfl
    have hreach' : s.bumpFresh.reaches m = true := by cases m <;> exact hreach
    have hearly : earlyWrite s.bumpFresh m o = false := by simp [earlyWrite, State.released, hrel]
    have hwq' : (s.bumpFresh.master m).wq = [] := by rw [master_bumpFresh, hwq]
    have hmay' : mayWrite s.bumpFresh m o = true := hmay
    have hother : perMaster o = false := by
      simp only [singleReg, Bool.and_eq_true, Bool.not_eq_true'] at hsingle
      exact hsingle.1.1.2
    simp [acceptWrite, hreach', hwq', queueDepth, hearly, hr, hother, writerOf_idle _ _ hwq', acceptReg, regVerdict_single v hr hsingle hmay', hheld']
  rw [writeNow, hdrop, settle, if_neg (by rw [hm1, master_bumpFresh]; exact lt_irrefl _)]

/-- A field apart from a replaced field stays. -/
theorem bits_setBits_apart (v : Word) {hi lo h l : Nat} (n : Nat) (hle : l ≤ h) (hh : h < 32) (hapart : hi < l) : bits (setBits v h l n) hi lo = bits v hi lo :=
  bits_congr fun j _ hj => by rw [bit_setBits v h l n j hle hh (by omega), if_neg (by omega)]

theorem rewritten_spaces (s : State) (ws : List Nat) : (rewritten s ws).spaces = s.spaces := by
  unfold rewritten
  split_ifs <;> rfl

theorem disarm_inj (s : State) : (disarm s).col.inj = none := by
  unfold disarm
  split
  · next h => exact h
  · simp

theorem crcCtrlEffect_arm {s : State} {v : Word} (hv : bit v 0 = true) (harm : s.col.armed = false) :
    (crcCtrlEffect s v).col = { s.col with armed := true, comparing := false, passArmed := false } := by
  simp [crcCtrlEffect, hv, harm, showCrc]

theorem crcCtrlEffect_disarm {s : State} {v : Word} (hv : bit v 0 = false) :
    (crcCtrlEffect s v).col = { s.col with armed := false, comparing := false, passArmed := false } := by
  simp [crcCtrlEffect, hv, showCrc]

/-- GO arms the injection that the command names. -/
theorem injEffect_go {s : State} {v : Word} (hcancel : bit v 30 = false) (hgo : bit v 31 = true) (h1 : 1 ≤ bits v 27 24) (h8 : bits v 27 24 ≤ 8) :
    (injEffect s v).col.inj = some ⟨bits v 27 24, injUnit (bits v 27 24) (bits v 15 0), max 1 (bits v 23 20)⟩ := by
  simp [injEffect, hcancel, hgo, h1, h8]

theorem injEffect_cancel {s : State} {v : Word} (hcancel : bit v 30 = true) : (injEffect s v).col.inj = none := by
  rw [injEffect, if_pos hcancel, disarm_inj]

/-- What a clear command clears: one source, every source but 308, or the collector's own. -/
theorem fcClearEffect_source (s : State) (src : BitVec 9) (hin : src.toNat < 320) (hself : src.toNat ≠ 308) :
    fcClearEffect s (word (536870912 + src.toNat) &&& 0xE00001FF#32) = updateForce (clearOne s src.toNat) 0x1FF := by
  have hsrc := src.isLt
  have hfield : bits (word (536870912 + src.toNat) &&& 0xE00001FF#32) 8 0 = src.toNat := by
    rw [bits_and_mask _ _ _ _ (by decide)]
    simp only [bits, word, BitVec.toNat_ofNat]
    omega
  have htop : bits (word (536870912 + src.toNat) &&& 0xE00001FF#32) 31 29 = 1 := by
    rw [bits_and_mask _ _ _ _ (by decide)]
    simp only [bits, word, BitVec.toNat_ofNat]
    omega
  have hcmd : ∀ i < 3, bit (word (536870912 + src.toNat) &&& 0xE00001FF#32) (29 + i) = decide (i = 0) := by
    intro i hi
    have h := bits_testBit (word (536870912 + src.toNat) &&& 0xE00001FF#32) 31 29 i
    rw [htop] at h
    simp only [show i < 31 + 1 - 29 by omega, decide_true, Bool.true_and] at h
    rw [← h]
    interval_cases i <;> rfl
  have h29 := hcmd 0 (by decide)
  have h30 := hcmd 1 (by decide)
  have h31 := hcmd 2 (by decide)
  simp only [Nat.add_zero, Nat.reduceAdd] at h29 h30 h31
  simp [fcClearEffect, hfield, h29, h30, h31, hin, hself]

theorem fcClearEffect_all (s : State) :
    fcClearEffect s 0x80000000#32 = updateForce (forEach ((List.range 320).filter (· ≠ 308)) s clearOne) 0x1FF := by
  have hcmd : bit 0x80000000#32 31 = true ∧ bit 0x80000000#32 30 = false ∧ bit 0x80000000#32 29 = false := by decide
  obtain ⟨h31, h30, h29⟩ := hcmd
  simp [fcClearEffect, h31, h30, h29]

theorem fcClearEffect_self (s : State) : fcClearEffect s 0x40000000#32 = updateForce { s with col := { s.col with selfWait := 2 } } 0x1FF := by
  have hcmd : bit 0x40000000#32 31 = false ∧ bit 0x40000000#32 30 = true ∧ bit 0x40000000#32 29 = false := by decide
  obtain ⟨h31, h30, h29⟩ := hcmd
  simp [fcClearEffect, clearSelf, h31, h30, h29]

theorem commandUnit_congr {v w : Word} (hclass : bits w 26 24 = bits v 26 24) (hunit : bits w 8 0 = bits v 8 0) : commandUnit w = commandUnit v := by
  simp only [commandUnit, hclass, hunit]

end Sys2Proof.Machine

namespace Sys2Proof.Proofs
-- One proof at a time, so that the stacks of the evaluations do not add up.
set_option Elab.async false

open Sys2Proof.Machine Sys2Proof.Claims

/-- Settles O17: each register acts through its handler on the fields its masks let through. -/
theorem integrityWrites : Obligations.IntegrityWrites := by
  unfold Obligations.IntegrityWrites
  refine ⟨fun m s hs hmay harm => ends_of_acts (acts_as (v := 1#32) (f := fun u => crcCtrlEffect (u.setCfg R.IHM_CFGCRC_CTRL 1#32) 1#32)
      handled_crcCtrl hs hmay (fun _ => rfl) ⟨_, _, _, rfl⟩ ?arm) ?armEnd,
    fun m s hs hmay => ends_of_acts (acts_as (v := 0#32) (f := fun u => crcCtrlEffect (u.setCfg R.IHM_CFGCRC_CTRL 0#32) 0#32)
      handled_crcCtrl hs hmay (fun _ => rfl) ⟨_, _, _, rfl⟩ ?disarm) ?disarmEnd,
    fun m v s hs hmay harm => ?ref,
    fun m v s hs hmay harm => ?refDenied,
    fun m v s hs hmay => acts_as handled_phase hs hmay (fun _ => rfl) ⟨_, _, _, rfl⟩ ?phase,
    fun m src v s hs hmay hsrc => ends_of_word _ hs hmay (fun _ => rfl) rfl rfl rfl rfl src.isLt (by decide) (by decide) (words_of_spaces ?fcSrc),
    fun m src s hs hmay hin hsrc => acts_as handled_fcClear hs hmay (fun _ => rfl) ⟨_, _, _, rfl⟩ ?clear,
    fun m s hs hmay => acts_as handled_fcClear hs hmay (fun _ => rfl) ⟨_, _, _, rfl⟩ ?clearAll,
    fun m s hs hmay => acts_as handled_fcClear hs hmay (fun _ => rfl) ⟨_, _, _, rfl⟩ ?clearSelf,
    fun m q s hs hmay => ends_of_acts (acts_as (v := 1#32) (f := fun u => histCtrlEffect u q 1#32) (handled_hist q) hs hmay (fun _ => rfl) ⟨_, _, _, rfl⟩ ?hist) ?histEnd,
    fun m v s hs hmay h1 h8 => ends_of_acts (acts_as (v := setBits v 31 30 2) (f := fun u => injEffect (u.setCfg R.IHM_INJ (setBits v 31 30 2 &&& 0xFF0FFFF#32))
      (setBits v 31 30 2 &&& 0xCFF0FFFF#32)) handled_inj hs hmay (fun _ => rfl) ⟨_, _, _, rfl⟩ ?inj) ?injEnd,
    fun m v s hs hmay => ends_of_acts (acts_as (v := setBit v 30 true) (f := fun u => injEffect (u.setCfg R.IHM_INJ (setBit v 30 true &&& 0xFF0FFFF#32))
      (setBit v 30 true &&& 0xCFF0FFFF#32)) handled_inj hs hmay (fun _ => rfl) ⟨_, _, _, rfl⟩ ?injCancel) ?injCancelEnd,
    fun m u v s hs hmay => acts_as (handled_crcu u) hs hmay (fun _ => rfl) ⟨_, _, _, rfl⟩ ?load,
    fun m u v s hs => ⟨fun hmay => acts_as (handled_data8 u) hs hmay (fun _ => rfl) ⟨_, _, _, rfl⟩ ?data8,
      fun hmay => acts_as (handled_data16 u) hs hmay (fun _ => rfl) ⟨_, _, _, rfl⟩ ?data16,
      fun hmay => acts_as (handled_data32 u) hs hmay (fun _ => rfl) ⟨_, _, _, rfl⟩ ?data32⟩,
    fun m v x s hs hmay hunit hok => acts_as handled_carryCmd hs hmay (fun _ => rfl) ⟨_, _, _, rfl⟩ ?carry,
    fun m v x s hs hmay hunit heff hcarried => acts_as handled_unitCmd hs hmay (fun _ => rfl) ⟨_, _, _, rfl⟩ ?unit⟩
  case arm | disarm => simp [putRw_as handled_crcCtrl]
  case armEnd => simp [crcCtrlEffect_arm, bit, harm]
  case disarmEnd => simp [crcCtrlEffect_disarm, bit]
  case ref =>
    obtain ⟨hrw, hwo⟩ := masks_crcRef
    have hidle : armAhead s.bumpFresh ⟨m, s.priv m, false, []⟩ = false := by simp [armAhead, master_bumpFresh, hs.2.2.1, harm]
    have hwrite := writeNow_fixed (v := v) (y := v) (z := 0#32) _ hs hmay handled_crcRef rfl (BitVec.zero_and)
      ((heldValue_crcRef _ _ _ _).trans (by rw [hidle, hrw, hwo, BitVec.and_zero]; simp [merge, and_full])) (master_bumpFresh s m)
    refine ends_of_writeNow hs (fun _ => rfl) hwrite ?_
    simp [crcRefEffect, landed, hrw, and_full, harm]
  case refDenied =>
    have harmed : armAhead s.bumpFresh ⟨m, s.priv m, false, []⟩ = true := by simp [armAhead, master_bumpFresh, hs.2.2.1, harm]
    have hwrite := writeNow_dropped (v := v) hs hmay (handled_single handled_crcRef) ((heldValue_crcRef _ _ _ _).trans (by rw [harmed, if_pos rfl]))
      (by rw [State.setFlag, master_wr, master_bumpFresh])
    have hne : R.IHM_CFGCRC_REF ≠ R.IHM_CFGCRC_STAT := by decide
    refine ends_of_writeNow hs (fun _ => rfl) hwrite ?_
    simp [State.setFlag, State.rd_wr, hne]
  case phase =>
    have hbits : bits (v &&& 3#32) 1 0 = bits v 1 0 := bits_and_mask _ _ _ _ (by decide)
    simp [hbits]
  case fcSrc =>
    rw [spaceEffect_fcSrc]
    simp [fcSrcEffect, hsrc, rewritten_spaces]
  case clear => simpa using fcClearEffect_source _ src hin hsrc
  case clearAll => exact fcClearEffect_all _
  case clearSelf => simpa using fcClearEffect_self (stored s m R.IHM_FC_CLEAR 0x40000000#32)
  case hist => simp
  case histEnd =>
    have hne : R.IHM_HISTq_STAT q ≠ R.IHM_HISTq_CTRL q := by simp [R.IHM_HISTq_STAT, R.IHM_HISTq_CTRL]
    simp [histCtrlEffect, bit, State.wrBits, stored_rd_ne _ _ _ _ hne]
  case inj | injCancel => simp [putRw_as handled_inj, BitVec.and_assoc]
  case injEnd =>
    have hmask : bit 0xCFF0FFFF#32 30 = true ∧ bit 0xCFF0FFFF#32 31 = true := by decide
    have h30 : bit (setBits v 31 30 2 &&& 0xCFF0FFFF#32) 30 = false := by
      rw [bit_and, hmask.1, bit_setBits _ _ _ _ _ (by decide) (by decide) (by decide)]
      rfl
    have h31 : bit (setBits v 31 30 2 &&& 0xCFF0FFFF#32) 31 = true := by
      rw [bit_and, hmask.2, bit_setBits _ _ _ _ _ (by decide) (by decide) (by decide)]
      rfl
    have htarget : bits (setBits v 31 30 2 &&& 0xCFF0FFFF#32) 27 24 = bits v 27 24 := by
      rw [bits_and_mask _ _ _ _ (by decide), bits_setBits_apart _ _ (by decide) (by decide) (by decide)]
    have hunit : bits (setBits v 31 30 2 &&& 0xCFF0FFFF#32) 15 0 = bits v 15 0 := by
      rw [bits_and_mask _ _ _ _ (by decide), bits_setBits_apart _ _ (by decide) (by decide) (by decide)]
    have hcount : bits (setBits v 31 30 2 &&& 0xCFF0FFFF#32) 23 20 = bits v 23 20 := by
      rw [bits_and_mask _ _ _ _ (by decide), bits_setBits_apart _ _ (by decide) (by decide) (by decide)]
    simp [injEffect_go h30 h31 (htarget ▸ h1) (htarget ▸ h8), htarget, hunit, hcount]
  case injCancelEnd =>
    have h30 : bit (setBit v 30 true &&& 0xCFF0FFFF#32) 30 = true := by
      rw [bit_and, bit_setBit _ _ _ _ (by decide) (by decide), if_pos rfl]
      decide
    simp [injEffect_cancel h30]
  case load => simp
  case data8 | data16 => simp
  case data32 => simp [and_full]
  case carry =>
    have hgo : bit (setBit v 31 true &&& 0x870001FF#32) 31 = true := by
      rw [bit_and, bit_setBit _ _ _ _ (by decide) (by decide), if_pos rfl]
      decide
    have hcmd : commandUnit (setBit v 31 true &&& 0x870001FF#32) = some x := by
      rw [← hunit]
      refine commandUnit_congr ?_ ?_
      · rw [bits_and_mask _ _ _ _ (by decide), bits_setBit _ _ _ _ _ (by decide) (by decide) (by decide)]
      · rw [bits_and_mask _ _ _ _ (by decide), bits_setBit _ _ _ _ _ (by decide) (by decide) (by decide)]
    have hrw : rwBits R.IHM_CARRY_CMD = 0#32 := (handledAs_iff.mp handled_carryCmd).2.2.1
    have hok' := (carryable_congr (stored_health s m R.IHM_CARRY_CMD (setBit v 31 true)) (stored_rd_none hrw s m _) x).trans hok
    simp [carryCmdEffect, hgo, hcmd, hok']
  case unit =>
    have hgo : bit (setBits v 31 28 9 &&& 0xF70001FF#32) 31 = true := by
      rw [bit_and, bit_setBits _ _ _ _ _ (by decide) (by decide) (by decide), if_pos (by decide)]
      decide
    have hkind : bits (setBits v 31 28 9 &&& 0xF70001FF#32) 30 28 = bits 0x90000000#32 30 28 := by
      rw [bits_and_mask _ _ _ _ (by decide)]
      refine bits_congr fun i h28 h30 => ?_
      rw [bit_setBits _ _ _ _ _ (by decide) (by decide) (by omega), if_pos (by omega)]
      interval_cases i <;> rfl
    have hcmd : commandUnit (setBits v 31 28 9 &&& 0xF70001FF#32) = some x := by
      rw [← hunit]
      refine commandUnit_congr ?_ ?_
      · rw [bits_and_mask _ _ _ _ (by decide), bits_setBits_apart _ _ (by decide) (by decide) (by decide)]
      · rw [bits_and_mask _ _ _ _ (by decide), bits_setBits_apart _ _ (by decide) (by decide) (by decide)]
    have hone : bits 0x90000000#32 30 28 = 1 := by decide
    have hcarried' := (carriedNow_stored s m R.IHM_UNIT_CMD (setBits v 31 28 9) x).trans hcarried
    have heff' : ¬ [0, 6, 7].contains ((stored s m R.IHM_UNIT_CMD (setBits v 31 28 9)).metered x).eff = true := by rw [stored_metered, heff]; decide
    rw [BitVec.zero_or, unitCmdEffect, hcmd]
    dsimp only
    rw [if_neg]
    rintro (h | h | h | h)
    · exact h hgo
    · exact h (hkind.trans hone)
    · exact heff' h
    · rw [hcarried'] at h
      cases h

end Sys2Proof.Proofs

/-!
PROOFS. Reads from the mirror and the acceptance of writes (13_register_access.md, The mirror and the write path).
-/
namespace Sys2Proof.Machine
-- One proof at a time, so that the stacks of the evaluations do not add up.
set_option Elab.async false

open Sys2Proof.Claims

theorem wordOffset_aligned {off : BitVec 24} (h : off.toNat % 4 = 0) : wordOffset off = off.toNat := by
  unfold wordOffset
  omega

theorem earlyWrite_released {s : State} (h : s.ldr.state = .released) (m : Master) (o : Nat) : earlyWrite s m o = false := by
  simp [earlyWrite, State.released, h]

-- What becomes of a write that is judged.

section
variable {s : State} {m : Master} {o : Nat} {v : Word} {r : RegRow} (hreach : s.reaches m = true) (hroom : (s.master m).wq.length < 64)
  (hearly : earlyWrite s m o = false) (hr : findRow o = some r)
include hreach hroom hearly hr

theorem acceptWrite_judged (hother : perMaster o = false) :
    acceptWrite s m o v = match acceptReg s (writerOf s m) r o v with
      | (s1, some x) => pushWrite s1 m ⟨false, o, x, s.priv m⟩
      | (s1, none) => s1 := by
  rw [acceptWrite, if_neg (by simp [hreach]), if_neg (by simp [queueDepth, hroom]), if_neg (by simp [hearly]), hr]
  simp only [hother, Bool.false_eq_true, if_false]
  rfl

theorem acceptWrite_taken (hother : perMaster o = false) {s1 : State} {x : Word} (h : acceptReg s (writerOf s m) r o v = (s1, some x)) :
    acceptWrite s m o v = pushWrite s1 m ⟨false, o, x, s.priv m⟩ := by
  rw [acceptWrite_judged hreach hroom hearly hr hother, h]

theorem acceptWrite_refused (hother : perMaster o = false) {s1 : State} (h : acceptReg s (writerOf s m) r o v = (s1, none)) :
    acceptWrite s m o v = s1 := by
  rw [acceptWrite_judged hreach hroom hearly hr hother, h]

theorem acceptWrite_window (hown : perMaster o = true) : acceptWrite s m o v = masterWrite s m o v := by
  rw [acceptWrite, if_neg (by simp [hreach]), if_neg (by simp [queueDepth, hroom]), if_neg (by simp [hearly]), hr]
  simp only [hown, if_true]

end

/-- A write to a register with no rule of a deck, a queue or a mask is held as written, whatever waits before it. -/
theorem acceptReg_plain {s : State} {m : Master} {o : Nat} (v : Word) {r : RegRow} (hr : findRow o = some r) (hplain : plainReg o = true)
    (hmay : mayWrite s m o = true) : acceptReg s (writerOf s m) r o v = (s.wr o (merge (s.rd o) v (rwBits o)), some (unitBits o v)) := by
  have hsingle : singleReg o = true := by
    simp only [plainReg, Bool.and_eq_true] at hplain
    exact hplain.1.1.1.1
  have hverdict : regVerdict s (writerOf s m) r o v = .store (merge (s.rd o) v (rwBits o)) := by
    have h := regVerdict_single v hr hsingle hmay
    have hdeck : deckGroups s r o = [] := by
      simp only [singleReg, hr, Bool.and_eq_true, Bool.not_eq_true', decide_eq_true_eq] at hsingle
      simp [deckGroups, hsingle.1.1.1.2]
    rw [← h]
    simp only [regVerdict, hdeck, committing, List.find?_nil]
    rfl
  have hrw : rwBits o = r.rw := by simp [rwBits, hr]
  simp only [acceptReg, hverdict, heldValue_plain _ _ _ _ _ hplain]
  rw [hrw, merge_and, and_or, unitBits, hr]

theorem acceptWrite_free {s : State} {m : Master} {o : Nat} (v : Word) (hreach : s.reaches m = true) (hroom : (s.master m).wq.length < 64)
    (hearly : earlyWrite s m o = false) (hplain : plainReg o = true) (hmay : mayWrite s m o = true) :
    acceptWrite s m o v = pushWrite (s.wr o (merge (s.rd o) v (rwBits o))) m ⟨false, o, unitBits o v, s.priv m⟩ := by
  obtain ⟨r, hr⟩ : ∃ r, findRow o = some r := by
    cases e : findRow o with
    | none => simp [mayWrite, e] at hmay
    | some r => exact ⟨r, rfl⟩
  have hother : perMaster o = false := by
    simp only [plainReg, singleReg, Bool.and_eq_true, Bool.not_eq_true'] at hplain
    exact hplain.1.1.1.1.1.1.2
  exact acceptWrite_taken hreach hroom hearly hr hother (acceptReg_plain v hr hplain hmay)

-- What a queued write leaves of the state.

section
variable (s : State) (m : Master) (w : QWrite)

@[simp] theorem pushWrite_rd (o : Nat) : (pushWrite s m w).rd o = s.rd o := by simp [pushWrite]
@[simp] theorem pushWrite_regs : (pushWrite s m w).regs = s.regs := by simp [pushWrite]
@[simp] theorem pushWrite_unit : (pushWrite s m w).unit = s.unit := by simp [pushWrite]
@[simp] theorem pushWrite_out : (pushWrite s m w).out = s.out := by simp [pushWrite]
@[simp] theorem pushWrite_spaces : (pushWrite s m w).spaces = s.spaces := by simp [pushWrite]
@[simp] theorem pushWrite_live : (pushWrite s m w).live = s.live := by simp [pushWrite]
theorem pushWrite_master : (pushWrite s m w).master m = { s.master m with wq := (s.master m).wq ++ [w] } := by rw [pushWrite, State.master_setMaster_self]

end

-- Reads.

/-- What a master reads does not lie in the count of free values. -/
theorem readWord_bumpFresh (s : State) (m : Master) (r : RegRow) (o : Nat) : readWord_ s.bumpFresh m r o = readWord_ s m r o := by
  cases m <;> rfl

theorem readReg_sound {s : State} {m : Master} {o : Nat} {r : RegRow} (hmgmt : s.mgmt = true) (hreach : s.reaches m = true) (hinj : s.col.inj = none)
    (hr : findRow o = some r) (hdata : o ≠ R.GLB_IDX_DATA) :
    readReg s m o .good = (readEffect s.bumpFresh m r o (readWord_ s m r o)).emit (.read m (readWord_ s m r o)) := by
  rw [readReg_good hmgmt hreach hinj hr hdata, readWord_bumpFresh]

section
variable {s : State} {m : Master} {r : RegRow} {o : Nat} (v : Word) (htime : o ≠ R.TRS_TIME_LO)
include htime

/-- A read clears the RC bits that it returned, for a privileged master. -/
theorem readEffect_clears (hp : s.priv m = true) (hrc : r.rc ≠ 0#32) : readEffect s m r o v = s.wr o (s.rd o &&& ~~~(r.rc &&& v)) := by
  simp [readEffect, htime, hp, hrc]

theorem readEffect_keeps (h : s.priv m = false ∨ r.rc = 0#32) : readEffect s m r o v = s := by
  obtain h | h := h <;> simp [readEffect, htime, h]

theorem readEffect_out : (readEffect s m r o v).out = s.out ∧ (readEffect s m r o v).spaces = s.spaces := by
  simp only [readEffect, htime, if_false]
  split_ifs <;> exact ⟨rfl, rfl⟩

end

theorem priv_bumpFresh (s : State) (m : Master) : s.bumpFresh.priv m = s.priv m := by cases m <;> rfl

/-- What a read of a sound word leaves. -/
theorem readReg_ends {s : State} {m : Master} {o : Nat} {r : RegRow} (hmgmt : s.mgmt = true) (hreach : s.reaches m = true) (hinj : s.col.inj = none)
    (hr : findRow o = some r) (hdata : o ≠ R.GLB_IDX_DATA) (htime : o ≠ R.TRS_TIME_LO) :
    (readReg s m o .good).out = .read m (readWord_ s m r o) :: s.out ∧
      (s.priv m = true → r.rc ≠ 0#32 → (readReg s m o .good).rd o = s.rd o &&& ~~~(r.rc &&& readWord_ s m r o)) ∧
      ((s.priv m = false ∨ r.rc = 0#32) → (readReg s m o .good).regs = s.regs) ∧ (readReg s m o .good).spaces = s.spaces := by
  obtain ⟨hout, hspaces⟩ := readEffect_out (s := s.bumpFresh) (m := m) (r := r) (readWord_ s m r o) htime
  rw [readReg_sound hmgmt hreach hinj hr hdata]
  refine ⟨by simp [hout], fun hp hrc => ?_, fun h => ?_, by simp [hspaces]⟩
  · rw [readEffect_clears _ htime ((priv_bumpFresh s m).trans hp) hrc]
    simp
  · rw [readEffect_keeps _ htime (by rwa [priv_bumpFresh])]
    simp

/-- A read of more words than two is unsupported, whatever its first word answers. -/
theorem readRegs_many {s : State} {m : Master} {o n : Nat} {ecc : Ecc} (hmgmt : s.mgmt = true) (hreach : s.reaches m = true) (hn : 2 < n) :
    readRegs s m o n ecc = (logRequest s m).emit (.unsupported m) := by
  have h1 : ¬ n ≤ 1 := by omega
  have h2 : n ≠ 2 := by omega
  simp [readRegs, hreach, hmgmt, h1, h2]

theorem exec_rcRegisterRead_one (m : Master) {off : BitVec 24} (ecc : Ecc) (s : State) (hal : off.toNat % 4 = 0) :
    exec (.rcRegisterRead m off 1 ecc) s = runMirror s (fun s => keeping [.masters] s (readReg s m off.toNat ecc)) := by
  have h (s : State) : readRegs s m (wordOffset off) (if m = .lmp then 1 else 1) ecc = readReg s m off.toNat ecc := by
    simp [readRegs, wordOffset_aligned hal]
  show runMirror s (fun s => keeping [.masters] s (readRegs s m (wordOffset off) (if m = .lmp then 1 else 1) ecc)) = _
  simp only [h]

theorem exec_registerWrite_whole (m : Master) {off : BitVec 24} (v : Word) (s : State) (hal : off.toNat % 4 = 0) :
    exec (.registerWrite m off 15#4 v) s = runOn [.masters] s (fun s => acceptWrite s m off.toNat v) := by
  show runOn [.masters] s (fun s => if s.mgmt ∧ s.reaches m ∧ 15#4 ≠ 15#4 ∧ ¬ earlyWrite s m (wordOffset off) then
    (if m = .lmp then lmpError s 1 (wordOffset off) else raise s 288) else acceptWrite s m (wordOffset off) v) = _
  simp [wordOffset_aligned hal]

theorem exec_lmpWriteCycle_whole (a : BitVec 22) (v : Word) (s : State) :
    exec (.lmpWriteCycle a 15#4 v false) s = runOn [.masters] s (fun s => acceptWrite s .lmp (4 * a.toNat) v) := by
  show runOn [.masters] s (fun s => if s.mgmt ∧ false then lmpError s 2 (4 * a.toNat)
    else if s.mgmt ∧ 15#4 ≠ 15#4 ∧ ¬ earlyWrite s .lmp (4 * a.toNat) then lmpError s 1 (4 * a.toNat) else acceptWrite s .lmp (4 * a.toNat) v) = _
  simp

theorem exec_lmpReadCycle (a : BitVec 22) (wrLow : Bool) (ecc : Ecc) (s : State) : exec (.lmpReadCycle a wrLow ecc) s =
    runMirror s (fun s => keeping [.masters] s (if ¬ s.mgmt then s else if wrLow then lmpError s 2 (4 * a.toNat) else readReg s .lmp (4 * a.toNat) ecc)) := rfl

/-- The row of GLB_FLAGSn. -/
def flagsRow : RegRow := ⟨R.GLB_FLAGSn 0, 0x4, 4, 0x0, 1, 0xFFFF#32, 0x0#32, 0x0#32, .open_, 0x0#32, .none_⟩

theorem findRow_flags (k : Fin 4) : findRow (R.GLB_FLAGSn k) = some flagsRow := by
  revert k
  decide +kernel

/-- GLB_FLAGSn: the upper half of what is written selects the bits of the lower half (R356). -/
theorem acceptReg_flags (s : State) (m : Master) (k : Fin 4) (v : Word) : ∃ x, acceptReg s (writerOf s m) flagsRow (R.GLB_FLAGSn k) v =
    (s.wr (R.GLB_FLAGSn k) (merge (s.rd (R.GLB_FLAGSn k)) v (word (bits v 31 16))), some x) := by
  have hreg : ∀ k : Fin 4, regQueue (R.GLB_FLAGSn k) = none ∧ regFunc (R.GLB_FLAGSn k) = none ∧
      ¬ (R.HWQ_QMAP0 ≤ R.GLB_FLAGSn k ∧ R.GLB_FLAGSn k ≤ R.HWQ_QMAP2) ∧ R.GLB_FLAGSn k ≠ R.IHM_CFGCRC_REF ∧ gclReg (R.GLB_FLAGSn k) = none ∧
      isWm (R.GLB_FLAGSn k) = true ∧ ((List.range 8).find? (fun g => R.GLB_FLAGSn k = R.SEQ_Gn_HEADS g)) = none := by decide +kernel
  obtain ⟨hqueue, hfunc, hmap, href, hgcl, hwm, hheads⟩ := hreg k
  have hverdict : regVerdict s (writerOf s m) flagsRow (R.GLB_FLAGSn k) v = .store (merge (s.rd (R.GLB_FLAGSn k)) v (word (bits v 31 16))) := by
    simp [regVerdict, ownerOk, hqueue, hfunc, privOnly, flagsRow, deckGroups, committing, hheads, hwm]
  have hheld : ∀ x z, heldValue s (writerOf s m) (R.GLB_FLAGSn k) x z = (s, some (x, z)) := fun x z => by
    rw [heldValue, hqueue]
    dsimp only
    rw [if_neg hmap, if_neg fun h => href h.1, hgcl]
  simp [acceptReg, hverdict, hheld]

theorem reaches_of_memory {s : State} {k : Fin 2} (h : (s.func k).cfg.memory = true) : s.reaches (if k = 0 then .pf0 else .pf1) = true := by
  fin_cases k <;> exact h

theorem logRequest_func (s : State) (k : Fin 2) : logRequest s (if k = 0 then .pf0 else .pf1) =
    raise (s.setFunc k { s.func k with cfg := { (s.func k).cfg with aer := setBit (s.func k).cfg.aer 20 true } }) 288 := by
  fin_cases k <;> rfl

theorem bit_word_bits (v : Word) {i : Nat} (hi : i < 32) : bit (word (bits v 31 16)) i = (decide (i < 16) && bit v (16 + i)) := by
  rw [bit, word, BitVec.toNat_ofNat, Nat.testBit_mod_two_pow, bits_testBit]
  simp [hi]

end Sys2Proof.Machine

namespace Sys2Proof.Proofs
-- One proof at a time, so that the stacks of the evaluations do not add up.
set_option Elab.async false

open Sys2Proof.Machine Sys2Proof.Claims

/-- Settles O25: a read answers what the mirror shows; a write that is taken enters its master's queue, from which it takes effect. -/
theorem registerAccess : Obligations.RegisterAccess := by
  unfold Obligations.RegisterAccess
  refine ⟨fun m off r s hp hmgmt hreach hinj hal hr hdata htime => ?read, fun a r s hp hmgmt hinj hr hdata htime => ?lmpRead,
    fun k off dws s hp hmgmt hmem hdws => ?many,
    fun m off v s hs hrel hreach hal hroom hplain hmay => ends_of (f := fun s => acceptWrite s m off.toNat v) (ps := [.masters]) hs ?writeRuns ?write,
    fun a v s hs hrel hroom hplain hmay => ends_of (f := fun s => acceptWrite s .lmp (4 * a.toNat) v) (ps := [.masters]) hs ?lmpRuns ?lmpWrite,
    fun m k v s hs hrel hreach hroom => ends_of hs (fun _ => rfl) ?flags,
    fun m w rest s hs hwq => gives_of hs (fun _ => rfl) ?effect⟩
  case read =>
    obtain ⟨hout, hclear, hkeep, hspaces⟩ := readReg_ends hmgmt hreach hinj hr hdata htime
    refine ⟨_, (exec_rcRegisterRead_one m .good s hal).trans (runMirror_on hp), by simp [hout], fun hpriv hrc => by simp [hclear hpriv hrc],
      fun h => by simp [hkeep h], by simp, by simp [hspaces]⟩
  case lmpRead =>
    obtain ⟨hout, hclear, hkeep, -⟩ := readReg_ends (m := .lmp) hmgmt rfl hinj hr hdata htime
    refine ⟨_, (exec_lmpReadCycle a false .good s).trans (runMirror_on hp), ?_⟩
    simp only [hmgmt, not_true_eq_false, Bool.false_eq_true, if_false]
    exact ⟨by simp [hout], fun hrc => by simp [hclear rfl hrc], fun hrc => by simp [hkeep (.inr hrc)], by simp⟩
  case many =>
    have hone : (if k = 0 then Master.pf0 else .pf1) ≠ .lmp := by split_ifs <;> decide
    have hexec : exec (.rcRegisterRead (if k = 0 then .pf0 else .pf1) off dws .good) s =
        runMirror s (fun s => keeping [.masters] s (readRegs s (if k = 0 then .pf0 else .pf1) (wordOffset off)
          (if (if k = 0 then Master.pf0 else .pf1) = .lmp then 1 else dws) .good)) := rfl
    rw [Gives, hexec, runMirror_on hp]
    simp only [hone, if_false]
    rw [readRegs_many hmgmt (reaches_of_memory hmem) hdws, logRequest_func]
  case writeRuns => exact fun s => exec_registerWrite_whole m v s hal
  case write =>
    rw [acceptWrite_free v hreach hroom (earlyWrite_released hrel _ _) hplain hmay]
    simp +contextual [pushWrite_master, master_wr, State.rd_wr]
  case lmpRuns => exact exec_lmpWriteCycle_whole a v
  case lmpWrite =>
    rw [acceptWrite_free v rfl hroom (earlyWrite_released hrel _ _) hplain hmay]
    simp +contextual [pushWrite_master, master_wr, State.rd_wr, State.priv]
  case flags =>
    obtain ⟨x, hreg⟩ := acceptReg_flags s m k v
    have hother : perMaster (R.GLB_FLAGSn k) = false := (by decide : ∀ k : Fin 4, perMaster (R.GLB_FLAGSn k) = false) k
    rw [acceptWrite_taken hreach hroom (earlyWrite_released hrel _ _) (findRow_flags k) hother hreg]
    refine ⟨fun i hi => ?_, fun i h16 h32 => ?_, fun o ho => by simp [State.rd_wr, ho], by simp, by simp⟩
    · simp [bit_merge, bit_word_bits v (by omega : i < 32), hi, Nat.add_comm]
    · simp [bit_merge, bit_word_bits v h32, Nat.not_lt.mpr h16]
  case effect =>
    rw [takeEffect]
    simp only [master_bumpFresh, hwq]
    rfl

end Sys2Proof.Proofs

/-!
PROOFS. Accesses that are refused (13_register_access.md, Masters and privilege, The mirror and the write path, Indirect spaces).
-/
namespace Sys2Proof.Machine
-- One proof at a time, so that the stacks of the evaluations do not add up.
set_option Elab.async false

open Sys2Proof.Claims

/-- What a write that the judgement refuses leaves: nothing with no writable bit, a count without the privilege or the ownership. -/
theorem acceptReg_nothing {s : State} {w : Writer} {r : RegRow} {o : Nat} (v : Word) (howner : ownerOk s o w = true) (hbits : (r.rw ||| r.wo) = 0#32) :
    acceptReg s w r o v = (s, none) := by
  simp [acceptReg, regVerdict, howner, hbits]

theorem acceptReg_owner {s : State} {w : Writer} {r : RegRow} {o : Nat} (v : Word) (howner : ownerOk s o w = false) :
    acceptReg s w r o v = (denyOwner s, none) := by
  simp [acceptReg, regVerdict, howner]

theorem acceptReg_priv {s : State} {w : Writer} {r : RegRow} {o : Nat} (v : Word) (howner : ownerOk s o w = true) (hbits : (r.rw ||| r.wo) ≠ 0#32)
    (hpriv : w.priv = false) (hrow : r.priv = .priv) : acceptReg s w r o v = (denyPriv s w.m w.job (logOfReg o), none) := by
  simp [acceptReg, regVerdict, howner, hbits, hpriv, privOnly, hrow]

theorem acceptWrite_full {s : State} {m : Master} (o : Nat) (v : Word) (hreach : s.reaches m = true) (hfull : 64 ≤ (s.master m).wq.length) :
    acceptWrite s m o v = s := by
  rw [acceptWrite, if_neg (by simp [hreach]), if_pos (by simpa [queueDepth] using hfull)]

theorem acceptWrite_early {s : State} {m : Master} {o : Nat} (v : Word) (hreach : s.reaches m = true) (hroom : (s.master m).wq.length < 64)
    (hearly : earlyWrite s m o = true) : acceptWrite s m o v = noteEarly s := by
  rw [acceptWrite, if_neg (by simp [hreach]), if_neg (by simp [queueDepth, hroom]), if_pos hearly]

theorem acceptWrite_unmapped {s : State} {m : Master} (o : Nat) (v : Word) (hreach : s.reaches m = false) : acceptWrite s m o v = logRequest s m := by
  rw [acceptWrite, if_pos (by simp [hreach])]

-- The states before release discard a write to any register.

theorem earlyWrite_unreleased {s : State} (hrel : s.ldr.state ≠ .released) (hwait : s.ldr.state ≠ .waitHost) (hno : s.ldr.state ≠ .noImage)
    (hheld : s.ldr.state ≠ .held) (m : Master) (o : Nat) : earlyWrite s m o = true := by
  simp [earlyWrite, State.released, State.hostStates, hrel, hwait, hno, hheld]

theorem exec_registerWrite (m : Master) (off : BitVec 24) (be : BitVec 4) (v : Word) (s : State) : exec (.registerWrite m off be v) s =
    runOn [.masters] s (fun s => if s.mgmt ∧ s.reaches m ∧ be ≠ 15#4 ∧ ¬ earlyWrite s m (wordOffset off) then
      (if m = .lmp then lmpError s 1 (wordOffset off) else raise s 288) else acceptWrite s m (wordOffset off) v) := rfl

theorem exec_lmpWriteCycle (a : BitVec 22) (be : BitVec 4) (v : Word) (rdLow : Bool) (s : State) : exec (.lmpWriteCycle a be v rdLow) s =
    runOn [.masters] s (fun s => if s.mgmt ∧ rdLow then lmpError s 2 (4 * a.toNat)
      else if s.mgmt ∧ be ≠ 15#4 ∧ ¬ earlyWrite s .lmp (4 * a.toNat) then lmpError s 1 (4 * a.toNat) else acceptWrite s .lmp (4 * a.toNat) v) := rfl

@[simp] theorem hold_keeping_self (ps : List Part) (s : State) : hold s (keeping ps s s) = s := by simp [hold, keeping]

-- A bus error of the LMP: its cause, its log, and the master's own log.

section
variable (s : State) {cause : Nat} (o : Nat)

theorem lmpError_out : (lmpError s cause o).out = .busError .lmp :: s.out := by simp [lmpError, busError]

theorem lmpError_cause (hc : cause < 16) : bit ((lmpError s cause o).rd R.HWQ_LMP_ERR) cause = true := by
  have hlt : cause < 32 := by omega
  simp only [lmpError, busError, logRequest_lmp]
  simp [satField, bit_setBits _ _ _ _ _ (by decide : 16 ≤ 31) (by decide : 31 < 32) hlt, bit_setBit _ _ _ _ hlt hlt, hc]

theorem lmpError_rd {i : Nat} (hi : i ≠ R.HWQ_LMP_ERR) : (lmpError s cause o).rd i = s.rd i := by
  simp [lmpError, busError, State.rd_wr, hi]

theorem lmpError_master : (lmpError s cause o).master .lmp =
    { s.master .lmp with berr := setBits (setBit (s.master .lmp).berr 31 true) 23 0 o } := by
  simp [lmpError, busError, master_wr]

end

theorem setMaster_func (s : State) (m : Master) (x : MState) (k : Nat) : (s.setMaster m x).func k = s.func k := by cases m <;> rfl

/-- A read of a location with no register. -/
theorem readReg_reserved {s : State} {m : Master} {o : Nat} {ecc : Ecc} (hmgmt : s.mgmt = true) (hreach : s.reaches m = true) (hr : findRow o = none) :
    readReg s m o ecc = (reservedError s m o).emit (.read m 0#32) := by
  rw [readReg, if_neg (by simp [hmgmt]), if_neg (by simp [hreach]), hr]

-- The flags of the window on a write.

section
variable {s : State} {m : Master} {p : SpaceRow}

theorem windowFlags_none (w : Bool) (hp : findSpace (bits (s.master m).sel 6 0) = none) : windowFlags s m w = (true, false, false) := by
  simp [windowFlags, hp]

theorem windowFlags_range (w : Bool) (hp : findSpace (bits (s.master m).sel 6 0) = some p) (ha : p.words ≤ bits (s.master m).addr 23 0) :
    windowFlags s m w = (false, true, false) := by
  simp [windowFlags, hp, ha]

theorem windowFlags_write (hp : findSpace (bits (s.master m).sel 6 0) = some p) (ha : bits (s.master m).addr 23 0 < p.words) (hro : p.readOnly = false)
    (hres : wordReserved p.code (bits (s.master m).addr 23 0) = false) : windowFlags s m true = (false, false, !p.writeOpen && !s.priv m) := by
  simp [windowFlags, hp, Nat.not_le.mpr ha, hro, hres]

theorem code_of_findSpace {code : Nat} (hp : findSpace code = some p) : p.code = code := by
  simpa using List.find?_some hp

-- What the window makes of a write.

theorem windowStore_none (v : Word) (hp : findSpace (bits (s.master m).sel 6 0) = none) :
    windowStore s m v = pushWrite s m ⟨false, R.GLB_IDX_DATA, v, s.priv m⟩ := by
  simp [windowStore, hp]

theorem windowStore_range (v : Word) (hp : findSpace (bits (s.master m).sel 6 0) = some p) (ha : p.words ≤ bits (s.master m).addr 23 0) :
    windowStore s m v = pushWrite s m ⟨false, R.GLB_IDX_DATA, v, s.priv m⟩ := by
  simp [windowStore, hp, windowFlags_range true hp ha]

theorem windowStore_denied (v : Word) (hp : findSpace (bits (s.master m).sel 6 0) = some p) (ha : bits (s.master m).addr 23 0 < p.words)
    (hro : p.readOnly = false) (hres : wordReserved p.code (bits (s.master m).addr 23 0) = false) (hopen : p.writeOpen = false) (hpriv : s.priv m = false) :
    windowStore s m v = pushWrite (denyPriv s m false (logOfSpace (bits (s.master m).sel 6 0) (bits (s.master m).addr 23 0))) m
      ⟨false, R.GLB_IDX_DATA, v, false⟩ := by
  have hcode := code_of_findSpace hp
  rw [hcode] at hres
  simp [windowStore, hp, windowFlags_write hp ha hro (by rw [hcode, hres]), hro, hres, hopen, hpriv]

end

theorem masterWrite_data (s : State) (m : Master) (v : Word) : masterWrite s m R.GLB_IDX_DATA v = windowWrite s m v := by
  have hview : R.GLB_IDX_DATA ≠ R.GLB_VIEW := by decide
  have hsel : R.GLB_IDX_DATA ≠ R.GLB_IDX_SEL := by decide
  have haddr : R.GLB_IDX_DATA ≠ R.GLB_IDX_ADDR := by decide
  simp [masterWrite, hview, hsel, haddr]

theorem acceptWrite_data {s : State} {m : Master} (v : Word) (hrel : s.ldr.state = .released) (hreach : s.reaches m = true)
    (hroom : (s.master m).wq.length < 64) : acceptWrite s m R.GLB_IDX_DATA v = windowWrite s m v := by
  obtain ⟨r, hr⟩ : ∃ r, findRow R.GLB_IDX_DATA = some r := ⟨_, rfl⟩
  rw [acceptWrite_window hreach hroom (earlyWrite_released hrel _ _) hr rfl, masterWrite_data]

/-- The address of the window moves on after an access, and the flags that the access found are set. -/
theorem advance_master (s : State) (m : Master) (bad out denied : Bool) : (advance s m bad out denied).master m =
    { s.master m with addr := word (((s.master m).addr.toNat + 1) % 16777216), badSpace := (s.master m).badSpace || bad, range := (s.master m).range || out,
                      denied := (s.master m).denied || denied, ready := false, fetchLive := bit (s.master m).view 0,
                      ahead := (s.master m).wq.length } := by
  simp [advance, startFetch]

section
variable (s : State) (m : Master) (bad out denied : Bool)

@[simp] theorem advance_regs : (advance s m bad out denied).regs = s.regs := by simp [advance, startFetch]
@[simp] theorem advance_spaces : (advance s m bad out denied).spaces = s.spaces := by simp [advance, startFetch]
@[simp] theorem advance_live : (advance s m bad out denied).live = s.live := by simp [advance, startFetch]
@[simp] theorem advance_out : (advance s m bad out denied).out = s.out := by simp [advance, startFetch]

end

end Sys2Proof.Machine

namespace Sys2Proof.Proofs
-- One proof at a time, so that the stacks of the evaluations do not add up.
set_option Elab.async false

open Sys2Proof.Machine Sys2Proof.Claims

/-- Settles O27: each refusal is a branch of the judgement, taken before the write could enter the queue. -/
theorem refusedAccess : Obligations.RefusedAccess := by
  unfold Obligations.RefusedAccess
  refine ⟨fun k off s hp hmgmt hmem hal hr => ?reserved, fun a s hp hmgmt hr => ?lmpReserved, fun a s hp hmgmt => ?lmpBoth,
    fun a be v s hs hmgmt hbe hrel => ends_of hs (exec_lmpWriteCycle a be v false) ?lmpPartial,
    fun m off v s hs hreach hal hfull => ?full,
    fun m off be v s hs hreach hal hroom hrel hwait hno hheld => gives_of hs (exec_registerWrite m off be v) ?early,
    fun m off be v s hm hs hmgmt hreach hrel hbe => gives_of hs (exec_registerWrite m off be v) ?partial_,
    fun m off r v s hs hrel hreach hal hroom hr hrow hp hbits hother howner => gives_of hs (fun s => exec_registerWrite_whole m v s hal) ?priv,
    fun m off r v s hs hrel hreach hal hroom hr hbits hother howner => ?nothing,
    fun m off r v s hs hrel hreach hal hroom hr hother howner => gives_of hs (fun s => exec_registerWrite_whole m v s hal) ?owner,
    fun m v s hs hrel hreach hroom hspace => ends_of hs (fun _ => rfl) ?badSpace,
    fun m p v s hs hrel hreach hroom hspace ha => ends_of hs (fun _ => rfl) ?range,
    fun m p v s hs hrel hreach hroom hspace ha hro hres hopen hp => gives_of hs (fun _ => rfl) ?denied,
    fun k off be v s hs hmem => gives_of hs (exec_registerWrite _ off be v) ?unmapped⟩
  case reserved =>
    have hreach := reaches_of_memory hmem
    have hexec := exec_rcRegisterRead_one (if k = 0 then .pf0 else .pf1) .good s hal
    dsimp only
    rw [Gives, hexec, runMirror_on hp, readReg_reserved hmgmt hreach hr]
    have hlmp : (if k = 0 then Master.pf0 else .pf1) ≠ .lmp := by split_ifs <;> decide
    rw [reservedError, if_neg hlmp, busError, logRequest_func, setMaster_func]
  case lmpReserved =>
    refine ⟨_, (exec_lmpReadCycle a false .good s).trans (runMirror_on hp), ?_⟩
    simp only [hmgmt, not_true_eq_false, Bool.false_eq_true, if_false]
    rw [readReg_reserved hmgmt rfl hr, reservedError, if_pos rfl]
    have haddr : bits (setBits (setBit (s.master .lmp).berr 31 true) 23 0 (4 * a.toNat)) 23 0 = 4 * a.toNat := by
      have ha := a.isLt
      rw [bits_setBits _ _ _ _ (by decide) (by decide)]
      omega
    exact ⟨by simp [lmpError_out], by simp [lmpError_cause], by simp [lmpError_master, haddr], fun o ho => by simp [lmpError_rd _ _ ho]⟩
  case lmpBoth =>
    refine ⟨_, (exec_lmpReadCycle a true .good s).trans (runMirror_on hp), ?_⟩
    simp only [hmgmt, not_true_eq_false, if_true, if_false]
    exact ⟨by simp [lmpError_out], by simp [lmpError_cause], fun o ho => by simp [lmpError_rd _ _ ho], by simp⟩
  case lmpPartial =>
    rw [if_neg (by simp), if_pos ⟨hmgmt, hbe, by simp [earlyWrite_released hrel]⟩]
    exact ⟨by simp [lmpError_out], by simp [lmpError_cause], fun o ho => by simp [lmpError_rd _ _ ho], by simp, by simp [lmpError_master]⟩
  case full =>
    obtain ⟨hp, hd⟩ := hs
    rw [exec_registerWrite_whole m v s hal, runOn_on hp hd, acceptWrite_full _ _ hreach hfull, hold_keeping_self]
  case early =>
    have hearly := earlyWrite_unreleased hrel hwait hno hheld m (wordOffset off)
    rw [if_neg fun h => h.2.2.2 hearly, acceptWrite_early v hreach hroom hearly]
  case partial_ => rw [if_pos ⟨hmgmt, hreach, hbe, by simp [earlyWrite_released hrel]⟩, if_neg hm]
  case priv =>
    exact acceptWrite_refused hreach hroom (earlyWrite_released hrel _ _) hr hother (acceptReg_priv v howner hbits hp hrow)
  case nothing =>
    obtain ⟨hp, hd⟩ := hs
    rw [exec_registerWrite_whole m v s hal, runOn_on hp hd,
      acceptWrite_refused hreach hroom (earlyWrite_released hrel _ _) hr hother (acceptReg_nothing v howner hbits), hold_keeping_self]
  case owner =>
    exact acceptWrite_refused hreach hroom (earlyWrite_released hrel _ _) hr hother (acceptReg_owner v howner)
  case badSpace =>
    rw [acceptWrite_data v hrel hreach hroom, windowWrite, windowFlags_none _ hspace, windowStore_none v hspace]
    simp [advance_master, pushWrite_master]
  case range =>
    rw [acceptWrite_data v hrel hreach hroom, windowWrite, windowFlags_range _ hspace ha, windowStore_range v hspace ha]
    simp [advance_master, pushWrite_master]
  case denied =>
    rw [acceptWrite_data v hrel hreach hroom, windowWrite, windowFlags_write hspace ha hro hres, windowStore_denied v hspace ha hro hres hopen hp, hopen, hp]
    rfl
  case unmapped =>
    have hreach : s.reaches (if k = 0 then .pf0 else .pf1) = false := by fin_cases k <;> exact hmem
    rw [if_neg fun h => by simp [hreach] at h, acceptWrite_unmapped _ _ hreach, logRequest_func]

end Sys2Proof.Proofs

/-!
PROOFS. The indirect window of a master, and writes of settings with a deck (13_register_access.md, Indirect spaces; 08_commits_updates.md, Deck
classes).
-/
namespace Sys2Proof.Machine
-- One proof at a time, so that the stacks of the evaluations do not add up.
set_option Elab.async false

open Sys2Proof.Claims

-- GLB_IDX_SEL and GLB_IDX_ADDR.

theorem masterWrite_sel (s : State) (m : Master) (v : Word) : masterWrite s m R.GLB_IDX_SEL v = startFetch (pushWrite (s.setMaster m { s.master m with
    sel := v &&& 0x7F#32, miss := false, range := false, badSpace := false, denied := false }) m ⟨false, R.GLB_IDX_SEL, v, s.priv m⟩) m := by
  have hview : R.GLB_IDX_SEL ≠ R.GLB_VIEW := by decide
  simp only [masterWrite, hview, if_false, if_true]

theorem masterWrite_addr (s : State) (m : Master) (v : Word) : masterWrite s m R.GLB_IDX_ADDR v = startFetch (pushWrite (s.setMaster m { s.master m with
    addr := v &&& 0xFFFFFF#32, miss := false, range := false, badSpace := false, denied := false }) m ⟨false, R.GLB_IDX_ADDR, v, s.priv m⟩) m := by
  have hview : R.GLB_IDX_ADDR ≠ R.GLB_VIEW := by decide
  have hsel : R.GLB_IDX_ADDR ≠ R.GLB_IDX_SEL := by decide
  simp only [masterWrite, hview, hsel, if_false, if_true]

theorem startFetch_master (s : State) (m : Master) : (startFetch s m).master m =
    { s.master m with ready := false, fetchLive := bit (s.master m).view 0, ahead := (s.master m).wq.length } := by
  simp [startFetch]

section
variable (s : State) (m : Master)

@[simp] theorem startFetch_regs : (startFetch s m).regs = s.regs := by simp [startFetch]
@[simp] theorem startFetch_spaces : (startFetch s m).spaces = s.spaces := by simp [startFetch]
theorem startFetch_other {n : Master} (h : n ≠ m) : (startFetch s m).master n = s.master n := by simp [startFetch, State.master_setMaster, h]
theorem pushWrite_other (w : QWrite) {n : Master} (h : n ≠ m) : (pushWrite s m w).master n = s.master n := by simp [pushWrite, State.master_setMaster, h]

end

-- A prefetch.

section
variable {s : State} {m : Master} {ecc : Ecc} (hready : (s.master m).ready = false) (hahead : (s.master m).ahead = 0)
include hready hahead

theorem prefetchDone_flags (hf : windowFlags s m false ≠ (false, false, false)) :
    prefetchDone s m ecc = s.setMaster m { s.master m with ready := true, buf := 0#32 } := by
  rw [prefetchDone]
  dsimp only
  rw [if_neg (by simp [hready, hahead]), if_pos]
  by_contra h
  simp only [not_or, Bool.not_eq_true] at h
  obtain ⟨h1, h2, h3⟩ := h
  exact hf (Prod.ext h1 (Prod.ext h2 h3))

/-- A prefetch of a word that a master may read. -/
theorem prefetchDone_word (hf : windowFlags s m false = (false, false, false)) :
    prefetchDone s m ecc =
      (let code := bits (s.master m).sel 6 0
       let a := bits (s.master m).addr 23 0
       let live := fetchesLive code (s.master m).fetchLive
       let found := if fetchFails s code a live then .ue else ecc
       (fetchParity (fetchInject (fetchUpset s.bumpFresh code a live found) code a) code a).setMaster m { s.master m with
         ready := true, buf := if found = .ue then Config.freeWord s.fresh else spaceWord s code a (s.master m).fetchLive }) := by
  rw [prefetchDone]
  dsimp only
  rw [if_neg (by simp [hready, hahead]), hf]
  simp

end

/-- With no injection armed and every word of the collector sound, the checks of a fetch change nothing. -/
theorem fetchChecks_good {s : State} (hinj : s.col.inj = none) (hbad : s.col.bad = []) (code a : Nat) (live : Bool) :
    fetchParity (fetchInject (fetchUpset s code a live .good) code a) code a = s := by
  have hupset : fetchUpset s code a live .good = s := by simp [fetchUpset, fetchReport, tableReport]
  have hinject : fetchInject s code a = s := by
    unfold fetchInject
    split
    · rfl
    · simp [sramCheck, injectCheck, hinj]
  have hused (ws : List Nat) : wordsUsed s ws = s := by simp [wordsUsed, hbad]
  rw [hupset, hinject, fetchParity, hused, hused]
  split_ifs <;> rfl

-- A read of the window's word.

theorem windowFlags_bumpFresh (s : State) (m : Master) (w : Bool) : windowFlags s.bumpFresh m w = windowFlags s m w := by cases m <;> rfl

theorem readReg_data {s : State} {m : Master} (hmgmt : s.mgmt = true) (hreach : s.reaches m = true) (hinj : s.col.inj = none) :
    readReg s m R.GLB_IDX_DATA .good = (windowRead s.bumpFresh m).2.emit (.read m (windowRead s.bumpFresh m).1) := by
  obtain ⟨r, hr⟩ : ∃ r, findRow R.GLB_IDX_DATA = some r := ⟨_, rfl⟩
  have hcheck : mirrorCheck s.bumpFresh .good = s.bumpFresh := mirrorCheck_good hinj
  rw [readReg, if_neg (by simp [hmgmt]), if_neg (by simp [hreach]), hr]
  simp only [hcheck, if_true]

theorem exec_idxDataRead (m : Master) (s : State) :
    exec (.idxDataRead m) s = runMirror s (fun s => keeping [.masters] s (readReg s m R.GLB_IDX_DATA .good)) := rfl

theorem windowRead_miss {s : State} {m : Master} (hready : (s.master m).ready = false) :
    windowRead s m = ((s.master m).last, s.setMaster m { s.master m with miss := true }) := by
  simp [windowRead, hready]

theorem windowRead_ready {s : State} {m : Master} (hready : (s.master m).ready = true) (hf : windowFlags s m false = (false, false, false)) :
    windowRead s m = ((s.master m).buf, advance (s.setMaster m { s.master m with last := (s.master m).buf }) m false false false) := by
  simp [windowRead, hready, hf]

-- A write that the window takes.

theorem windowStore_taken {s : State} {m : Master} {p : SpaceRow} (v : Word) (hp : findSpace (bits (s.master m).sel 6 0) = some p)
    (ha : bits (s.master m).addr 23 0 < p.words) (hro : p.readOnly = false) (hres : wordReserved p.code (bits (s.master m).addr 23 0) = false)
    (hmay : mayWriteSpace s m p.code = true)
    (hfree : p.decked = true → committing s (writerOf s m) (wordGroups s (s.master m).wq p.code (bits (s.master m).addr 23 0)) = none) :
    windowStore s m v = pushWrite s m ⟨true, skey p.code (bits (s.master m).addr 23 0), v, s.priv m⟩ := by
  have hcode := code_of_findSpace hp
  have hflags := windowFlags_write hp ha hro hres
  have hopen : (!p.writeOpen && !s.priv m) = false := by
    have h : (p.writeOpen || s.priv m) = true := by simpa [mayWriteSpace, hcode, hp] using hmay
    rw [← Bool.not_or, h]
    rfl
  rw [hopen] at hflags
  rw [hcode] at hres hfree ⊢
  simp only [windowStore, hp, hflags, hro, hres, Bool.false_eq_true, or_self, if_false]
  cases hdeck : p.decked with
  | false => rfl
  | true => simp only [if_true, hfree hdeck]

/-- The flags of a write that the window takes are those of a good access. -/
theorem windowFlags_taken {s : State} {m : Master} {p : SpaceRow} (hp : findSpace (bits (s.master m).sel 6 0) = some p)
    (ha : bits (s.master m).addr 23 0 < p.words) (hro : p.readOnly = false) (hres : wordReserved p.code (bits (s.master m).addr 23 0) = false)
    (hmay : mayWriteSpace s m p.code = true) : windowFlags s m true = (false, false, false) := by
  have h : (p.writeOpen || s.priv m) = true := by simpa [mayWriteSpace, code_of_findSpace hp, hp] using hmay
  rw [windowFlags_write hp ha hro hres, ← Bool.not_or, h]
  rfl

-- A queued word of a decked space takes effect in the pending deck.

theorem deckedSpace_of {code : Nat} {p : SpaceRow} (hp : findSpace code = some p) (hdeck : p.decked = true) : deckedSpace code = true := by
  simp [deckedSpace, hp, hdeck]

theorem storeDeckWord_of {s : State} {code a : Nat} (v : Word) (hres : wordReserved code a = false) :
    storeDeckWord s code a v = (s.setSpw code a (v &&& deckMask code a)).cleanPend (skey code a) := by
  have hopen : ¬ wordReserved code a = true := by
    rw [hres]
    decide
  exact if_neg hopen

theorem keeping_word (ps : List Part) (s : State) (code a k : Nat) (v : Word) :
    keeping ps s ((s.setSpw code a v).cleanPend k) = (s.setSpw code a v).cleanPend k := by
  simp [keeping, State.cleanPend]

theorem spaceEffect_decked {s : State} {code a : Nat} (v : Word) (hdeck : deckedSpace code = true) (hres : wordReserved code a = false) :
    spaceEffect s code a v = (s.setSpw code a (v &&& deckMask code a)).cleanPend (skey code a) := by
  rw [spaceEffect, if_pos hdeck, storeDeckWord_of v hres, keeping_word]

theorem cleanPend_master (s : State) (k : Nat) (m : Master) : (s.cleanPend k).master m = s.master m := by cases m <;> rfl

end Sys2Proof.Machine

namespace Sys2Proof.Proofs
-- One proof at a time, so that the stacks of the evaluations do not add up.
set_option Elab.async false

open Sys2Proof.Machine Sys2Proof.Claims

/-- Settles O26: selection and address restart the prefetch; a read takes what it left; a write enters the queue with the word it names. -/
theorem windowAccess : Obligations.WindowAccess := by
  unfold Obligations.WindowAccess
  refine ⟨fun m v s hs hrel hreach hroom => ends_of hs (fun _ => rfl) ?sel, fun m v s hs hrel hreach hroom => ends_of hs (fun _ => rfl) ?addr,
    fun m s hs hready hahead hinj hbad hsound => ends_of hs (fun _ => rfl) ?prefetch,
    fun m s hs hready hahead hf hfails => gives_of hs (fun _ => rfl) ?fails,
    fun m s hp hmgmt hreach hinj hready hf => ?read, fun m s hp hmgmt hreach hinj hready => ?miss,
    fun m p v s hs hrel hreach hroom hspace ha hro hres hmay hfree => ends_of hs (fun _ => rfl) ?write,
    fun m w rest p s hs hwq hind hspace hdeck hres => ends_of hs (fun _ => rfl) ?effect⟩
  case sel =>
    obtain ⟨r, hr⟩ : ∃ r, findRow R.GLB_IDX_SEL = some r := ⟨_, rfl⟩
    rw [acceptWrite_window hreach hroom (earlyWrite_released hrel _ _) hr rfl, masterWrite_sel]
    simp +contextual [startFetch_master, pushWrite_master, startFetch_other, pushWrite_other, State.master_setMaster]
  case addr =>
    obtain ⟨r, hr⟩ : ∃ r, findRow R.GLB_IDX_ADDR = some r := ⟨_, rfl⟩
    rw [acceptWrite_window hreach hroom (earlyWrite_released hrel _ _) hr rfl, masterWrite_addr]
    simp +contextual [startFetch_master, pushWrite_master, startFetch_other, pushWrite_other, State.master_setMaster]
  case prefetch =>
    by_cases hf : windowFlags s m false = (false, false, false)
    · rw [prefetchDone_word hready hahead hf]
      simp [hsound, fetchChecks_good, hinj, hbad, hf]
    · rw [prefetchDone_flags hready hahead hf]
      simp [hf]
  case fails =>
    rw [prefetchDone_word hready hahead hf]
    simp [hfails]
  case read =>
    refine ⟨_, (exec_idxDataRead m s).trans (runMirror_on hp), ?_⟩
    rw [readReg_data hmgmt hreach hinj, windowRead_ready (by rw [master_bumpFresh, hready]) (by rw [windowFlags_bumpFresh, hf])]
    simp [advance_master, master_bumpFresh]
  case miss =>
    refine ⟨_, (exec_idxDataRead m s).trans (runMirror_on hp), ?_⟩
    rw [readReg_data hmgmt hreach hinj, windowRead_miss (by rw [master_bumpFresh, hready])]
    simp [master_bumpFresh]
  case write =>
    rw [acceptWrite_data v hrel hreach hroom, windowWrite, windowFlags_taken hspace ha hro hres hmay, windowStore_taken v hspace ha hro hres hmay hfree]
    simp [advance_master, pushWrite_master]
  case effect =>
    have hset := deckedSpace_of hspace hdeck
    rw [takeEffect]
    simp only [master_bumpFresh, hwq, applyWrite, hind, if_true, spaceEffect_decked w.v hset hres]
    refine and_assoc.mp ⟨words_of_spaces (by simp), by simp, by simp, ?_⟩
    simp [cleanPend_master, State.setSpw]

end Sys2Proof.Proofs

/-!
PROOFS. Writes of settings with a deck (08_commits_updates.md, Deck classes, Making a commit).
-/
namespace Sys2Proof.Machine
-- One proof at a time, so that the stacks of the evaluations do not add up.
set_option Elab.async false

open Sys2Proof.Claims

/-- A row whose settings have a deck. -/
def decked (r : RegRow) : Bool := decide (r.cls = .group ∨ r.cls = .disruptive)

theorem gclReg_none {o : Nat} {r : RegRow} (hr : findRow o = some r) (hdeck : decked r = true) : gclReg o = none := by
  have hplain : ∀ p : Fin 16, (findRow (R.NMP_Pnn_GCL_CTRL p)).all (fun r => !decked r) = true ∧
      (findRow (R.NMP_Pnn_GCL_BASE_LO p)).all (fun r => !decked r) = true ∧ (findRow (R.NMP_Pnn_GCL_BASE_HI p)).all (fun r => !decked r) = true := by
    decide +kernel
  rw [gclReg, List.findSome?_eq_none_iff]
  intro p hp
  obtain ⟨hctrl, hlo, hhi⟩ := hplain ⟨p, List.mem_range.mp hp⟩
  have hne (i : Nat) (hi : (findRow i).all (fun r => !decked r) = true) : o ≠ i := by
    rintro rfl
    simp [hr, hdeck] at hi
  rw [if_neg (hne _ hctrl), if_neg (by simp [hne _ hlo, hne _ hhi])]

/-- A register whose row has no deck is another. -/
theorem ne_of_decked {o i : Nat} {r : RegRow} (hr : findRow o = some r) (hdeck : decked r = true) (hi : (findRow i).all (fun r => !decked r) = true) : o ≠ i := by
  rintro rfl
  simp [hr, hdeck] at hi

/-- A setting with a deck that has no rule of a queue is held as written. -/
theorem heldValue_decked {s : State} {w : Writer} {o : Nat} {r : RegRow} (v z : Word) (hr : findRow o = some r) (hdeck : decked r = true)
    (hqueue : regQueue o = none) (hout : o < 0x20000 ∨ 0x40000 ≤ o) : heldValue s w o v z = (s, some (v, z)) := by
  have hmap : ¬ (R.HWQ_QMAP0 ≤ o ∧ o ≤ R.HWQ_QMAP2) := by
    simp only [R.HWQ_QMAP0, R.HWQ_QMAP2]
    omega
  have href : o ≠ R.IHM_CFGCRC_REF := ne_of_decked hr hdeck (by decide +kernel)
  rw [heldValue, hqueue]
  dsimp only
  rw [if_neg hmap, if_neg fun h => href h.1, gclReg_none hr hdeck]

section
variable {s : State} {m : Master} {o : Nat} {r : RegRow} (v : Word) (hr : findRow o = some r) (hbits : (r.rw ||| r.wo) ≠ 0#32)
  (hmay : mayWrite s m o = true)
include hr hbits hmay

/-- A master that may write a register passes the checks before those of the decks. -/
theorem regVerdict_mayWrite : regVerdict s (writerOf s m) r o v =
    match committing s (writerOf s m) (deckGroups s r o) with
    | some g => .deck g
    | none => match (List.range 8).find? (fun g => o = R.SEQ_Gn_HEADS g) with
      | some _ =>
        if (if (writerOf s m).priv then 0#32 else heldHeads s (s.rd o) v) ≠ 0#32 ∧
            merge (s.rd o) v ((if isWm o then word (bits v 31 16) else r.rw) &&& ~~~(if (writerOf s m).priv then 0#32 else heldHeads s (s.rd o) v)) = s.rd o
        then .privilege
        else .store (merge (s.rd o) v ((if isWm o then word (bits v 31 16) else r.rw) &&& ~~~(if (writerOf s m).priv then 0#32 else heldHeads s (s.rd o) v)))
      | none => .store (merge (s.rd o) v (if isWm o then word (bits v 31 16) else r.rw)) := by
  simp only [mayWrite, hr, Bool.and_eq_true, Bool.or_eq_true, Bool.not_eq_true'] at hmay
  obtain ⟨howner, hpriv⟩ := hmay
  have hopen : ¬ (¬ (writerOf s m).priv = true ∧ privOnly s r o = true) := by
    rintro ⟨h1, h2⟩
    obtain h | h := hpriv
    · exact h1 h
    · simp [h] at h2
  unfold regVerdict
  have howner : ownerOk s o (writerOf s m) = true := howner
  simp only [howner, not_true, if_false, hbits, hopen] <;> rfl

theorem acceptReg_inFlight {g : Nat} (hg : committing s (writerOf s m) (deckGroups s r o) = some g) :
    acceptReg s (writerOf s m) r o v = (denyDeck s g false, none) := by
  simp only [acceptReg, regVerdict_mayWrite v hr hbits hmay, hg]

theorem acceptReg_decked (hdeck : decked r = true) (hwm : isWm o = false) (hqueue : regQueue o = none) (hheads : ∀ g, g < 8 → o ≠ R.SEQ_Gn_HEADS g)
    (hfree : committing s (writerOf s m) (deckGroups s r o) = none) (hout : o < 0x20000 ∨ 0x40000 ≤ o) :
    acceptReg s (writerOf s m) r o v = (s.wr o (merge (s.rd o) v r.rw), some ((merge (s.rd o) v r.rw &&& r.rw) ||| (v &&& r.wo))) := by
  have hnone : (List.range 8).find? (fun g => o = R.SEQ_Gn_HEADS g) = none := by
    simp only [List.find?_eq_none, List.mem_range, decide_eq_true_eq]
    exact hheads
  simp only [acceptReg, regVerdict_mayWrite v hr hbits hmay, hfree, hnone, hwm, Bool.false_eq_true, if_false, heldValue_decked _ _ hr hdeck hqueue hout]

end

/-- A queued write of a setting with a deck and no handler takes effect in the pending deck. -/
theorem applyWrite_decked {crcs : List Section → Bool} {s : State} {m : Master} {w : QWrite} {r : RegRow} (hind : w.indirect = false)
    (hr : findRow w.at_ = some r) (hdeck : decked r = true) (hother : perMaster w.at_ = false)
    (hnone : (handlers.findSome? fun h => (h.indexAt w.at_).map fun i => (h, i)) = none) :
    applyWrite crcs s m w = storeDeckReg (showLast s w) r w.at_ w.v := by
  have hctrl : w.at_ ≠ R.LDR_CTRL := ne_of_decked hr hdeck (by decide +kernel)
  have hupd : w.at_ ≠ R.LDR_UPD_CMD := ne_of_decked hr hdeck (by decide +kernel)
  have hcls : r.cls = .group ∨ r.cls = .disruptive := by simpa [decked] using hdeck
  rw [applyWrite, if_neg (by simp [hind]), if_neg (by simp [hother]), if_neg hctrl, if_neg hupd, regEffect]
  simp only [hnone, hr, hcls, if_true]

/-- The mirror alone shows the last write. -/
theorem showLast_keeps {β : Type} (g : State → β) (hg : ∀ (s : State) (o : Nat) (v : Word), g (s.wr o v) = g s) (s : State) (w : QWrite) :
    g (showLast s w) = g s := by
  unfold showLast
  split
  · dsimp only
    split_ifs
    · rfl
    · exact hg _ _ _
  · rfl

end Sys2Proof.Machine

namespace Sys2Proof.Proofs
-- One proof at a time, so that the stacks of the evaluations do not add up.
set_option Elab.async false

open Sys2Proof.Machine Sys2Proof.Claims

/-- Settles O48: acceptance shows the write in the mirror or counts it, and its effect is the pending deck alone. -/
theorem deckWrites : Obligations.DeckWrites := by
  unfold Obligations.DeckWrites
  refine ⟨fun m off r v s hs hrel hreach hal hroom hr hdeck hbits hmay hother hwm hqueue hheads hfree hout =>
      ends_of hs (fun s => exec_registerWrite_whole m v s hal) ?accept,
    fun m w rest r s hs hwq hind hr hdeck hother hnone => ends_of hs (fun _ => rfl) ?effect,
    fun m off r g v s hs hrel hreach hal hroom hr hbits hmay hother hg => ends_of hs (fun s => exec_registerWrite_whole m v s hal) ?inFlight⟩
  case accept =>
    rw [acceptWrite_taken hreach hroom (earlyWrite_released hrel _ _) hr hother
      (acceptReg_decked v hr hbits hmay (by simpa [decked] using hdeck) hwm hqueue hheads hfree hout)]
    simp +contextual [master_wr, State.rd_wr, pushWrite]
  case effect =>
    rw [takeEffect]
    simp only [master_bumpFresh, hwq]
    rw [applyWrite_decked hind hr (by simpa [decked] using hdeck) hother hnone, storeDeckReg]
    have hdk : ∀ o, (showLast (s.bumpFresh.setMaster m { s.master m with wq := rest, done := (s.master m).done + 1, ahead := (s.master m).ahead - 1 }) w).dk o = s.dk o :=
      fun o => (showLast_keeps (fun u => u.dk o) (fun _ _ _ => rfl) _ w).trans (by cases m <;> rfl)
    refine ⟨?_, fun o ho => ?_, ?_, ?_, ?_, ?_⟩
    · exact (State.dk_setDk _ _ _ _).trans (by rw [if_pos rfl, hdk])
    · exact (State.dk_setDk _ _ _ _).trans (by rw [if_neg ho, hdk])
    · exact (showLast_keeps State.unit (fun _ _ _ => rfl) _ w).trans (by cases m <;> rfl)
    · exact (showLast_keeps State.live (fun _ _ _ => rfl) _ w).trans (by cases m <;> rfl)
    · exact (showLast_keeps State.groups (fun _ _ _ => rfl) _ w).trans (by cases m <;> rfl)
    · exact (showLast_keeps State.out (fun _ _ _ => rfl) _ w).trans (by cases m <;> rfl)
  case inFlight =>
    rw [acceptWrite_refused hreach hroom (earlyWrite_released hrel _ _) hr hother (acceptReg_inFlight v hr hbits hmay hg)]
    have hcount : bits (setBits (s.rd (R.SEQ_Gn_DECK_DENY g)) 15 0 (min (bits (s.rd (R.SEQ_Gn_DECK_DENY g)) 15 0 + 1) 65535)) 15 0 =
        min 65535 (bits (s.rd (R.SEQ_Gn_DECK_DENY g)) 15 0 + 1) := by
      rw [bits_setBits _ _ _ _ (by decide) (by decide)]
      omega
    simp +contextual [denyDeck, satField, State.rd_wr, hcount, master_wr]

end Sys2Proof.Proofs

/-!
PROOFS. Wear meters and self-tests (15_health_spares_power.md, Cycle meters, Spares).
-/
namespace Sys2Proof.Machine
-- One proof at a time, so that the stacks of the evaluations do not add up.
set_option Elab.async false

open Sys2Proof.Claims

section
variable {s : State} {u : Nat} {p r : Nat} (carries : Bool)

/-- A window of a unit in order that stays below the limit of its carries. -/
theorem meterWindow_sound (hcond : (s.metered u).cond = 0) (hovers : (s.metered u).overs < 15) (hquiet : driftOf u (ratioOf p r) < warnDrift s) :
    meterWindow s u p r carries = s.setMetered u { s.metered u with
      period := min 65535 p, periodMax := max (s.metered u).periodMax (min 65535 p), ratio := ratioOf p r, drift := driftOf u (ratioOf p r),
      overs := if carryDrift s ≤ driftOf u (ratioOf p r) then (s.metered u).overs + 1 else 0,
      quiet := (s.metered u).quiet + 1, windows := min 65535 ((s.metered u).windows + 1) } := by
  have hcount : min 65535 ((s.metered u).overs + 1) = (s.metered u).overs + 1 := by omega
  have hmany : ¬ 16 ≤ (if carryDrift s ≤ driftOf u (ratioOf p r) then (s.metered u).overs + 1 else 0) := by
    split <;> omega
  simp [meterWindow, hcond, hcount, hmany, hquiet, not_le.mpr hquiet]

/-- A window of a unit in order that reaches the warning limit, and no carry. -/
theorem meterWindow_warned (hcond : (s.metered u).cond = 0) (hovers : (s.metered u).overs < 15) (hwarn : warnDrift s ≤ driftOf u (ratioOf p r)) :
    meterWindow s u p r carries = raise (s.setMetered u { s.metered u with
      period := min 65535 p, periodMax := max (s.metered u).periodMax (min 65535 p), ratio := ratioOf p r, drift := driftOf u (ratioOf p r),
      overs := if carryDrift s ≤ driftOf u (ratioOf p r) then (s.metered u).overs + 1 else 0,
      quiet := 0, windows := min 65535 ((s.metered u).windows + 1), cond := 1 }) 312 := by
  have hcount : min 65535 ((s.metered u).overs + 1) = (s.metered u).overs + 1 := by omega
  have hmany : ¬ 16 ≤ (if carryDrift s ≤ driftOf u (ratioOf p r) then (s.metered u).overs + 1 else 0) := by
    split <;> omega
  simp [meterWindow, hcond, hcount, hmany, hwarn, not_lt.mpr hwarn]

end

/-- One unit that fails its test at start-up and no window that ends. -/
theorem startupTest_failed {s : State} {u : Nat} (hu : u < 570) (hmgmt : s.mgmt = true) (hrel : s.released = false) (heff : (s.metered u).eff ≠ 7)
    (hcls : unitClass u ≠ 3) : startupTest s [u] [] = startCarryOut (raise (setReqEff s u 7) 313) u := by
  have hasked : (List.range 570).filter (fun v => decide (unitClass v ≠ 3) && ([u].contains v || (([] : List Nat)).contains v)) = [u] := by
    have heq (v : Nat) : (decide (unitClass v ≠ 3) && ([u].contains v || (([] : List Nat)).contains v)) = (v == u) := by
      by_cases hv : v = u
      · simp [hv, hcls]
      · simp [hv]
    simp only [heq, List.filter_beq, List.count_range, hu, if_true, List.replicate_one]
  have hout : (List.range 570).filter (fun _ => false) = [] := by simp
  simp only [startupTest, hmgmt, hrel, forEach, heff, List.foldl_cons, List.foldl_nil, List.any_nil, Bool.and_false, Bool.false_and, if_false,
    hout, hasked, not_true, Bool.false_eq_true, or_false]

end Sys2Proof.Machine

namespace Sys2Proof.Proofs
-- One proof at a time, so that the stacks of the evaluations do not add up.
set_option Elab.async false

open Sys2Proof.Machine Sys2Proof.Claims

/-- Settles O29: a window is counted, the warning raises its source once, and what a test found is a carry or an exhausted class. -/
theorem meterEvents : Obligations.MeterEvents := by
  unfold Obligations.MeterEvents
  refine ⟨fun u p r n s hs hmgmt hin hn hcond hovers hquiet => ends_of hs (fun _ => rfl) ?sound,
    fun u p r n s hs hmgmt hin hn hcond hovers hwarn => ends_of hs (fun _ => rfl) ?warned,
    fun u p r n s hs hout => ?outside,
    fun u p r s hs hmgmt heff hcond hovers hwarn => ends_of hs (fun _ => rfl) ?tested,
    fun u p r s hs hmgmt heff => gives_of hs (fun _ => rfl) ?failed,
    fun u s hs hmgmt hrel heff hlog hcls => gives_of hs (fun _ => rfl) ?startup⟩
  case sound =>
    rw [meterEnd, if_pos ⟨hmgmt, hin, hn⟩, meterWindow_sound true hcond hovers hquiet]
    exact ⟨State.metered_setMetered_self _ _ _, fun v hv => (State.metered_setMetered _ _ _ _).trans (if_neg hv), rfl, rfl⟩
  case warned =>
    rw [meterEnd, if_pos ⟨hmgmt, hin, hn⟩, meterWindow_warned true hcond hovers hwarn]
    simp +contextual [State.metered_setMetered]
  case outside =>
    obtain ⟨hp, hd⟩ := hs
    refine ((rfl : exec _ s = runOn [.health] s (fun s => meterEnd s u p r n))).trans ?_
    rw [runOn_on hp hd, meterEnd, if_neg, hold_keeping_self]
    rintro ⟨-, hin, hn⟩
    obtain h | h := hout
    · simp [h] at hin
    · omega
  case tested =>
    rw [selfTest, if_neg (not_or.mpr ⟨not_not.mpr hmgmt, ne_true_of_eq_false heff⟩), if_pos rfl, meterWindow_warned true hcond hovers hwarn]
    simp +contextual [State.metered_setMetered]
  case failed => rw [selfTest, if_neg (not_or.mpr ⟨not_not.mpr hmgmt, ne_true_of_eq_false heff⟩), if_neg (by decide)]
  case startup =>
    rw [List.map_singleton, List.map_nil, startupTest_failed u.isLt hmgmt hrel (by omega) hcls, startCarryOut, hlog]

end Sys2Proof.Proofs

/-!
PROOFS. What a register write leaves unchanged (13_register_access.md, The mirror and the write path).
-/
namespace Sys2Proof.Machine
-- One proof at a time, so that the stacks of the evaluations do not add up.
set_option Elab.async false

open Sys2Proof.Claims

-- What the mirror, the collector and the PCIe functions hold is no part of the state's list.

/-- The parts of the state `s` but those of `ps`, beside what else `u` holds. -/
def partsOf (ps : List Part) (u s : State) : State := keeping ps s u

theorem same_of_partsOf {ps : List Part} {p : Part} {s t : State} (h : ∀ u, partsOf ps u t = partsOf ps u s) (hp : p ∉ ps) : same p s t := by
  have hc : ps.contains p = false := by simpa using hp
  have hpart {β : Type} (g : State → β) (hg : ∀ s, g (partsOf ps s s) = g s) (hg' : g (partsOf ps s t) = g t) : g t = g s := by
    rw [← hg', h, hg]
  cases p <;> simp only [same] <;> repeat' constructor
  all_goals exact hpart _ (fun _ => by simp [partsOf, keeping]) (by simp only [partsOf, keeping, hc, Bool.false_eq_true, if_false])

theorem same_keeping {ps : List Part} {p : Part} (s u : State) (hp : p ∉ ps) : same p s (keeping ps s u) := by
  have hc : ps.contains p = false := by simpa using hp
  cases p <;> simp only [same, keeping, hc, Bool.false_eq_true, if_false, and_self]

theorem same_trans {p : Part} {s t u : State} (h : same p s t) (h' : same p t u) : same p s u := by
  cases p <;> simp_all only [same, and_self]

section
variable (ps : List Part) (u s : State) (m : Master) (o : Nat) (v : Word)

@[simp] theorem partsOf_wr : partsOf ps u (s.wr o v) = partsOf ps u s := (rfl)
@[simp] theorem partsOf_setFlag (i : Nat) : partsOf ps u (s.setFlag o i) = partsOf ps u s := (rfl)
@[simp] theorem partsOf_bump (n : Nat) : partsOf ps u (s.bump o n) = partsOf ps u s := (rfl)
@[simp] theorem partsOf_raise (src : Nat) : partsOf ps u (raise s src) = partsOf ps u s :=
  raiseFull_keeps _ _ _ _ _ (partsOf ps u) fun _ => rfl
@[simp] theorem partsOf_setFunc (k : Nat) (x : Func) : partsOf ps u (s.setFunc k x) = partsOf ps u s := by
  unfold State.setFunc
  split <;> rfl
@[simp] theorem partsOf_setDk : partsOf ps u (s.setDk o v) = partsOf ps u s := (rfl)
@[simp] theorem partsOf_logRequest : partsOf ps u (logRequest s m) = partsOf ps u s := by cases m <;> simp [logRequest, logUnsupported]
@[simp] theorem partsOf_denyPriv (job : Bool) (log : Word) : partsOf ps u (denyPriv s m job log) = partsOf ps u s := by simp [denyPriv]
@[simp] theorem partsOf_denyOwner : partsOf ps u (denyOwner s) = partsOf ps u s := by simp [denyOwner]
@[simp] theorem partsOf_noteEarly : partsOf ps u (noteEarly s) = partsOf ps u s := by simp [noteEarly]
@[simp] theorem partsOf_denyDeck (g : Nat) (table : Bool) : partsOf ps u (denyDeck s g table) = partsOf ps u s := by
  unfold denyDeck
  dsimp only
  split <;> simp

theorem partsOf_queueCfgValue (q : Nat) : partsOf ps u (queueCfgValue s q v).2 = partsOf ps u s := by
  unfold queueCfgValue
  dsimp only
  split_ifs <;> simp

@[simp] theorem partsOf_gclDeny (p : Nat) : partsOf ps u (gclDeny s p) = partsOf ps u s := partsOf_setFlag ..

theorem partsOf_gclHeld (w : Writer) (p : Nat) (ctrl : Bool) (wo : Word) : partsOf ps u (gclHeld s w p ctrl v wo).1 = partsOf ps u s := by
  unfold gclHeld
  by_cases hpend : gclPendAhead s w p = true
  · rw [if_pos hpend]
    by_cases hctrl : ¬ ctrl = true
    · rw [if_pos hctrl]
      exact partsOf_gclDeny ..
    · rw [if_neg hctrl]
      dsimp only
      split
      · exact partsOf_gclDeny ..
      · exact Eq.refl (partsOf ps u s)
  · rw [if_neg hpend]

theorem partsOf_heldValue (w : Writer) (wo : Word) : partsOf ps u (heldValue s w o v wo).1 = partsOf ps u s := by
  unfold heldValue
  split
  · split_ifs
    · exact partsOf_setFlag ..
    · exact Eq.refl (partsOf ps u s)
    · exact Eq.refl (partsOf ps u s)
    · exact partsOf_queueCfgValue ..
    · exact Eq.refl (partsOf ps u s)
  · split_ifs
    · exact Eq.refl (partsOf ps u s)
    · exact partsOf_setFlag ..
    · split
      · exact partsOf_gclHeld ..
      · exact Eq.refl (partsOf ps u s)

/-- A write that is judged changes the mirror and the collector alone. -/
theorem partsOf_acceptReg (w : Writer) (r : RegRow) : partsOf ps u (acceptReg s w r o v).1 = partsOf ps u s := by
  unfold acceptReg
  split
  · rfl
  · simp
  · exact partsOf_denyPriv ..
  · exact partsOf_denyDeck ..
  · next new _ =>
    have hheld := partsOf_heldValue ps u s o new w (v &&& r.wo)
    split
    · next heq => rwa [heq] at hheld
    · next heq => rw [heq] at hheld; exact (partsOf_wr ..).trans hheld

-- A write that enters its master's queue.

theorem partsOf_setMaster (hm : .masters ∈ ps) (x : MState) : partsOf ps u (s.setMaster m x) = partsOf ps u s := by
  have hc : ps.contains Part.masters = true := by simpa using hm
  cases m <;> simp only [partsOf, keeping, hc, if_true] <;> rfl

theorem partsOf_startFetch (hm : .masters ∈ ps) : partsOf ps u (startFetch s m) = partsOf ps u s := partsOf_setMaster _ _ _ _ hm _

theorem partsOf_pushWrite (hm : .masters ∈ ps) (w : QWrite) : partsOf ps u (pushWrite s m w) = partsOf ps u s := partsOf_setMaster _ _ _ _ hm _

end

/-- `t` is as `s` but for its masters, and one write at most waits at `m` beside those that wait in `s`, of which `Q` then holds. -/
def Queued (Q : QWrite → Prop) (m : Master) (s t : State) : Prop :=
  (∀ u, partsOf [.masters] u t = partsOf [.masters] u s) ∧
  ((t.master m).wq = (s.master m).wq ∨ ∃ w, Q w ∧ (t.master m).wq = (s.master m).wq ++ [w])

section
variable {Q : QWrite → Prop} {m : Master} {s t : State}

/-- What no master holds is changed, and no write waits. -/
theorem queued_of_partsOf (h : ∀ u, partsOf [] u t = partsOf [] u s) : Queued Q m s t := by
  have hpart (u : State) : partsOf [.masters] u t = partsOf [.masters] u s := 
    calc partsOf [.masters] u t = partsOf [.masters] u (partsOf [] u t) := rfl
      _ = partsOf [.masters] u (partsOf [] u s) := by rw [h]
      _ = partsOf [.masters] u s := rfl
  have hmaster : t.master m = s.master m :=
    calc t.master m = (partsOf [] s t).master m := by cases m <;> rfl
      _ = (partsOf [] s s).master m := by rw [h]
      _ = s.master m := by cases m <;> rfl
  exact ⟨hpart, .inl (by rw [hmaster])⟩

/-- A write that a master then queues. -/
theorem queued_pushWrite {w : QWrite} (h : ∀ u, partsOf [] u t = partsOf [] u s) (hw : Q w) : Queued Q m s (pushWrite t m w) := by
  obtain ⟨hpart, -⟩ := queued_of_partsOf (Q := Q) (m := m) h
  have hmaster : t.master m = s.master m :=
    calc t.master m = (partsOf [] s t).master m := by cases m <;> rfl
      _ = (partsOf [] s s).master m := by rw [h]
      _ = s.master m := by cases m <;> rfl
  exact ⟨fun u => (partsOf_pushWrite _ _ _ _ (by decide) _).trans (hpart u), .inr ⟨w, hw, by rw [pushWrite_master, hmaster]⟩⟩

/-- What a window shows of an access is no part of the queue. -/
theorem queued_advance (bad range denied : Bool) (h : Queued Q m s t) : Queued Q m s (advance t m bad range denied) := by
  obtain ⟨hpart, hwq⟩ := h
  refine ⟨fun u => ?_, by simpa only [advance_master] using hwq⟩
  rw [advance, partsOf_startFetch _ _ _ _ (by decide), partsOf_setMaster _ _ _ _ (by decide), hpart]

/-- The checks that every write meets first leave no write waiting. -/
theorem queued_of_checks (o : Nat) (v : Word) (h : s.reaches m = true → (s.master m).wq.length < 64 → earlyWrite s m o = false → Queued Q m s (acceptWrite s m o v)) :
    Queued Q m s (acceptWrite s m o v) := by
  cases hreach : s.reaches m
  case false => exact acceptWrite_unmapped o v hreach ▸ queued_of_partsOf fun u => partsOf_logRequest ..
  obtain hfull | hroom := Nat.lt_or_ge (s.master m).wq.length 64 |>.symm
  · exact (acceptWrite_full o v hreach hfull).symm ▸ queued_of_partsOf fun _ => rfl
  cases hearly : earlyWrite s m o
  · exact h hreach hroom hearly
  · exact acceptWrite_early v hreach hroom hearly ▸ queued_of_partsOf fun u => partsOf_noteEarly ..

/-- A write to a register waits as itself. -/
theorem queued_acceptWrite {o : Nat} {r : RegRow} (v : Word) (hr : findRow o = some r) (hother : perMaster o = false) :
    Queued (fun w => w.indirect = false ∧ w.at_ = o) m s (acceptWrite s m o v) := by
  refine queued_of_checks o v fun hreach hroom hearly => ?_
  have hreg u := partsOf_acceptReg [] u s o v (writerOf s m) r
  rcases e : acceptReg s (writerOf s m) r o v with ⟨s1, _ | x⟩ <;> simp only [e] at hreg
  · exact acceptWrite_refused hreach hroom hearly hr hother e ▸ queued_of_partsOf hreg
  · exact acceptWrite_taken hreach hroom hearly hr hother e ▸ queued_pushWrite hreg ⟨rfl, rfl⟩

/-- A word that a window stores waits as itself, or as a write of the window's register. -/
theorem queued_windowStore (v : Word) : Queued (fun w => w.indirect = false ∧ perMaster w.at_ = true ∨
    w.indirect = true ∧ w.at_ = skey (bits (s.master m).sel 6 0) (bits (s.master m).addr 23 0)) m s (windowStore s m v) := by
  have hown : perMaster R.GLB_IDX_DATA = true := rfl
  unfold windowStore
  dsimp only
  split
  · exact queued_pushWrite (fun u => rfl) (.inl ⟨rfl, hown⟩)
  split_ifs
  · exact queued_pushWrite (fun u => rfl) (.inl ⟨rfl, hown⟩)
  · exact queued_pushWrite (fun u => partsOf_denyPriv ..) (.inl ⟨rfl, hown⟩)
  · split
    · exact queued_pushWrite (fun u => partsOf_denyDeck ..) (.inl ⟨rfl, hown⟩)
    · exact queued_pushWrite (fun u => rfl) (.inr ⟨rfl, rfl⟩)
  · exact queued_pushWrite (fun u => rfl) (.inr ⟨rfl, rfl⟩)

theorem queued_dataWrite (v : Word) : Queued (fun w => w.indirect = false ∧ perMaster w.at_ = true ∨
    w.indirect = true ∧ w.at_ = skey (bits (s.master m).sel 6 0) (bits (s.master m).addr 23 0)) m s (acceptWrite s m R.GLB_IDX_DATA v) := by
  obtain ⟨r, hr⟩ : ∃ r, findRow R.GLB_IDX_DATA = some r := ⟨_, rfl⟩
  refine queued_of_checks _ v fun hreach hroom hearly => ?_
  rw [acceptWrite_window hreach hroom hearly hr rfl, masterWrite_data]
  exact queued_advance _ _ _ (queued_windowStore v)

end

-- What a write then does.

/-- Every part that the write `w` does not reach stays, whatever the state in which it takes effect. -/
def Leaves (p : Part) (m : Master) (w : QWrite) : Prop := ∀ crcs s, same p s (applyWrite crcs s m w)

theorem same_showLast (p : Part) (s : State) (w : QWrite) : same p s (showLast s w) :=
  same_of_partsOf (ps := []) (fun _ => showLast_keeps _ (fun _ _ _ => partsOf_wr ..) _ _) (List.not_mem_nil)

/-- The parts that the handler of the register `o` may change. -/
def handlerParts (o : Nat) : List Part :=
  match handlers.findSome? fun h => (h.indexAt o).map fun i => (h, i) with
  | some (h, _) => h.parts
  | none => []

theorem same_regEffect {p : Part} (s : State) (w : Writer) (o : Nat) (v : Word) (hforce : p ≠ .force) (hp : p ∉ handlerParts o) : same p s (regEffect s w o v) := by
  unfold handlerParts at hp
  unfold regEffect
  split
  · next heq =>
    simp only [heq] at hp
    exact same_keeping _ _ (by simp [hforce, hp])
  · split
    · split_ifs
      · exact same_of_partsOf (ps := []) (fun _ => partsOf_setDk ..) (List.not_mem_nil)
      · exact same_keeping _ _ (by simp [hforce])
    · exact same_refl _ _

/-- A register with no rule of its master or of the loader, whose handler reaches `ps` at most. -/
def reachesReg (o : Nat) (ps : List Part) : Bool :=
  (findRow o).isSome && !perMaster o && o != R.LDR_CTRL && o != R.LDR_UPD_CMD && (handlerParts o).all ps.contains

theorem leaves_register {ps : List Part} {p : Part} {m : Master} {w : QWrite} (hind : w.indirect = false) (ho : reachesReg w.at_ ps = true)
    (hforce : p ≠ .force) (hp : p ∉ ps) : Leaves p m w := by
  simp only [reachesReg, Bool.and_eq_true, Bool.not_eq_true', bne_iff_ne, List.all_eq_true, List.contains_iff_mem] at ho
  obtain ⟨⟨⟨⟨-, hother⟩, hctrl⟩, hupd⟩, hparts⟩ := ho
  intro crcs s
  rw [applyWrite, if_neg (by simp [hind]), if_neg (by simp [hother]), if_neg hctrl, if_neg hupd]
  exact same_trans (same_showLast _ _ _) (same_regEffect _ _ _ _ hforce fun h => hp (hparts _ h))

theorem leaves_word {ps : List Part} {p : Part} {m : Master} {w : QWrite} {code a : Nat} (hind : w.indirect = true) (hat : w.at_ = skey code a) (ha : a < 16777216)
    (hparts : spaceParts code ⊆ ps) (hp : p ∉ ps) : Leaves p m w := by
  intro crcs s
  rw [applyWrite, if_pos hind, hat]
  have hcode : skey code a / 16777216 = code := by simp only [skey]; omega
  rw [hcode]
  unfold spaceEffect
  exact same_keeping _ _ fun h => hp (hparts h)

theorem leaves_window {p : Part} {m : Master} {w : QWrite} (hind : w.indirect = false) (hown : perMaster w.at_ = true) : Leaves p m w := by
  intro crcs s
  rw [applyWrite, if_neg (by simp [hind]), if_pos hown]
  exact same_refl _ _

/-- With no write waiting, what enters the queue takes effect at once. -/
theorem same_settle {Q : QWrite → Prop} {p : Part} {m : Master} {s t : State} (crcs : List Section → Bool) (hempty : (s.master m).wq = [])
    (h : Queued Q m s t) (hQ : ∀ w, Q w → Leaves p m w) (hp : p ≠ .masters) : same p s (settle crcs m s t) := by
  obtain ⟨hpart, hwq⟩ := h
  have hst : same p s t := same_of_partsOf hpart (by simp [hp])
  rw [settle, hempty]
  obtain hwq | ⟨w, hw, hwq⟩ := hwq
  · rw [hwq, hempty, if_neg (by decide)]
    exact hst
  · rw [hwq, hempty, if_pos (by simp)]
    simp only [List.nil_append, List.length_singleton, drainWrites, takeEffect, hwq, hempty]
    exact same_trans (same_trans hst (same_of_partsOf (ps := [.masters]) (fun u => partsOf_setMaster _ _ _ _ (by decide) _) (by simp [hp]))) (hQ w hw _ _)

/-- A command that keeps the parts outside `ps`, the masters and the values in force, when no write waits. -/
def KeepsBut (ps : List Part) (c : Instr) : Prop :=
  ∀ (s t : State) (p : Part), (∀ m, (s.master m).wq = []) → exec c s = .next t → p ∉ ps → p ≠ .masters → p ≠ .force → same p s t

/-- What a command of the device keeps, its meaning keeps. -/
theorem same_hold_keeping {p : Part} {s u : State} (ps : List Part) (h : same p s u) : same p s (hold s (keeping ps s u)) := by
  by_cases hp : p ∈ ps
  · have hc : ps.contains p = true := by simpa using hp
    cases p <;> simp_all only [same, hold, keeping, if_true, and_self]
  · exact same_of_held _ _ hp

theorem keepsBut_of {ps qs : List Part} {c : Instr} {f : State → State} (hx : ∀ s, exec c s = runOn qs s f)
    (hf : ∀ (s : State) (p : Part), (∀ m, (s.master m).wq = []) → p ∉ ps → p ≠ .masters → p ≠ .force → same p s (f s)) : KeepsBut ps c := by
  intro s t p hempty ht hp hm hforce
  rw [hx, runOn, run] at ht
  split at ht
  · exact Host.Outcome.next.inj ht ▸ same_hold_keeping _ (hf s p hempty hp hm hforce)
  · exact Host.Outcome.next.inj ht ▸ same_refl p s

theorem keepsBut_writeNow {ps qs : List Part} {c : Instr} {m : Master} {o : Nat} {v : Word} (hx : ∀ s, exec c s = runOn qs s (fun s => writeNow s m o v))
    (ho : reachesReg o ps = true) : KeepsBut ps c := by
  refine keepsBut_of hx fun s p hempty hp hm hforce => ?_
  obtain ⟨r, hr⟩ : ∃ r, findRow o = some r := by
    cases e : findRow o with
    | none => simp [reachesReg, e] at ho
    | some r => exact ⟨r, rfl⟩
  have hother : perMaster o = false := by
    cases e : perMaster o
    · rfl
    · simp [reachesReg, e] at ho
  have hbump : same p s s.bumpFresh := same_of_partsOf (ps := []) (fun _ => rfl) List.not_mem_nil
  refine same_trans hbump (same_settle _ ?_ (queued_acceptWrite v hr hother) (fun w ⟨hind, hat⟩ => leaves_register hind (hat ▸ ho) hforce hp) hm)
  rw [master_bumpFresh, hempty]

theorem keepsBut_wordNow {ps qs : List Part} {c : Instr} {m : Master} {code a : Nat} {v : Word} (hx : ∀ s, exec c s = runOn qs s (fun s => wordNow s m code a v))
    (hcode : code < 128) (hparts : spaceParts code ⊆ ps) : KeepsBut ps c := by
  refine keepsBut_of hx fun s p hempty hp hm hforce => ?_
  unfold wordNow
  split_ifs with hchecks
  · have hq : Queued (fun _ => True) m s (acceptWrite s m R.GLB_IDX_DATA v) := queued_of_checks _ v fun hreach hroom hearly => by
      simp [hreach, hearly] at hchecks
    exact same_of_partsOf hq.1 (by simp [hm])
  · have hset : same p s (s.setMaster m { s.master m with sel := word code, addr := word a }) :=
      same_of_partsOf (ps := [.masters]) (fun u => partsOf_setMaster _ _ _ _ (by decide) _) (by simp [hm])
    refine same_trans hset (same_settle _ ?_ (queued_dataWrite v) (fun w hw => ?_) hm)
    · rw [State.master_setMaster_self, hempty]
    · obtain ⟨hind, hown⟩ | ⟨hind, hat⟩ := hw
      · exact leaves_window hind hown
      · have hsel : bits (word code) 6 0 = code := by
          simp only [bits, word, BitVec.toNat_ofNat]
          omega
        refine leaves_word hind hat ?_ ?_ hp
        · exact Nat.mod_lt _ (by decide)
        · simpa [hsel] using hparts

end Sys2Proof.Machine

namespace Sys2Proof.Proofs
-- One proof at a time, so that the stacks of the evaluations do not add up.
set_option Elab.async false

open Sys2Proof.Machine Sys2Proof.Claims

theorem exec_refCtrl_on (m : Master) {reg : Fin 4} (hreg : reg.val = 0) (v : Word) (s : State) :
    exec (.refCtrlWrite m reg v) s = runOn Part.device s (fun s => writeNow s m R.TRS_REF_CTRL (setBit v 31 false)) := by
  have hx : exec (.refCtrlWrite m reg v) s = execRefCtrlWrite m reg v s := rfl
  rw [hx]
  simp only [execRefCtrlWrite, hreg, if_true]

theorem exec_refPrio_on (m : Master) {reg : Fin 4} (hreg : reg.val ≠ 0) (v : Word) (s : State) :
    exec (.refCtrlWrite m reg v) s = runOn Part.device s (fun s => writeNow s m (R.TRS_REF_PRIOk (reg - 1)) v) := by
  have hx : exec (.refCtrlWrite m reg v) s = execRefCtrlWrite m reg v s := rfl
  rw [hx]
  simp only [execRefCtrlWrite, hreg, if_false]

/-- The commands that are one write keep what its unit does not reach. -/
theorem keepsBut_writeReaches {c : Instr} {ps : List Part} (h : writeReaches c = some ps) : KeepsBut ps c := by
  cases c
  case evrEnable m k v => exact Option.some.inj h ▸ keepsBut_writeNow (fun _ => rfl) ((by decide +kernel : ∀ k : Fin 2, reachesReg (R.HWQ_Fk_EVR_CFG k) [] = true) k)
  case evrConsWrite m k v => exact Option.some.inj h ▸ keepsBut_writeNow (fun _ => rfl) ((by decide +kernel : ∀ k : Fin 2, reachesReg (R.HWQ_Fk_EVR_CONS k) [] = true) k)
  case phaseSet m v => exact Option.some.inj h ▸ keepsBut_writeNow (fun _ => rfl) (by decide +kernel)
  case fcClearSource m src => exact Option.some.inj h ▸ keepsBut_writeNow (fun _ => rfl) (by decide +kernel)
  case fcClearAll m => exact Option.some.inj h ▸ keepsBut_writeNow (fun _ => rfl) (by decide +kernel)
  case fcClearSelf m => exact Option.some.inj h ▸ keepsBut_writeNow (fun _ => rfl) (by decide +kernel)
  case histClear m q => exact Option.some.inj h ▸ keepsBut_writeNow (fun _ => rfl) ((by decide +kernel : ∀ k : Fin 4, reachesReg (R.IHM_HISTq_CTRL k) [] = true) q)
  case injGo m v => exact Option.some.inj h ▸ keepsBut_writeNow (fun _ => rfl) (by decide +kernel)
  case injCancel m v => exact Option.some.inj h ▸ keepsBut_writeNow (fun _ => rfl) (by decide +kernel)
  case cfgcrcArm m => exact Option.some.inj h ▸ keepsBut_writeNow (fun _ => rfl) (by decide +kernel)
  case cfgcrcDisarm m => exact Option.some.inj h ▸ keepsBut_writeNow (fun _ => rfl) (by decide +kernel)
  case cfgcrcRefWrite m v => exact Option.some.inj h ▸ keepsBut_writeNow (fun _ => rfl) (by decide +kernel)
  case crcuLoad m u v => exact Option.some.inj h ▸ keepsBut_writeNow (fun _ => rfl) ((by decide +kernel : ∀ k : Fin 4, reachesReg (R.IHM_CRCUu_CTRL k) [] = true) u)
  case crcuData8 m u v => exact Option.some.inj h ▸ keepsBut_writeNow (fun _ => rfl) ((by decide +kernel : ∀ k : Fin 4, reachesReg (R.IHM_CRCUu_DATA8 k) [] = true) u)
  case crcuData16 m u v => exact Option.some.inj h ▸ keepsBut_writeNow (fun _ => rfl) ((by decide +kernel : ∀ k : Fin 4, reachesReg (R.IHM_CRCUu_DATA16 k) [] = true) u)
  case crcuData32 m u v => exact Option.some.inj h ▸ keepsBut_writeNow (fun _ => rfl) ((by decide +kernel : ∀ k : Fin 4, reachesReg (R.IHM_CRCUu_DATA32 k) [] = true) u)
  case safeForceWrite m hd v => exact Option.some.inj h ▸ keepsBut_writeNow (fun _ => rfl) ((by decide +kernel : ∀ k : Fin 32, reachesReg (R.OWB_Hnn_SAFE_CTRL k) [] = true) hd)
  case safeReleaseWrite m hd v => exact Option.some.inj h ▸ keepsBut_writeNow (fun _ => rfl) ((by decide +kernel : ∀ k : Fin 32, reachesReg (R.OWB_Hnn_SAFE_CTRL k) [] = true) hd)
  case safeCtrlWrite m hd v => exact Option.some.inj h ▸ keepsBut_writeNow (fun _ => rfl) ((by decide +kernel : ∀ k : Fin 32, reachesReg (R.OWB_Hnn_SAFE_CTRL k) [] = true) hd)
  case gclApply m p v => exact Option.some.inj h ▸ keepsBut_writeNow (fun _ => rfl) ((by decide +kernel : ∀ k : Fin 16, reachesReg (R.NMP_Pnn_GCL_CTRL k) [] = true) p)
  case gclCancel m p v => exact Option.some.inj h ▸ keepsBut_writeNow (fun _ => rfl) ((by decide +kernel : ∀ k : Fin 16, reachesReg (R.NMP_Pnn_GCL_CTRL k) [] = true) p)
  case syncInArm m v => exact Option.some.inj h ▸ keepsBut_writeNow (fun _ => rfl) (by decide +kernel)
  case coefWrite m addr v => exact Option.some.inj h ▸ keepsBut_wordNow (fun _ => rfl) (by decide) (by decide)
  case layerCntClear m desc w => exact Option.some.inj h ▸ keepsBut_wordNow (fun _ => rfl) (by decide) (by decide)
  case layerSrcClear m desc => exact Option.some.inj h ▸ keepsBut_wordNow (fun _ => rfl) (by decide) (by decide)
  case safeFrameWrite m addr v => exact Option.some.inj h ▸ keepsBut_wordNow (fun _ => rfl) (by decide) (by decide)
  case txStreamConfigWrite m addr v => exact Option.some.inj h ▸ keepsBut_wordNow (fun _ => rfl) (by decide) (by decide)
  case nmpCounterClear m tx addr => exact Option.some.inj h ▸ keepsBut_wordNow (fun _ => rfl) (by cases tx <;> decide) (by cases tx <;> decide)
  case fcSrcWrite m src v => exact Option.some.inj h ▸ keepsBut_wordNow (fun _ => rfl) (by decide) (by decide)
  case doorbell m q => exact Option.some.inj h ▸ keepsBut_writeNow (fun _ => rfl) ((by decide +kernel : ∀ k : Fin 64, reachesReg (R.HWQ_Qnn_DB k) [.queues] = true) q)
  case boardProdWrite m q v => exact Option.some.inj h ▸ keepsBut_writeNow (fun _ => rfl) ((by decide +kernel : ∀ k : Fin 16, reachesReg (R.HWQ_Qnn_PROD k) [.queues] = true) q)
  case glbFuncResetPf0 m => exact Option.some.inj h ▸ keepsBut_writeNow (fun _ => rfl) (by decide +kernel)
  case glbFuncResetPf1 m => exact Option.some.inj h ▸ keepsBut_writeNow (fun _ => rfl) (by decide +kernel)
  case glbFuncResetBoard m => exact Option.some.inj h ▸ keepsBut_writeNow (fun _ => rfl) (by decide +kernel)
  case queueCfgWrite m q v => exact Option.some.inj h ▸ keepsBut_writeNow (fun _ => rfl) ((by decide +kernel : ∀ k : Fin 64, reachesReg (R.HWQ_Qnn_CFG k) [.queues] = true) q)
  case seqCommit m g tag => exact Option.some.inj h ▸ keepsBut_writeNow (fun _ => rfl) ((by decide +kernel : ∀ k : Fin 8, reachesReg (R.SEQ_Gn_COMMIT k) [.compose] = true) g)
  case seqCancel m g tag => exact Option.some.inj h ▸ keepsBut_writeNow (fun _ => rfl) ((by decide +kernel : ∀ k : Fin 8, reachesReg (R.SEQ_Gn_COMMIT k) [.compose] = true) g)
  case fenceSignalWrite m handle => exact Option.some.inj h ▸ keepsBut_wordNow (fun _ => rfl) (by decide) (by decide)
  case fenceWritingWrite m handle => exact Option.some.inj h ▸ keepsBut_wordNow (fun _ => rfl) (by decide) (by decide)
  case todSetHiWrite m v => exact Option.some.inj h ▸ keepsBut_writeNow (fun _ => rfl) (by decide +kernel)
  case refCtrlWrite m reg v =>
    refine Option.some.inj h ▸ ?_
    by_cases hreg : reg.val = 0
    · exact keepsBut_writeNow (m := m) (o := R.TRS_REF_CTRL) (v := setBit v 31 false) (fun s => exec_refCtrl_on m hreg v s) (by decide +kernel)
    · exact keepsBut_writeNow (fun s => exec_refPrio_on m hreg v s)
        ((by decide +kernel : ∀ k : Fin 4, reachesReg (R.TRS_REF_PRIOk (k - 1)) [.outputs, .timing] = true) reg)
  case trsStepNow m v => exact Option.some.inj h ▸ keepsBut_writeNow (fun _ => rfl) (by decide +kernel)
  case nmpPortReset m p => exact Option.some.inj h ▸ keepsBut_writeNow (fun _ => rfl) ((by decide +kernel : ∀ k : Fin 16, reachesReg (R.NMP_Pnn_RESET k) [.outputs, .timing] = true) p)
  case dpCtrlWrite m d v => exact Option.some.inj h ▸ keepsBut_writeNow (fun _ => rfl) ((by decide +kernel : ∀ k : Fin 16, reachesReg (R.OWB_Ddd_CTRL k) [.outputs] = true) d)
  case auxNativeRead m d len addr => exact Option.some.inj h ▸ keepsBut_writeNow (fun _ => rfl) ((by decide +kernel : ∀ k : Fin 16, reachesReg (R.OWB_Ddd_AUX_CMD k) [.outputs] = true) d)
  case auxNativeWrite m d len addr => exact Option.some.inj h ▸ keepsBut_writeNow (fun _ => rfl) ((by decide +kernel : ∀ k : Fin 16, reachesReg (R.OWB_Ddd_AUX_CMD k) [.outputs] = true) d)
  case auxI2cRead m d len addr => exact Option.some.inj h ▸ keepsBut_writeNow (fun _ => rfl) ((by decide +kernel : ∀ k : Fin 16, reachesReg (R.OWB_Ddd_AUX_CMD k) [.outputs] = true) d)
  case auxI2cWrite m d len addr => exact Option.some.inj h ▸ keepsBut_writeNow (fun _ => rfl) ((by decide +kernel : ∀ k : Fin 16, reachesReg (R.OWB_Ddd_AUX_CMD k) [.outputs] = true) d)
  case headReset m hd => exact Option.some.inj h ▸ keepsBut_writeNow (fun _ => rfl) ((by decide +kernel : ∀ k : Fin 32, reachesReg (R.OWB_Hnn_RESET k) [.outputs, .compose] = true) hd)
  case sspRetireCmd m v => exact Option.some.inj h ▸ keepsBut_writeNow (fun _ => rfl) (by decide +kernel)
  case carryCmd m v => exact Option.some.inj h ▸ keepsBut_writeNow (fun _ => rfl) (by decide +kernel)
  case unitReset m v => exact Option.some.inj h ▸ keepsBut_writeNow (fun _ => rfl) (by decide +kernel)
  case rxStreamConfigWrite m addr v => exact Option.some.inj h ▸ keepsBut_wordNow (fun _ => rfl) (by decide) (by decide)
  all_goals cases h

/-- Settles O46: a write queues itself at most, and its effect reaches the parts of its register's handler or of its space. -/
theorem frameOfRegisterWrites : Obligations.FrameOfRegisterWrites := by
  unfold Obligations.FrameOfRegisterWrites
  exact fun c ps s t p hc hempty ht hp hm hforce => keepsBut_writeReaches hc s t p hempty ht hp hm hforce

end Sys2Proof.Proofs

/-!
PROOFS. Holdover, the temperature, the pixel PLLs, SYNC_IN and the board sync link (11_timing_reference.md).
-/
namespace Sys2Proof.Machine
-- One proof at a time, so that the stacks of the evaluations do not add up.
set_option Elab.async false

open Sys2Proof.Claims

/-- What is done for each element of a list and stays whatever else is done, holds of the state in the end for each of them. -/
theorem forEach_mem {α : Type} {P : α → State → Prop} {f : State → α → State} (hdone : ∀ s a, P a (f s a)) (hstay : ∀ s a b, P a s → P a (f s b)) :
    ∀ (xs : List α) (s : State), (∀ a, P a s → P a (forEach xs s f)) ∧ ∀ a ∈ xs, P a (forEach xs s f)
  | [], s => ⟨fun _ h => h, by simp⟩
  | x :: xs, s => by
    obtain ⟨hkept, hmem⟩ := forEach_mem hdone hstay xs (f s x)
    refine ⟨fun a h => hkept a (hstay s a x h), fun a ha => ?_⟩
    obtain rfl | ha := List.mem_cons.mp ha
    · exact hkept a (hdone s a)
    · exact hmem a ha

theorem mem_sampleFaults_opened {vs : List Rat} {v : Rat} (beta : Nat) (hv : v ∈ vs) (h : 99 / 100 < v) : 2 ∈ sampleFaults beta vs := by
  have hany : vs.any (fun v => decide (99 / 100 < v)) = true := List.any_eq_true.mpr ⟨v, hv, by simpa using h⟩
  simp [sampleFaults, hany]

theorem mem_sampleFaults_shorted {vs : List Rat} {v : Rat} (beta : Nat) (hv : v ∈ vs) (h : v < 5 / 1000) : 1 ∈ sampleFaults beta vs := by
  have hany : vs.any (fun v => decide (v < 5 / 1000)) = true := List.any_eq_true.mpr ⟨v, hv, by simpa using h⟩
  simp [sampleFaults, hany]

/-- Samples of which one shows a fault are a fault. -/
theorem oscTemp_fault {s : State} {vs : List Rat} {b : Nat} (h : b ∈ sampleFaults (bits (s.cfg R.TRS_TEMP_CTRL) 31 16) vs) :
    oscTemp s vs = tempFault s (sampleFaults (bits (s.cfg R.TRS_TEMP_CTRL) 31 16) vs) := by
  unfold oscTemp
  dsimp only
  split
  · next heq => simp [heq] at h
  · rfl

-- What a conversion of OSCTEMP leads to, by its source (R297).

section
variable {s : State}

theorem tempConversion_samples {vs : List Rat} (hsrc : tempSrc s = 0) (hvs : vs ≠ []) : tempConversion s (.samples vs) = oscTemp s vs := by
  have hsome : ¬ vs.isEmpty = true := by simpa using hvs
  delta tempConversion
  generalize tempSrc s = n at hsrc
  subst hsrc
  exact if_neg hsome

theorem tempConversion_sensor (hsrc : tempSrc s = 1) (hi lo : Byte) :
    tempConversion s (.i2c hi lo) = tempGood (readSensor s) (signed 16 (hi.toNat * 256 + lo.toNat)) := by
  delta tempConversion
  generalize tempSrc s = n at hsrc
  subst hsrc
  rfl

theorem tempConversion_noAck (hsrc : tempSrc s = 1) : tempConversion s .noAck = tempFault (readSensor s) [0] := by
  delta tempConversion
  generalize tempSrc s = n at hsrc
  subst hsrc
  rfl

end

-- SYNC_IN sets the dividers of the groups of the mask to zero (R286).

/-- The dividers of one group start at the time of the edge. -/
def zeroGroup (s : State) (g : Nat) : State :=
  forEach (s.groupHeads g) (s.setPll g { s.pll g with zeroAt := s.up }) (fun s h => s.setHead h { s.head h with divZero := s.up })

section
variable (s : State) (g : Nat)

theorem zeroGroup_keeps {β : Type} (k : State → β) (hpll : ∀ s g x, k (State.setPll s g x) = k s) (hhead : ∀ s h x, k (State.setHead s h x) = k s) :
    k (zeroGroup s g) = k s := (forEach_keeps k _ (fun s h => hhead s h _) _ _).trans (hpll _ _ _)

@[simp] theorem zeroGroup_up : (zeroGroup s g).up = s.up := zeroGroup_keeps s g State.up (fun _ _ _ => rfl) fun _ _ _ => rfl
@[simp] theorem zeroGroup_groupHeads (k : Nat) : (zeroGroup s g).groupHeads k = s.groupHeads k :=
  zeroGroup_keeps s g (·.groupHeads k) (fun _ _ _ => rfl) fun _ _ _ => rfl

theorem zeroGroup_pll (k : Nat) : (zeroGroup s g).pll k = if k = g then { s.pll g with zeroAt := s.up } else s.pll k := by
  unfold zeroGroup
  rw [forEach_keeps (fun t => t.pll k) (fun s h => s.setHead h { s.head h with divZero := s.up }) fun _ _ => rfl]
  exact State.pll_setPll _ _ _ _

theorem zeroGroup_head (h : Nat) : ((s.head h).divZero = s.up → ((zeroGroup s g).head h).divZero = s.up) ∧
    (h ∈ s.groupHeads g → ((zeroGroup s g).head h).divZero = s.up) := by
  obtain ⟨hkept, hset⟩ := forEach_mem (P := fun h s => (s.head h).divZero = s.up) (f := fun s h => s.setHead h { s.head h with divZero := s.up })
    (fun s a => by simp) (fun s a b ha => by by_cases hab : a = b <;> simp_all [State.head_setHead]) (s.groupHeads g) (s.setPll g { s.pll g with zeroAt := s.up })
  have hup := zeroGroup_up s g
  exact ⟨fun hh => (hkept h hh).trans hup, fun hh => (hset h hh).trans hup⟩

end

/-- The dividers of every group of the mask start at the time of the edge. -/
theorem zeroDividers_zero (s : State) {mask g : Nat} (hg : g < 8) (hm : mask.testBit g = true) : ((zeroDividers s mask).pll g).zeroAt = s.up ∧
    ∀ h ∈ s.groupHeads g, ((zeroDividers s mask).head h).divZero = s.up := by
  have hkeeps {β : Type} (k : State → β) (hk : ∀ s g, k (zeroGroup s g) = k s) : k (zeroDividers s mask) = k s := forEach_keeps k zeroGroup hk _ s
  have hup := hkeeps State.up zeroGroup_up
  have hheads := hkeeps (·.groupHeads g) fun s g' => zeroGroup_groupHeads s g' g
  have hall := (forEach_mem (P := fun g s => (s.pll g).zeroAt = s.up ∧ ∀ h ∈ s.groupHeads g, (s.head h).divZero = s.up) (f := zeroGroup) ?done ?stay
    ((List.range 8).filter mask.testBit) s).2 g (by simp [hg, hm])
  case done =>
    intro s g
    exact ⟨by simp [zeroGroup_pll], fun h hh => by simpa using (zeroGroup_head s g h).2 (by simpa using hh)⟩
  case stay =>
    intro s g g' hs
    obtain ⟨hzero, hdiv⟩ := hs
    refine ⟨?_, fun h hh => by simpa using (zeroGroup_head s g' h).1 (hdiv h (by simpa using hh))⟩
    rw [zeroGroup_pll, zeroGroup_up]
    split_ifs
    · rfl
    · exact hzero
  obtain ⟨hzero, hdiv⟩ := hall
  exact ⟨hzero.trans hup, fun h hh => (hdiv h (hheads ▸ hh)).trans hup⟩

-- An edge of SYNC_IN (R298).

/-- The time of an edge is shown. -/
def stamped (s : State) : State := (s.wr R.TRS_SYNC_TS_LO (word s.time64)).wr R.TRS_SYNC_TS_HI (word (s.time64 / 4294967296))

/-- The edge is the last one seen. -/
def edgeSeen (s : State) : State := { s with trs := { s.trs with syncAt := some s.up } }

theorem syncInEdge_stamp {s : State} (hat : s.trs.syncAt = none) (hstamp : bit (s.cfg R.TRS_SYNC_CTRL) 30 = true) : syncInEdge s = stamped (edgeSeen s) := by
  unfold syncInEdge
  rw [hat]
  exact (if_neg Bool.false_ne_true).trans (if_pos hstamp)

theorem syncInEdge_near {s : State} {at_ : Nat} (hat : s.trs.syncAt = some at_) (hnear : s.up < at_ + 1000) : syncInEdge s = edgeSeen s := by
  unfold syncInEdge
  rw [hat]
  exact if_pos (decide_eq_true (by omega))

theorem syncInEdge_armed {s : State} (hat : s.trs.syncAt = none) (hstamp : bit (s.cfg R.TRS_SYNC_CTRL) 30 = false) (harm : bit (s.rd R.TRS_SYNC_STAT) 31 = true) :
    ∃ v w, syncInEdge s = raise (((zeroDividers ((stamped (edgeSeen s)).wr R.TRS_SYNC_STAT v) (bits (s.cfg R.TRS_SYNC_CTRL) 7 0)).wr R.TRS_SYNC_CTRL w).setCfg
      R.TRS_SYNC_CTRL (setBit (s.cfg R.TRS_SYNC_CTRL) 31 false)) 276 := by
  unfold syncInEdge
  rw [hat]
  exact ⟨_, _, (if_neg Bool.false_ne_true).trans ((if_neg (by simp [hstamp])).trans (if_pos harm))⟩

section
variable (s u : State)

theorem held_pll (g : Nat) : (hold s (keeping [.force, .outputs, .timing] s u)).pll g = u.pll g := rfl
theorem held_rd_trs (x : Trs) (o : Nat) : (hold s (keeping [.timing] s { u with trs := x })).rd o = u.rd o := rfl
theorem held_head (h : Nat) : (hold s (keeping [.force, .outputs, .timing] s u)).head h = u.head h := rfl
theorem held_cfg (o : Nat) : (hold s (keeping [.force, .outputs, .timing] s u)).cfg o = u.cfg o := rfl

end

-- The board sync link.

theorem bslRate_off {s : State} (h : bit (s.cfg R.TRS_BSL_CTRL) 31 = false) :
    bslRate s = s.wr R.TRS_BSL_STAT (setBit (s.rd R.TRS_BSL_STAT) 30 false) := by
  simp [bslRate, h]

end Sys2Proof.Machine

namespace Sys2Proof.Proofs
-- One proof at a time, so that the stacks of the evaluations do not add up.
set_option Elab.async false

open Sys2Proof.Machine Sys2Proof.Claims

/-- Settles O24: each event's own effect, branch by branch. -/
theorem timingEvents : Obligations.TimingEvents := by
  unfold Obligations.TimingEvents
  refine ⟨fun s hs hst => ends_of hs (fun _ => rfl) ?learn,
    fun s hs hst => ends_of hs (fun _ => rfl) ?update,
    fun vs x s hs hsrc hvs hok hx => gives_of hs (fun _ => rfl) ?good,
    fun vs v s hs hsrc hv hfault => ?fault,
    fun hi lo s hs hsrc => ⟨gives_of hs (fun _ => rfl) ?sensor, gives_of hs (fun _ => rfl) ?noAck⟩,
    fun g s hs hst htried => ⟨gives_of hs (fun _ => rfl) ?locked, fun r b hr hb => ends_of hs (fun _ => rfl) ?band,
      fun r hr hb => gives_of hs (fun _ => rfl) ?failed⟩,
    fun g s hs hst => gives_of hs (fun _ => rfl) ?unlock,
    fun s hs hat hstamp => ends_of hs (fun _ => rfl) ?stamp,
    fun at_ s hs hat hnear => ends_of hs (fun _ => rfl) ?near,
    fun s hs hat hstamp harm => ends_of hs (fun _ => rfl) ?armed,
    fun s hs hoff => ends_of hs (fun _ => rfl) ?txOff,
    fun s hs hon hrate hpll => ends_of hs (fun _ => rfl) ?tx,
    fun msg s hs hlink hfirst => ends_of hs (fun _ => rfl) ?rxFirst,
    fun msg s hs hlink hfirst hbad => gives_of hs (fun _ => rfl) ?rxBad,
    fun s hs => ends_of hs (fun _ => rfl) ?align,
    fun s hs => ends_of hs (fun _ => rfl) ?lost,
    fun s hs hlink => gives_of hs (fun _ => rfl) ?missing,
    fun m s hp hmgmt hreach hinj => ?timeLo⟩
  case learn => 
    simp [learnTick, hst]
  case update =>
    rw [if_neg (by simp [hst])]
    exact ⟨rfl, hst⟩
  case good =>
    rw [tempConversion_samples hsrc hvs, oscTemp, hok]
    simp only [hx]
  case fault =>
    have hopened := mem_sampleFaults_opened (bits (s.cfg R.TRS_TEMP_CTRL) 31 16) hv
    have hshorted := mem_sampleFaults_shorted (bits (s.cfg R.TRS_TEMP_CTRL) 31 16) hv
    refine ⟨gives_of hs (fun _ => rfl) ?_, hopened, hshorted⟩
    have hseen : ∃ b, b ∈ sampleFaults (bits (s.cfg R.TRS_TEMP_CTRL) 31 16) vs := hfault.elim (fun h => ⟨_, hopened h⟩) fun h => ⟨_, hshorted h⟩
    obtain ⟨b, hb⟩ := hseen
    rw [tempConversion_samples hsrc (List.ne_nil_of_mem hv), oscTemp_fault hb]
  case sensor => exact tempConversion_sensor hsrc hi lo
  case noAck => exact tempConversion_noAck hsrc
  case locked => simp [lockTryEnd, hst, htried]
  case band =>
    have h : lockTryEnd s g r = s.setPll g { s.pll g with band := b, tried := b :: (s.pll g).tried, code := bandSeed s (s.pll g).phys b } := by
      cases r <;> simp_all [lockTryEnd]
    rw [h]
    exact ⟨State.pll_setPll_self _ _ _, rfl⟩
  case failed => cases r <;> simp_all [lockTryEnd]
  case unlock => simp [pllUnlock, pllLost, hst]
  case stamp =>
    rw [syncInEdge_stamp hat hstamp]
    exact ⟨by simp [stamped, State.rd_wr]; rfl, by simp [stamped]; rfl, rfl⟩
  case near =>
    rw [syncInEdge_near hat hnear]
    exact ⟨rfl, rfl⟩
  case armed =>
    obtain ⟨v, w, h⟩ := syncInEdge_armed hat hstamp harm
    rw [h]
    refine ⟨fun g hg hbit => ?_, ?_⟩
    · have hmask : (bits (s.cfg R.TRS_SYNC_CTRL) 7 0).testBit g = true := by
        rw [bits_testBit, Nat.zero_add, hbit]
        simp [hg]
      obtain ⟨hzero, hdiv⟩ := zeroDividers_zero ((stamped (edgeSeen s)).wr R.TRS_SYNC_STAT v) hg hmask
      refine ⟨?_, fun k hk => ?_⟩
      · rw [held_pll, raise_pll_read]
        exact hzero
      · rw [held_head, raise_head_read]
        exact hdiv k hk
    · rw [held_cfg, raise_cfg_read]
      exact State.cfg_setCfg_self _ _ _
  case txOff =>
    simp only [bslRate_off hoff]
    rw [if_neg (by simp [hoff])]
    exact ⟨rfl, rfl, by simp [bit_setBit]⟩
  case tx =>
    dsimp only
    rw [if_pos ⟨hon, by simp [hrate], hpll⟩]
    exact ⟨rfl, rfl⟩
  case rxFirst => simp [bslRx, hlink, hfirst]
  case rxBad =>
    have hok : (decide (msg.length = 52) && decide (Machine.crc32c (slice msg 1 47) = le msg 48 4) && decide (byteAt msg 1 = 1)) = false := by
      obtain h | h := hbad <;> simp [h]
    unfold bslRx
    rw [hok]
    simp [hlink, hfirst]
  case align =>
    refine ⟨rfl, ?_⟩
    rw [held_rd_trs, State.setFlag, State.rd_wr_self]
    simp [bit_setBit]
  case lost =>
    refine ⟨rfl, ?_⟩
    rw [held_rd_trs, State.rd_wr_self]
    simp [bit_setBit]
  case missing => rw [if_pos hlink]
  case timeLo =>
    rw [Ends, exec_timeLoRead_eq, runMirror_on hp, readReg_timeLo hmgmt hreach hinj]
    exact ⟨_, rfl, by simp⟩

end Sys2Proof.Proofs

/-!
PROOFS. What a raise cannot reach, whatever it forces (14_integrity_safety.md, The reaction path).
-/
namespace Sys2Proof.Machine
-- One proof at a time, so that the stacks of the evaluations do not add up.
set_option Elab.async false

open Sys2Proof.Claims

/-- What holds of a state whatever the collector, the records to the host, the safe states and the egress lines then show: of the indirect
spaces a raise writes counters and records alone, which lie behind the settings of the receive streams. -/
structure Unforced (P : State → Prop) : Prop where
  wr : ∀ s o v, P s → P (s.wr o v)
  setSp : ∀ s k v, skey Space.NMP_RXC 0 ≤ k → P s → P (s.setSp k v)
  setSafe : ∀ s h x, P s → P (s.setSafe h x)
  setPort : ∀ s p x, P s → P (s.setPort p x)
  cut : ∀ s st, P s → P (s.setTxs st { s.txs st with sending := false })
  setFunc : ∀ s k x, P s → P (s.setFunc k x)
  emit : ∀ s e, P s → P (s.emit e)
  col : ∀ s x, P s → P { s with col := x }
  fresh : ∀ s, P s → P s.bumpFresh

theorem skey_hist_le (a : Nat) : skey Space.NMP_RXC 0 ≤ skey Space.FC_HIST a := by
  simp only [skey, Space.NMP_RXC, Space.FC_HIST]
  omega

theorem txcKey_le (st w : Nat) : skey Space.NMP_RXC 0 ≤ txcKey st w := by
  simp only [txcKey, skey, Space.NMP_RXC, Space.NMP_TXC]
  omega

namespace Unforced

variable {P : State → Prop} (hP : Unforced P) {s : State} (hs : P s)
include hP hs

theorem setFlag (o i : Nat) : P (s.setFlag o i) := hP.wr _ _ _ hs

theorem loseRecord (k : Nat) : P (Machine.loseRecord s k) := hP.wr _ _ _ (hP.setFunc _ _ _ hs)

theorem writeRecord (k : Nat) (a b : List Byte) : P (Machine.writeRecord s k a b) := hP.setFunc _ _ _ (hP.wr _ _ _ (hP.emit _ _ hs))

theorem sendMsix (k v : Nat) : P (Machine.sendMsix s k v) := by
  unfold Machine.sendMsix
  dsimp only
  split_ifs
  · exact hP.emit _ _ hs
  · exact hs
  · exact hP.setFunc _ _ _ hs
  · exact hs

theorem evrMessage (k : Nat) : P (Machine.evrMessage s k) := by
  unfold Machine.evrMessage
  dsimp only
  split_ifs
  · exact hP.setFunc _ _ _ hs
  · exact hP.sendMsix (hP.setFunc _ _ _ hs) _ _
  · exact hs

theorem flushLost (k : Nat) : P (Machine.flushLost s k) := by
  unfold Machine.flushLost
  dsimp only
  split_ifs
  · exact hs
  · exact hP.setFunc _ _ _ (hP.writeRecord hs _ _ _)

theorem postRecord (k : Nat) (a b : List Byte) : P (Machine.postRecord s k a b).1 := by
  unfold Machine.postRecord
  dsimp only
  split_ifs
  · exact hP.evrMessage (hP.writeRecord (hP.flushLost hs _) _ _ _) _
  · exact hP.loseRecord (hP.flushLost hs _) _
  · exact hP.loseRecord hs _

theorem postSource (src detail : Nat) : P (Machine.postSource s src detail).1 := by
  unfold Machine.postSource
  dsimp only
  split_ifs
  · exact hP.postRecord (hP.postRecord hs _ _ _) _ _ _
  · exact hP.postRecord hs _ _ _
  · exact hP.postRecord hs _ _ _
  · exact hs

theorem latch (src : Nat) (inj : Bool) (own : Word) : P (Machine.latch s src inj own) := by
  have hrewritten (ws : List Nat) : P (rewritten s ws) := by
    unfold rewritten
    split_ifs
    · exact hs
    · exact hP.col _ _ hs
  exact hP.col _ _ (hrewritten _)

theorem noteRise (src h : Nat) : P (Machine.noteRise src s h) := by
  unfold Machine.noteRise
  dsimp only
  split_ifs
  · exact hP.wr _ _ _ (hP.setSafe _ _ _ hs)
  · exact hP.setSafe _ _ _ hs
  · exact hs

theorem latchLines (src : Nat) (inj : Bool) (own : Word) : P (Machine.latchLines s src inj own) := by
  unfold Machine.latchLines
  refine forEach_induct (fun t k ht => ?_) (hP.latch hs _ _ _) _
  exact hP.noteRise ht src k

theorem raiseCounted (src detail : Nat) (inj : Bool) (own : Word) : P (Machine.raiseCounted s src detail inj own) := by
  have hraise := hP.latchLines (hP.postSource hs src detail) src inj own
  unfold Machine.raiseCounted
  dsimp only
  split
  · exact hP.latchLines (hP.postSource hraise _ _) _ _ _
  · exact hraise

theorem useWords (ws : List Nat) : P (Machine.useWords s ws) := by
  unfold Machine.useWords
  refine forEach_induct (fun t w ht => ?_) hs _
  exact hP.raiseCounted (hP.wr _ _ _ (hP.wr _ _ _ ht)) _ _ _ _

theorem raiseCore (src detail : Nat) (inj : Bool) (own : Word) : P (Machine.raiseCore s src detail inj own) := by
  unfold Machine.raiseCore
  split
  · exact hP.raiseCounted hs _ _ _ _
  · exact hP.raiseCounted (hP.useWords hs _) _ _ _ _

theorem reportSafe (w0 w1 : Word) : P (Machine.reportSafe s w0 w1) :=
  hP.raiseCore (hP.wr _ _ _ (hP.setSp _ _ _ (skey_hist_le _) (hP.setSp _ _ _ (skey_hist_le _) (hP.setSp _ _ _ (skey_hist_le _)
    (hP.setSp _ _ _ (skey_hist_le _) hs))))) _ _ _ _

theorem cutStream (st : Nat) : P (Machine.cutStream s st) := by
  unfold Machine.cutStream
  dsimp only
  split
  · exact hP.raiseCore (hP.setSp _ _ _ (txcKey_le _ _) (hP.cut _ _ hs)) _ _ _ _
  · exact hs

theorem auxSend (d : Nat) : P (Machine.auxSend s d) := by
  unfold Machine.auxSend
  split
  · split
    · exact hs
    · exact hP.emit _ _ hs
  · exact hs

theorem dpSafeOff (d : Nat) : P (Machine.dpSafeOff s d) := by
  unfold Machine.dpSafeOff
  dsimp only
  split
  · exact hP.auxSend (hP.wr _ _ _ hs) _
  · exact hP.wr _ _ _ hs

theorem creditChange (p k : Nat) (c : Int) : P (Machine.creditChange s p k c) := by
  unfold Machine.creditChange
  split
  · exact hs
  · exact hP.wr _ _ _ (hP.setPort _ _ _ hs)

theorem dropFrames (p : Nat) (f : TxFrame → Bool) : P (Machine.dropFrames s p f) := by
  unfold Machine.dropFrames
  refine hP.setPort _ _ _ (forEach_induct (fun t k ht => ?_) hs _)
  exact hP.creditChange ht _ _ _

theorem portOff (h : Nat) : P (Machine.portOff s h) := by
  unfold Machine.portOff
  refine forEach_induct (fun t st ht => ?cut) (forEach_induct (fun t p ht => ?drop) (forEach_induct (fun t d ht => ?off) hs _) _) _
  case drop => exact hP.dropFrames ht _ _
  case cut =>
    dsimp only
    split
    · exact hP.cutStream ht st
    · exact ht
  case off =>
    split
    · exact hP.dpSafeOff ht d
    · exact ht

theorem enterSafe (h : Nat) (force : Bool) (cause : Nat) (w1 : Word) : P (Machine.enterSafe s h force cause w1) := by
  unfold Machine.enterSafe
  dsimp only
  split
  · exact hP.reportSafe (hP.portOff (hP.wr _ _ _ (hP.setSafe _ _ _ hs)) _) _ _
  · exact hP.reportSafe (hP.wr _ _ _ (hP.setSafe _ _ _ hs)) _ _

theorem enterForced (h : Nat) : P (Machine.enterForced s h) := by
  unfold Machine.enterForced
  dsimp only
  split_ifs
  · exact hs
  · exact hP.enterSafe (hP.fresh _ hs) _ _ _ _
  · exact hP.enterSafe (hP.fresh _ hs) _ _ _ _
  · exact hP.setSafe _ _ _ hs
  · exact hs

omit hs in
theorem settleForce : ∀ (fuel : Nat) {s : State}, P s → P (Machine.settleForce fuel s)
  | 0, _, hs => hs
  | fuel + 1, s, hs => by
    have hround : P (forEach (List.range 32) s Machine.enterForced) := by
      refine forEach_induct (fun t h ht => ?_) hs _
      exact hP.enterForced ht h
    unfold Machine.settleForce
    dsimp only
    split
    · exact settleForce fuel hround
    · exact hround

omit hs in
/-- What a reaction finds holds after it. -/
theorem withForce {f : State → State} (hf : P (f s)) : P (Machine.withForce f s) := by
  unfold Machine.withForce
  exact hP.settleForce _ hf

/-- A raise, held to no part, leaves what no part shows. -/
theorem raiseFull (hparts : ∀ t u, P u → P (keeping [] t u)) (src detail : Nat) (inj : Bool) (own : Word) : P (Machine.raiseFull s src detail inj own) :=
  hparts _ _ (hP.withForce (f := fun s => Machine.raiseCore s src detail inj own) (hP.raiseCore hs _ _ _ _))

end Unforced

/-- A value that the reaction path does not show. -/
theorem unforced_eq {β : Type} (g : State → β) (x : β) (wr : ∀ s o v, g (State.wr s o v) = g s) (setSp : ∀ s k v, g (State.setSp s k v) = g s)
    (setSafe : ∀ s h x, g (State.setSafe s h x) = g s) (setPort : ∀ s p x, g (State.setPort s p x) = g s) (setTxs : ∀ s i x, g (State.setTxs s i x) = g s)
    (setFunc : ∀ s k x, g (State.setFunc s k x) = g s) (emit : ∀ s e, g (State.emit s e) = g s) (col : ∀ (s : State) x, g { s with col := x } = g s)
    (fresh : ∀ s, g (State.bumpFresh s) = g s) : Unforced (fun s => g s = x) :=
  ⟨fun _ _ _ h => (wr _ _ _).trans h, fun _ _ _ _ h => (setSp _ _ _).trans h, fun _ _ _ h => (setSafe _ _ _).trans h, fun _ _ _ h => (setPort _ _ _).trans h,
    fun _ _ h => (setTxs _ _ _).trans h, fun _ _ _ h => (setFunc _ _ _).trans h, fun _ _ h => (emit _ _).trans h, fun _ _ h => (col _ _).trans h,
    fun _ h => (fresh _).trans h⟩

end Sys2Proof.Machine

/-!
PROOFS. Supply voltage and temperature (15_health_spares_power.md, Adaptive voltage, Temperature).
-/
namespace Sys2Proof.Machine
-- One proof at a time, so that the stacks of the evaluations do not add up.
set_option Elab.async false

open Sys2Proof.Claims

-- Adaptive voltage (R415 to R417).

section
variable {α : Type} (p : α → Prop) [DecidablePred p] (f : α → Nat)

theorem foldl_max_le {w : Nat} : ∀ (xs : List α) (m : Nat), m ≤ w → (∀ u ∈ xs, p u → f u ≤ w) → xs.foldl (fun m u => if p u then max m (f u) else m) m ≤ w
  | [], _, hm, _ => hm
  | x :: xs, m, hm, hall => by
    refine foldl_max_le xs _ ?_ fun u hu => hall u (List.mem_cons_of_mem _ hu)
    dsimp only
    split_ifs with hx
    · exact max_le hm (hall x List.mem_cons_self hx)
    · exact hm

theorem le_foldl_max : ∀ (xs : List α) (m : Nat), m ≤ xs.foldl (fun m u => if p u then max m (f u) else m) m ∧
    ∀ u ∈ xs, p u → f u ≤ xs.foldl (fun m u => if p u then max m (f u) else m) m
  | [], m => ⟨le_rfl, by simp⟩
  | x :: xs, m => by
    obtain ⟨hm, hall⟩ := le_foldl_max xs (if p x then max m (f x) else m)
    refine ⟨le_trans ?_ hm, fun u hu hp => ?_⟩
    · split_ifs
      · exact le_max_left _ _
      · exact le_rfl
    · obtain rfl | hu := List.mem_cons.mp hu
      · rw [if_pos hp] at hm
        exact (le_max_right _ _).trans (by rw [List.foldl_cons, if_pos hp]; exact hm)
      · exact hall u hu hp

end

theorem worstPeriod_le {s : State} {w : Nat} (h : ∀ u, u < 570 → effState s u = 2 → (s.metered u).period ≤ w) : worstPeriod s ≤ w :=
  foldl_max_le _ _ _ _ (Nat.zero_le w) fun u hu => h u (List.mem_range.mp hu)

theorem le_worstPeriod {s : State} {u : Nat} (hu : u < 570) (heff : effState s u = 2) : (s.metered u).period ≤ worstPeriod s :=
  (le_foldl_max (fun u => effState s u = 2) (fun u => (s.metered u).period) _ 0).2 u (List.mem_range.mpr hu) heff

/-- The bus as a readback leaves it (R417). -/
def judgedHealth (h : Health) : Option Nat → Health
  | none => { h with busErr := true, offMs := 0 }
  | some v => if v ≤ h.target + 25 ∧ h.target ≤ v + 25 then { h with busErr := false, offMs := 0 }
    else { h with busErr := h.busErr || decide (10 ≤ h.offMs + 1), offMs := h.offMs + 1 }

theorem avsJudge_eq (s : State) (r : Option Nat) : avsJudge s r = { s with health := judgedHealth s.health r } := by
  cases r with
  | none => rfl
  | some v =>
    unfold avsJudge judgedHealth
    dsimp only
    split <;> rfl

/-- The target of an update is asked for. -/
def avsAsked (s : State) : State := ({ s with health := { s.health with target := avsTarget s } }).emit (.avs (avsTarget s))

theorem setNotice_health (s : State) (o src : Nat) (now : Bool) : (setNotice s o src now).health = s.health := by
  unfold setNotice
  dsimp only
  split
  · exact raise_health _ _
  · rfl

theorem avsUpdate_health {s : State} (hmgmt : s.mgmt = true) (r : Option Nat) : (avsUpdate s r).health = judgedHealth { s.health with target := avsTarget s } r := by
  rw [avsUpdate, if_neg (by simp [hmgmt])]
  dsimp only
  split_ifs
  · rw [raise_health, avsShow, State.wr_health, avsJudge_eq, setNotice_health]
    rfl
  · rw [avsShow, State.wr_health, avsJudge_eq, setNotice_health]
    rfl

theorem held_health (s u : State) : (hold s (keeping [.health] s u)).health = u.health := rfl

theorem held_thermal (s u : State) : (hold s (keeping [.store, .queues, .health] s u)).health = u.health := rfl

theorem judgedHealth_target (h : Health) (r : Option Nat) : (judgedHealth h r).target = h.target := by
  cases r with
  | none => rfl
  | some v =>
    unfold judgedHealth
    dsimp only
    split <;> rfl

/-- A readback changes what is known of the bus, and no more. -/
theorem judgedHealth_bus (h : Health) (r : Option Nat) : judgedHealth h r = { h with busErr := (judgedHealth h r).busErr, offMs := (judgedHealth h r).offMs } := by
  cases r with
  | none => rfl
  | some v =>
    unfold judgedHealth
    dsimp only
    split <;> rfl

/-- An update in which every unit keeps its period sets no notice: the state before the bus error is raised. -/
def avsHeard (s : State) (v : Nat) : State :=
  avsShow { (avsAsked s).wr R.IHM_AVS_CONSTRAINED (noticeWord (s.rd R.IHM_AVS_CONSTRAINED) false) with health := judgedHealth { s.health with target := avsTarget s } (some v) } v

theorem avsUpdate_heard {s : State} {v : Nat} (hmgmt : s.mgmt = true) (hle : worstPeriod s ≤ 1000) :
    avsUpdate s (some v) = if (judgedHealth { s.health with target := avsTarget s } (some v)).busErr = true ∧ ¬ s.health.busErr = true then raise (avsHeard s v) 317
      else avsHeard s v := by
  have hnow : (avsRuns s && decide (avsTarget s = (avsWindow s).2 ∧ 1000 < worstPeriod s)) = false := by
    simp [not_lt.mpr hle]
  rw [avsUpdate, if_neg (by simp [hmgmt])]
  dsimp only
  rw [hnow, avsJudge_eq]
  rfl

theorem avsShow_stat (s : State) (v : Nat) : bits ((avsShow s v).rd R.IHM_AVS_STAT) 25 16 = s.health.target % 1024 ∧
    bits ((avsShow s v).rd R.IHM_AVS_STAT) 9 0 = v % 1024 := by
  unfold avsShow
  dsimp only
  rw [State.rd_wr_self]
  simp only [bits, word, BitVec.toNat_ofNat, Nat.shiftRight_eq_div_pow]
  split_ifs <;> omega

theorem avsHeard_stat (s : State) (v : Nat) : bits ((avsHeard s v).rd R.IHM_AVS_STAT) 25 16 = avsTarget s % 1024 ∧
    bits ((avsHeard s v).rd R.IHM_AVS_STAT) 9 0 = v % 1024 := by
  obtain ⟨htarget, hread⟩ := avsShow_stat { (avsAsked s).wr R.IHM_AVS_CONSTRAINED (noticeWord (s.rd R.IHM_AVS_CONSTRAINED) false) with
    health := judgedHealth { s.health with target := avsTarget s } (some v) } v
  exact ⟨htarget.trans (congrArg (· % 1024) (judgedHealth_target _ _)), hread⟩

-- The die sensors (R418, R419).

/-- Readings of sixteen sensors in range that lie close to one another show no fault. -/
theorem faultySensors_near {die : List Int} (hlen : die.length = 16) (hrange : ∀ j, j < 16 → -14080 ≤ die.getD j 0 ∧ die.getD j 0 ≤ 38400)
    (hnear : ∀ i j, i < 16 → j < 16 → die.getD i 0 ≤ die.getD j 0 + 5120) : faultySensors die = [] := by
  have hmem (t : Int) (ht : t ∈ die) : ∃ j, j < 16 ∧ die.getD j 0 = t := by
    obtain ⟨j, hj, rfl⟩ := List.getElem_of_mem ht
    exact ⟨j, hlen ▸ hj, List.getD_eq_getElem _ _ hj⟩
  have hall : die.filter sensorInRange = die := by
    rw [List.filter_eq_self]
    intro t ht
    obtain ⟨j, hj, rfl⟩ := hmem t ht
    simpa [sensorInRange] using hrange j hj
  have hsorted : die.mergeSort.length = 16 := by rw [List.length_mergeSort, hlen]
  have hmiddle (i : Nat) (hi : i < 16) : ∃ j, j < 16 ∧ die.getD j 0 = die.mergeSort.getD i 0 := by
    refine hmem _ ?_
    rw [List.getD_eq_getElem _ _ (by omega)]
    exact List.mem_mergeSort.mp (List.getElem_mem _)
  obtain ⟨i7, h7, e7⟩ := hmiddle 7 (by omega)
  obtain ⟨i8, h8, e8⟩ := hmiddle 8 (by omega)
  have htwice : twiceMedian (die.filter sensorInRange) = die.getD i7 0 + die.getD i8 0 := by
    rw [hall, twiceMedian, hsorted, e7, e8]
  unfold faultySensors
  dsimp only
  rw [htwice, List.filter_eq_nil_iff]
  intro k hk
  have hk16 : k < 16 := List.mem_range.mp hk
  have hr := hrange k hk16
  have h1 := hnear k i7 hk16 h7
  have h2 := hnear k i8 hk16 h8
  have h3 := hnear i7 k h7 hk16
  have h4 := hnear i8 k h8 hk16
  have hin : sensorInRange (die.getD k 0) = true := by simpa [sensorInRange] using hr
  simp only [hin, Bool.not_true, Bool.false_or, Bool.or_eq_true, decide_eq_true_eq, not_or, not_lt]
  omega

/-- The hottestSensor of the sensors `xs`: of several the first. -/
def hottestSensor (die : List Int) (xs : List Nat) : Option Nat :=
  xs.foldl (fun (m : Option Nat) k => match m with
    | some i => if die.getD i 0 < die.getD k 0 then some k else some i
    | none => some k) none

theorem hottestSensor_range (die : List Int) (n : Nat) :
    ∃ i, i < n + 1 ∧ hottestSensor die (List.range (n + 1)) = some i ∧ (∀ j, j < n + 1 → die.getD j 0 ≤ die.getD i 0) ∧ ∀ j, j < i → die.getD j 0 < die.getD i 0 := by
  induction n with
  | zero => exact ⟨0, by omega, rfl, fun j hj => by obtain rfl : j = 0 := by omega
                                                    exact le_rfl, fun j hj => by omega⟩
  | succ n ih =>
    obtain ⟨i, hi, hhot, hmax, hfirst⟩ := ih
    have hnext : hottestSensor die (List.range (n + 1 + 1)) = if die.getD i 0 < die.getD (n + 1) 0 then some (n + 1) else some i := by
      rw [List.range_succ, hottestSensor, List.foldl_append]
      rw [hottestSensor] at hhot
      rw [hhot]
      rfl
    rw [hnext]
    split_ifs with hlt
    · refine ⟨n + 1, by omega, rfl, fun j hj => ?_, fun j hj => (hmax j hj).trans_lt hlt⟩
      obtain hj | rfl : j < n + 1 ∨ j = n + 1 := by omega
      · exact ((hmax j hj).trans_lt hlt).le
      · exact le_rfl
    · refine ⟨i, by omega, rfl, fun j hj => ?_, hfirst⟩
      obtain hj | rfl : j < n + 1 ∨ j = n + 1 := by omega
      · exact hmax j hj
      · exact not_lt.mp hlt

-- The stages of an update of the temperatures.

/-- The faulty sensors are known, and those newly found are raised. -/
def sensorsJudged (s : State) (die : List Int) : State :=
  forEach ((faultySensors die).filter (fun k => !s.health.faulty.contains k))
    { s.wr R.IHM_THERM_STAT (setBits (s.rd R.IHM_THERM_STAT) 15 0 ((faultySensors die).map (fun k => 2 ^ k)).sum) with
      health := { s.health with faulty := faultySensors die } } (fun s _ => raise (s.setFlag R.IHM_THERM_STAT 25) 318)

/-- T_die, of the hottest valid sensor. -/
def dieRead (s : State) (die : List Int) : State :=
  match hottestSensor die ((List.range 16).filter (fun k => !(faultySensors die).contains k)) with
  | some k => showDie (sensorsJudged s die) k (die.getD k 0)
  | none => sensorsJudged s die

/-- Every temperature is shown. -/
def tempsRead (s : State) (t : Temps) : State :=
  (if t.hbm = [] then dieRead s t.die else (dieRead s t.die).wr R.IHM_TEMP_HBM (word (leNat (t.hbm.map (BitVec.ofNat 8))))).wr R.IHM_TEMP_BOARD
    (word (leNat ((t.board ++ List.replicate 4 0x80#8).take 4)))

/-- The hottest stack that IHM_TEMP_HBM shows. -/
def stackTemp (s : State) : Nat :=
  let hb := s.rd R.IHM_TEMP_HBM
  max (max (bits hb 7 0) (bits hb 15 8)) (max (bits hb 23 16) (bits hb 31 24))

/-- The level that an update leads to. -/
def levelRead (s : State) (t : Temps) : Nat :=
  thermLevel (tempsRead s t) (tempsRead s t).health.die (stackTemp (tempsRead s t)) (faultySensors t.die).length

/-- The level is shown, and the levels entered are raised. -/
def levelShown (s : State) (t : Temps) : State :=
  forEach ([1, 2, 3].filter (fun k => decide ((tempsRead s t).health.level < k ∧ k ≤ levelRead s t)))
    (({ tempsRead s t with health := { (tempsRead s t).health with level := levelRead s t } }).wrBits R.IHM_THERM_STAT 31 30 (levelRead s t)) enterLevel

theorem thermalUpdate_eq {s : State} (hmgmt : s.mgmt = true) (t : Temps) :
    thermalUpdate s t = if 2 ≤ levelRead s t then releaseOffline (levelShown s t) else pump (levelShown s t) := by
  rw [thermalUpdate, if_neg (by simp [hmgmt])]
  rfl

theorem sensorsJudged_health (s : State) (die : List Int) : (sensorsJudged s die).health = { s.health with faulty := faultySensors die } :=
  forEach_keeps State.health (fun s _ => raise (s.setFlag R.IHM_THERM_STAT 25) 318) (fun u k => by rw [raise_health, State.setFlag_health]) _ _

theorem sensorsJudged_cfg (s : State) (die : List Int) (o : Nat) : (sensorsJudged s die).cfg o = s.cfg o :=
  forEach_keeps (fun t => t.cfg o) (fun s _ => raise (s.setFlag R.IHM_THERM_STAT 25) 318) (fun u k => by rw [raise_cfg_read, State.cfg, State.setFlag_unit, State.cfg]) _ _

theorem showDie_health (s : State) (k : Nat) (v : Int) : (showDie s k v).health = { s.health with die := v } := by
  unfold showDie
  dsimp only
  split <;> rfl

theorem showDie_cfg (s : State) (k : Nat) (v : Int) (o : Nat) : (showDie s k v).cfg o = s.cfg o := by
  unfold showDie
  dsimp only
  split <;> rfl

theorem tempsRead_cfg (s : State) (t : Temps) (o : Nat) : (tempsRead s t).cfg o = s.cfg o := by
  have hdie : (dieRead s t.die).cfg o = s.cfg o := by
    unfold dieRead
    split
    · rw [showDie_cfg, sensorsJudged_cfg]
    · exact sensorsJudged_cfg _ _ _
  unfold tempsRead
  split
  · exact hdie
  · exact hdie

theorem tempsRead_health (s : State) (t : Temps) : ∃ v, (tempsRead s t).health = { s.health with faulty := faultySensors t.die, die := v } ∧
    ∀ k, hottestSensor t.die ((List.range 16).filter (fun k => !(faultySensors t.die).contains k)) = some k → v = t.die.getD k 0 := by
  have hdie : (tempsRead s t).health = (dieRead s t.die).health := by
    unfold tempsRead
    split <;> rfl
  rw [hdie, dieRead]
  split
  · next k hk =>
    rw [showDie_health, sensorsJudged_health, hk]
    exact ⟨_, rfl, fun k hk => by obtain rfl := Option.some.inj hk
                                  rfl⟩
  · next hk =>
    rw [sensorsJudged_health, hk]
    exact ⟨_, rfl, fun k hk => by cases hk⟩

theorem enterLevel_health (s : State) (k : Nat) : (enterLevel s k).health = s.health := by
  unfold enterLevel
  split <;> rw [raise_health, State.setFlag_health]

theorem levelShown_health (s : State) (t : Temps) : (levelShown s t).health = { (tempsRead s t).health with level := levelRead s t } :=
  forEach_keeps State.health enterLevel enterLevel_health _ _

/-- Only what the units have in use has changed. -/
def UnitsOnly (h : Health) (s : State) : Prop := s.health = { h with units := s.health.units }

theorem releaseUnits_unitsOnly {h : Health} {s : State} (q : Nat) (hs : UnitsOnly h s) : UnitsOnly h (releaseUnits s q) := by
  unfold releaseUnits
  split
  · exact hs
  · refine forEach_induct (fun t u ht => ?_) ?_ _
    · split
      · rw [UnitsOnly] at ht ⊢
        rw [setReqEff, State.setMetered, ht]
      · exact ht
    · exact hs

theorem releaseOffline_unitsOnly (s : State) : UnitsOnly s.health (releaseOffline s) := by
  unfold releaseOffline
  refine forEach_induct (P := UnitsOnly s.health) (fun t q ht => ?_) rfl _
  split
  · split
    · exact releaseUnits_unitsOnly q ht
    · exact ht
  · exact ht

theorem startCarry_health (s : State) (c : Carry) : (startCarry s c).health = s.health := by
  have hconstrained (p : Nat) : (constrained s p).health = s.health := by rw [constrained, raise_health, State.wr_health]
  unfold startCarry
  split
  · rfl
  · dsimp only
    split
    · rfl
    · split
      · exact hconstrained _
      · exact hconstrained _
      · rw [raise_health, State.setFlag_health, hconstrained]

theorem pumpCarries_health : ∀ (n : Nat) (s : State), (pumpCarries n s).health = s.health
  | 0, _ => rfl
  | n + 1, s => by
    unfold pumpCarries
    split
    · rfl
    · split
      · rfl
      · rw [pumpCarries_health n]
        split
        · exact startCarry_health _ _
        · rfl

theorem pump_health (s : State) : (pump s).health = s.health := pumpCarries_health _ s

/-- What an update of the temperatures leaves in the state of health. -/
theorem thermalUpdate_health {s : State} (hmgmt : s.mgmt = true) (t : Temps) :
    (thermalUpdate s t).health.faulty = (tempsRead s t).health.faulty ∧ (thermalUpdate s t).health.die = (tempsRead s t).health.die ∧
      (thermalUpdate s t).health.level = levelRead s t := by
  rw [thermalUpdate_eq hmgmt]
  split
  · have h := releaseOffline_unitsOnly (levelShown s t)
    rw [UnitsOnly, levelShown_health] at h
    rw [h]
    exact ⟨rfl, rfl, rfl⟩
  · rw [pump_health, levelShown_health]
    exact ⟨rfl, rfl, rfl⟩

/-- The four stacks as IHM_TEMP_HBM shows them. -/
theorem stackTemp_tempsRead {s : State} {t : Temps} {a b c d : Nat} (hhbm : t.hbm = [a, b, c, d]) (ha : a < 256) (hb : b < 256) (hc : c < 256) (hd : d < 256) :
    stackTemp (tempsRead s t) = max (max a b) (max c d) := by
  have hne : R.IHM_TEMP_HBM ≠ R.IHM_TEMP_BOARD := by decide
  have hshown : (tempsRead s t).rd R.IHM_TEMP_HBM = word (a + 256 * (b + 256 * (c + 256 * d))) := by
    unfold tempsRead
    rw [State.rd_wr, if_neg hne, if_neg (by simp [hhbm]), State.rd_wr_self, hhbm]
    simp [leNat, Nat.mod_eq_of_lt ha, Nat.mod_eq_of_lt hb, Nat.mod_eq_of_lt hc, Nat.mod_eq_of_lt hd]
  have hbits : bits (word (a + 256 * (b + 256 * (c + 256 * d)))) 7 0 = a ∧ bits (word (a + 256 * (b + 256 * (c + 256 * d)))) 15 8 = b ∧
      bits (word (a + 256 * (b + 256 * (c + 256 * d)))) 23 16 = c ∧ bits (word (a + 256 * (b + 256 * (c + 256 * d)))) 31 24 = d := by
    simp only [bits, word, BitVec.toNat_ofNat, Nat.shiftRight_eq_div_pow]
    omega
  obtain ⟨h0, h1, h2, h3⟩ := hbits
  rw [stackTemp, hshown, h0, h1, h2, h3]

theorem thermThresholds_ordered {s : State} {warn thr crit : Nat} (hw : bits (s.cfg R.IHM_THERM_CTRL) 15 8 = warn) (ht : bits (s.cfg R.IHM_THERM_CTRL) 23 16 = thr)
    (hc : bits (s.cfg R.IHM_THERM_CTRL) 31 24 = crit) (hwt : warn < thr) (htc : thr < crit) (hcrit : crit ≤ 120) : thermThresholds s = (warn, thr, crit) := by
  unfold thermThresholds
  dsimp only
  rw [hw, ht, hc, Nat.min_eq_right (by omega), Nat.min_eq_right (by omega), Nat.min_eq_right hcrit, if_pos ⟨hwt, htc⟩]

/-- The level that temperatures of sound sensors lead to (R419). -/
theorem thermLevel_sound {s : State} {warn thr crit : Nat} (h : thermThresholds s = (warn, thr, crit)) (die : Int) (hbm : Nat) :
    thermLevel s die hbm 0 =
      if (256 * (crit : Int) ≤ die ∨ 105 ≤ hbm) ∨ (3 ≤ s.health.level ∧ ¬ (die ≤ 256 * (crit - (thermHyst s : Int)) ∧ hbm ≤ 100)) then 3
      else if (256 * (thr : Int) ≤ die ∨ 95 ≤ hbm) ∨ (2 ≤ s.health.level ∧ ¬ (die ≤ 256 * (thr - (thermHyst s : Int)) ∧ hbm ≤ 90)) then 2
      else if 256 * (warn : Int) ≤ die ∨ (1 ≤ s.health.level ∧ ¬ die ≤ 256 * (warn - (thermHyst s : Int))) then 1
      else 0 := by
  have h3 : thermAt s 3 die hbm 0 = true ↔
      (256 * (crit : Int) ≤ die ∨ 105 ≤ hbm) ∨ (3 ≤ s.health.level ∧ ¬ (die ≤ 256 * (crit - (thermHyst s : Int)) ∧ hbm ≤ 100)) := by
    simp [thermAt, h, -not_and, not_and_or]
  have h2 : thermAt s 2 die hbm 0 = true ↔
      (256 * (thr : Int) ≤ die ∨ 95 ≤ hbm) ∨ (2 ≤ s.health.level ∧ ¬ (die ≤ 256 * (thr - (thermHyst s : Int)) ∧ hbm ≤ 90)) := by
    simp [thermAt, h, -not_and, not_and_or]
  have h1 : thermAt s 1 die hbm 0 = true ↔ 256 * (warn : Int) ≤ die ∨ (1 ≤ s.health.level ∧ ¬ die ≤ 256 * (warn - (thermHyst s : Int))) := by
    simp [thermAt, h]
  simp only [thermLevel, h3, h2, h1]

/-- Sixteen readings are as they come. -/
theorem sixteenReadings {x : Temps} (hlen : x.die.length = 16) : (x.die ++ List.replicate 16 noReading).take 16 = x.die := by
  rw [← hlen, List.take_left]

/-- The hottest of sixteen sound sensors. -/
theorem hottestSensor_sound {die : List Int} (hbad : faultySensors die = []) {k : Nat} (hk : k < 16) (hmax : ∀ j, j < 16 → die.getD j 0 ≤ die.getD k 0) :
    ∃ i, hottestSensor die ((List.range 16).filter (fun k => !(faultySensors die).contains k)) = some i ∧ die.getD i 0 = die.getD k 0 ∧
      ((∀ j, j < k → die.getD j 0 < die.getD k 0) → i = k) := by
  have hall : (List.range 16).filter (fun k => !(faultySensors die).contains k) = List.range (15 + 1) := by
    rw [hbad]
    rfl
  obtain ⟨i, hi, hhot, hbest, hfirst⟩ := hottestSensor_range die 15
  have heq : die.getD i 0 = die.getD k 0 := le_antisymm (hmax i hi) (hbest k hk)
  rw [hall]
  refine ⟨i, hhot, heq, fun hstrict => ?_⟩
  rcases lt_trichotomy i k with h | h | h
  · exact absurd (hstrict i h) (by rw [heq]; exact lt_irrefl _)
  · exact h
  · exact absurd (hfirst k h) (by rw [heq]; exact lt_irrefl _)

/-- Readings without a fault: the die sensor `k` is the first of the hottest. -/
theorem tempsRead_sound {s : State} {x : Temps} {k a b c d : Nat} (hbad : faultySensors x.die = []) (hk : k < 16)
    (hmax : ∀ j, j < 16 → x.die.getD j 0 ≤ x.die.getD k 0) (hfirst : ∀ j, j < k → x.die.getD j 0 < x.die.getD k 0)
    (hlo : 0 ≤ x.die.getD k 0) (hhi : x.die.getD k 0 < 32768) (hhbm : x.hbm = [a, b, c, d]) (ha : a < 256) (hb : b < 256) (hc : c < 256) (hd : d < 256)
    (hboard : x.board = []) :
    tempsRead s x = (((({ s.wr R.IHM_THERM_STAT (setBits (s.rd R.IHM_THERM_STAT) 15 0 0) with
      health := { s.health with faulty := [], die := x.die.getD k 0 } } : State).wr R.IHM_TEMP_DIE (word ((x.die.getD k 0).toNat * 65536 + k))).wr
        R.IHM_TEMP_HBM (word (a + 256 * b + 65536 * c + 16777216 * d))).wr R.IHM_TEMP_BOARD 0x80808080#32) := by
  obtain ⟨i, hhot, -, hik⟩ := hottestSensor_sound hbad hk hmax
  obtain rfl := hik hfirst
  have hjudged : sensorsJudged s x.die = { s.wr R.IHM_THERM_STAT (setBits (s.rd R.IHM_THERM_STAT) 15 0 0) with health := { s.health with faulty := [] } } := by
    rw [sensorsJudged, hbad]
    rfl
  have hdie : dieRead s x.die = ({ s.wr R.IHM_THERM_STAT (setBits (s.rd R.IHM_THERM_STAT) 15 0 0) with
      health := { s.health with faulty := [], die := x.die.getD i 0 } } : State).wr R.IHM_TEMP_DIE (word ((x.die.getD i 0).toNat * 65536 + i)) := by
    have hmod : x.die.getD i 0 % 65536 = x.die.getD i 0 := Int.emod_eq_of_lt hlo (by omega)
    rw [dieRead, hhot]
    dsimp only
    rw [showDie]
    dsimp only
    rw [if_pos hhi, hmod, hjudged]
  have hsum : leNat (x.hbm.map (BitVec.ofNat 8)) = a + 256 * b + 65536 * c + 16777216 * d := by
    rw [hhbm]
    simp only [List.map_cons, List.map_nil, leNat, BitVec.toNat_ofNat]
    omega
  rw [tempsRead, if_neg (by simp [hhbm]), hdie, hsum, hboard]
  rfl

-- A shutdown (R420).

section
variable {P : State → Prop} (hP : Unforced P) {s : State} (hs : P s)
include hP hs

theorem dpAllOff_holds : P (dpAllOff s) := by
  unfold dpAllOff
  refine forEach_induct (fun t d ht => ?_) hs _
  split
  · exact ht
  · exact hP.wr _ _ _ ht

/-- One transmit stream goes off. -/
theorem txOff_holds (hset : ∀ t i x, P t → P (State.setTxs t i x)) : P (txAllOff s) := by
  unfold txAllOff
  refine forEach_induct (fun t st ht => ?_) hs _
  exact hP.setSp _ _ _ (txcKey_le _ _) (hset _ _ _ (hP.withForce (hP.cutStream (hP.dropFrames ht _ _) _)))

end

/-- One transmit stream goes off, what is queued for it discarded. -/
def txOff (s : State) (st : Nat) : State :=
  let s' := withForce (fun s => cutStream s st) (dropFrames s (s.txs st).port (fun f => decide (f.stream ≠ some st)))
  txStatus (s'.setTxs st { s'.txs st with sending := false, state := 0, err := 0 }) st

/-- A transmit stream is off. -/
def TxIdle (k : Nat) (s : State) : Prop := (s.txs k).state = 0 ∧ (s.txs k).sending = false

theorem txIdle_setTxs {k : Nat} {s : State} (i : Nat) {x : TxStream} (hx : i = k → x.state = 0 ∧ x.sending = false) (hs : TxIdle k s) : TxIdle k (s.setTxs i x) := by
  unfold TxIdle
  rw [State.txs_setTxs]
  split_ifs with h
  · exact hx h.symm
  · exact hs

theorem unforced_txIdle (k : Nat) : Unforced (TxIdle k) where
  wr _ _ _ h := h
  setSp _ _ _ _ h := h
  setSafe _ _ _ h := h
  setPort _ _ _ h := h
  cut s st h := txIdle_setTxs st (fun hst => ⟨hst ▸ h.1, rfl⟩) h
  setFunc s k x h := by
    unfold State.setFunc
    split <;> exact h
  emit _ _ h := h
  col _ _ h := h
  fresh _ h := h

theorem txAllOff_idle (s : State) {k : Nat} (hk : k < 64) : TxIdle k (txAllOff s) := by
  refine (forEach_mem (P := TxIdle) (f := txOff) (fun t st => ?done) (fun t st st' ht => ?stay) (List.range 64) s).2 k (List.mem_range.mpr hk)
  case done => 
    unfold txOff TxIdle txStatus
    simp
  case stay =>
    have hP := unforced_txIdle st
    exact hP.setSp _ _ _ (txcKey_le _ _) (txIdle_setTxs _ (fun _ => ⟨rfl, rfl⟩) (hP.withForce (hP.cutStream (hP.dropFrames ht _ _) _)))

theorem txIdle_congr {k : Nat} {s t : State} (h : t.tx = s.tx) (hs : TxIdle k s) : TxIdle k t := by
  unfold TxIdle State.txs at *
  rwa [h]

theorem rxs_congr {i : Nat} {s t : State} (h : t.rx = s.rx) : t.rxs i = s.rxs i := by
  unfold State.rxs
  rw [h]

/-- A receive stream that goes off. -/
def rxIdled (x : RxStream) : RxStream := if x.state = 0 then x else { x with state := 0, err := 0, frames := [] }

/-- One receive stream goes off. -/
def rxOff (s : State) (i : Nat) : State := if (s.rxs i).state = 0 then s else rxStatus (s.setRxs i { s.rxs i with state := 0, err := 0, frames := [] }) i

theorem rxStatus_rxs (s : State) (i j : Nat) : (rxStatus s i).rxs j = s.rxs j := by
  unfold rxStatus
  exact State.setSp_rxs_other _ _ _ _

theorem rxOff_rxs (s : State) (i j : Nat) : (rxOff s i).rxs j = if j = i then rxIdled (s.rxs j) else s.rxs j := by
  unfold rxOff
  split_ifs with hoff hji hji
  · rw [rxIdled, hji, if_pos hoff]
  · rfl
  · rw [rxIdled, hji, if_neg hoff]
    rw [rxStatus_rxs, State.rxs_setRxs_self]
  · rw [rxStatus_rxs, State.rxs_setRxs, if_neg hji]

theorem rxIdled_idem (x : RxStream) : rxIdled (rxIdled x) = rxIdled x := by
  unfold rxIdled
  split_ifs <;> simp_all

theorem forEach_rxOff (j : Nat) : ∀ (xs : List Nat) (s : State), (forEach xs s rxOff).rxs j = if j ∈ xs then rxIdled (s.rxs j) else s.rxs j
  | [], s => by simp [forEach]
  | x :: xs, s => by
    have h := forEach_rxOff j xs (rxOff s x)
    rw [rxOff_rxs] at h
    refine h.trans ?_
    by_cases hx : j = x <;> by_cases hxs : j ∈ xs <;> simp [hx, hxs, rxIdled_idem]

theorem rxAllOff_keeps {β : Type} (g : State → β) (hset : ∀ s i x, g (State.setRxs s i x) = g s) (hsp : ∀ s k v, g (State.setSp s k v) = g s) (s : State) :
    g (rxAllOff s) = g s :=
  forEach_keeps g rxOff (fun t i => by
    unfold rxOff
    split
    · rfl
    · exact (hsp _ _ _).trans (hset _ _ _)) _ _

section
variable (s : State)

theorem supplyOff_store : (supplyOff s).store = { s.store with selfRefresh := true } := by
  simp only [supplyOff, State.setFlag_store, avsShow, State.wr_store, State.emit_store]
theorem supplyOff_hbm : (supplyOff s).hbm = s.hbm := by
  simp only [supplyOff, State.setFlag_hbm, avsShow, State.wr_hbm, State.emit_hbm]
theorem supplyOff_tx : (supplyOff s).tx = s.tx := by
  simp only [supplyOff, State.setFlag_tx, avsShow, State.wr_tx, State.emit_tx]
theorem supplyOff_rx : (supplyOff s).rx = s.rx := by
  simp only [supplyOff, State.setFlag_rx, avsShow, State.wr_rx, State.emit_rx]
theorem supplyOff_target : (supplyOff s).health.target = (avsWindow s).1 := by
  simp only [supplyOff, State.setFlag_health, avsShow, State.wr_health, State.emit_health]
theorem supplyOff_dead : (supplyOff s).dead = true := rfl

theorem supplyOff_stat : bit ((supplyOff s).rd R.IHM_THERM_STAT) 29 = true := by
  have h (t : State) : ({ t with dead := true } : State).rd R.IHM_THERM_STAT = t.rd R.IHM_THERM_STAT := rfl
  rw [supplyOff, h, State.setFlag, State.rd_wr_self, bit_setBit _ _ _ _ (by decide) (by decide), if_pos rfl]

end

/-- Every stream and link is off. -/
def allOff (s : State) : State := rxAllOff (txAllOff (dpAllOff (raise s 319)))

theorem thermalShutdown_eq (s : State) : thermalShutdown s = supplyOff (allOff s) := rfl

/-- What neither the reaction path nor the streams show. -/
theorem allOff_keeps {β : Type} (g : State → β) {s : State} (hg : Unforced (fun t => g t = g s)) (htx : ∀ t i x, g (State.setTxs t i x) = g t)
    (hrx : ∀ t i x, g (State.setRxs t i x) = g t) (hsp : ∀ t k v, g (State.setSp t k v) = g t) (hraise : g (raise s 319) = g s) : g (allOff s) = g s :=
  (rxAllOff_keeps g hrx hsp _).trans (txOff_holds hg (dpAllOff_holds hg hraise) fun t i x h => (htx t i x).trans h)

theorem allOff_store (s : State) : (allOff s).store = s.store :=
  allOff_keeps State.store (unforced_eq _ _ State.wr_store State.setSp_store State.setSafe_store State.setPort_store State.setTxs_store
    State.setFunc_store State.emit_store (fun _ _ => rfl) State.bumpFresh_store) State.setTxs_store State.setRxs_store State.setSp_store (raise_store _ _)

theorem allOff_hbm (s : State) : (allOff s).hbm = s.hbm :=
  allOff_keeps State.hbm (unforced_eq _ _ State.wr_hbm State.setSp_hbm State.setSafe_hbm State.setPort_hbm State.setTxs_hbm
    State.setFunc_hbm State.emit_hbm (fun _ _ => rfl) State.bumpFresh_hbm) State.setTxs_hbm State.setRxs_hbm State.setSp_hbm (raise_hbm _ _)

theorem allOff_unit (s : State) : (allOff s).unit = s.unit :=
  allOff_keeps State.unit (unforced_eq _ _ State.wr_unit State.setSp_unit State.setSafe_unit State.setPort_unit State.setTxs_unit
    State.setFunc_unit State.emit_unit (fun _ _ => rfl) State.bumpFresh_unit) State.setTxs_unit State.setRxs_unit State.setSp_unit (raise_unit _ _)

theorem allOff_tx (s : State) : (allOff s).tx = (txAllOff (dpAllOff (raise s 319))).tx := rxAllOff_keeps State.tx State.setRxs_tx State.setSp_tx _

theorem allOff_idle (s : State) {k : Nat} (hk : k < 64) : TxIdle k (allOff s) := txIdle_congr (allOff_tx s) (txAllOff_idle _ hk)

theorem allOff_rxs (s : State) {i : Nat} (hi : i < 256) : (allOff s).rxs i = rxIdled (s.rxs i) := by
  have hg : Unforced (fun t => t.rx = s.rx) := unforced_eq _ _ State.wr_rx State.setSp_rx State.setSafe_rx State.setPort_rx State.setTxs_rx
    State.setFunc_rx State.emit_rx (fun _ _ => rfl) State.bumpFresh_rx
  have hrx : (txAllOff (dpAllOff (raise s 319))).rx = s.rx :=
    txOff_holds hg (dpAllOff_holds hg (raise_rx _ _)) fun t k x h => (State.setTxs_rx t k x).trans h
  have hrxs : (txAllOff (dpAllOff (raise s 319))).rxs i = s.rxs i := rxs_congr hrx
  have hoff := forEach_rxOff i (List.range 256) (txAllOff (dpAllOff (raise s 319)))
  rw [if_pos (List.mem_range.mpr hi), hrxs] at hoff
  exact hoff

/-- What a shutdown keeps, and what it may change. -/
theorem held_shutdown (s u : State) :
    let t := hold s (keeping [.power, .store, .receive, .health] s u)
    t.hbm = u.hbm ∧ t.unit = s.unit ∧ t.heads = s.heads ∧ t.groups = s.groups ∧ t.queues = s.queues ∧ (∀ o, t.rd o = u.rd o) ∧ t.tx = u.tx ∧ t.rx = u.rx :=
  ⟨rfl, rfl, rfl, rfl, rfl, fun _ => rfl, rfl, rfl⟩

/-- What a shutdown leaves. -/
theorem thermalShutdown_leaves (s : State) : (thermalShutdown s).dead = true ∧ (thermalShutdown s).store = { s.store with selfRefresh := true } ∧
    (thermalShutdown s).hbm = s.hbm ∧ (thermalShutdown s).health.target = max 650 (bits (s.cfg R.IHM_AVS_VMIN) 9 0) ∧
    bit ((thermalShutdown s).rd R.IHM_THERM_STAT) 29 = true ∧ (∀ k, k < 64 → TxIdle k (thermalShutdown s)) ∧
    ∀ i, i < 256 → (thermalShutdown s).rxs i = rxIdled (s.rxs i) := by
  rw [thermalShutdown_eq]
  refine ⟨supplyOff_dead _, ?store, ?memory, ?target, supplyOff_stat _, fun k hk => txIdle_congr (supplyOff_tx _) (allOff_idle s hk),
    fun i hi => (rxs_congr (supplyOff_rx _)).trans (allOff_rxs s hi)⟩
  case store => rw [supplyOff_store, allOff_store]
  case memory => rw [supplyOff_hbm, allOff_hbm]
  case target =>
    rw [supplyOff_target, avsWindow, State.cfg, allOff_unit]
    rfl

end Sys2Proof.Machine

namespace Sys2Proof.Proofs
-- One proof at a time, so that the stacks of the evaluations do not add up.
set_option Elab.async false

open Sys2Proof.Machine Sys2Proof.Claims

/-- Settles O31: an update of the voltage is judged, one of the temperatures leads to its level, and a shutdown turns off what it names. -/
theorem supplyEvents : Obligations.SupplyEvents := by
  unfold Obligations.SupplyEvents
  refine ⟨fun r w s hs hmgmt hrel hen hbus hle hat => ends_of hs (fun _ => rfl) ?runs,
    fun r s hs hmgmt hbus hoff => ends_of hs (fun _ => rfl) ?still,
    fun r s hs hmgmt hbus => ends_of hs (fun _ => rfl) ?busErr,
    fun v s hs hmgmt hle => ends_of hs (fun _ => rfl) ?readback,
    fun s hs hmgmt => ends_of hs (fun _ => rfl) ?none_,
    fun x k a b c d warn thr crit s hs hmgmt hlen hk hrange hnear hmax hhbm ha hb hc hd hw ht hcr hwt htc hcrit => ends_of hs (fun _ => rfl) ?level,
    fun x s hs hmgmt hlen => ends_of hs (fun _ => rfl) ?faulty,
    fun x k a b c d s hs hmgmt hlen hk hrange hnear hmax hfirst hhbm hboard ha hb hc hd hlevel hctrl hlo hhi => gives_of hs (fun _ => rfl) ?warned,
    fun s hs hmgmt => gives_of hs (fun _ => rfl) ?shutdown,
    fun s hs hmgmt => ends_of hs (fun _ => rfl) ?shutdownEnds⟩
  case runs =>
    have hworst : worstPeriod s = w := by
      refine le_antisymm (worstPeriod_le hle) ?_
      obtain rfl | ⟨u, hu, heff, rfl⟩ := hat
      · exact Nat.zero_le _
      · exact le_worstPeriod hu heff
    rw [held_health, avsUpdate_health hmgmt, judgedHealth_target]
    simp only [avsTarget, hbus, hrel, hen, hworst, avsPeriods, avsWindow, avsClamp]
    rfl
  case still =>
    rw [held_health, avsUpdate_health hmgmt, judgedHealth_target]
    obtain hrel | hen := hoff
    · simp only [avsTarget, hbus, hrel, avsWindow, avsClamp]
      rfl
    · cases hrel : s.released <;> simp only [avsTarget, hbus, hrel, hen, avsWindow, avsClamp] <;> rfl
  case busErr =>
    rw [held_health, avsUpdate_health hmgmt, judgedHealth_target, avsTarget]
    exact if_pos hbus
  case readback =>
    have hheard : worstPeriod s ≤ 1000 := worstPeriod_le hle
    rw [held_health, avsUpdate_health hmgmt, judgedHealth_target]
    refine ⟨?_, fun hin => ?_, fun hout => ?_⟩
    · exact judgedHealth_bus { s.health with target := avsTarget s } (some v)
    · have hjudged : judgedHealth { s.health with target := avsTarget s } (some v) = { s.health with target := avsTarget s, busErr := false, offMs := 0 } := if_pos hin
      rw [avsUpdate_heard hmgmt hheard, hjudged, if_neg (by simp)]
      exact ⟨rfl, rfl, rfl, avsHeard_stat s v⟩
    · have hjudged : judgedHealth { s.health with target := avsTarget s } (some v) =
          { s.health with target := avsTarget s, busErr := s.health.busErr || decide (10 ≤ s.health.offMs + 1), offMs := s.health.offMs + 1 } := if_neg hout
      rw [hjudged]
      exact ⟨rfl, rfl⟩
  case none_ =>
    rw [held_health, avsUpdate_health hmgmt]
    exact ⟨rfl, rfl⟩
  case level =>
    have hread : ({ x with die := (x.die ++ List.replicate 16 noReading).take 16, hbm := x.hbm.take 4 } : Temps) = x := by
      rw [sixteenReadings hlen, hhbm, List.take_of_length_le (by simp), ← hhbm]
    have hbad := faultySensors_near hlen hrange hnear
    obtain ⟨i, hhot, hdie, -⟩ := hottestSensor_sound hbad hk hmax
    obtain ⟨v, hhealth, hv⟩ := tempsRead_health s x
    obtain ⟨hf, hd', hl⟩ := thermalUpdate_health hmgmt x
    rw [held_thermal, hread, hf, hd', hl, levelRead, stackTemp_tempsRead hhbm ha hb hc hd, hhealth, hbad, hv i hhot, hdie]
    refine ⟨rfl, rfl, ?_⟩
    rw [List.length_nil, thermLevel_sound (thermThresholds_ordered (by rw [tempsRead_cfg, hw]) (by rw [tempsRead_cfg, ht]) (by rw [tempsRead_cfg, hcr]) hwt htc hcrit),
      hhealth, thermHyst, tempsRead_cfg, Nat.cast_max]
    rfl
  case faulty =>
    obtain ⟨y, hy⟩ : ∃ y : Temps, { x with die := (x.die ++ List.replicate 16 noReading).take 16, hbm := x.hbm.take 4 } = y := ⟨_, rfl⟩
    have hdie : y.die = x.die := hy ▸ sixteenReadings hlen
    obtain ⟨v, hhealth, -⟩ := tempsRead_health s y
    obtain ⟨hf, -, hl⟩ := thermalUpdate_health hmgmt y
    rw [hy, held_thermal, hf, hl, hhealth, hdie]
    refine ⟨fun j hj hout => ?_, fun hmany => ?_⟩
    · have hrange : sensorInRange (x.die.getD j 0) = false := by
        simp only [sensorInRange, decide_eq_false_iff_not]
        omega
      exact List.mem_filter.mpr ⟨List.mem_range.mpr hj, by simp only [hrange, Bool.not_false, Bool.true_or]⟩
    · have hmany : 8 < (faultySensors x.die).length := hmany
      have hat (die : Int) (hbm : Nat) : thermAt (tempsRead s y) 2 die hbm (faultySensors x.die).length = true := by simp [thermAt, hmany]
      rw [levelRead, hdie, thermLevel]
      simp only [hat, if_true]
      split <;> omega
  case warned =>
    have hread : ({ x with die := (x.die ++ List.replicate 16 noReading).take 16, hbm := x.hbm.take 4 } : Temps) = x := by
      rw [sixteenReadings hlen, hhbm, List.take_of_length_le (by simp), ← hhbm]
    have hbad := faultySensors_near hlen hrange hnear
    have htemps := tempsRead_sound (s := s) hbad hk hmax hfirst (by omega) (by omega) hhbm (by omega) (by omega) (by omega) (by omega) hboard
    have hthr : thermThresholds (tempsRead s x) = (100, 105, 115) := by
      rw [thermThresholds, tempsRead_cfg, hctrl]
      decide
    have hzero : (tempsRead s x).health.level = 0 := by
      rw [htemps]
      exact hlevel
    have hnow : levelRead s x = 1 := by
      have hdie : (tempsRead s x).health.die = x.die.getD k 0 := by
        rw [htemps]
        rfl
      rw [levelRead, hdie, hbad, List.length_nil, stackTemp_tempsRead hhbm (by omega) (by omega) (by omega) (by omega), thermLevel_sound hthr, hzero]
      rw [if_neg (by rintro ((h | h) | ⟨h, -⟩) <;> omega), if_neg (by rintro ((h | h) | ⟨h, -⟩) <;> omega), if_pos (.inl (by push_cast; omega))]
    have hentered : [1, 2, 3].filter (fun k => decide ((tempsRead s x).health.level < k ∧ k ≤ 1)) = [1] := by
      rw [hzero]
      decide
    rw [hread, thermalUpdate_eq hmgmt, hnow, if_neg (by decide), levelShown, hnow, hentered, htemps]
    rfl
  case shutdown =>
    rw [if_pos hmgmt]
    rfl
  case shutdownEnds =>
    obtain ⟨hdead, hstore, hhbm, htarget, hstat, htx, hrx⟩ := thermalShutdown_leaves s
    rw [if_pos hmgmt]
    obtain ⟨hkeptHbm, hkeptUnit, hkeptHeads, hkeptGroups, hkeptQueues, hkeptRd, hkeptTx, hkeptRx⟩ := held_shutdown s (thermalShutdown s)
    refine ⟨hdead, hstore, hkeptHbm.trans hhbm, hkeptUnit, hkeptHeads, hkeptGroups, hkeptQueues, htarget, (congrArg (bit · 29) (hkeptRd _)).trans hstat, fun k hk => txIdle_congr hkeptTx (htx k hk),
      fun i hi => ?_⟩
    rw [rxs_congr hkeptRx, hrx i hi, rxIdled]
    split
    · next h => exact ⟨h, fun hne => absurd h hne⟩
    · exact ⟨rfl, fun _ => rfl⟩

end Sys2Proof.Proofs

/-!
PROOFS. Pseudo-channels and their stripes (03_surfaces_placement.md, Memory organisation, Allocation and freeing, The balance loop, Carries of
stripes, Reserve and wear, Uncorrectable words).
-/
namespace Sys2Proof.Machine
-- One proof at a time, so that the stacks of the evaluations do not add up.
set_option Elab.async false

open Sys2Proof.Claims

/-- What each step does of its own element, and leaves of the others, holds of every element of a list in the end. -/
theorem forEach_pointwise {α : Type} {f : State → Nat → State} {I : State → Prop} {get : State → Nat → α} {upd : Nat → α → α}
    (hself : ∀ t k, I t → get (f t k) k = upd k (get t k)) (hother : ∀ t k j, j ≠ k → get (f t k) j = get t j) (hI : ∀ t k, I t → I (f t k)) (j : Nat) :
    ∀ (xs : List Nat) (s : State), xs.Nodup → I s → get (forEach xs s f) j = if j ∈ xs then upd j (get s j) else get s j
  | [], s, _, _ => by simp [forEach]
  | x :: xs, s, hnd, hs => by
    obtain ⟨hx, hnd⟩ := List.nodup_cons.mp hnd
    have h := forEach_pointwise hself hother hI j xs (f s x) hnd (hI s x hs)
    refine h.trans ?_
    by_cases hj : j = x
    · subst hj
      rw [if_neg hx, hself s j hs, if_pos List.mem_cons_self]
    · rw [hother s x j hj]
      simp [hj]

theorem forEach_id {α : Type} {f : State → α → State} {s : State} (xs : List α) (h : ∀ a ∈ xs, f s a = s) : forEach xs s f = s := by
  induction xs with
  | nil => rfl
  | cons x xs ih => exact (congrArg (fun t => forEach xs t f) (h x List.mem_cons_self)).trans (ih fun a ha => h a (List.mem_cons_of_mem _ ha))

-- Jobs bound to a pseudo-channel.

/-- With no jobs, none runs again. -/
theorem unitJobs_idle {s : State} (h : s.queues = []) (second : Bool) (bound : Nat → Job → Bool) : unitJobs s second bound = s := by
  refine forEach_id _ fun q _ => ?_
  have hq : (s.queue q).job = none := by
    rw [State.queue, h]
    rfl
  rw [hq]

theorem pcJobs_idle {f : State → State} {s : State} (h : (f s).queues = []) : pcJobs f s = f s := by
  unfold pcJobs
  dsimp only
  split_ifs
  · rfl
  · exact unitJobs_idle h _ _

/-- No pseudo-channel has changed its state. -/
theorem pcJobs_steady {f : State → State} {s : State} (h : ∀ p, ((f s).pc p).state = (s.pc p).state) : pcJobs f s = f s := by
  unfold pcJobs
  dsimp only
  exact if_pos (List.filter_eq_nil_iff.mpr fun p _ => by simp [h])

theorem pcJobs_congr {f g : State → State} {s : State} (h : f s = g s) : pcJobs f s = pcJobs g s := by
  unfold pcJobs
  rw [h]

-- What a carry that starts leaves.

section
variable {β : Type} (g : State → β) (hwr : ∀ s o v, g (State.wr s o v) = g s) (hraise : ∀ s src, g (raise s src) = g s)
  (hcarries : ∀ s cs, g (setCarries s cs) = g s) (htake : ∀ s p, g (takeStripe s p) = g s)
include hwr hraise hcarries htake

theorem startCarry_keeps (s : State) (c : Carry) : g (startCarry s c) = g s := by
  have hconstrained (p : Nat) : g (constrained s p) = g s := (hraise _ _).trans (hwr _ _ _)
  unfold startCarry
  split
  · rfl
  · dsimp only
    split
    · exact (hcarries _ _).trans (htake _ _)
    · split
      · exact hconstrained _
      · exact hconstrained _
      · exact (hraise _ _).trans ((hwr _ _ _).trans (hconstrained _))

theorem pumpCarries_keeps : ∀ (n : Nat) (s : State), g (pumpCarries n s) = g s
  | 0, _ => rfl
  | n + 1, s => by
    unfold pumpCarries
    split
    · rfl
    · split
      · rfl
      · rw [pumpCarries_keeps n]
        split
        · exact (startCarry_keeps g hwr hraise hcarries htake _ _).trans (hcarries _ _)
        · exact hcarries _ _

/-- What the moves of the balance loop leave. -/
theorem balanceLoop_keeps (hshift : ∀ s a b h, g (shiftLoad s a b h) = g s) (ctrl : Word) : ∀ (n : Nat) (s : State), g (balanceLoop ctrl n s) = g s
  | 0, _ => rfl
  | n + 1, s => by
    have hconstrained (p : Nat) : g (endConstrained s p) = g s := ((hraise _ _).trans (hwr _ _ _)).trans (hwr _ _ _)
    unfold balanceLoop
    dsimp only
    split
    · rfl
    · split
      · rfl
      · split
        · exact hconstrained _
        · split
          · rfl
          · split
            · exact hconstrained _
            · split
              · rfl
              · rw [balanceLoop_keeps hshift ctrl n]
                exact (hshift _ _ _ _).trans ((pumpCarries_keeps g hwr hraise hcarries htake _ _).trans (hcarries _ _))

end

theorem pump_idle {s : State} (h : s.store.carries = []) : pump s = s := by
  rw [pump, h]
  rfl

-- The end of a heat window (R84, R85).

theorem latchLoads_pc (s : State) {p : Nat} (hp : p < 128) :
    (latchLoads s).pc p = { s.pc p with load := (s.pc p).bytes, proj := (s.pc p).bytes, bytes := 0 } := by
  refine (forEach_pointwise (I := fun _ => True) (get := State.pc) (upd := fun _ x => { x with load := x.bytes, proj := x.bytes, bytes := 0 })
    (fun t k _ => ?self) (fun t k j hj => ?other) (fun _ _ _ => trivial) p (List.range 128) s List.nodup_range trivial).trans (if_pos (List.mem_range.mpr hp))
  case self => exact State.pc_setPc_self _ _ _
  case other => exact (State.pc_setPc _ _ _ _).trans (if_neg hj)

theorem latchLoads_keeps {β : Type} (g : State → β) (h : ∀ s p x, g (State.setPc s p x) = g s) (s : State) : g (latchLoads s) = g s :=
  forEach_keeps g _ (fun t p => h t p _) _ _

/-- The loop of a heat window has run, and the windows it could not serve are counted. -/
def heatMoved (s : State) : State :=
  let ctrl := s.store.balCtrl
  let s1 := latchLoads s
  let s2 := s1.wr R.SSP_CONSTRAINED (setBit (s1.rd R.SSP_CONSTRAINED) 8 false)
  let s3 := if bit ctrl 0 && decide (0 < bits ctrl 31 24) && decide (s.health.level < 2) then balanceLoop ctrl (bits ctrl 31 24) s2 else s2
  if bit (s3.rd R.SSP_CONSTRAINED) 8 then s3.wr R.SSP_CONSTRAINED (satField (s3.rd R.SSP_CONSTRAINED) 31 16 1) else s3

theorem heatWindowEnd_eq (s : State) : heatWindowEnd s =
    { heatMoved s with store := { (heatMoved s).store with heats := [], balCtrl := (heatMoved s).cfg R.SSP_BAL_CTRL } } := rfl

theorem heatWindowEnd_keeps {β : Type} (g : State → β) (hend : ∀ (t : State) h b, g { t with store := { t.store with heats := h, balCtrl := b } } = g t) (s : State) :
    g (heatWindowEnd s) = g (heatMoved s) := (congrArg g (heatWindowEnd_eq s)).trans (hend _ _ _)

/-- What a heat window leaves, when its moves leave it. -/
theorem heatMoved_keeps {β : Type} (g : State → β) (hwr : ∀ s o v, g (State.wr s o v) = g s) (hraise : ∀ s src, g (raise s src) = g s)
    (hcarries : ∀ s cs, g (setCarries s cs) = g s) (htake : ∀ s p, g (takeStripe s p) = g s) (hshift : ∀ s a b h, g (shiftLoad s a b h) = g s) (s : State) :
    g (heatMoved s) = g (latchLoads s) := by
  have hcounted (t : State) : g (if bit (t.rd R.SSP_CONSTRAINED) 8 then t.wr R.SSP_CONSTRAINED (satField (t.rd R.SSP_CONSTRAINED) 31 16 1) else t) = g t := by
    split
    · exact hwr _ _ _
    · rfl
  unfold heatMoved
  refine (hcounted _).trans ?_
  split
  · exact (balanceLoop_keeps g hwr hraise hcarries htake hshift _ _ _).trans (hwr _ _ _)
  · exact hwr _ _ _

/-- Without the loop no carry starts. -/
theorem heatMoved_still {s : State} (h : bit s.store.balCtrl 0 = false) : (heatMoved s).store.carries = s.store.carries := by
  have hstill : ¬ (bit s.store.balCtrl 0 && decide (0 < bits s.store.balCtrl 31 24) && decide (s.health.level < 2)) = true := by simp [h]
  unfold heatMoved
  dsimp only
  rw [if_neg hstill]
  have hlatched : (latchLoads s).store.carries = s.store.carries := latchLoads_keeps (fun t => t.store.carries) (fun _ _ _ => rfl) s
  split
  · rw [State.wr_store, State.wr_store, hlatched]
  · rw [State.wr_store, hlatched]

theorem pc_shiftLoad (s : State) (a b : Nat) (h : Int) (p : Nat) :
    ((shiftLoad s a b h).pc p).load = (s.pc p).load ∧ ((shiftLoad s a b h).pc p).bytes = (s.pc p).bytes := by
  unfold shiftLoad
  dsimp only
  simp only [State.pc_setPc]
  split_ifs <;> simp_all

theorem pc_takeStripe (s : State) (q p : Nat) : ((takeStripe s q).pc p).load = (s.pc p).load ∧ ((takeStripe s q).pc p).bytes = (s.pc p).bytes := by
  unfold takeStripe
  rw [State.pc_setPc]
  split_ifs with h <;> simp [h]

-- A pseudo-channel that fails (R87, R90).

theorem partFault_store (s : State) (src part : Nat) : (partFault s src part).store = s.store := by
  unfold partFault
  dsimp only
  split
  · rfl
  · exact (raise_store _ _).trans rfl

/-- A state of memory with no stripe in a pseudo-channel and no carry. -/
theorem pcEmpty_of {s : State} {p : Nat} (hon : stripesOn s p = []) (hcarries : s.store.carries = []) : pcEmpty s p = true := by
  rw [pcEmpty, hon, hcarries]
  rfl

theorem stripesOn_congr {s t : State} (h : t.store.surfaces = s.store.surfaces) (p : Nat) : stripesOn t p = stripesOn s p := by
  unfold stripesOn
  rw [h]

theorem pcEmpty_congr {s t : State} (hsurf : t.store.surfaces = s.store.surfaces) (hcarries : t.store.carries = s.store.carries) (p : Nat) :
    pcEmpty t p = pcEmpty s p := by
  unfold pcEmpty
  rw [stripesOn_congr hsurf, hcarries]

/-- The channel `p` is retired once it is empty. -/
def retireEmpty (s : State) (p : Nat) : State :=
  if ((s.pc p).state = .draining ∨ (s.pc p).state = .failed) ∧ pcEmpty s p then
    faultAnswered (s.setPc p { s.pc p with state := .retired, free := 0, scrub := 0 }) 31 p
  else s

theorem checkRetired_eq (s : State) : checkRetired s = forEach (List.range 128) s retireEmpty := rfl

theorem retireEmpty_pc (s : State) (p q : Nat) : (retireEmpty s p).pc q =
    if q = p ∧ ((s.pc p).state = .draining ∨ (s.pc p).state = .failed) ∧ pcEmpty s p then { s.pc q with state := .retired, free := 0, scrub := 0 } else s.pc q := by
  have hanswered (t : State) : (faultAnswered t 31 p).pc q = t.pc q := rfl
  unfold retireEmpty
  by_cases hout : ((s.pc p).state = .draining ∨ (s.pc p).state = .failed) ∧ pcEmpty s p = true
  · rw [if_pos hout, hanswered, State.pc_setPc]
    by_cases hq : q = p
    · rw [if_pos hq, if_pos ⟨hq, hout⟩, hq]
    · rw [if_neg hq, if_neg fun h => hq h.1]
  · rw [if_neg hout, if_neg fun h => hout h.2]

theorem retireEmpty_keeps {β : Type} (g : State → β) (hset : ∀ s p x, g (State.setPc s p x) = g s) (hcol : ∀ (s : State) x, g { s with col := x } = g s) (s : State)
    (p : Nat) : g (retireEmpty s p) = g s := by
  unfold retireEmpty
  split
  · exact (hcol _ _).trans (hset _ _ _)
  · rfl

theorem checkRetired_keeps {β : Type} (g : State → β) (hset : ∀ s p x, g (State.setPc s p x) = g s) (hcol : ∀ (s : State) x, g { s with col := x } = g s) (s : State) :
    g (checkRetired s) = g s := forEach_keeps g retireEmpty (retireEmpty_keeps g hset hcol) _ s

/-- An empty channel that drains or has failed is retired; the others stay (R90). -/
theorem checkRetired_pc (s : State) (p : Nat) : (checkRetired s).pc p =
    if p < 128 ∧ ((s.pc p).state = .draining ∨ (s.pc p).state = .failed) ∧ pcEmpty s p then { s.pc p with state := .retired, free := 0, scrub := 0 } else s.pc p := by
  have h := forEach_pointwise (f := retireEmpty) (get := State.pc)
    (I := fun t => t.store.surfaces = s.store.surfaces ∧ t.store.carries = s.store.carries)
    (upd := fun k x => if (x.state = .draining ∨ x.state = .failed) ∧ pcEmpty s k then { x with state := .retired, free := 0, scrub := 0 } else x)
    ?self ?other ?kept p (List.range 128) s List.nodup_range ⟨rfl, rfl⟩
  case self =>
    intro t k ⟨hsurf, hcarries⟩
    rw [retireEmpty_pc, pcEmpty_congr hsurf hcarries]
    simp
  case other =>
    intro t k j hj
    rw [retireEmpty_pc, if_neg fun h => hj h.1]
  case kept =>
    intro t k ⟨hsurf, hcarries⟩
    exact ⟨(retireEmpty_keeps (fun t => t.store.surfaces) (fun _ _ _ => rfl) (fun _ _ => rfl) t k).trans hsurf,
      (retireEmpty_keeps (fun t => t.store.carries) (fun _ _ _ => rfl) (fun _ _ => rfl) t k).trans hcarries⟩
  rw [checkRetired_eq, h]
  by_cases hp : p < 128 <;> simp [hp]

theorem setCarries_surfaces (s : State) (cs : List Carry) : (setCarries s cs).store.surfaces = s.store.surfaces := rfl

theorem setCarries_pc (s : State) (cs : List Carry) (p : Nat) : (setCarries s cs).pc p = s.pc p := rfl

theorem setCarries_carries (s : State) (cs : List Carry) : (setCarries s cs).store.carries = cs := rfl

-- A pseudo-channel that loses its training for good (R87).

theorem leaveActive_store (s : State) (p : Nat) (st : PcState) : ∃ h l n, (leaveActive s p st).store =
    { (s.setPc p { s.pc p with state := st }).store with headroomUsed := h, landing := l, headroom := n } := by
  unfold leaveActive
  dsimp only
  split_ifs
  · exact ⟨_, _, _, rfl⟩
  · exact ⟨_, _, _, rfl⟩
  · exact ⟨_, _, _, raise_store _ _⟩

theorem leaveActive_keeps {β : Type} (g : State → β) (hset : ∀ s p x, g (State.setPc s p x) = g s) (hraise : ∀ s src, g (raise s src) = g s)
    (hstore : ∀ (s : State) (l n : Nat) (h : Bool), g { s with store := { s.store with landing := l, headroom := n, headroomUsed := h } } = g s) (s : State) (p : Nat)
    (st : PcState) : g (leaveActive s p st) = g s := by
  unfold leaveActive
  dsimp only
  split_ifs
  · exact hset _ _ _
  · exact (hstore _ _ _ _).trans (hset _ _ _)
  · exact (hraise _ _).trans ((hstore _ _ _ _).trans (hset _ _ _))

/-- The state of a channel that fails, before its stripes are dealt with. -/
def failMarked (s : State) (p : Nat) : State :=
  let s1 := leaveActive s p .failed
  partFault (raise (s1.setPc p { s1.pc p with lostTraining := false }) 31) 31 p

theorem forEach_nil {α : Type} (s : State) (f : State → α → State) : forEach [] s f = s := rfl

/-- With no stripe and no carry, a failed channel is retired at once. -/
theorem failPc_empty {s : State} {p : Nat} (hon : stripesOn (failMarked s p) p = []) (hcarries : (failMarked s p).store.carries = []) :
    failPc s p = checkRetired (setCarries (failMarked s p) []) := by
  have hon' : stripesOn (setCarries (failMarked s p) []) p = [] := (stripesOn_congr (setCarries_surfaces _ _) p).trans hon
  unfold failPc
  extract_lets s1 x s2 s3 srcOf cs ended s4 s5 on s6 single s7 s8
  have hm : failMarked s p = s3 := rfl
  rw [hm] at hcarries hon' ⊢
  clear_value s3
  subst s8 s7 single s6 on s5 s4 ended cs
  simp only [hcarries, List.filter_nil, List.map_nil, List.append_nil, forEach_nil, hon', List.eraseDups_nil]
  exact congrArg checkRetired (pump_idle (setCarries_carries _ _))

theorem failMarked_keeps {β : Type} (g : State → β) (hset : ∀ s p x, g (State.setPc s p x) = g s) (hraise : ∀ s src, g (raise s src) = g s)
    (hwr : ∀ s o v, g (State.wr s o v) = g s) (hcol : ∀ (s : State) x, g { s with col := x } = g s)
    (hstore : ∀ (s : State) (l n : Nat) (h : Bool), g { s with store := { s.store with landing := l, headroom := n, headroomUsed := h } } = g s) (s : State) (p : Nat) :
    g (failMarked s p) = g s := by
  have hpart (t : State) (src part : Nat) : g (partFault t src part) = g t := by
    unfold partFault
    dsimp only
    split
    · exact hcol _ _
    · exact (hraise _ _).trans ((hwr _ _ _).trans (hcol _ _))
  unfold failMarked
  exact (hpart _ _ _).trans ((hraise _ _).trans ((hset _ _ _).trans (leaveActive_keeps g hset hraise hstore _ _ _)))

theorem leaveActive_pc (s : State) (p : Nat) (st : PcState) (q : Nat) : (leaveActive s p st).pc q = if q = p then { s.pc p with state := st } else s.pc q := by
  obtain ⟨h, l, n, hstore⟩ := leaveActive_store s p st
  exact (congrArg (fun m : Store => kget (fun _ => Pc.reset) m.pcs q) hstore).trans (State.pc_setPc _ _ _ _)

theorem failMarked_pc (s : State) (p q : Nat) : (failMarked s p).pc q = if q = p then { s.pc p with state := .failed, lostTraining := false } else s.pc q := by
  have hstore : ∀ t : State, (partFault (raise t 31) 31 p).pc q = t.pc q := fun t =>
    (congrArg (fun m : Store => kget (fun _ => Pc.reset) m.pcs q) (partFault_store _ _ _)).trans (raise_pc_read _ _ _)
  unfold failMarked
  rw [hstore, State.pc_setPc, leaveActive_pc, leaveActive_pc]
  split <;> simp_all

/-- A channel without stripes is retired as it fails, and the others stay (R87, R90). -/
theorem failPc_retires {s : State} {p : Nat} (hp : p < 128) (hcarries : s.store.carries = []) (hon : stripesOn s p = [])
    (hothers : ∀ q : Nat, q ≠ p → (s.pc q).state = .active) (q : Nat) :
    (failPc s p).pc q = if q = p then { s.pc p with state := .retired, lostTraining := false, free := 0, scrub := 0 } else s.pc q := by
  have hsurf' : (failMarked s p).store.surfaces = s.store.surfaces :=
    failMarked_keeps (fun t => t.store.surfaces) (fun _ _ _ => rfl) (fun _ _ => congrArg Store.surfaces (raise_store _ _)) (fun _ _ _ => rfl) (fun _ _ => rfl)
      (fun _ _ _ _ => rfl) s p
  have hcarries' : (failMarked s p).store.carries = [] :=
    (failMarked_keeps (fun t => t.store.carries) (fun _ _ _ => rfl) (fun _ _ => congrArg Store.carries (raise_store _ _)) (fun _ _ _ => rfl) (fun _ _ => rfl)
      (fun _ _ _ _ => rfl) s p).trans hcarries
  have hon' : stripesOn (failMarked s p) p = [] := (stripesOn_congr hsurf' p).trans hon
  have hempty : pcEmpty (setCarries (failMarked s p) []) p = true := pcEmpty_of ((stripesOn_congr (setCarries_surfaces _ _) p).trans hon') (setCarries_carries _ _)
  rw [failPc_empty hon' hcarries', checkRetired_pc, setCarries_pc, failMarked_pc]
  by_cases hq : q = p
  · subst hq
    rw [if_pos rfl, if_pos rfl, if_pos ⟨hp, .inr rfl, hempty⟩]
  · rw [if_neg hq, if_neg hq, if_neg fun h => by simp [hothers q hq] at h]

theorem failPc_keeps_empty {β : Type} (g : State → β) (hset : ∀ s p x, g (State.setPc s p x) = g s) (hraise : ∀ s src, g (raise s src) = g s)
    (hwr : ∀ s o v, g (State.wr s o v) = g s) (hcol : ∀ (s : State) x, g { s with col := x } = g s)
    (hstore : ∀ (s : State) (l n : Nat) (h : Bool), g { s with store := { s.store with landing := l, headroom := n, headroomUsed := h } } = g s)
    (hset' : ∀ s cs, g (setCarries s cs) = g s) {s : State} {p : Nat} (hcarries : s.store.carries = []) (hon : stripesOn s p = []) : g (failPc s p) = g s := by
  have hsurf' : (failMarked s p).store.surfaces = s.store.surfaces :=
    failMarked_keeps (fun t => t.store.surfaces) (fun _ _ _ => rfl) (fun _ _ => congrArg Store.surfaces (raise_store _ _)) (fun _ _ _ => rfl) (fun _ _ => rfl)
      (fun _ _ _ _ => rfl) s p
  have hcarries' : (failMarked s p).store.carries = [] :=
    (failMarked_keeps (fun t => t.store.carries) (fun _ _ _ => rfl) (fun _ _ => congrArg Store.carries (raise_store _ _)) (fun _ _ _ => rfl) (fun _ _ => rfl)
      (fun _ _ _ _ => rfl) s p).trans hcarries
  rw [failPc_empty ((stripesOn_congr hsurf' p).trans hon) hcarries']
  exact (checkRetired_keeps g hset hcol _).trans ((hset' _ _).trans (failMarked_keeps g hset hraise hwr hcol hstore s p))

-- A word read (R89, R91).

/-- No injection is armed. -/
theorem injectCheck_none {s : State} (hinj : s.col.inj = none) (target unit : Nat) : injectCheck s target unit = (false, s) := by
  rw [injectCheck, hinj]

theorem readWord_ue {s : State} (p : Nat) (site : WordSite) (hinj : s.col.inj = none) : readWord s p site .ue = eccUncorrectable s p site false := by
  simp only [readWord, injectCheck_none hinj, Bool.false_eq_true, if_false]

theorem readWord_good {s : State} (p : Nat) (site : WordSite) (hinj : s.col.inj = none) : readWord s p site .good = s := by
  simp only [readWord, injectCheck_none hinj, Bool.false_eq_true, if_false]

/-- What a poisoned line becomes depends on memory and its placement alone. -/
theorem poisonLine_congr {s t : State} (hhbm : t.hbm = s.hbm) (hstore : t.store = s.store) (h i : Nat) :
    (poisonLine t h i).hbm = (poisonLine s h i).hbm ∧ (poisonLine t h i).store = (poisonLine s h i).store := by
  have hsurf : t.surface h = s.surface h := congrArg (fun x : Store => kget (fun _ => none) x.surfaces h) hstore
  unfold poisonLine
  rw [hsurf]
  split
  · exact ⟨hhbm, hstore⟩
  · split
    · simp only [writeBody, lineBody, State.bytes, State.setBytes, hhbm]
      exact ⟨trivial, hstore⟩
    · exact ⟨hhbm, hstore⟩

theorem poisonLine_keeps {β : Type} (g : State → β) (hg : ∀ (s : State) b, g { s with hbm := b } = g s) (s : State) (h i : Nat) : g (poisonLine s h i) = g s := by
  unfold poisonLine
  split
  · rfl
  · split
    · exact hg _ _
    · rfl

theorem forEach_poisonLine_congr (h : Nat) : ∀ (ls : List Nat) {s t : State}, t.hbm = s.hbm → t.store = s.store →
    (forEach ls t (fun s i => poisonLine s h i)).hbm = (forEach ls s (fun s i => poisonLine s h i)).hbm
  | [], _, _, hhbm, _ => hhbm
  | i :: ls, s, t, hhbm, hstore => by
    obtain ⟨hhbm, hstore⟩ := poisonLine_congr hhbm hstore h i
    exact forEach_poisonLine_congr h ls hhbm hstore

theorem voidRequests_keeps {β : Type} (g : State → β) (hscaler : ∀ s l x, g (State.setScaler s l x) = g s) (hgroup : ∀ s k x, g (State.setGroup s k x) = g s) (s : State)
    (h : Nat) (ls : List Nat) : g (voidRequests s h ls) = g s := by
  unfold voidRequests voidRequests.ahead
  refine (forEach_keeps g _ (fun t l => ?scaler) _ _).trans (forEach_keeps g _ (fun t k => ?group) _ _)
  case scaler =>
    dsimp only
    split
    · exact hscaler _ _ _
    · rfl
  case group =>
    dsimp only
    split
    · exact hgroup _ _ _
    · rfl

/-- The word's lines are poisoned, and the beads asked for of them are VOID. -/
def wordPoisoned (s : State) (x : Surface) (site : WordSite) (p : Nat) : State :=
  let s1 := raiseInj ((s.bump R.SSP_UE_CNT 1).wr R.SSP_UE_LOG (word (site.handle * 65536 + p))) 25 false
  let ls := wordLines x site.stripe site.word
  voidRequests (forEach ls s1 (fun s i => poisonLine s site.handle i)) site.handle ls

theorem wordPoisoned_keeps {β : Type} (g : State → β) (hscaler : ∀ s l x, g (State.setScaler s l x) = g s) (hgroup : ∀ s k x, g (State.setGroup s k x) = g s)
    (hhbm : ∀ (s : State) b, g { s with hbm := b } = g s) (hraise : ∀ s src d i w, g (raiseFull s src d i w) = g s) (hwr : ∀ s o v, g (State.wr s o v) = g s)
    (s : State) (x : Surface) (site : WordSite) (p : Nat) : g (wordPoisoned s x site p) = g s :=
  (voidRequests_keeps g hscaler hgroup _ _ _).trans ((forEach_keeps g _ (fun t i => poisonLine_keeps g hhbm t _ i) _ _).trans
    ((hraise _ _ _ _ _).trans ((hwr _ _ _).trans (hwr _ _ _))))

theorem wordPoisoned_store (s : State) (x : Surface) (site : WordSite) (p : Nat) : (wordPoisoned s x site p).store = s.store :=
  wordPoisoned_keeps State.store (fun _ _ _ => rfl) (fun _ _ _ => rfl) (fun _ _ => rfl) (fun _ _ _ _ _ => raiseFull_store _ _ _ _ _) (fun _ _ _ => rfl) s x site p

theorem raiseFull_variant (s : State) (src detail : Nat) (inj : Bool) (own : Word) : (raiseFull s src detail inj own).variant = s.variant :=
  (unforced_eq State.variant s.variant (fun _ _ _ => rfl) (fun _ _ _ => rfl) (fun _ _ _ => rfl) (fun _ _ _ => rfl) (fun _ _ _ => rfl) State.setFunc_variant (fun _ _ => rfl)
    (fun _ _ => rfl) (fun _ => rfl)).raiseFull rfl (fun _ _ h => h) src detail inj own

theorem wordPoisoned_variant (s : State) (x : Surface) (site : WordSite) (p : Nat) : (wordPoisoned s x site p).variant = s.variant :=
  wordPoisoned_keeps State.variant (fun _ _ _ => rfl) (fun _ _ _ => rfl) (fun _ _ => rfl) raiseFull_variant
    (fun _ _ _ => rfl) s x site p

theorem wordPoisoned_hbm (s : State) (x : Surface) (site : WordSite) (p : Nat) : (wordPoisoned s x site p).hbm =
    (forEach (wordLines x site.stripe site.word) s (fun s i => poisonLine s site.handle i)).hbm :=
  (voidRequests_keeps State.hbm (fun _ _ _ => rfl) (fun _ _ _ => rfl) _ _ _).trans
    (forEach_poisonLine_congr _ _ ((raiseFull_hbm _ _ _ _ _).trans rfl) ((raiseFull_store _ _ _ _ _).trans rfl))

/-- A row is spared (R89). -/
def rowSpared (s : State) (p row : Nat) : State :=
  raise (s.setPc p { s.pc p with spared := row :: (s.pc p).spared, ces := (s.pc p).ces.filter (fun e => e.2.1 ≠ row) }) 29

/-- A channel with rows to spare stays in use. -/
theorem spareRow_plain {s : State} {p : Nat} (row : Nat) (hrows : 4 * ((s.pc p).spared.length + 1) ≤ 3 * s.variant.spareRows) :
    spareRow s p row = rowSpared s p row := by
  have hroom : (s.pc p).spared.length < s.variant.spareRows := by omega
  have hkept : ¬ 3 * s.variant.spareRows < 4 * (row :: (s.pc p).spared).length := by
    rw [List.length_cons]
    omega
  unfold spareRow
  simp only [if_pos hroom, if_neg fun h => hkept (And.left h)]
  rfl

/-- The first uncorrectable word of a channel with rows to spare: its lines are poisoned and its row spared (R89, R91). -/
theorem eccUncorrectable_plain {s : State} {p : Nat} {site : WordSite} {x : Surface} (hsurf : s.surface site.handle = some x) (hduplex : x.duplex = false)
    (hrows : 4 * ((s.pc p).spared.length + 1) ≤ 3 * s.variant.spareRows) (hues : (s.pc p).ues = []) :
    eccUncorrectable s p site false = rowSpared ((wordPoisoned s x site p).setPc p
      { s.pc p with ues := [((wordPoisoned s x site p).time64, site.row)] }) p site.row := by
  have hraised : (raiseInj ((s.bump R.SSP_UE_CNT 1).wr R.SSP_UE_LOG (word (site.handle * 65536 + p))) 25 false).surface site.handle = some x :=
    (raiseFull_keeps _ _ _ _ _ (fun t => t.surface site.handle) fun _ => rfl).trans hsurf
  have hpc : (wordPoisoned s x site p).pc p = s.pc p := congrArg (fun m : Store => kget (fun _ => Pc.reset) m.pcs p) (wordPoisoned_store s x site p)
  have hu : eccUncorrectable s p site false = (let now := (wordPoisoned s x site p).time64
      let y := (wordPoisoned s x site p).pc p
      let ues := (now, site.row) :: y.ues.filter (fun e => decide (now < e.1 + nsPerS))
      let s3 := spareRow ((wordPoisoned s x site p).setPc p { y with ues := ues }) p site.row
      let rows := ((ues.map (fun e => e.2)).eraseDups).length
      if 8 ≤ rows ∧ ((s3.pc p).state = .active ∨ (s3.pc p).state = .draining) then failPc s3 p else s3) := by
    unfold eccUncorrectable
    simp only [hraised, hduplex, Bool.false_and, Bool.false_eq_true, if_false]
    rfl
  have hvariant := wordPoisoned_variant s x site p
  generalize wordPoisoned s x site p = u at *
  rw [hu]
  dsimp only
  rw [hpc, hues, List.filter_nil, spareRow_plain]
  · exact if_neg fun h => absurd (show 8 ≤ 1 from h.1) (by decide)
  · rw [State.pc_setPc_self]
    exact hvariant ▸ hrows

section
variable {s : State} {p : Nat} {site : WordSite} {x : Surface} (hsurf : s.surface site.handle = some x) (hduplex : x.duplex = false)
  (hrows : 4 * ((s.pc p).spared.length + 1) ≤ 3 * s.variant.spareRows) (hues : (s.pc p).ues = [])
include hsurf hduplex hrows hues

theorem eccUncorrectable_pc (q : Nat) : ((eccUncorrectable s p site false).pc q).state = (s.pc q).state ∧
    ((eccUncorrectable s p site false).pc q).spared = if q = p then site.row :: (s.pc p).spared else (s.pc q).spared := by
  have hpc : (wordPoisoned s x site p).pc q = s.pc q := congrArg (fun m : Store => kget (fun _ => Pc.reset) m.pcs q) (wordPoisoned_store s x site p)
  rw [eccUncorrectable_plain hsurf hduplex hrows hues, rowSpared, raise_pc_read, State.pc_setPc, State.pc_setPc_self, State.pc_setPc, hpc]
  split <;> simp_all

theorem eccUncorrectable_hbm : (eccUncorrectable s p site false).hbm =
    (forEach (wordLines x site.stripe site.word) s (fun s i => poisonLine s site.handle i)).hbm := by
  rw [eccUncorrectable_plain hsurf hduplex hrows hues, rowSpared, raise_hbm, State.setPc_hbm, State.setPc_hbm]
  exact wordPoisoned_hbm s x site p

theorem eccUncorrectable_surface (h : Nat) : (eccUncorrectable s p site false).surface h = s.surface h := by
  rw [eccUncorrectable_plain hsurf hduplex hrows hues, rowSpared, raise_surface_read, State.setPc_surface_other, State.setPc_surface_other]
  exact congrArg (fun m : Store => kget (fun _ => none) m.surfaces h) (wordPoisoned_store s x site p)

end

-- The end of a heat window, and what a carry that is done leaves.

section
variable (s : State)

theorem heatWindowEnd_hbm : (heatWindowEnd s).hbm = s.hbm := by
  have h := heatWindowEnd_keeps State.hbm (fun _ _ _ => rfl) s
  rw [h, heatMoved_keeps State.hbm (fun _ _ _ => rfl) (fun _ _ => raise_hbm _ _) (fun _ _ => rfl) (fun _ _ => rfl) (fun _ _ _ _ => rfl)]
  exact latchLoads_keeps State.hbm (fun _ _ _ => rfl) s

theorem heatWindowEnd_surface (i : Nat) : (heatWindowEnd s).surface i = s.surface i := by
  have h := heatWindowEnd_keeps (·.surface i) (fun _ _ _ => rfl) s
  rw [h, heatMoved_keeps (·.surface i) (fun _ _ _ => rfl) (fun _ _ => raise_surface_read _ _ _) (fun _ _ => rfl) (fun _ _ => rfl) (fun _ _ _ _ => rfl)]
  exact latchLoads_keeps (·.surface i) (fun _ _ _ => rfl) s

theorem heatWindowEnd_pc {p : Nat} (hp : p < 128) : ((heatWindowEnd s).pc p).load = (s.pc p).bytes ∧ ((heatWindowEnd s).pc p).bytes = 0 := by
  have h := heatWindowEnd_keeps (·.pc p) (fun _ _ _ => rfl) s
  have hkept := heatMoved_keeps (fun t => ((t.pc p).load, (t.pc p).bytes)) (fun _ _ _ => rfl) (fun _ _ => by rw [raise_pc_read]) (fun _ _ => rfl)
    (fun t q => Prod.ext (pc_takeStripe t q p).1 (pc_takeStripe t q p).2) (fun t a b h => Prod.ext (pc_shiftLoad t a b h p).1 (pc_shiftLoad t a b h p).2) s
  obtain ⟨hload, hbytes⟩ := Prod.mk.inj hkept
  rw [h, hload, hbytes, latchLoads_pc s hp]
  exact ⟨rfl, rfl⟩

theorem heatWindowEnd_carries (h : bit s.store.balCtrl 0 = false) : (heatWindowEnd s).store.carries = s.store.carries :=
  (heatWindowEnd_keeps (·.store.carries) (fun _ _ _ => rfl) s).trans (heatMoved_still h)

theorem heatWindowEnd_balance : (heatWindowEnd s).store.heats = [] ∧ (heatWindowEnd s).store.balCtrl = s.cfg R.SSP_BAL_CTRL := by
  rw [heatWindowEnd_eq]
  refine ⟨rfl, (heatMoved_keeps (·.cfg R.SSP_BAL_CTRL) (fun _ _ _ => rfl) (fun _ _ => raise_cfg_read _ _ _) (fun _ _ => rfl) (fun _ _ => rfl)
    (fun _ _ _ _ => rfl) s).trans (latchLoads_keeps (·.cfg R.SSP_BAL_CTRL) (fun _ _ _ => rfl) s)⟩

end

/-- With no jobs, no hint is settled. -/
theorem settlePins_idle {s : State} (h : s.queues = []) : forEach (List.range 64) s settlePin = s := by
  refine forEach_id _ fun q _ => ?_
  have hq : (s.queue q).job = none := by
    rw [State.queue, h]
    rfl
  have hnone : hbmJob s q Typ.PIN_HINT .running = none := by
    rw [hbmJob, State.jobIn, hq, ite_self]
  rw [settlePin, hnone]

/-- A stripe whose place the scrub queue still has room for. -/
theorem releaseStripe_queued {s : State} {p : Nat} (h : scrubPending (s.setPc p { s.pc p with scrub := (s.pc p).scrub + 1 }) ≤ 65536) : releaseStripe s p =
    if (s.pc p).state = .active ∨ (s.pc p).state = .draining then s.setPc p { s.pc p with scrub := (s.pc p).scrub + 1 } else s := by
  have hroom : scrubPending (s.setPc p { s.pc p with scrub := (s.pc p).scrub + 1 }) ≠ 65537 := fun h' => by rw [h'] at h; omega
  unfold releaseStripe
  dsimp only
  rw [if_neg hroom]

theorem carryOn_landed {s : State} {c : Carry} {x : Surface} {p : Nat} (hact : (s.pc p).state = .active) (hpermits : permits x.mask p = true) :
    carryOn s c x p = s := by
  rw [carryOn, if_neg (not_not.mpr hact), if_pos hpermits]

/-- The stripe stands in its new place, and its old one waits for its scrub. -/
def stripeLanded (s : State) (c : Carry) (x : Surface) (p : Nat) : State :=
  (releaseStripe ((setCarries s []).setSurface c.handle (some (setPlace x c.twin c.stripe p))) ((x.copy c.twin).getD c.stripe 0)).bump (carryCounter c.reason) 1

theorem carryCopyDone_landed {s : State} {c : Carry} {x : Surface} {p : Nat} (hcarries : s.store.carries = [c]) (htarget : c.target = some p)
    (hbal : c.reason = .balance → s.health.level < 2) (hsurf : s.surface c.handle = some x) (hact : ((stripeLanded s c x p).pc p).state = .active)
    (hpermits : permits x.mask p = true) (hnone : (checkRetired (stripeLanded s c x p)).store.carries = []) :
    carryCopyDone s = checkRetired (stripeLanded s c x p) := by
  have hpaused : carryPaused s c = false := by
    rw [carryPaused]
    by_cases h : c.reason = .balance
    · have := hbal h
      simp [h, this]
    · simp [h]
  have hfound : s.store.carries.find? (fun c => c.target.isSome && !carryPaused s c) = some c := by
    rw [hcarries]
    simp [htarget, hpaused]
  have herase : s.store.carries.erase c = [] := by
    rw [hcarries]
    simp
  have hkept : (setCarries s []).surface c.handle = some x := hsurf
  have hlanded : carryOn (stripeLanded s c x p) c x p = stripeLanded s c x p := carryOn_landed hact hpermits
  unfold stripeLanded at *
  unfold carryCopyDone
  simp only [hfound, herase, hkept, htarget, hlanded]
  exact pump_idle hnone

section
variable {s : State} {c : Carry} {x : Surface} {p : Nat}

theorem releaseStripe_keeps {β : Type} (g : State → β) (hset : ∀ s p x, g (State.setPc s p x) = g s) (hraise : ∀ s src, g (raise s src) = g s) (s : State) (p : Nat) :
    g (releaseStripe s p) = g s := by
  unfold releaseStripe
  dsimp only
  split_ifs
  · exact (hraise _ _).trans (hset _ _ _)
  · exact hset _ _ _
  · rfl

/-- What a landed stripe leaves besides its surface, its old channel and the counter of its carry. -/
theorem stripeLanded_keeps {β : Type} (g : State → β) (hset : ∀ s p x, g (State.setPc s p x) = g s) (hraise : ∀ s src, g (raise s src) = g s)
    (hwr : ∀ s o v, g (State.wr s o v) = g s) (s : State) (c : Carry) (x : Surface) (p : Nat) :
    g (stripeLanded s c x p) = g ((setCarries s []).setSurface c.handle (some (setPlace x c.twin c.stripe p))) :=
  (hwr _ _ _).trans (releaseStripe_keeps g hset hraise _ _)

theorem stripeLanded_carries : (stripeLanded s c x p).store.carries = [] :=
  stripeLanded_keeps (·.store.carries) (fun _ _ _ => rfl) (fun _ _ => congrArg Store.carries (raise_store _ _)) (fun _ _ _ => rfl) s c x p

theorem stripeLanded_surface (h : Nat) : (stripeLanded s c x p).surface h = if h = c.handle then some (setPlace x c.twin c.stripe p) else s.surface h :=
  (stripeLanded_keeps (·.surface h) (fun _ _ _ => rfl) (fun _ _ => raise_surface_read _ _ _) (fun _ _ _ => rfl) s c x p).trans (State.surface_setSurface _ _ _ _)

theorem stripeLanded_pc (hpend : let src := (x.copy c.twin).getD c.stripe 0
      scrubPending (s.setPc src { s.pc src with scrub := (s.pc src).scrub + 1 }) ≤ 65536) (q : Nat) :
    (stripeLanded s c x p).pc q = if q = (x.copy c.twin).getD c.stripe 0 ∧ ((s.pc q).state = .active ∨ (s.pc q).state = .draining) then
      { s.pc q with scrub := (s.pc q).scrub + 1 } else s.pc q := by
  dsimp only at hpend
  unfold stripeLanded
  generalize (x.copy c.twin).getD c.stripe 0 = src at *
  have hpend' : scrubPending (((setCarries s []).setSurface c.handle (some (setPlace x c.twin c.stripe p))).setPc src
      { s.pc src with scrub := (s.pc src).scrub + 1 }) ≤ 65536 := hpend
  have hbump (t : State) (o n : Nat) : (t.bump o n).pc q = t.pc q := rfl
  have hpc (q : Nat) : ((setCarries s []).setSurface c.handle (some (setPlace x c.twin c.stripe p))).pc q = s.pc q := rfl
  rw [hbump, releaseStripe_queued hpend', hpc]
  by_cases hst : (s.pc src).state = .active ∨ (s.pc src).state = .draining
  · rw [if_pos hst, State.pc_setPc, hpc]
    by_cases hq : q = src
    · rw [if_pos hq, hq, if_pos ⟨rfl, hst⟩]
    · rw [if_neg hq, if_neg fun h => hq h.1]
  · have hkept : ¬ (q = src ∧ ((s.pc q).state = .active ∨ (s.pc q).state = .draining)) := fun h => hst (h.1 ▸ h.2)
    rw [if_neg hst, hpc, if_neg hkept]

theorem stripeLanded_regs (hpend : let src := (x.copy c.twin).getD c.stripe 0
      scrubPending (s.setPc src { s.pc src with scrub := (s.pc src).scrub + 1 }) ≤ 65536) :
    (stripeLanded s c x p).regs = (s.bump (carryCounter c.reason) 1).regs := by
  dsimp only at hpend
  unfold stripeLanded
  generalize (x.copy c.twin).getD c.stripe 0 = src at *
  have hpend' : scrubPending (((setCarries s []).setSurface c.handle (some (setPlace x c.twin c.stripe p))).setPc src
      { s.pc src with scrub := (s.pc src).scrub + 1 }) ≤ 65536 := hpend
  rw [releaseStripe_queued hpend']
  split <;> rfl

end

end Sys2Proof.Machine

namespace Sys2Proof.Proofs
-- One proof at a time, so that the stacks of the evaluations do not add up.
set_option Elab.async false

open Sys2Proof.Machine Sys2Proof.Claims

/-- Settles O5: what each of its commands makes of the channels, the stripes and memory, with no jobs and no other carry where the clause says so. -/
theorem storeEvents : Obligations.StoreEvents := by
  unfold Obligations.StoreEvents
  refine ⟨fun p s hs hscrub => ends_of hs (fun _ => rfl) ?scrub,
    fun p s hs hnot hact => ends_of hs (fun _ => rfl) ?lost,
    fun p s hs => ends_of hs (fun _ => rfl) ?retrained,
    fun p s hs => ends_of hs (fun _ => rfl) ?refresh,
    fun s hs hen htrained hquiet => ends_of hs (fun _ => rfl) ?selfRefresh,
    fun p s hs hlost => gives_of hs (fun _ => rfl) ?timeout,
    fun p s hs hlost hact hcarries hon hothers hqueues => ends_of hs (fun _ => rfl) ?failed,
    fun p site ecc s hs hself hlevel hread => gives_of hs (fun _ => rfl) ?patrol,
    fun p r ra site ecc s hs hread htrained hs0 => gives_of hs (fun _ => rfl) ?grant,
    fun p site s hs hinj hqueues => ends_of hs (fun _ => rfl) ?good,
    fun p site x s hs hself hlevel hread hinj hqueues hsurf hduplex hrows hues => ends_of hs (fun _ => rfl) ?ue,
    fun s hs => ends_of hs (fun _ => rfl) ?heat,
    fun s hs => gives_of hs (fun _ => rfl) ?copies,
    fun c x p s hs hqueues hcarries htarget hbal hsurf hact hpermits hpend => ends_of hs (fun _ => rfl) ?carry⟩
  case scrub =>
    rw [if_neg hscrub]
    simp +contextual [State.pc_setPc]
  case lost =>
    rw [if_neg (by simp [hnot, hact])]
    simp +contextual [State.pc_setPc]
  case retrained => simp +contextual [State.pc_setPc]
  case refresh => simp +contextual [State.pc_setPc]
  case selfRefresh =>
    rw [if_pos ⟨hen, htrained, hquiet⟩]
    exact ⟨rfl, rfl, rfl⟩
  case timeout => exact pcJobs_congr (if_pos hlost)
  case failed =>
    have hsame : retrainTimeout s p = failPc s p := if_pos hlost
    have hpc := failPc_retires p.isLt hcarries hon hothers
    have hqueues' : (failPc s p).queues = [] := (failPc_keeps_empty State.queues (fun _ _ _ => rfl) raise_queues (fun _ _ _ => rfl) (fun _ _ => rfl)
      (fun _ _ _ _ => rfl) (fun _ _ => rfl) hcarries hon).trans hqueues
    have hhbm : (failPc s p).hbm = s.hbm := failPc_keeps_empty State.hbm (fun _ _ _ => rfl) (fun _ _ => raise_hbm _ _) (fun _ _ _ => rfl) (fun _ _ => rfl)
      (fun _ _ _ _ => rfl) (fun _ _ => rfl) hcarries hon
    have hsurf (h : Nat) : (failPc s p).surface h = s.surface h := failPc_keeps_empty (·.surface h) (fun _ _ _ => rfl) (fun _ _ => raise_surface_read _ _ _)
      (fun _ _ _ => rfl) (fun _ _ => rfl) (fun _ _ _ _ => rfl) (fun _ _ => rfl) hcarries hon
    rw [pcJobs_idle (f := fun s => retrainTimeout s p) (by rw [hsame]; exact hqueues'), hsame]
    simp +contextual [hpc, hhbm, hsurf]
  case patrol => exact pcJobs_congr (if_neg (by simp [hself, hlevel, hread]))
  case grant =>
    refine pcJobs_congr ?_
    rw [wordGrant, if_neg (by simp [hread, htrained])]
    exact if_pos (.inl hs0)
  case good =>
    have hsame : patrolRead s p site .good = s := by
      rw [patrolRead, readWord_good p site hinj, ite_self]
    rw [pcJobs_idle (by rw [hsame]; exact hqueues), hsame, hold_keeping_self]
    exact ⟨rfl, rfl, rfl⟩
  case ue =>
    have hsame : patrolRead s p site .ue = eccUncorrectable s p site false :=
      (if_neg (by simp [hself, hlevel, hread])).trans (readWord_ue p site hinj)
    have hpc := eccUncorrectable_pc hsurf hduplex hrows hues
    have hhbm := eccUncorrectable_hbm hsurf hduplex hrows hues
    have hkept := eccUncorrectable_surface hsurf hduplex hrows hues
    rw [pcJobs_steady (f := fun s => patrolRead s p site .ue) (fun q => by rw [hsame]; exact (hpc q).1), hsame]
    simp [hpc, hhbm, hkept]
  case heat =>
    simp +contextual [heatWindowEnd_hbm, heatWindowEnd_surface, heatWindowEnd_pc, heatWindowEnd_carries, heatWindowEnd_balance]
  case copies => rfl
  case carry =>
    have hpc := stripeLanded_pc (p := p) hpend
    have hstays : ((stripeLanded s c x p).pc p).state = .active := by
      rw [hpc]
      split <;> exact hact
    have hnone : (checkRetired (stripeLanded s c x p)).store.carries = [] :=
      (checkRetired_keeps (·.store.carries) (fun _ _ _ => rfl) (fun _ _ => rfl) _).trans stripeLanded_carries
    have hsame := carryCopyDone_landed hcarries htarget hbal hsurf hstays hpermits hnone
    have hidle : (checkRetired (stripeLanded s c x p)).queues = [] := (checkRetired_keeps State.queues (fun _ _ _ => rfl) (fun _ _ => rfl) _).trans
      ((stripeLanded_keeps State.queues (fun _ _ _ => rfl) raise_queues (fun _ _ _ => rfl) s c x p).trans hqueues)
    have hhbm : (checkRetired (stripeLanded s c x p)).hbm = s.hbm := (checkRetired_keeps State.hbm (fun _ _ _ => rfl) (fun _ _ => rfl) _).trans
      (stripeLanded_keeps State.hbm (fun _ _ _ => rfl) (fun _ _ => raise_hbm _ _) (fun _ _ _ => rfl) s c x p)
    have hregs : (checkRetired (stripeLanded s c x p)).regs = (s.bump (carryCounter c.reason) 1).regs :=
      (checkRetired_keeps State.regs (fun _ _ _ => rfl) (fun _ _ => rfl) _).trans (stripeLanded_regs hpend)
    have hsurf' (h : Nat) : (checkRetired (stripeLanded s c x p)).surface h = if h = c.handle then some (setPlace x c.twin c.stripe p) else s.surface h :=
      (checkRetired_keeps (·.surface h) (fun _ _ _ => rfl) (fun _ _ => rfl) _).trans (stripeLanded_surface h)
    rw [hsame, settlePins_idle hidle]
    refine ⟨?_, ?_, ?_, ?_, ?_, ?_⟩
    · simp [hsurf']
    · simp +contextual [hsurf']
    · simp [hnone]
    · simp [hhbm]
    · simp [hregs]
    · intro src hsrc
      have hscrub : ((stripeLanded s c x p).pc src) = { s.pc src with scrub := (s.pc src).scrub + 1 } := (hpc src).trans (if_pos ⟨rfl, .inl hsrc⟩)
      simp only [State.hold_pc, State.keeping_pc]
      rw [if_pos (by decide), checkRetired_pc, hscrub, if_neg (by simp [hsrc])]

end Sys2Proof.Proofs

/-!
PROOFS. Steps of the tables at their tiles, and lines at the heads (06_reckoning_tables.md, Executing a table; 08_commits_updates.md, The frame
boundary).
-/
namespace Sys2Proof.Machine
-- One proof at a time, so that the stacks of the evaluations do not add up.
set_option Elab.async false

open Sys2Proof.Claims

/-- With no injection armed, no word of the arrays is read wrong. -/
theorem sramReads_none {s : State} (hinj : s.col.inj = none) (cls unit : Nat) (ws : List (Nat × Nat)) : sramReads s cls unit ws = ([], s) := by
  have hread (w : Nat × Nat) : sramCheck s cls unit = (.good, s) := by
    simp [sramCheck, injectCheck, hinj]
  unfold sramReads
  induction ws.take 15 with
  | nil => rfl
  | cons w ws ih =>
    rw [List.foldl_cons]
    dsimp only
    rw [hread w]
    exact ih

theorem seqUpsets_none {s : State} (hinj : s.col.inj = none) (ws : List (Nat × Nat)) : seqUpsets s [] ws = ([], s) := by
  rw [seqUpsets, sramReads_none hinj]
  rfl

theorem DeckView.withBad_nil (v : DeckView) : v.withBad [] = v := rfl

/-- A step without a fault goes into the queue of its tile (R130). -/
theorem seqIssue_queued {s : State} {g i : Nat} {x : Group} (hreleased : s.ldr.state = .released) (hsteps : (s.group g).live.steps ≠ 0)
    (hnext : seqNext s g = some (i, x)) (hinj : s.col.inj = none) (hue : stepUe (s.viewFor g x.seqFrame) g i ((s.viewFor g x.seqFrame).step g i) = false)
    (hop : ((s.viewFor g x.seqFrame).step g i).op ≠ 1) (hbad : stepBad (s.viewFor g x.seqFrame) g ((s.viewFor g x.seqFrame).step g i) = false)
    (hhead : headComposes s g ((s.viewFor g x.seqFrame).step g i).head x.seqFrame = true)
    (hroom : (s.tile ((s.viewFor g x.seqFrame).step g i).tile).queue.length < 4) :
    seqIssue s g [] = (let t := (s.viewFor g x.seqFrame).step g i
      (s.setGroup g x).setTile t.tile { s.tile t.tile with
        queue := (s.tile t.tile).queue ++ [⟨g, x.seqFrame, i, t.head, t.y0, t.lines, (s.viewFor g x.seqFrame).entries g t⟩] }) := by
  have hrun : ¬ (¬ s.released = true ∨ (s.group g).live.steps = 0) := by simp [State.released, hreleased, hsteps]
  unfold seqIssue
  rw [if_neg hrun, hnext]
  dsimp only
  rw [seqUpsets_none hinj]
  dsimp only
  rw [DeckView.withBad_nil, hue, hbad, hhead, if_neg Bool.false_ne_true, if_neg hop, if_neg Bool.false_ne_true, if_neg (not_not.mpr rfl), if_neg (by omega)]

theorem lineDue_due {s : State} {h : Nat} (ue : List Nat) (us : List Upset) (hscan : (s.head h).scanning = true) (hdue : (s.head h).due = false)
    (hline : (s.head h).line < (activeSize (s.headView h) h).2) : ∃ u : State, lineDue s h ue us = u.setHead h { u.head h with due := true } := by
  unfold lineDue
  extract_lets x v
  split
  rename_i w height hsize
  have hdue' : ¬ (¬ x.scanning = true ∨ x.due = true ∨ height ≤ x.line) := by
    have hheight : (activeSize (s.headView h) h).2 = height := congrArg Prod.snd hsize
    simp [x, hscan, hdue]
    omega
  rw [if_neg hdue']
  extract_lets _
  split
  extract_lets _ _ _ _
  split
  extract_lets _
  split
  extract_lets _ _ _ _
  split
  extract_lets _ s10
  exact ⟨s10, rfl⟩

end Sys2Proof.Machine

namespace Sys2Proof.Proofs
-- One proof at a time, so that the stacks of the evaluations do not add up.
set_option Elab.async false

open Sys2Proof.Machine Sys2Proof.Claims

/-- Settles O8: each command's own branch, taken under the clause's premises. -/
theorem compositionEvents : Obligations.CompositionEvents := by
  unfold Obligations.CompositionEvents
  refine ⟨fun g i x s hs hreleased hsteps hnext hinj => ?issue,
    fun t us st rest s hs hrun hqueue hslots hcarry hvoid => gives_of hs (fun _ => rfl) ?void,
    fun t us st rest s hs hrun hqueue hslots hcarry hvoid hlost => gives_of hs (fun _ => rfl) ?start,
    fun t st s hs hrun hdone => ends_of hs (fun _ => rfl) ?done,
    fun t i st e l s hs hrun hentry hlay hholed hrung hy => gives_of hs (fun _ => rfl) ?bead,
    fun h us l rest s hs hresults hvoid => gives_of hs (fun _ => rfl) ?resultVoid,
    fun h us l rest s hs hresults hvoid => gives_of hs (fun _ => rfl) ?result,
    fun h ue us s hs hscan hdue hline => ends_of hs (fun _ => rfl) ?due,
    fun h s hs hscan hdue => ends_of hs (fun _ => rfl) ?left⟩
  case issue =>
    intro v t hue hop hbad hhead hroom
    have hqueued : seqIssue s g [] = (s.setGroup g x).setTile t.tile { s.tile t.tile with
        queue := (s.tile t.tile).queue ++ [⟨g, x.seqFrame, i, t.head, t.y0, t.lines, v.entries g t⟩] } :=
      seqIssue_queued hreleased hsteps hnext hinj hue hop hbad hhead hroom
    refine ends_of hs (fun _ => rfl) ?_
    rw [hqueued]
    simp +contextual [State.tile_setTile]
  case void =>
    rw [tileStart]
    simp only [hrun, hqueue]
    rw [if_neg (by omega), if_neg (fun h => hcarry h.1), if_pos (.inl hvoid)]
  case start =>
    have hserves : ¬ (unitVoid s (tileFor s t st) = true ∨ s.health.lostTiles.contains t.val = true) := by
      rw [hvoid, hlost]
      simp
    rw [tileStart]
    simp only [hrun, hqueue]
    rw [if_neg (by omega), if_neg (fun h => hcarry h.1), if_neg hserves]
  case done =>
    simp only [hrun]
    rw [if_pos hdone]
    simp +contextual [State.tile_setTile]
  case bead =>
    rw [tileVoid]
    simp only [hrun, hentry, hlay]
    exact if_pos ⟨hholed, hrung, hy⟩
  case resultVoid =>
    rw [resultArrival]
    simp only [hresults]
    rw [if_pos hvoid]
  case result =>
    rw [resultArrival]
    simp only [hresults]
    rw [if_neg (by simp [hvoid])]
    rfl
  case due =>
    obtain ⟨u, hu⟩ := lineDue_due ue us hscan hdue hline
    rw [hu]
    simp
  case left =>
    rw [if_neg (by simp [hscan, hdue])]
    simp +contextual [State.head_setHead]

end Sys2Proof.Proofs

/-!
PROOFS. The run-ahead store above its watermark (07_fetch_scheduling.md, Registers and events).
-/
namespace Sys2Proof.Machine
-- One proof at a time, so that the stacks of the evaluations do not add up.
set_option Elab.async false

open Sys2Proof.Claims

/-- A running device with one line in the run-ahead store, and its watermark at 0. -/
def raAboveMark : State :=
  { State.reset with powered := true, mgmt := true }.setCfg R.FSH_RA_WM 0#32 |>.setGroup 0
    { (State.reset.group 0) with ra := [⟨0, 0, 0, 1, 1, [], false, [], false, 0, 0, 0, true, 0, 0, []⟩] }

/-- Whether the run-ahead store has stood above its watermark in the window of a next state. -/
def nextRaHigh : Answer → Bool
  | .next t => t.fsh.raHigh
  | _ => false

end Sys2Proof.Machine

namespace Sys2Proof.Proofs
-- One proof at a time, so that the stacks of the evaluations do not add up.
set_option Elab.async false

open Sys2Proof.Machine Sys2Proof.Claims

/-- Refutes O6: the tick opens the next window with the level as it stands, so the store that stands above its watermark counts as high at once. -/
theorem not_fetchEvents : ¬ Obligations.FetchEvents := by
  unfold Obligations.FetchEvents
  rintro ⟨-, -, -, -, -, -, -, -, htick, -, -⟩
  have hruns : Runs raAboveMark := ⟨rfl, rfl⟩
  obtain ⟨t, ht, -, -, hlow, -⟩ := htick [] [] raAboveMark hruns
  have hhigh : nextRaHigh (exec (.fshRefillTick [] []) raAboveMark) = true := by decide +kernel
  rw [ht] at hhigh
  exact absurd (hlow.symm.trans hhigh) (by decide)

end Sys2Proof.Proofs

/-!
PROOFS. Plans (06_reckoning_tables.md, Planning a group).
-/
namespace Sys2Proof.Machine
-- One proof at a time, so that the stacks of the evaluations do not add up.
set_option Elab.async false

open Sys2Proof.Claims

/-- Words that fail in the planned tables change no register, and no group. -/
theorem pendUpsets_keeps {β : Type} (g : State → β) (h : ∀ s c a, g (State.failPend s c a) = g s) (s : State) (us : List Upset) : g (pendUpsets s us) = g s := by
  refine forEach_keeps g (fun s u => if u.ecc = .ue then s.failPend u.space u.addr else s) (fun t u => ?_) us s
  split
  · exact h _ _ _
  · rfl

end Sys2Proof.Machine

namespace Sys2Proof.Proofs
-- One proof at a time, so that the stacks of the evaluations do not add up.
set_option Elab.async false

open Sys2Proof.Machine Sys2Proof.Claims

/-- Settles O7: each branch of the planner, as the plan's result and the commit's state choose it. -/
theorem planEvents : Obligations.PlanEvents := by
  unfold Obligations.PlanEvents
  refine ⟨fun us g rest s hs hnone hq => ends_of hs (fun _ => rfl) ?start,
    fun us r c s hs hplan hcommit hreason => gives_of hs (fun _ => rfl) ?refused,
    fun us r c s hs hplan hcommit hreason hkept => gives_of hs (fun _ => rfl) ?planned⟩
  case start =>
    have hregs : (pendUpsets s us).regs = s.regs := pendUpsets_keeps State.regs (fun _ _ _ => rfl) s us
    have hgroups : (pendUpsets s us).groups = s.groups := pendUpsets_keeps State.groups (fun _ _ _ => rfl) s us
    rw [planStart, hnone, hq]
    simp [hregs, hgroups]
  case refused =>
    have hcommit' : (({ s with planning := none } : State).group r.group).commit = some c := hcommit
    rw [planDone, hplan]
    simp only [hcommit']
    exact if_pos hreason
  case planned =>
    have hcommit' : (({ s with planning := none } : State).group r.group).commit = some c := hcommit
    rw [planDone, hplan]
    simp only [hcommit']
    rw [if_neg (not_not.mpr hreason), if_neg (by simp [hkept])]

end Sys2Proof.Proofs

/-!
PROOFS. Write-back and captures (09_outputs_writeback.md, Write-back).
-/
namespace Sys2Proof.Machine
-- One proof at a time, so that the stacks of the evaluations do not add up.
set_option Elab.async false

open Sys2Proof.Claims

theorem hbmJob_trained {s : State} (h : s.store.trained = true) (q typ : Nat) (p : JobPhase) : hbmJob s q typ p = s.jobIn q typ p := if_pos h

/-- A capture that finds a ring it may fill, and a head that nothing holds, starts. -/
theorem captureStart_taken {s : State} {h base ring : Nat} (q frames : Nat) (hcheck : wbCheck s h base ring = 0) (hrun : (s.head h).wb.run = false)
    (hrecheck : (s.head h).wb.recheck = false) (hgroup : (s.headGroup h).isSome = true) :
    captureStart s q h base ring frames = (0, s.setWb h { (s.head h).wb with capture := some ⟨q, base, ring, frames, false⟩ }) := by
  rw [captureStart, hcheck]
  simp [hrun, hrecheck, Option.isSome_iff_ne_none.mp hgroup]

theorem captureStart_badHandle {s : State} {h base ring : Nat} (q frames : Nat) (hcheck : wbCheck s h base ring = 1) :
    captureStart s q h base ring frames = (Code.BAD_HANDLE, s) := by
  simp only [captureStart, hcheck]

end Sys2Proof.Machine

namespace Sys2Proof.Proofs
-- One proof at a time, so that the stacks of the evaluations do not add up.
set_option Elab.async false

open Sys2Proof.Machine Sys2Proof.Claims

/-- Settles O19: a full store drops a line once, a line in hand goes on by its part, and a capture's own checks decide it. -/
theorem writeBackEvents : Obligations.WriteBackEvents := by
  unfold Obligations.WriteBackEvents
  refine ⟨fun h n l rest s hs hq hnew => ends_of hs (fun _ => rfl) ?full,
    fun h n c l rest s hs hq hcur hframe hdone => gives_of hs (fun _ => rfl) ?part,
    fun q j s hs htrained hjob => gives_of hs (fun _ => rfl) ?capture,
    fun q j s hs htrained hjob => ?taken,
    fun q j s hs htrained hjob hcheck => gives_of hs (fun _ => rfl) ?badHandle⟩
  case full =>
    rw [wbArrival, hq]
    simp only [if_pos, wbDrop, State.head_setHead_self, hnew, Bool.false_eq_true, if_false, State.setWb]
    simp +contextual [State.head_setHead]
  case part =>
    rw [wbArrival, hq]
    simp only [hcur]
    rw [if_neg Bool.false_ne_true, if_neg (fun h => by rw [hframe] at h; exact lt_irrefl _ h.1), if_neg (by simpa [hframe] using hdone)]
  case capture =>
    rw [captureJob, hbmJob_trained htrained, hjob]
    simp only [ne_eq, ite_not]
  case taken =>
    intro h hcheck hrun hrecheck hgroup
    refine ends_of hs (fun _ => rfl) ?_
    rw [captureJob, hbmJob_trained htrained, hjob]
    dsimp only
    rw [captureStart_taken q _ hcheck hrun hrecheck hgroup, if_neg (not_not.mpr rfl)]
    simp +contextual [State.setWb, State.setJob, State.head_setHead, h]
  case badHandle =>
    rw [captureJob, hbmJob_trained htrained, hjob]
    dsimp only
    rw [captureStart_badHandle q _ hcheck]
    exact if_pos (show Code.BAD_HANDLE ≠ 0 by decide)

end Sys2Proof.Proofs

/-!
PROOFS. DisplayPort ports and their AUX channels (09_outputs_writeback.md, DisplayPort transmitters).
-/
namespace Sys2Proof.Machine
-- One proof at a time, so that the stacks of the evaluations do not add up.
set_option Elab.async false

open Sys2Proof.Claims

section
variable {β : Type} (g : State → β) (hwr : ∀ s o v, g (State.wr s o v) = g s) (hemit : ∀ s e, g (State.emit s e) = g s)
include hemit

theorem auxSend_keeps (s : State) (d : Nat) : g (auxSend s d) = g s := by
  unfold auxSend
  split
  · split
    · rfl
    · exact hemit _ _
  · rfl

include hwr

/-- A port that leaves its link shows it, and sends the transaction that waited for training. -/
theorem dpLeave_keeps (s : State) (d link : Nat) : g (dpLeave s d link) = g s := by
  unfold dpLeave
  dsimp only
  split
  · exact (auxSend_keeps g hemit _ _).trans (hwr _ _ _)
  · exact hwr _ _ _

end

theorem dpRaise_dps (s : State) (d : Nat) : (dpRaise s d).dps = s.dps := by
  unfold dpRaise
  split
  · exact raise_dps _ _
  · rfl

/-- What a port shows once its sink is gone: NO_SINK with its event raised, or OFF. -/
def dpGone (s : State) (d : Nat) : State := if dpEn s d then dpRaise (dpLeave s d Link.NO_SINK) d else dpShow s d Link.OFF

theorem dpGone_dps (s : State) (d : Nat) : (dpGone s d).dps = s.dps := by
  unfold dpGone
  split
  · rw [dpRaise_dps]
    exact dpLeave_keeps State.dps State.wr_dps State.emit_dps s d _
  · exact State.wr_dps _ _ _

/-- The port without its sink, before it shows it. -/
def dpUnplugged (s : State) (d : Nat) : State :=
  (((dpAnswered s d).setDp d { s.dp d with hpd := false, trained := false, rate := 0, lanes := 0 }).setFlag (R.OWB_Ddd_EVT d) 0).setFlag (R.OWB_Ddd_EVT d) 1

theorem dpUnplugged_dp (s : State) (d k : Nat) : (dpUnplugged s d).dp k = if k = d then { s.dp d with hpd := false, trained := false, rate := 0, lanes := 0 } else s.dp k :=
  State.dp_setDp _ _ _ _

theorem held_dp (s u : State) (k : Nat) : (hold s (keeping [.outputs] s u)).dp k = u.dp k := rfl

theorem dp_congr {s t : State} (h : t.dps = s.dps) (k : Nat) : t.dp k = s.dp k := congrArg (fun m => kget (fun _ => Dp.reset) m k) h

theorem exec_unplug {s : State} (hs : Runs s) (d : Fin 16) : Gives (.dpHpdUnplug d) s [.outputs] (dpGone (dpUnplugged s d) d) :=
  gives_of hs (fun _ => rfl) rfl

end Sys2Proof.Machine

namespace Sys2Proof.Proofs
-- One proof at a time, so that the stacks of the evaluations do not add up.
set_option Elab.async false

open Sys2Proof.Machine Sys2Proof.Claims

/-- Settles O20: a port's link, its training and its AUX transaction, branch by branch. -/
theorem displayPortEvents : Obligations.DisplayPortEvents := by
  unfold Obligations.DisplayPortEvents
  refine ⟨fun d s hs hen => gives_of hs (fun _ => rfl) ?plug,
    fun d s hs => ⟨_, exec_unplug hs d, ?unplug⟩,
    fun d s hs hen htrained => ⟨gives_of hs (fun _ => rfl) ?lost, gives_of hs (fun _ => rfl) ?laneLost⟩,
    fun d lane s hs => ends_of hs (fun _ => rfl) ?irq,
    fun d sink trains c s hs hlink => ?trained,
    fun d sink s hs hlink => gives_of hs (fun _ => rfl) ?failed,
    fun d s hs hen hhpd hlink => gives_of hs (fun _ => rfl) ?retry,
    fun d x s hs haux => ⟨gives_of hs (fun _ => rfl) ?nack, fun hmany => gives_of hs (fun _ => rfl) ?deferred, fun hfew => gives_of hs (fun _ => rfl) ?defer,
      fun data => gives_of hs (fun _ => rfl) ?ack, ends_of hs (fun _ => rfl) ?timeout⟩⟩
  case plug => exact if_pos hen
  case unplug =>
    have hdp (k : Nat) : (hold s (keeping [.outputs] s (dpGone (dpUnplugged s d) d))).dp k = (dpUnplugged s d).dp k :=
      (held_dp _ _ _).trans (dp_congr (dpGone_dps _ _) k)
    refine ⟨(hdp d).trans ((dpUnplugged_dp s d d).trans (if_pos rfl)), fun k hk => (hdp k).trans ((dpUnplugged_dp s d k).trans (if_neg hk))⟩
  case lost =>
    exact (if_pos ⟨rfl, hen, htrained⟩).trans (if_neg Bool.false_ne_true)
  case laneLost =>
    exact (if_pos ⟨rfl, hen, htrained⟩).trans (if_pos rfl)
  case irq =>
    rw [dpIrq]
    simp [State.setFlag]
  case trained =>
    intro ok good hfind hgood
    refine gives_of hs (fun _ => rfl) ?_
    have hcarries : carries (dpAnswered s d) (dpSrc (dpAnswered s d) d) = carries s (dpSrc s d) := rfl
    have hok : sink.filter (fun c => decide (c.rate ≤ dpMaxRate (dpAnswered s d) d ∧ c.lanes ≤ dpMaxLanes (dpAnswered s d) d)) = ok := rfl
    rw [trainingDone, if_neg (not_not.mpr hlink)]
    simp only [hcarries, hok]
    rw [hfind]
    simp only [good, hgood]
    rfl
  case failed =>
    have hnone (cs : List DpConfig) : cs.find? ([] : List DpConfig).contains = none := List.find?_eq_none.mpr fun c _ => by simp
    rw [trainingDone, if_neg (not_not.mpr hlink)]
    simp only [hnone]
  case retry => exact if_pos ⟨hen, hhpd, hlink⟩
  case nack =>
    rw [auxAnswer, haux]
  case deferred =>
    rw [auxAnswer, haux]
    exact if_pos hmany
  case defer =>
    rw [auxAnswer]
    simp only [haux]
    exact if_neg (Nat.not_le.mpr hfew)
  case ack =>
    rw [auxAnswer, haux]
  case timeout =>
    rw [if_pos (by rw [haux]; rfl)]
    simp [auxEnd, word]

end Sys2Proof.Proofs

/-!
PROOFS. References and the loop of the timing unit (11_timing_reference.md, References, The state machine).
-/
namespace Sys2Proof.Machine
-- One proof at a time, so that the stacks of the evaluations do not add up.
set_option Elab.async false

open Sys2Proof.Claims

-- The records of the two inputs.

theorem refIn_setRefIn (s : State) (i : Nat) (x : RefIn) : refIn (setRefIn s i x) i = x := by
  unfold refIn setRefIn
  split <;> rfl

theorem setRefIn_keeps {β : Type} (g : State → β) (h : ∀ (s : State) (a b : RefIn), g { s with trs := { s.trs with ref0 := a, ref1 := b } } = g s) (s : State) (i : Nat)
    (x : RefIn) : g (setRefIn s i x) = g s := by
  unfold setRefIn
  split
  · exact h s x s.trs.ref1
  · exact h s s.trs.ref0 x

theorem setRefIn_qual (s : State) (i : Nat) (x : RefIn) : (setRefIn s i x).trs.qual = s.trs.qual := setRefIn_keeps (·.trs.qual) (fun _ _ _ => rfl) s i x
theorem setRefIn_sel (s : State) (i : Nat) (x : RefIn) : (setRefIn s i x).trs.sel = s.trs.sel := setRefIn_keeps (·.trs.sel) (fun _ _ _ => rfl) s i x

/-- A reference that does not qualify loses nothing. -/
theorem disqualify_out {s : State} {c : Nat} (h : s.trs.qual.contains c = false) : disqualify s c = s := if_neg (by rw [h]; decide)

theorem todEdge_none {s : State} (h : s.trs.tod = none) (i : Nat) : todEdge s i = s := by
  rw [todEdge, h]

/-- The interval since the edge before is in range, and too short. -/
def intervalOf (s : State) (i : Nat) : Bool × Bool :=
  match (refIn s i).last with
  | none => (false, false)
  | some l => intervalOk s i (s.up - l)

/-- What an edge leaves of its input. -/
def inputSeen (s : State) (i : Nat) : RefIn :=
  let x := refIn s i
  { last := some s.up, at_ := s.time, good := (intervalOf s i).1,
    delta := if refType s i = 1 then intCentre s.time secNs
      else if x.last.isNone then x.delta else x.delta + intCentre ((s.time - x.at_) * (refPeriod s i).2) (refPeriod s i).1 }

/-- An edge: the input's record, the loss of its qualification, the grids of a FRAME input and the loop (R280, R281). -/
theorem refinEdge_eq {s : State} {i : Nat} (htype : refType s i = 1 ∨ refType s i = 3) (htod : s.trs.tod = none) : refinEdge s i =
    (let s1 := setRefIn s i (inputSeen s i)
     let s2 := if (intervalOf s i).2 = true ∨ ((refIn s i).last.isSome = true ∧ ¬ (intervalOf s i).1 = true) then disqualify s1 (16 + i) else s1
     let s3 := if refType s i = 3 ∧ s2.trs.qual.contains (16 + i) = true then gridEdge s2 i else s2
     if s3.trs.sel = some (16 + i) then loopRun s3 else s3) := by
  have hedge : ¬ (refType s i ≠ 1 ∧ refType s i ≠ 3) := by tauto
  unfold refinEdge
  simp only [if_neg hedge, todEdge_none htod]
  rfl

section
variable {s : State} {i : Nat} (htype : refType s i = 1 ∨ refType s i = 3) (htod : s.trs.tod = none)
include htype htod

/-- An edge that neither takes the input's qualification nor moves a grid. -/
theorem refinEdge_kept (hkept : s.trs.qual.contains (16 + i) = false ∨
      (intervalOf s i).2 = false ∧ ((refIn s i).last = none ∨ (intervalOf s i).1 = true)) (hgrid : refType s i = 3 → s.trs.qual.contains (16 + i) = false) :
    refinEdge s i = if s.trs.sel = some (16 + i) then loopRun (setRefIn s i (inputSeen s i)) else setRefIn s i (inputSeen s i) := by
  rw [refinEdge_eq htype htod]
  generalize hs1 : setRefIn s i (inputSeen s i) = s1
  have hqual : s1.trs.qual = s.trs.qual := hs1 ▸ setRefIn_qual s i _
  have hsel : s1.trs.sel = s.trs.sel := hs1 ▸ setRefIn_sel s i _
  have hs2 : (if (intervalOf s i).2 = true ∨ ((refIn s i).last.isSome = true ∧ ¬ (intervalOf s i).1 = true) then disqualify s1 (16 + i) else s1) = s1 := by
    obtain hout | ⟨hlong, hin⟩ := hkept
    · rw [disqualify_out (by rw [hqual]; exact hout), ite_self]
    · rw [if_neg]
      obtain hnone | hgood := hin
      · simp [hlong, hnone]
      · simp [hlong, hgood]
  have hs3 : ¬ (refType s i = 3 ∧ s1.trs.qual.contains (16 + i) = true) := fun ⟨h3, hin⟩ => by
    rw [hqual, hgrid h3] at hin
    exact absurd hin (by decide)
  dsimp only
  rw [hs2, if_neg hs3, hsel]

end

/-- The reference chosen is one that qualifies. -/
theorem bestRef_qualifies {s : State} {c : Nat} (h : bestRef s = some c) : s.trs.qual.contains c = true := by
  have hall (cs : List Nat) (m : Option Nat) (hcs : ∀ c ∈ cs, s.trs.qual.contains c = true) (hm : ∀ c, m = some c → s.trs.qual.contains c = true) :
      ∀ c, cs.foldl (fun m c => match m with
        | none => some c
        | some b => if refPrio s c < refPrio s b then some c else m) m = some c → s.trs.qual.contains c = true := by
    induction cs generalizing m with
    | nil => exact hm
    | cons d cs ih =>
      refine ih _ (fun c hc => hcs c (List.mem_cons_of_mem _ hc)) fun c hc => ?_
      have hd := hcs d List.mem_cons_self
      dsimp only at hc
      split at hc
      · cases hc
        exact hd
      · split at hc
        · cases hc
          exact hd
        · exact hm c hc
  refine hall _ none (fun c hc => ?_) (fun c hc => by cases hc) c h
  have hel := (List.mem_filter.mp hc).2
  unfold refEligible at hel
  simp only [Bool.and_eq_true] at hel
  exact hel.1.1

section
variable (s : State)

theorem history_trs (q : Nat) (w0 w1 : Word) : (history s q w0 w1).trs = s.trs := by
  unfold history
  dsimp only
  simp only [State.wr_trs, State.setSpw_trs]

/-- What the timing unit holds after it has entered another state. -/
theorem enterTrs_trs {st : Nat} (h : s.trs.state ≠ st) : (enterTrs s st).trs.state = st ∧ (enterTrs s st).trs.sel = s.trs.sel ∧
    (enterTrs s st).trs.y = s.trs.y ∧ (enterTrs s st).trs.lostY = s.trs.lostY := by
  have hraise (t : State) : (if st = 3 then raise t 267 else if st = 4 then raise t 268 else t).trs = t.trs := by
    split_ifs
    · exact raise_trs _ _
    · exact raise_trs _ _
    · rfl
  unfold enterTrs
  rw [if_neg h]
  extract_lets old starts s0 _ s1 r s2
  have hs0 : s0.trs.sel = s.trs.sel ∧ s0.trs.y = s.trs.y ∧ s0.trs.lostY = s.trs.lostY := by
    unfold s0
    split <;> exact ⟨rfl, rfl, rfl⟩
  have hs1 : s1.trs.state = st ∧ s1.trs.sel = s0.trs.sel ∧ s1.trs.y = s0.trs.y ∧ s1.trs.lostY = s0.trs.lostY := ⟨rfl, rfl, rfl, rfl⟩
  have hs2 : s2.trs = s1.trs := by rw [raise_trs, history_trs]
  rw [hraise, hs2]
  exact ⟨hs1.1, hs1.2.1.trans hs0.1, hs1.2.2.1.trans hs0.2.1, hs1.2.2.2.trans hs0.2.2⟩

theorem enterTrs_sel (st : Nat) : (enterTrs s st).trs.sel = s.trs.sel := by
  by_cases h : s.trs.state = st
  · exact congrArg (fun t : State => t.trs.sel) (if_pos h)
  · exact (enterTrs_trs s h).2.1

theorem measureRef_sel (c : Nat) (step : Bool) : (measureRef s c step).trs.sel = s.trs.sel := by
  have hcheck (t : State) : (checkBuildout t).trs.sel = t.trs.sel := by
    unfold checkBuildout
    split
    · rw [raise_trs]
    · rfl
  have htime (t : State) (d : Int) : (stepTime t d).trs.sel = t.trs.sel := by
    unfold stepTime
    split
    · rfl
    · refine (forEach_keeps (fun t => t.trs.sel) _ (fun t g => ?_) _ _).trans rfl
      split
      · rfl
      · exact forEach_keeps (fun t => t.trs.sel) _ (fun t h => by dsimp only; split <;> rfl) _ _
  have hstep (t : State) (d : Int) : (stepDevice t d).trs.sel = t.trs.sel := by
    unfold stepDevice
    split
    · rfl
    · extract_lets s1 move _ s2
      have hs1 : s1.trs.sel = t.trs.sel := htime t d
      have hs2 : s2.trs.sel = s1.trs.sel := rfl
      clear_value s2
      refine (forEach_keeps (fun t => t.trs.sel) _ (fun t p => ?_) _ s2).trans (hs2.trans hs1)
      exact congrArg Trs.sel (State.setPort_trs _ _ _)
  unfold measureRef
  extract_lets _ s0 d s1 _
  have hs0 : s0.trs.sel = s.trs.sel := by
    unfold s0
    split
    · exact setRefIn_sel _ _ _
    · rfl
  have hs1 : s1.trs.sel = s0.trs.sel := by
    unfold s1
    split
    · exact hstep _ _
    · rfl
  clear_value s1 s0
  rw [hcheck]
  exact hs1.trans hs0

theorem setSel_sel (c : Option Nat) : (setSel s c).trs.sel = c := by
  have hblock (t : State) : (blockMasters t).trs = t.trs := by
    refine forEach_keeps State.trs _ (fun t p => ?_) _ t
    dsimp only
    split_ifs <;> simp only [raise_trs, State.wr_trs, State.setPort_trs]
  unfold setSel
  split
  · assumption
  · rw [hblock, raise_trs]
    rfl

theorem enterFreeRun_sel : (enterFreeRun s).trs.sel = s.trs.sel := (enterTrs_sel _ _).trans rfl
theorem enterHoldover_sel : (enterHoldover s).trs.sel = s.trs.sel := (enterTrs_sel _ _).trans rfl
theorem enterLost_sel : (enterLost s).trs.sel = s.trs.sel := (enterTrs_sel _ _).trans rfl

theorem loseLock_sel : (loseLock s).trs.sel = none := by
  unfold loseLock
  dsimp only
  split
  · rw [enterHoldover_sel, setSel_sel]
  · rw [enterLost_sel, setSel_sel]

/-- The reference of `t` is that of `s`, none, or the best of those that qualify. -/
def SelectedFrom (s t : State) : Prop := t.trs.sel = s.trs.sel ∨ t.trs.sel = none ∨ t.trs.sel = bestRef s

/-- The reference stays, is lost, or is the best of those that qualify (R281, R282). -/
theorem evalRefs_sel : SelectedFrom s (evalRefs s) := by
  have hkept : SelectedFrom s s := .inl rfl
  have hlost (t : State) (h : t.trs.sel = none) : SelectedFrom s t := .inr (.inl h)
  have hbest (c : Nat) (t : State) (hc : bestRef s = some c) (h : t.trs.sel = some c) : SelectedFrom s t := .inr (.inr (h.trans hc.symm))
  have hnone (t : State) : (setSel t none).trs.sel = none := setSel_sel t none
  have hmeasured (t : State) (c : Nat) (b : Bool) : (measureRef (setSel t (some c)) c b).trs.sel = some c := (measureRef_sel _ _ _).trans (setSel_sel _ _)
  unfold evalRefs
  rcases hb : bestRef s with _ | c
  · simp only []
    split
    · exact hkept
    split
    · exact hlost _ ((enterFreeRun_sel _).trans (hnone _))
    split
    · split_ifs
      · exact hkept
      · split
        · exact hlost _ (loseLock_sel _)
        · exact hlost _ ((enterHoldover_sel _).trans (hnone _))
        · exact hlost _ ((enterTrs_sel _ _).trans (hnone _))
        · exact hlost _ ((enterFreeRun_sel _).trans (hnone _))
    · split_ifs
      · exact hkept
      · exact hlost _ (loseLock_sel _)
    · exact hkept
  · simp only []
    split
    · exact hkept
    split
    · exact hlost _ ((enterFreeRun_sel _).trans (hnone _))
    split
    · split_ifs
      · exact hkept
      · exact hbest c _ hb (hmeasured _ _ _)
    · split_ifs
      · exact hkept
      · exact hbest c _ hb (hmeasured _ _ _)
    · exact hbest c _ hb ((measureRef_sel _ _ _).trans ((enterTrs_sel _ _).trans (setSel_sel _ _)))

variable {s}

theorem enterTrs_locked (h : s.trs.state = 1) : (enterTrs s 2).trs.state = 2 ∧ (enterTrs s 2).trs.sel = s.trs.sel ∧ (enterTrs s 2).trs.y = s.trs.y := by
  obtain ⟨hstate, hsel, hy, -⟩ := enterTrs_trs s (st := 2) (by rw [h]; decide)
  exact ⟨hstate, hsel, hy⟩

theorem enterLost_state (h : s.trs.state ≠ 4) : (enterLost s).trs.state = 4 ∧ (enterLost s).trs.lostY = s.trs.y := by
  obtain ⟨hstate, -, -, hlost⟩ := enterTrs_trs { s with trs := { s.trs with lostY := s.trs.y } } (st := 4) h
  exact ⟨hstate, hlost⟩

end

/-- A reference that loses its qualification is not chosen by that. -/
theorem disqualify_sel {s : State} {c : Nat} (h : s.trs.sel ≠ some c) : (disqualify s c).trs.sel ≠ some c := by
  by_cases hqual : s.trs.qual.contains c = true
  · unfold disqualify
    rw [if_pos hqual]
    dsimp only
    generalize hu : (if refPrio _ c ≠ 0 then raise _ 266 else _ : State) = u
    have htrs : u.trs = { s.trs with qual := s.trs.qual.filter (· ≠ c) } := by
      rw [← hu]
      split
      · exact (raise_trs _ _).trans rfl
      · rfl
    intro hsel
    obtain hkept | hnone | hbest := evalRefs_sel u
    · rw [hkept, htrs] at hsel
      exact h hsel
    · rw [hnone] at hsel
      cases hsel
    · have hin := bestRef_qualifies (hbest.symm.trans hsel)
      rw [htrs] at hin
      simp at hin
  · rw [disqualify_out (by simpa using hqual)]
    exact h

/-- The interval since the edge before of a PPS input (R280). -/
theorem intervalOf_pps {s : State} {i l : Nat} (htype : refType s i = 1) (hlast : (refIn s i).last = some l) : intervalOf s i =
    (decide (10000 * (s.up - l) ≤ 10001 * 1000000000 ∧ 9999 * 1000000000 ≤ 10000 * (s.up - l)), decide (10000 * (s.up - l) < 9999 * 1000000000)) := by
  rw [intervalOf, hlast]
  simp only [intervalOk, refPeriod, if_pos htype, Nat.mul_one]
  rfl

theorem inputSeen_pps {s : State} {i : Nat} (htype : refType s i = 1) : inputSeen s i = ⟨some s.up, s.time, (intervalOf s i).1, intCentre s.time 1000000000⟩ := by
  rw [inputSeen, if_pos htype]
  rfl

section
variable {s : State} {i : Nat} (htype : refType s i = 1) (htod : s.trs.tod = none)
include htype htod

/-- A pulse out of its range takes the input's qualification. -/
theorem refinEdge_lost {l : Nat} (hlast : (refIn s i).last = some l) (hout : (intervalOf s i).1 = false) (hsel : s.trs.sel ≠ some (16 + i)) :
    refinEdge s i = disqualify (setRefIn s i (inputSeen s i)) (16 + i) := by
  have htake : (intervalOf s i).2 = true ∨ ((refIn s i).last.isSome = true ∧ ¬ (intervalOf s i).1 = true) := .inr (by simp [hlast, hout])
  have hfree : (disqualify (setRefIn s i (inputSeen s i)) (16 + i)).trs.sel ≠ some (16 + i) := disqualify_sel (by rw [setRefIn_sel]; exact hsel)
  rw [refinEdge_eq (.inl htype) htod]
  dsimp only
  rw [if_pos htake, if_neg (show ¬ (refType s i = 3 ∧ _) from fun h => by simp [htype] at h), if_neg hfree]

end

end Sys2Proof.Machine

namespace Sys2Proof.Proofs
-- One proof at a time, so that the stacks of the evaluations do not add up.
set_option Elab.async false

open Sys2Proof.Machine Sys2Proof.Claims

/-- Settles O23: an edge by what it finds of its interval, a window by its cycles, the loop's states by its error. -/
theorem referenceEvents : Obligations.ReferenceEvents := by
  unfold Obligations.ReferenceEvents
  refine ⟨fun i s hs htod hsel hlast htype => ends_of hs (fun _ => rfl) ?first,
    fun i l s hs htod htype hlast hlow hhigh => gives_of hs (fun _ => rfl) ?good,
    fun i l s hs htod htype hlast hout hsel hqual => ends_of hs (fun _ => rfl) ?bad,
    fun i l s hs htod htype hlast hout hsel => gives_of hs (fun _ => rfl) ?lost,
    fun i l num den s hs htod htype hlast hper hsel hqual => ends_of hs (fun _ => rfl) ?frame,
    fun i n s hs htype hlow hhigh hsel => ends_of hs (fun _ => rfl) ?window,
    fun i n s hs htype hout hqual hsel => ends_of hs (fun _ => rfl) ?windowBad,
    fun i s hs htype => gives_of hs (fun _ => rfl) ?timeout,
    fun p s hs => gives_of hs (fun _ => rfl) ?sync,
    fun c s hs hqual hready => gives_of hs (fun _ => rfl) ?qualified,
    fun s hs hstate herr => ends_of hs (fun _ => rfl) ?lock,
    fun c s hs hsel hstate herr => gives_of hs (fun _ => rfl) ?phase,
    fun c s hs hbest hstate hrevert hsel => gives_of hs (fun _ => rfl) ?revert,
    fun s hs hstate hlimit => ends_of hs (fun _ => rfl) ?limit,
    fun s hs hbleed hb => ends_of hs (fun _ => rfl) ?bleed⟩
  case first =>
    have hseen : inputSeen s i = ⟨some s.up, s.time, false, if refType s i = 1 then intCentre s.time 1000000000 else (refIn s i).delta⟩ := by
      rw [inputSeen, intervalOf, hlast]
      rfl
    have hinterval : intervalOf s i = (false, false) := by rw [intervalOf, hlast]
    have hgrid : refType s i = 3 → s.trs.qual.contains (16 + i.val) = false := fun h3 => (htype.resolve_left (by rw [h3]; decide)).2
    rw [refinEdge_kept (htype.imp_right And.left) htod (.inr ⟨by rw [hinterval], .inl hlast⟩) hgrid, if_neg hsel, hseen]
    exact ⟨rfl, setRefIn_qual _ _ _, refIn_setRefIn _ _ _⟩
  case good =>
    have hinterval : intervalOf s i = (true, false) := by
      rw [intervalOf_pps htype hlast, decide_eq_true ⟨hhigh, hlow⟩, decide_eq_false (Nat.not_lt.mpr hlow)]
    rw [refinEdge_kept (.inl htype) htod (.inr ⟨by rw [hinterval], .inr (by rw [hinterval])⟩) (fun h3 => by simp [htype] at h3), inputSeen_pps htype, hinterval]
  case bad =>
    have hinterval : (intervalOf s i).1 = false := by
      rw [intervalOf_pps htype hlast]
      exact decide_eq_false (by omega)
    rw [refinEdge_kept (.inl htype) htod (.inl hqual) (fun _ => hqual), if_neg hsel, inputSeen_pps htype, hinterval]
    exact ⟨refIn_setRefIn _ _ _, setRefIn_qual _ _ _⟩
  case lost =>
    have hinterval : (intervalOf s i).1 = false := by
      rw [intervalOf_pps htype hlast]
      exact decide_eq_false (by omega)
    rw [refinEdge_lost htype htod hlast hinterval hsel, inputSeen_pps htype, hinterval]
  case frame =>
    have hseen : inputSeen s i = ⟨some s.up, s.time,
        decide (9999 * num ≤ 10000 * ((s.up - l) * den) ∧ 10000 * ((s.up - l) * den) ≤ 10001 * num),
        (refIn s i).delta + intCentre ((s.time - (refIn s i).at_) * den) num⟩ := by
      rw [inputSeen, intervalOf, hlast]
      simp only [htype, hper, intervalOk, and_comm]
      rfl
    rw [refinEdge_kept (.inr htype) htod (.inl hqual) (fun _ => hqual), if_neg hsel, hseen]
    exact ⟨setRefIn_qual _ _ _, refIn_setRefIn _ _ _⟩
  case window =>
    have hfree (x : RefIn) : ¬ (setRefIn s i x).trs.sel = some (16 + i.val) := by
      rw [setRefIn_sel]
      exact hsel
    rw [if_neg (not_not.mpr htype)]
    simp only [decide_eq_true (And.intro hlow hhigh), if_true]
    rw [if_neg (hfree _)]
    exact ⟨refIn_setRefIn _ _ _, setRefIn_qual _ _ _, rfl⟩
  case windowBad =>
    have hfree (x : RefIn) : ¬ (setRefIn s i x).trs.sel = some (16 + i.val) := by
      rw [setRefIn_sel]
      exact hsel
    have hkept (x : RefIn) : disqualify (setRefIn s i x) (16 + i) = setRefIn s i x := disqualify_out (by rw [setRefIn_qual]; exact hqual)
    have hok : decide (9999 ≤ n ∧ n ≤ 10001) = false := decide_eq_false (by omega)
    rw [if_neg (not_not.mpr htype)]
    simp only [hok, hkept, ite_self]
    rw [if_neg (hfree _)]
    exact congrArg RefIn.good (refIn_setRefIn s i _)
  case timeout => exact if_pos htype
  case sync => rfl
  case qualified =>
    exact if_neg (by rw [hqual, hready]; simp)
  case lock =>
    rw [if_pos ⟨hstate, herr⟩]
    exact enterTrs_locked hstate
  case phase =>
    simp only [hsel]
    exact if_pos ⟨hstate, herr⟩
  case revert =>
    simp only [hbest]
    exact if_pos ⟨hstate, hrevert, hsel⟩
  case limit =>
    rw [if_pos ⟨hstate, hlimit⟩]
    exact enterLost_state (by rw [hstate]; decide)
  case bleed =>
    rw [if_neg (by simp [hbleed, hb])]
    refine ⟨?_, rfl, rfl⟩
    change (if 0 < s.trs.b then s.trs.b - 1 else s.trs.b + 1).natAbs + 1 = s.trs.b.natAbs
    split <;> omega

end Sys2Proof.Proofs

/-!
PROOFS. Frame boundaries and frame starts (08_commits_updates.md, The frame boundary; 09_outputs_writeback.md, Head timing).
-/
namespace Sys2Proof.Machine
-- One proof at a time, so that the stacks of the evaluations do not add up.
set_option Elab.async false

open Sys2Proof.Claims

/-- A frame start with no boundary since the last one advances the frame number (log entry 47). -/
def startedAt (s : State) (g : Nat) : Group :=
  { s.group g with frame := if (s.group g).started then (s.group g).frame + 1 else (s.group g).frame, started := true, tf := gridTime s g }

theorem startedAt_eq (s : State) (g : Nat) : startedAt s g =
    if (s.group g).started then { s.group g with frame := (s.group g).frame + 1, tf := gridTime s g } else { s.group g with started := true, tf := gridTime s g } := by
  unfold startedAt
  split
  · next h =>
    rw [← h]
  · rfl

theorem freeGrid_heads (s : State) (g : Nat) : (freeGrid s g).heads = s.heads := by
  unfold freeGrid
  dsimp only
  split
  · rw [State.wr_heads, State.setGroup_heads]
  · rfl

/-- A head whose divider is loaded waits no longer, and its zero is now. -/
theorem head_loaded (s : State) (h : Nat) (x : Head) (k : Nat) (g : Option Nat) :
    (hold s (keeping [.outputs, .compose] s (match g with
      | some g => freeGrid (s.setHead h x) g
      | none => s.setHead h x))).head k = if k = h then x else s.head k := by
  have hheads (u : State) : (hold s (keeping [.outputs, .compose] s u)).head k = u.head k := rfl
  rw [hheads]
  split
  · next g => exact (congrArg (fun m => kget (fun _ => Head.reset) m k) (freeGrid_heads _ _)).trans (State.head_setHead _ _ _ _)
  · exact State.head_setHead _ _ _ _

end Sys2Proof.Machine

namespace Sys2Proof.Proofs
-- One proof at a time, so that the stacks of the evaluations do not add up.
set_option Elab.async false

open Sys2Proof.Machine Sys2Proof.Claims

/-- Settles O18: the order of a boundary's decisions, a frame's start, and line 0, the gap and the end of a frame of a head. -/
theorem frameEvents : Obligations.FrameEvents := by
  unfold Obligations.FrameEvents
  refine ⟨fun g s hs hreleased hboundary => gives_of hs (fun _ => rfl) ?boundary,
    fun g s hs hreleased => gives_of hs (fun _ => rfl) ?start,
    fun h g f s hs hgroup hruns hscan hnext => gives_of hs (fun _ => rfl) ?line0,
    fun h g s hs hgroup hruns hdue hscan hat => gives_of hs (fun _ => rfl) ?gap,
    fun h s hs hwait => ends_of hs (fun _ => rfl) ?load,
    fun h s hs hscan hline => ?ended⟩
  case boundary =>
    exact if_neg (by simp [hreleased, hboundary])
  case start =>
    refine (if_neg (not_not.mpr hreleased)).trans ?_
    dsimp only
    rw [← startedAt_eq]
    rfl
  case line0 =>
    rw [line0]
    simp only [hgroup, hnext]
    rw [if_neg (by simp [hruns, hscan])]
  case gap =>
    have hopen : ¬ (¬ headRuns (s.head h) = true ∨ ¬ (s.head h).gapDue = true ∨ (s.head h).scanning = true ∨
        (s.head h).frame < (s.head h).gapAt ∧ ¬ (s.head h).first = true) := by
      obtain hat | hat := hat
      · simp [hruns, hdue, hscan, Nat.not_lt.mpr hat]
      · simp [hruns, hdue, hscan, hat]
    rw [gapStart]
    simp only [hgroup]
    rw [if_neg hopen]
    rfl
  case load =>
    rw [if_neg (not_not.mpr hwait)]
    refine ⟨(head_loaded s h _ h (s.headGroup h)).trans (if_pos rfl), fun k hk => (head_loaded s h _ k (s.headGroup h)).trans (if_neg hk)⟩
  case ended =>
    have hend : ¬ (¬ (s.head h).scanning = true ∨ (activeSize (s.headView h) h).2 ≠ (s.head h).line) := by simp [hscan, hline]
    intro s1 s2
    refine ⟨fun hnone => gives_of hs (fun _ => rfl) ?_, fun g hsome => gives_of hs (fun _ => rfl) ?_⟩
    · have hgroup : (State.setHead (wbEnd (compareMalformed s h) h) h { (wbEnd (compareMalformed s h) h).head h with scanning := false }).headGroup h = none := hnone
      rw [endOfFrame, if_neg hend]
      dsimp only
      rw [hgroup]
    · have hgroup : (State.setHead (wbEnd (compareMalformed s h) h) h { (wbEnd (compareMalformed s h) h).head h with scanning := false }).headGroup h = some g := hsome
      rw [endOfFrame, if_neg hend]
      dsimp only
      rw [hgroup]

end Sys2Proof.Proofs

/-!
PROOFS. The fault collector and the tallies (14_integrity_safety.md, Sources and the summary word, Tallies).
-/
namespace Sys2Proof.Machine
-- One proof at a time, so that the stacks of the evaluations do not add up.
set_option Elab.async false

open Sys2Proof.Claims

theorem rewritten_src (s : State) (ws : List Nat) (k : Nat) : (rewritten s ws).src k = s.src k := by
  unfold rewritten
  split <;> rfl

theorem rewritten_regs (s : State) (ws : List Nat) : (rewritten s ws).regs = s.regs := by
  unfold rewritten
  split <;> rfl

theorem wordsUsed_sound {s : State} {w : Nat} (h : s.col.bad.contains w = false) : wordsUsed s [w] = s :=
  if_neg (by simpa using h)

theorem keeping_none_wr (s u : State) (o : Nat) (v : Word) : keeping [] (s.wr o v) u = keeping [] s u := rfl

/-- A fault of the collector's own is a raise of source 308 once it is written (log entry 106). -/
theorem selfFault_eq (s : State) (b : Nat) : selfFault s b = raise (s.wr R.IHM_FC_SELF (satField (setBit (s.rd R.IHM_FC_SELF) b true) 31 24 1)) 308 := by
  unfold selfFault raise raiseFull withForce
  beta_reduce
  rw [keeping_none_wr, raiseCore, if_pos rfl, selfFound]

theorem clearedSweep {s : State} {n : Nat} (hwait : s.col.selfWait = n + 1) : sweepEnd s none =
    if n ≠ 0 then { s with col := { s.col with selfWait := n } }
    else if s.col.bad.isEmpty then updateForce (clearSource { s with col := { s.col with selfWait := n } } 308) 0x1FF
    else State.setFlag { s with col := { s.col with selfWait := n } } R.IHM_FC_SELF 3 := by
  rw [sweepEnd]
  simp only [hwait]

end Sys2Proof.Machine

namespace Sys2Proof.Proofs
-- One proof at a time, so that the stacks of the evaluations do not add up.
set_option Elab.async false

open Sys2Proof.Machine Sys2Proof.Claims

/-- Settles O28: a raise with and without its record, the end of a counting window, a comparison, and the collector's own sweep. -/
theorem collectorEvents : Obligations.CollectorEvents := by
  unfold Obligations.CollectorEvents
  refine ⟨fun src s hs hreal hplain => gives_of hs (fun _ => rfl) ?plain,
    fun s hs => gives_of hs (fun _ => rfl) ?recorded,
    fun src s hs hwin hsound => ends_of hs (fun _ => rfl) ?window,
    fun r h s hs hhead hformed hopen hrows => gives_of hs (fun _ => rfl) ?compare,
    fun w s hs hnew hwait => gives_of hs (fun _ => rfl) ?failing,
    fun s hs hwait hbad => gives_of hs (fun _ => rfl) ?firstSweep,
    fun s hs hwait hbad => gives_of hs (fun _ => rfl) ?clean,
    fun s hs hwait hbad => ends_of hs (fun _ => rfl) ?stillBad,
    fun s hs => gives_of hs (fun _ => rfl) ?copies,
    fun src s hs hmgmt hmis => gives_of hs (fun _ => rfl) ?mismatch⟩
  case plain =>
    rw [sourceRaise, if_neg (by rw [hreal]; decide), hplain]
  case recorded =>
    have hreal : ¬ sourceReserved 306 = true := by decide
    have hfull (w : Word) : w &&& 0xFFFFFFFF#32 = w := by
      rw [show (0xFFFFFFFF#32 : Word) = BitVec.allOnes 32 from rfl, BitVec.and_allOnes]
    have hrecord : historyOf 306 = some (3, 0xFFFFFFFF#32) := rfl
    change sourceRaise s 306 = _
    rw [sourceRaise, if_neg hreal, hrecord]
    dsimp only
    rw [hfull]
    rfl
  case window =>
    rw [wordsUsed_sound hsound, closeWindow, if_pos hwin]
    have hsrc (k : Nat) : (rewritten (s.setSrc src { s.src src with win := false, count := 0 }) [1024 + src.val]).src k =
        if k = src.val then { s.src src with win := false, count := 0 } else s.src k := (rewritten_src _ _ _).trans (State.src_setSrc _ _ _ _)
    exact ⟨(hsrc src).trans (if_pos rfl), fun k hk => (hsrc k).trans (if_neg hk), rewritten_regs _ _⟩
  case compare =>
    have hsame : statUpsets s r [] = s := rfl
    simp only [hhead, hsame]
    rw [if_neg (by simp [hformed, hopen, hrows]), if_neg (by rw [hformed]; decide)]
  case failing =>
    rw [sweepEnd]
    simp only [hwait]
    exact if_neg (by rw [hnew]; decide)
  case firstSweep =>
    rw [clearedSweep (n := 1) hwait]
    exact if_pos (by decide)
  case clean =>
    rw [clearedSweep (n := 0) hwait, if_neg (by decide), if_pos (by rw [hbad]; rfl)]
  case stillBad =>
    rw [clearedSweep (n := 0) hwait, if_neg (by decide), if_neg (by simpa using hbad)]
    exact ⟨State.rd_wr_self _ _ _, rfl, rfl⟩
  case copies => exact selfFault_eq s 1
  case mismatch => exact if_pos ⟨hmgmt, hmis⟩

end Sys2Proof.Proofs

/-!
PROOFS. Faults of units and the carry to a spare (15_health_spares_power.md, Spares, Carries, Draining and unit resets).
-/
namespace Sys2Proof.Machine
-- One proof at a time, so that the stacks of the evaluations do not add up.
set_option Elab.async false

open Sys2Proof.Claims

theorem faultUnit_runs {s : State} {u : Nat} (voids : Bool) (hmgmt : s.mgmt = true) (h6 : (s.metered u).eff ≠ 6) (h7 : (s.metered u).eff ≠ 7) :
    faultUnit s u voids =
      (let t := failUnit (if unitClass u = clsTile ∧ voids ∧ (logicalOf s u).isSome ∧ (s.metered u).eff ≠ 0 ∧ (s.metered u).eff ≠ 3 then raise s 72 else s) u
       jobsOfUnit t u (decide (s.col.faults.length < t.col.faults.length) && secondFault t)) :=
  if_neg (by simp [hmgmt, h6, h7])

theorem metered_setEff (s : State) (u e v : Nat) : (setEff s u e).metered v = if v = u then { s.metered u with eff := e } else s.metered v :=
  State.metered_setMetered _ _ _ _

theorem metered_setReqEff (s : State) (u e v : Nat) : (setReqEff s u e).metered v = if v = u then { s.metered u with req := e, eff := e } else s.metered v :=
  State.metered_setMetered _ _ _ _

theorem held_metered (s u : State) (v : Nat) : (hold s (keeping [.health] s u)).metered v = u.metered v := rfl

end Sys2Proof.Machine

namespace Sys2Proof.Proofs
-- One proof at a time, so that the stacks of the evaluations do not add up.
set_option Elab.async false

open Sys2Proof.Machine Sys2Proof.Claims

/-- Settles O30: a fault and its jobs, the spare, the change of places, and the drain, the reset and the gate of a unit. -/
theorem carryEvents : Obligations.CarryEvents := by
  unfold Obligations.CarryEvents
  refine ⟨fun u voids s hs hmgmt h6 h7 hquiet => gives_of hs (fun _ => rfl) ?fault,
    fun u s hs hmgmt hclass hlogical heff => gives_of hs (fun _ => rfl) ?voidFault,
    fun c v x s hs hc hcarry hready hreason hspare => gives_of hs (fun _ => rfl) ?ready,
    fun c x s hs hc hcarry hreason hswitched hdone => gives_of hs (fun _ => rfl) ?oldDone,
    fun x v s hs hcarry hswitched hspare => gives_of hs (fun _ => rfl) ?joined,
    fun x s hs hcarry hswitched hreason => gives_of hs (fun _ => rfl) ?rodEnd,
    fun u s hs heff => ends_of hs (fun _ => rfl) ?drain,
    fun u s hs heff => ends_of hs (fun _ => rfl) ?reset,
    fun u s hs hmgmt hgate hlogical hclass hfree => ends_of hs (fun _ => rfl) ?gate,
    fun u s hs hgate => ?noGate⟩
  case fault =>
    have hno : ¬ (unitClass u = clsTile ∧ voids = true ∧ (logicalOf s u).isSome = true ∧ (s.metered u).eff ≠ 0 ∧ (s.metered u).eff ≠ 3) := by
      rintro ⟨hclass, hvoids, hsome, h0, h3⟩
      obtain h | h | h | h | h := hquiet
      · exact h hclass
      · simp [h] at hvoids
      · simp [h] at hsome
      · exact h0 h
      · exact h3 h
    rw [faultUnit_runs voids hmgmt h6 h7, if_neg hno]
  case voidFault =>
    have h (e : Nat) (he : [0, 3, 6, 7].contains e = true) : (s.metered u).eff ≠ e := fun h => by
      rw [h, he] at heff
      cases heff
    rw [faultUnit_runs true hmgmt (h 6 (by decide)) (h 7 (by decide)),
      if_pos ⟨hclass, rfl, Option.isSome_iff_ne_none.mpr hlogical, h 0 (by decide), h 3 (by decide)⟩]
  case ready =>
    rw [spareReady, hcarry]
    simp only [hspare]
    rw [if_neg (by simp [hc, hready, hreason])]
  case oldDone =>
    rw [oldUnitDone, hcarry]
    exact if_neg (by simp [hc, hreason, hswitched, hdone])
  case joined =>
    have hcarry' : s.carry clsRod = some x := hcarry
    rw [rodJoined, hcarry']
    dsimp only
    rw [if_neg (by simp [hswitched]), switchCarry]
    simp only [hspare]
    rfl
  case rodEnd =>
    have hcarry' : s.carry clsRod = some x := hcarry
    rw [rodCarryEnd, hcarry']
    dsimp only
    rw [if_neg (not_not.mpr hswitched), if_neg hreason]
    rfl
  case drain =>
    have hdrained : drainEnd s u = setEff s u 4 := by simp only [drainEnd, heff]
    rw [hdrained]
    refine ⟨?_, fun v hv => ?_, rfl⟩
    · rw [held_metered, metered_setEff, if_pos rfl]
    · rw [held_metered, metered_setEff, if_neg hv]
  case reset =>
    rw [resetDone, if_pos heff]
    refine ⟨?_, ?_, fun v hv => ?_, rfl⟩
    · rw [held_metered, metered_setReqEff, if_pos rfl]
    · rw [held_metered, metered_setReqEff, if_pos rfl]
    · rw [held_metered, metered_setReqEff, if_neg hv]
  case gate =>
    rw [powerGate]
    dsimp only
    rw [if_neg (by simp [hmgmt, hgate]), hlogical]
    dsimp only
    rw [if_pos ⟨hclass, hfree⟩]
    refine ⟨?_, fun v hv => ?_⟩
    · rw [held_metered, metered_setReqEff, if_pos rfl]
    · rw [held_metered, metered_setReqEff, if_neg hv]
  case noGate =>
    have hsame : powerGate s u = s := if_pos (.inr (by rw [hgate]; decide))
    have h : Gives (.unitPowerGate u) s [.health] s := gives_of hs (fun _ => rfl) hsame
    rw [Gives, hold_keeping_self] at h
    exact h

end Sys2Proof.Proofs

/-!
PROOFS. Queues and functions (12_work_queues.md, Doorbells and fetch, Stopping a queue, MSI-X, The PCIe endpoint).
-/
namespace Sys2Proof.Machine
-- One proof at a time, so that the stacks of the evaluations do not add up.
set_option Elab.async false

open Sys2Proof.Claims

theorem hostExactly_ok {n : Nat} {data : List Byte} (h : data.length = n) : hostExactly n (.ok data) = .ok data := if_pos h

/-- A read of host memory by a function that may master the bus leaves the device. -/
theorem queueHostRead_owned {s : State} {q k : Nat} (howner : queueOwner s q = some k) (hmaster : s.busMaster k = true) (addr len : Nat) :
    queueHostRead s q addr len = some (s.emit (.hostRead k addr len)) := by
  rw [queueHostRead, howner]
  exact if_pos hmaster

-- The producer's index.

section
variable {s : State} {q : Nat} (hreading : (s.queue q).reading = true) (hfetches : queueFetches s q = true)
include hreading hfetches

theorem prodRead_board (host : HostRead) (hboard : boardQueue q = true) : prodRead s q host = takeIndex s q (s.cfg (R.HWQ_Qnn_PROD q)) := by
  rw [prodRead, if_neg (by simp [hreading, hfetches]), if_pos hboard]

theorem prodRead_host {k : Nat} {data : List Byte} (hboard : boardQueue q = false) (howner : queueOwner s q = some k) (hmaster : s.busMaster k = true) :
    prodRead s q (.ok data) = (let r := s.emit (.hostRead k (hostAddr (s.cfg (R.HWQ_Qnn_IDX_LO q)) (s.cfg (R.HWQ_Qnn_IDX_HI q))) 4)
      takeIndex (r.wr (R.HWQ_Qnn_PROD q) (word (leNat data))) q (word (leNat data))) := by
  rw [prodRead, if_neg (by simp [hreading, hfetches]), if_neg (by rw [hboard]; decide)]
  simp only [queueHostRead_owned howner hmaster]

end

-- The entry of a queue.

section
variable {s : State} {q : Nat} (hfetches : queueFetches s q = true) (hahead : rereads s q = true ∨ s.rd (R.HWQ_Qnn_CONS q) ≠ (s.queue q).prod)
include hfetches hahead

theorem entryRead_fetches (host : HostRead) (ecc : Ecc) : entryRead s q host ecc none = fetchEntry s q host ecc := by
  refine if_neg ?_
  obtain h | h := hahead <;> simp [hfetches, h]

end

/-- A board queue's entry holds a word that fails. -/
def entryBroken (s : State) (q : Nat) : Bool := (entryWords q (slotAddr s q (nextEntry s q))).any (fun w => s.failing.contains (skey w.1 w.2))

section
variable {s : State} (hinj : s.col.inj = none) (q : Nat) (host : HostRead) (ecc : Ecc)
include hinj

theorem fetchEntry_lost (h : ecc = .ue ∨ (boardQueue q && entryBroken s q) = true) : fetchEntry s q host ecc = haltQueue (raise s 290) q Code.STATE_LOST := by
  unfold fetchEntry
  simp only [sramReads_none hinj, List.any_nil, Bool.false_eq_true, if_false]
  exact if_pos h

theorem fetchEntry_board (hecc : ecc ≠ .ue) (hboard : boardQueue q = true) (hbroken : entryBroken s q = false) :
    fetchEntry s q host ecc = takeEntry s q (qringEntry s (slotAddr s q (nextEntry s q))) := by
  have hgood : ¬ (ecc = .ue ∨ (boardQueue q && entryBroken s q) = true) := by simp [hecc, hbroken]
  unfold fetchEntry
  simp only [sramReads_none hinj, List.any_nil, Bool.false_eq_true, if_false]
  exact (if_neg hgood).trans (if_pos hboard)

theorem fetchEntry_host {k : Nat} {data : List Byte} (hecc : ecc ≠ .ue) (hboard : boardQueue q = false) (howner : queueOwner s q = some k)
    (hmaster : s.busMaster k = true) :
    fetchEntry s q (.ok data) ecc = takeEntry (s.emit (.hostRead k (slotAddr s q (nextEntry s q)) 64)) q data := by
  unfold fetchEntry
  simp [sramReads_none hinj, hecc, hboard, queueHostRead_owned howner hmaster]

/-- An entry that the host does not give sets HOST_ERR, and leaves the queue where it is. -/
theorem fetchEntry_error (hecc : ecc ≠ .ue) (hboard : boardQueue q = false) :
    ∃ u : State, fetchEntry s q .error ecc = u.setFlag (R.HWQ_Qnn_STAT q) 4 ∧ u.regs = s.regs ∧ u.queues = s.queues := by
  unfold fetchEntry
  simp only [sramReads_none hinj, List.any_nil, Bool.false_eq_true, if_false, hecc, hboard, Bool.false_and, or_self]
  rcases hread : queueHostRead s q (slotAddr s q (nextEntry s q)) 64 with _ | u
  · exact ⟨s, rfl, rfl, rfl⟩
  · refine ⟨u, rfl, ?_⟩
    unfold queueHostRead at hread
    split at hread
    · split at hread
      · cases hread
        exact ⟨rfl, rfl⟩
      · cases hread
    · cases hread

end

/-- An unmasked vector that was pending is sent, and no other is. -/
theorem sendPending_none {s : State} {k : Nat} (h : (s.func k).pba = []) : sendPending s k = s := by
  have hself : s.setFunc k { s.func k with pba := [] } = s := by
    rw [← h]
    unfold State.setFunc State.func
    split <;> rfl
  unfold sendPending
  simp only [h, List.filter_nil, forEach_nil, hself, ite_self]

theorem hostConfig_idle {s : State} {k : Nat} (c : HostConfig) (h : (s.func k).pba = []) :
    ∃ x : Func, hostConfig s k c = s.setFunc k x ∧ x.cfg.busMaster = c.busMaster ∧ x.cfg.msix = c.msix := by
  unfold hostConfig
  extract_lets f cfg
  refine ⟨_, sendPending_none ?_, rfl, rfl⟩
  rw [State.func_setFunc, if_pos rfl]
  exact h

/-- The four words of an unmasked vector's entry (R345). -/
theorem bar4Word_entry {t : State} {k v : Nat} {e : Nat × Nat} (hv : v < vectorCount k) (htable : kget (fun _ => (0, 0)) (t.func k).table v = e)
    (hunmasked : (t.func k).unmasked.contains v = true) : bar4Word t k (16 * v) = word (e.1 % 4294967296) ∧
      bar4Word t k (16 * v + 4) = word (e.1 / 4294967296) ∧ bar4Word t k (16 * v + 8) = word e.2 ∧ bar4Word t k (16 * v + 12) = 0#32 := by
  have hentry (n i : Nat) (hn : n = 16 * v + 4 * i) (hi : i < 4) : n / 16 = v ∧ n % 16 / 4 = i ∧ n < msixEntry (vectorCount k) := by
    unfold msixEntry
    omega
  obtain ⟨hv0, hi0, ht0⟩ := hentry (16 * v) 0 (by omega) (by decide)
  obtain ⟨hv1, hi1, ht1⟩ := hentry (16 * v + 4) 1 (by omega) (by decide)
  obtain ⟨hv2, hi2, ht2⟩ := hentry (16 * v + 8) 2 (by omega) (by decide)
  obtain ⟨hv3, hi3, ht3⟩ := hentry (16 * v + 12) 3 (by omega) (by decide)
  unfold bar4Word
  simp only [if_pos ht0, if_pos ht1, if_pos ht2, if_pos ht3, hv0, hv1, hv2, hv3, hi0, hi1, hi2, hi3, htable, hunmasked, if_true, and_self]

theorem queueReg_ne (q : Nat) : R.HWQ_Qnn_CONS q ≠ R.HWQ_Qnn_PROD q ∧ R.HWQ_Qnn_CONS q ≠ R.HWQ_Qnn_STAT q := by
  unfold R.HWQ_Qnn_CONS R.HWQ_Qnn_PROD R.HWQ_Qnn_STAT
  omega

-- Resets of a function.

theorem startReset_func (s : State) (k : Nat) (flr : Bool) : ∃ u : State,
    startReset s (k + 1) flr = u.setFunc k { u.func k with flr := (u.func k).flr || flr, resetting := true } := by
  unfold startReset
  extract_lets s1 s2 k' s3
  exact ⟨s3, if_neg (Nat.succ_ne_zero k)⟩

/-- With no job of its queues to wait for, a reset ends. -/
theorem resetJobsEnded_idle {s : State} {k : Nat} (hidle : ∀ q, q < 64 → (ownedQueues s (k + 1)).contains q = true → (s.queue q).stopping = false)
    (hresetting : (s.func k).resetting = true) (hflr : (s.func k).flr = true) :
    resetJobsEnded s (k + 1) =
      (s.force (R.HWQ_Fk_EVR_CFG k) (setBit (s.rd (R.HWQ_Fk_EVR_CFG k)) 31 false)).setFunc k
        ({ s.func k with resetting := false, flr := false, covered := false } : Func).flrDone := by
  have hnone : (ownedQueues s (k + 1)).filter (fun q => (s.queue q).stopping) = [] := List.filter_eq_nil_iff.mpr fun q hq => by
    have hlt : q < 64 := List.mem_range.mp (List.mem_filter.mp hq).1
    rw [hidle q hlt (by simpa using hq)]
    decide
  unfold resetJobsEnded
  dsimp only
  rw [hnone, if_neg (Nat.succ_ne_zero k)]
  simp only [forEach_nil, Nat.add_sub_cancel]
  rw [if_neg (not_not.mpr hresetting), if_pos hflr]
  rfl

end Sys2Proof.Machine

namespace Sys2Proof.Proofs
-- One proof at a time, so that the stacks of the evaluations do not add up.
set_option Elab.async false

open Sys2Proof.Machine Sys2Proof.Claims

/-- Settles O33: each branch of the queues' reads, of a function's reset, of MSI-X and of the link. -/
theorem queueEvents : Obligations.QueueEvents := by
  unfold Obligations.QueueEvents
  refine ⟨fun q k data s hs hlen hreading hfetches hboard howner hmaster => gives_of hs (fun _ => rfl) ?index,
    fun q k data s hs hlen hreading hfetches hboard howner hmaster hvalid hnew => ends_of hs (fun _ => rfl) ?valid,
    fun q host s hs hreading hfetches hboard => gives_of hs (fun _ => rfl) ?board,
    fun q host ecc s hs hboard hinj hfetches hahead => ⟨fun hecc hbroken => gives_of hs (fun _ => rfl) ?entry, fun hbroken => gives_of hs (fun _ => rfl) ?broken⟩,
    fun q k data ecc s hs hlen hboard hecc hinj hfetches hahead howner hmaster => gives_of hs (fun _ => rfl) ?hostEntry,
    fun q ecc s hs hboard hecc hinj hfetches hahead => ends_of hs (fun _ => rfl) ?hostError,
    fun q host s hs hinj hfetches hahead => gives_of hs (fun _ => rfl) ?lost,
    fun pf1 s hs => gives_of hs (fun _ => rfl) rfl,
    fun pf1 s hs => ends_of hs (fun _ => rfl) ?flr,
    fun o s hs => gives_of hs (fun _ => rfl) rfl,
    fun k s hs hidle hresetting hflr => ends_of hs (fun _ => rfl) ?ended,
    fun k s hs hhold hcov => gives_of hs (fun _ => rfl) ?holdoff,
    fun k s hs hhold hcov => gives_of hs (fun _ => rfl) ?covered,
    fun k v a d s hs hmem hv hmasked hpba hmsix hmaster hmask => ends_of hs (fun _ => rfl) ?pending,
    fun k v a d s hs hmem hv hmasked hpba => ends_of hs (fun _ => rfl) ?unmask,
    fun k v a d s hs hmem => gives_of hs (fun _ => rfl) ?closed,
    fun w sp s hs => gives_of hs (fun _ => rfl) (by rw [laneFail, pcieLink]),
    fun s hs hup => gives_of (f := pcieDown) hs (fun _ => rfl) (by rw [pcieDown, if_pos hup, pcieLink]),
    fun w sp c0 c1 s hs hmgmt hdown hp0 hp1 => ends_of hs (fun _ => rfl) ?up,
    fun w sp c0 c1 s hs hmgmt hup hless => gives_of hs (fun _ => rfl) ?less⟩
  case index =>
    rw [hostExactly_ok hlen, prodRead_host hreading hfetches hboard howner hmaster]
  case valid =>
    obtain ⟨hprod, hstat⟩ := queueReg_ne q
    rw [hostExactly_ok hlen, prodRead_host hreading hfetches hboard howner hmaster]
    dsimp only
    have hcons (e : Out) (x : Queue) (v : Word) : (((s.emit e).wr (R.HWQ_Qnn_PROD q) v).setQueue q x).rd (R.HWQ_Qnn_CONS q) = s.rd (R.HWQ_Qnn_CONS q) := by
      rw [State.setQueue_rd_other, State.rd_wr, if_neg hprod, State.emit_rd_other]
    have hsize (e : Out) (v : Word) : ringSize ((s.emit e).wr (R.HWQ_Qnn_PROD q) v) q = ringSize s q := by
      rw [ringSize, State.wr_cfg_other, State.emit_cfg_other]
      rfl
    rw [takeIndex_valid (by rw [State.rd_wr, if_neg hprod, State.emit_rd_other, hsize]; exact hvalid), pollQueue_of_ahead (by
      rw [hcons, State.queue_setQueue_self]
      exact hnew)]
    simp +contextual [State.queue_setQueue]
  case board => exact prodRead_board hreading hfetches _ hboard
  case entry =>
    rw [entryRead_fetches hfetches hahead]
    exact fetchEntry_board hinj _ _ _ hecc hboard hbroken
  case broken =>
    rw [entryRead_fetches hfetches hahead]
    exact fetchEntry_lost hinj _ _ _ (.inr (by rw [hboard]; exact hbroken))
  case hostEntry =>
    rw [entryRead_fetches hfetches hahead, hostExactly_ok hlen]
    exact fetchEntry_host hinj _ _ hecc hboard howner hmaster
  case hostError =>
    obtain ⟨hprod, hstat⟩ := queueReg_ne q
    obtain ⟨u, hu, hregs, hqueues⟩ := fetchEntry_error hinj q ecc hecc hboard
    have hrd : u.rd (R.HWQ_Qnn_CONS q) = s.rd (R.HWQ_Qnn_CONS q) := congrArg (fun m => kget regReset m _) hregs
    have herror : hostExactly 64 .error = .error := rfl
    rw [herror, entryRead_fetches hfetches hahead, hu]
    simp [State.setFlag, State.rd_wr, hstat, hrd, hqueues, bit_setBit]
  case lost =>
    rw [entryRead_fetches hfetches hahead]
    exact fetchEntry_lost hinj _ _ _ (.inl rfl)
  case flr =>
    have howner : (if pf1 then 2 else 1) = (if pf1 then 1 else 0) + 1 := by cases pf1 <;> rfl
    obtain ⟨u, hu⟩ := startReset_func s (if pf1 then 1 else 0) true
    rw [howner, hu]
    simp [State.func_setFunc]
  case ended =>
    have howner : ((Fin.succ k : Fin 3) : Nat) = k + 1 := rfl
    rw [howner, resetJobsEnded_idle hidle hresetting hflr]
    simp [State.func_setFunc, Func.flrDone, State.force, bit_setBit]
  case holdoff =>
    rw [holdoffEnd, if_neg (not_not.mpr hhold)]
    exact if_neg (by rw [hcov]; decide)
  case covered =>
    rw [holdoffEnd, if_neg (not_not.mpr hhold)]
    exact if_pos hcov
  case pending =>
    rw [unmask, if_neg (not_not.mpr hmem), if_neg (Nat.not_le.mpr hv)]
    dsimp only
    rw [if_neg (by rw [hmasked]; decide)]
    generalize hx : ({ s.func k with unmasked := _, table := _ } : Func) = x
    have hmay : ¬ ¬ (x.cfg.msix = true ∧ x.cfg.busMaster = true) := by simp [← hx, hmsix, hmaster]
    have hsends : x.sends v = true := by simp [← hx, Func.sends, hmask]
    have hpending : x.pba = [v.val] := by simp [← hx, hpba]
    unfold sendPending
    simp only [State.func_setFunc, if_true, if_neg hmay, hpending, List.filter_cons, List.filter_nil, hsends, Bool.not_true, Bool.false_eq_true, if_false]
    have hone (t : State) : forEach [v.val] t (fun s v => s.emit (.msix k v)) = t.emit (.msix k v) := rfl
    have hunmasked : x.unmasked = v.val :: (s.func k).unmasked := by rw [← hx]
    have htable : kget (fun _ => (0, 0)) x.table v = (a.toNat, d.toNat) := by
      rw [← hx]
      exact kget_kset_self _ _ _ _
    rw [hone]
    simp [State.func_setFunc, hunmasked, htable]
  case unmask =>
    rw [unmask, if_neg (not_not.mpr hmem), if_neg (Nat.not_le.mpr hv)]
    dsimp only
    rw [if_neg (by rw [hmasked]; decide)]
    generalize hx : ({ s.func k with unmasked := _, table := _ } : Func) = x
    have hunmasked : x.unmasked = v.val :: (s.func k).unmasked := by rw [← hx]
    have htable : kget (fun _ => (0, 0)) x.table v = (a.toNat, d.toNat) := by
      rw [← hx]
      exact kget_kset_self _ _ _ _
    have hnone : ((s.setFunc k x).func k).pba = [] := by
      rw [State.func_setFunc, if_pos rfl, ← hx]
      exact hpba
    have hfunc : (hold s (keeping [] s (s.setFunc k x))).func k = x := by simp [State.func_setFunc]
    obtain ⟨h0, h1, h2, h3⟩ := bar4Word_entry (t := hold s (keeping [] s (s.setFunc k x))) (k := k) (v := v) (e := (a.toNat, d.toNat)) hv
      (by rw [hfunc]; exact htable) (by rw [hfunc, hunmasked]; simp)
    rw [sendPending_none hnone]
    refine ⟨by simp, by rw [hfunc, hunmasked], by rw [hfunc]; exact htable, by simp, h0, h1, ?_, h3⟩
    rw [h2]
    simp [word]
  case closed =>
    rw [unmask, if_pos (by rw [hmem]; decide)]
    rfl
  case up =>
    have hless : (bit (s.rd R.HWQ_PCIE_STAT) 16 && decide (w % 64 < bits (s.rd R.HWQ_PCIE_STAT) 9 4 ∨ sp % 16 < bits (s.rd R.HWQ_PCIE_STAT) 3 0)) = false := by
      rw [hdown, Bool.false_and]
    have hkept : ((s.wr R.HWQ_PCIE_STAT (pcieStat w sp)).func 0).pba = [] := hp0
    obtain ⟨x, hx, hxm, hxi⟩ := hostConfig_idle c0 hkept
    obtain ⟨y, hy, hym, hyi⟩ := hostConfig_idle (s := (s.wr R.HWQ_PCIE_STAT (pcieStat w sp)).setFunc 0 x) (k := 1) c1 hp1
    rw [if_pos hmgmt, pcieUp]
    rw [hless, if_neg Bool.false_ne_true, pcieLink, hx, hy]
    simp +contextual [State.func_setFunc, State.rd_wr, hxm, hxi, hym, hyi, configHeader, msixCapability]
  case less =>
    rw [if_pos hmgmt, pcieUp]
    rw [hup, Bool.true_and, decide_eq_true hless, if_pos rfl]
    rfl

end Sys2Proof.Proofs

/-!
PROOFS. The aperture (12_work_queues.md, Surface aperture).
-/
namespace Sys2Proof.Machine
-- One proof at a time, so that the stacks of the evaluations do not add up.
set_option Elab.async false

open Sys2Proof.Claims

theorem apSite_setFunc (s : State) (k : Nat) (x : Func) (off : Nat) : apSite (s.setFunc k x) k off = apSite s k off := by
  unfold apSite
  simp only [State.setFunc_cfg_other, State.setFunc_surface_other]

/-- A write that ends in the line it begins in. -/
theorem apLines_single {x : Surface} {b n : Nat} (hn : n ≠ 0) (h : b / x.pitch = (b + n - 1) / x.pitch) : apLines x b n = [b / x.pitch] := by
  rw [apLines, if_neg hn, ← h, show b / x.pitch + 1 - b / x.pitch = 1 by omega]
  simp

/-- What the aperture does not answer is counted, and logged in the function's error capability (R312). -/
theorem apUnsupported_setFunc (s : State) (k : Nat) (f : Func) : apUnsupported (s.setFunc k f) k =
    (raise (((s.setFunc k f).bump R.HWQ_AP_ERR 1).setFunc k { f with cfg := { f.cfg with aer := setBit f.cfg.aer 20 true } }) 288).emit (.aperture k [] false) := by
  have hf : ((s.setFunc k f).bump R.HWQ_AP_ERR 1).func k = f := by
    rw [State.bump, State.wr_func_other, State.func_setFunc, if_pos rfl]
  unfold apUnsupported logUnsupported
  simp only [hf]

section
variable {s : State} {k off : Nat} (hmem : (s.func k).cfg.memory = true)
include hmem

theorem apRead_site {h b n : Nat} {x : Surface} (hsite : apSite s k off = some (h, x, b)) (hin : b + n ≤ x.lines * x.pitch) : apRead s k off n =
    (let r := (apLines x b n).foldl (fun (a : State × Bool) i => let r := fetchLine a.1 h i []; (r.2.2, a.2 && decide (r.1 = .good)))
       (s.setFunc k { s.func k with apVoids := 0, apNext := 0 }, decide ((s.func k).apVoids ≤ 3))
     if r.2 then r.1.emit (.aperture k (r.1.bytes h b n) false)
       else (raise (r.1.bump R.HWQ_AP_ERR 1) 289).emit (.aperture k (List.replicate n 0xFF#8) true)) := by
  unfold apRead
  rw [if_neg (not_not.mpr hmem)]
  simp only [apSite_setFunc, hsite]
  rw [if_neg (Nat.not_lt.mpr hin)]

theorem apRead_outside {n : Nat} (hout : ∀ h x b, apSite s k off = some (h, x, b) → x.lines * x.pitch < b + n) :
    apRead s k off n = apUnsupported (s.setFunc k { s.func k with apVoids := 0, apNext := 0 }) k := by
  unfold apRead
  rw [if_neg (not_not.mpr hmem)]
  simp only [apSite_setFunc]
  rcases hsite : apSite s k off with _ | ⟨h, x, b⟩
  · rfl
  · exact if_pos (hout h x b hsite)

theorem apWrite_outside {data : List Byte} (hout : ∀ h x b, apSite s k off = some (h, x, b) → x.lines * x.pitch < b + data.length) :
    apWrite s k off data = s.bump R.HWQ_AP_ERR 1 := by
  unfold apWrite
  rw [if_neg (not_not.mpr hmem)]
  rcases hsite : apSite s k off with _ | ⟨h, x, b⟩
  · rfl
  · exact if_pos (hout h x b hsite)

/-- A write within one line: what lies in its payload is merged, and the rest is discarded. -/
theorem apWrite_line {h b : Nat} {x : Surface} {data : List Byte} (hdata : data ≠ []) (hsite : apSite s k off = some (h, x, b))
    (hin : b + data.length ≤ x.lines * x.pitch) (hline : b / x.pitch = (b + data.length - 1) / x.pitch) : apWrite s k off data =
    (let i := b / x.pitch
     let hi := min (b + data.length) (i * x.pitch + x.payload)
     if hi ≤ b then s
     else if rodsVoid s (rodsFor .ingest) i then ingestEnds (poisonLine (s.drawn (i + 1)) h i) (· == (h, i))
     else mergeLine s h i (b - i * x.pitch) (data.take (hi - b))) := by
  have hlo : max b (b / x.pitch * x.pitch) = b := Nat.max_eq_left (Nat.div_mul_le_self _ _)
  unfold apWrite
  rw [if_neg (not_not.mpr hmem)]
  simp only [hsite]
  rw [if_neg (Nat.not_lt.mpr hin), apLines_single (fun h => hdata (List.length_eq_zero_iff.mp h)) hline]
  simp only [forEach, List.foldl_cons, List.foldl_nil, hlo, Nat.sub_self, List.drop_zero]

end

end Sys2Proof.Machine

namespace Sys2Proof.Proofs
-- One proof at a time, so that the stacks of the evaluations do not add up.
set_option Elab.async false

open Sys2Proof.Machine Sys2Proof.Claims

/-- Settles O34: reads and writes inside the surface, outside it, and of a function whose memory space is closed. -/
theorem apertureAccess : Obligations.ApertureAccess := by
  unfold Obligations.ApertureAccess
  refine ⟨fun k off n h b x s hs hmem hsite hin => gives_of hs (fun _ => rfl) ?read,
    fun k off n s hs hmem hout => gives_of hs (fun _ => rfl) ?readOut,
    fun k off n data s hs hmem => ⟨gives_of hs (fun _ => rfl) ?readClosed, gives_of hs (fun _ => rfl) ?writeClosed⟩,
    fun k off data h b x s hs hmem hdata hsite hin hline hpayload => ⟨fun hrods => gives_of hs (fun _ => rfl) ?write, fun hrods => gives_of hs (fun _ => rfl) ?writeVoid⟩,
    fun k off data h b x s hs hmem hdata hsite hin hline hpad => ?writePad,
    fun k off data s hs hmem hout => ends_of hs (fun _ => rfl) ?writeOut⟩
  case read => exact apRead_site hmem hsite hin
  case readOut => exact (apRead_outside hmem hout).trans (apUnsupported_setFunc _ _ _)
  case readClosed => exact if_pos (by rw [hmem]; decide)
  case writeClosed => exact if_pos (by rw [hmem]; decide)
  case write =>
    have hlen : 0 < data.length := List.length_pos_iff.mpr hdata
    rw [apWrite_line hmem hdata hsite hin hline]
    dsimp only
    rw [if_neg (by omega), if_neg (by rw [hrods]; decide)]
  case writeVoid =>
    have hlen : 0 < data.length := List.length_pos_iff.mpr hdata
    rw [apWrite_line hmem hdata hsite hin hline]
    dsimp only
    rw [if_neg (by omega), if_pos hrods]
  case writePad =>
    have hsame : apWrite s k off.toNat data = s := by
      rw [apWrite_line hmem hdata hsite hin hline]
      exact if_pos (by omega)
    have h : Gives (.apertureWrite k off data) s [.store] s := gives_of hs (fun _ => rfl) hsame
    rw [Gives, hold_keeping_self] at h
    exact h
  case writeOut =>
    rw [apWrite_outside hmem hout]
    simp +contextual [State.bump, State.rd_wr]

end Sys2Proof.Proofs

/-!
PROOFS. The egress line, gate lists, PTP and the link of a port, and the frames it receives (10_network_media.md).
-/
namespace Sys2Proof.Machine
-- One proof at a time, so that the stacks of the evaluations do not add up.
set_option Elab.async false

open Sys2Proof.Claims

theorem wireDone_idle {s : State} {p : Nat} (h : (s.port p).wire = none) : wireDone s p = s := by
  unfold wireDone wireEnd
  simp only [h]

/-- Words of a gate list leave the port's own state. -/
theorem forEach_setSpw_port (xs : List Nat) (s : State) (c : Nat) (a : Nat → Nat) (v : State → Nat → Word) (p : Nat) :
    (forEach xs s (fun s e => s.setSpw c (a e) (v s e))).port p = s.port p :=
  forEach_keeps (·.port p) _ (fun _ _ => State.setSpw_port_other _ _ _ _ _) xs s

section
variable {s : State} {p : Nat} {frame : List Byte} {note : RxNote}

theorem ethRx_down (h : (s.port p).link = false ∨ (s.port p).resetting = true) : ethRx s p frame note = s := by
  refine if_pos ?_
  obtain h | h := h <;> simp [h]

theorem ethRx_up (hlink : (s.port p).link = true) (hreset : (s.port p).resetting = false) : ethRx s p frame note = ethFrameIn (fecCount s p note) p frame note :=
  if_neg (by simp [hlink, hreset])

section
variable (hframe : frame ≠ [])
include hframe

theorem ethFrameIn_overflow (hfull : note.fifoFull = true) : ethFrameIn s p frame note = raise (s.bump (R.NMP_Pnn_RX_OVF p) 1) (201 + 4 * p) := by
  rw [ethFrameIn, if_neg hframe, if_pos hfull]

variable (hroom : note.fifoFull = false)
include hroom

theorem ethFrameIn_bad (hbad : 9216 < frame.length ∨ crcEth (frame.take (frame.length - 4)) ≠ leNat (frame.drop (frame.length - 4))) :
    ethFrameIn s p frame note = s.bump (R.NMP_Pnn_RX_BAD p) 1 := by
  rw [ethFrameIn, if_neg hframe, if_neg (by rw [hroom]; decide), if_pos hbad]

variable (hlen : frame.length ≤ 9216) (hcrc : crcEth (frame.take (frame.length - 4)) = leNat (frame.drop (frame.length - 4)))
include hlen hcrc

theorem ethFrameIn_short (hshort : frame.length < 64) : ethFrameIn s p frame note = rxOther s p := by
  rw [ethFrameIn, if_neg hframe, if_neg (by rw [hroom]; decide), if_neg (by simp [hcrc, hlen]), if_pos hshort]

variable (hlong : 64 ≤ frame.length)
include hlong

/-- A tagged frame of another VLAN. -/
theorem ethFrameIn_vlan (htag : be frame 12 2 = 0x8100) (hvlan : be frame 14 2 % 4096 ≠ bits (s.cfg (R.NMP_Pnn_VLAN p)) 11 0) :
    ethFrameIn s p frame note = rxOther s p := by
  rw [ethFrameIn, if_neg hframe, if_neg (by rw [hroom]; decide), if_neg (by simp [hcrc, hlen]), if_neg (Nat.not_lt.mpr hlong)]
  exact if_pos ⟨decide_eq_true htag, hvlan⟩

/-- An untagged frame that carries IPv4. -/
theorem ethFrameIn_ipv4 (htype : be frame 12 2 = 0x0800) :
    ethFrameIn s p frame note = rxIpv4 s p frame.length ((frame.take (frame.length - 4)).drop 14) note := by
  rw [ethFrameIn, if_neg hframe, if_neg (by rw [hroom]; decide), if_neg (by simp [hcrc, hlen]), if_neg (Nat.not_lt.mpr hlong)]
  simp [htype]

end

end

end Sys2Proof.Machine

namespace Sys2Proof.Proofs
-- One proof at a time, so that the stacks of the evaluations do not add up.
set_option Elab.async false

open Sys2Proof.Machine Sys2Proof.Claims

/-- Settles O22: the line, the gates, the messages and the link of a port, each under the state it needs. -/
theorem portEvents : Obligations.PortEvents := by
  unfold Obligations.PortEvents
  refine ⟨fun p lost s hs hlink hreset hwire => gives_of hs (fun _ => rfl) ?line,
    fun p x s hs hpend => ends_of hs (fun _ => rfl) ?switch,
    fun p s hs hlen => ends_of hs (fun _ => rfl) ?entry,
    fun p s hs hmay => gives_of hs (fun _ => rfl) ?sync,
    fun p s hs hmay => ?announce,
    fun p s hs hstate => gives_of hs (fun _ => rfl) ?delay,
    fun p s hs hlow hmaster hrole => gives_of hs (fun _ => rfl) ?timeout,
    fun p s hs hon hdown => gives_of hs (fun _ => rfl) ?up,
    fun p s hs hlink hreset => gives_of hs (fun _ => rfl) ?down,
    fun p s hs hlink => gives_of hs (fun _ => rfl) ?lane,
    fun p s hs => gives_of hs (fun _ => rfl) rfl⟩
  case line =>
    rcases hnext : nextClass s p with _ | ⟨k, x⟩
    all_goals
      dsimp only
      rw [wireDone_idle hwire, if_neg (by simp [hlink, hreset])]
      simp only [hnext]
  case switch =>
    simp only [hpend]
    simp +contextual [State.port_setPort, forEach_setSpw_port]
  case entry =>
    rw [if_neg hlen]
    simp +contextual [State.port_setPort]
  case sync => exact if_pos hmay
  case announce =>
    intro prio utc quality body
    refine gives_of hs (fun _ => rfl) ?_
    exact if_pos hmay
  case delay => exact if_pos hstate
  case timeout =>
    have hkept (x : Ptp) : ptpRole (raise (setPtp s p x) (203 + 4 * p)) p = 1 := by
      rw [ptpRole, raise_cfg_read]
      exact hrole
    dsimp only
    rw [if_neg (by omega)]
    simp only [hkept]
  case up =>
    have hnew : ¬ (¬ portOn s p = true ∨ ((s.port p).link = true ∧ ¬ (s.port p).resetting = true)) := by
      obtain h | h := hdown <;> simp [hon, h]
    exact if_neg hnew
  case down =>
    have hno : ¬ (false = true ∧ (s.port p).link = true) := by simp
    rw [ethDown, if_neg hno, linkDown, linkLost, if_neg (not_not.mpr hlink), hreset]
    rfl
  case lane => exact if_pos ⟨rfl, hlink⟩

/-- Settles O21: the first row of the table of received frames that applies, and the ends of received frames. -/
theorem receiveEvents : Obligations.ReceiveEvents := by
  unfold Obligations.ReceiveEvents
  refine ⟨fun p frame note s hs hdown => ends_of hs (fun _ => rfl) ?down,
    fun p note s hs hlink hreset => gives_of hs (fun _ => rfl) ?empty,
    fun p note s huncorr => if_neg huncorr,
    fun p frame note s hs hlink hreset hframe hfull => gives_of hs (fun _ => rfl) ?overflow,
    fun p frame note s hs hlink hreset hframe hroom hbad => gives_of hs (fun _ => rfl) ?bad,
    fun p frame note s hs hlink hreset hframe hroom hshort hcrc => gives_of hs (fun _ => rfl) ?short,
    fun p frame note s hs hlink hreset hroom hlong hlen hcrc => ⟨fun htag hvlan => gives_of hs (fun _ => rfl) ?vlan, fun htype => gives_of hs (fun _ => rfl) ?ipv4⟩,
    fun st ts f s hs hfound hclosing => gives_of hs (fun _ => rfl) ?close,
    fun st s hs => gives_of hs (fun _ => rfl) rfl,
    fun st b s hs hlive hother => gives_of hs (fun _ => rfl) ?path⟩
  case down => rw [ethRx_down hdown, hold_keeping_self]
  case empty => exact (ethRx_up hlink hreset).trans (if_pos rfl)
  case overflow => exact (ethRx_up hlink hreset).trans (ethFrameIn_overflow hframe hfull)
  case bad => exact (ethRx_up hlink hreset).trans (ethFrameIn_bad hframe hroom hbad)
  case short => exact (ethRx_up hlink hreset).trans (ethFrameIn_short hframe hroom (by omega) hcrc hshort)
  case vlan =>
    have hframe : frame ≠ [] := fun h => by simp [h] at hlong
    exact (ethRx_up hlink hreset).trans (ethFrameIn_vlan hframe hroom hlen hcrc hlong htag hvlan)
  case ipv4 =>
    have hframe : frame ≠ [] := fun h => by simp [h] at hlong
    exact (ethRx_up hlink hreset).trans (ethFrameIn_ipv4 hframe hroom hlen hcrc hlong htype)
  case close =>
    simp only [hfound]
    exact if_pos hclosing
  case path =>
    rw [pathSilent]
    dsimp only
    rw [if_neg (not_not.mpr hlive)]
    refine if_pos ?_
    cases b
    · exact .inr hother
    · exact .inl hother

end Sys2Proof.Proofs

/-!
PROOFS. Jobs that move lines of surfaces, and TALLY_QUERY (12_work_queues.md, Entries and chains; 03_surfaces_placement.md, Line tails).
-/
namespace Sys2Proof.Machine
-- One proof at a time, so that the stacks of the evaluations do not add up.
set_option Elab.async false

open Sys2Proof.Claims

theorem jobIn_eq_some {s : State} {q typ : Nat} {p : JobPhase} {j : Job} :
    s.jobIn q typ p = some j ↔ (s.queue q).job = some j ∧ j.typ = typ ∧ j.phase = p := by
  unfold State.jobIn
  cases (s.queue q).job with
  | none => simp
  | some k =>
    by_cases h : k.typ = typ ∧ k.phase = p
    · simp only [if_pos h, Option.some.injEq]
      exact ⟨fun hk => ⟨hk, hk ▸ h⟩, And.left⟩
    · simp only [if_neg h, Option.some.injEq, false_iff, reduceCtorEq]
      rintro ⟨rfl, hk⟩
      exact h hk

theorem jobIn_act_of_running {s : State} {q typ : Nat} {j : Job} (hj : s.jobIn q typ .running = some j) : s.jobIn q typ .act = none := by
  obtain ⟨hjob, -, hphase⟩ := jobIn_eq_some.mp hj
  unfold State.jobIn
  simp [hjob, hphase]

section
variable {s : State} {q typ : Nat} {check : Job → Option Nat} {j : Job}

theorem startLines_no_act (hj : s.jobIn q typ .act = none) : startLines s q typ check = s := by
  unfold startLines hbmJob
  simp only [hj, ite_self]

theorem startLines_running (hj : s.jobIn q typ .running = some j) : startLines s q typ check = s := startLines_no_act (jobIn_act_of_running hj)

theorem startLines_passes (htr : s.store.trained = true) (hj : s.jobIn q typ .act = some j) (hcrit : s.health.level < 3 ∨ typ = Typ.SURFACE_UPLOAD)
    (hcheck : check j = none) : startLines s q typ check = s.setJob q { j with phase := .running } := by
  unfold startLines
  rw [hbmJob_trained htr, hj]
  simp only [hcheck]
  exact if_neg (by omega)

theorem startLines_fails {c : Nat} (htr : s.store.trained = true) (hj : s.jobIn q typ .act = some j)
    (hcrit : s.health.level < 3 ∨ typ = Typ.SURFACE_UPLOAD) (hcheck : check j = some c) : startLines s q typ check = jobFail s q c := by
  unfold startLines
  rw [hbmJob_trained htr, hj]
  simp only [hcheck]
  exact if_neg (by omega)

end

theorem queueHostRead_master {s : State} {q k : Nat} (hown : queueOwner s q = some k) (hbus : s.busMaster k = true) (a n : Nat) :
    queueHostRead s q a n = some (s.emit (.hostRead k a n)) := by
  unfold queueHostRead
  simp only [hown]
  exact if_pos hbus

theorem queueHostRead_no_bus {s : State} {q k : Nat} (hown : queueOwner s q = some k) (hbus : s.busMaster k = false) (a n : Nat) :
    queueHostRead s q a n = none := by
  unfold queueHostRead
  simp only [hown]
  exact if_neg (by simp [hbus])

theorem uploadLines_nil (q : Nat) (s : State) : uploadLines q [] s = s := rfl

section
variable {s u : State} {q : Nat} {j : Job} (hj : s.jobIn q Typ.SURFACE_UPLOAD .running = some j)
include hj

/-- The read of host memory that an upload makes for its next line. -/
def uploadRead (s : State) (q : Nat) (j : Job) : Option State :=
  queueHostRead s q (uploadAddr ((uploadSegments j).getD j.seg []) j.pos) (((s.surface (le j.head 16 2)).map Surface.payload).getD 0)

theorem uploadLines_unread (hread : uploadRead s q j = none) (r : HostRead) (rest : List HostRead) :
    uploadLines q (r :: rest) s = jobFail s q Code.NO_BUS := by
  rw [uploadRead] at hread
  rw [uploadLines]
  simp only [hj, hread]

theorem uploadLines_error (hread : uploadRead s q j = some u) (rest : List HostRead) :
    uploadLines q (.error :: rest) s = jobFail u q Code.HOST_READ_ERR := by
  rw [uploadRead] at hread
  rw [uploadLines]
  simp only [hj, hread]

theorem uploadLines_ok (hread : uploadRead s q j = some u) (data : List Byte) (rest : List HostRead) :
    uploadLines q (.ok data :: rest) s =
      (let put := jobWrite u q j (le j.head 16 2) writerUpload (le ((uploadSegments j).getD j.seg []) 0 2 + j.pos) data false
      let last := decide (le ((uploadSegments j).getD j.seg []) 2 2 ≤ j.pos + 1)
      if last ∧ (uploadSegments j).length ≤ j.seg + 1 then jobDone put q (le j.head 16 2) writerUpload Code.OK
      else uploadLines q rest (put.setJob q { j with wrote := true, pos := if last then 0 else j.pos + 1, seg := if last then j.seg + 1 else j.seg })) := by
  rw [uploadRead] at hread
  rw [uploadLines]
  simp only [hj, hread]

end

theorem copyLines_zero (q : Nat) (s : State) : copyLines q 0 s = s := rfl

theorem copyLines_running {s : State} {q : Nat} {j : Job} (hj : s.jobIn q Typ.SURFACE_COPY .running = some j) (n : Nat) :
    copyLines q (n + 1) s =
      (let r := fetchLine s (le j.head 16 2) (le j.head 20 2 + j.pos) []
      let put := jobWrite r.2.2 q j (le j.head 18 2) writerCopy (le j.head 22 2 + j.pos) r.2.1 (decide (r.1 ≠ .good))
      if r.1 = .void then copyVoid r.2.2 q j
      else if le j.head 24 2 ≤ j.pos + 1 then jobDone put q (le j.head 18 2) writerCopy Code.OK
      else copyLines q n (put.setJob q { j with wrote := true, pos := j.pos + 1, voids := 0 })) := by
  rw [copyLines]
  simp only [hj]

theorem fillLines_zero (q : Nat) (s : State) : fillLines q 0 s = s := rfl

theorem fillLines_running {s : State} {q : Nat} {j : Job} {x : Surface} (hj : s.jobIn q Typ.FILL .running = some j)
    (hx : s.surface (le j.head 16 2) = some x) (n : Nat) :
    fillLines q (n + 1) s =
      (let put := jobWrite s q j (le j.head 16 2) writerCopy (le j.head 18 2 + j.pos) (fillPayload j.head x.payload) false
      if le j.head 20 2 ≤ j.pos + 1 then jobDone put q (le j.head 16 2) writerCopy Code.OK
      else fillLines q n (put.setJob q { j with wrote := true, pos := j.pos + 1 })) := by
  rw [fillLines]
  simp only [hj, hx]

section
variable {s : State} {q : Nat} {us : List Upset} {j : Job} {x : Surface} {d : Desc}

/-- From THROTTLE on no further layer starts. -/
theorem offlineLines_hot (hj : s.jobIn q Typ.OFFLINE_COMPOSE .running = some j) (hx : s.surface (le j.head 16 2) = some x)
    (hd : (offlineDescs j)[j.seg]? = some d) (hhot : j.pos = 0 ∧ 2 ≤ s.health.level) : ∀ n, offlineLines q us n s = s
  | 0 => rfl
  | n + 1 => by
    rw [offlineLines]
    simp only [hj, hx, hd]
    exact if_pos hhot

theorem offlineLines_zero : offlineLines q us 0 s = s := rfl

theorem offlineLines_running {units : List Nat} {u : State} (hj : s.jobIn q Typ.OFFLINE_COMPOSE .running = some j)
    (hx : s.surface (le j.head 16 2) = some x) (hd : (offlineDescs j)[j.seg]? = some d) (hcool : ¬ (j.pos = 0 ∧ 2 ≤ s.health.level))
    (hunits : offlineUnits s q j = some (units, u)) (n : Nat) :
    offlineLines q us (n + 1) s =
      (let r := offlineLine us u { offlineStarts u us j with units := units } d x.width x.height
      let put := jobWrite r.2.2 q r.2.1 (le j.head 16 2) writerCopy j.pos (r.1.flatMap (fun p => leBytes 8 p.toNat))
        (rodVoid r.2.2 (tileRod ((servedLogical r.2.2 r.2.1.tile).getD 0)))
      if j.seg + 1 < (offlineDescs j).length then offlineLines q [] n (offlineNext r.2.2 q r.2.1 r.1 x.height)
      else if x.height ≤ j.pos + 1 then jobDone put q (le j.head 16 2) writerCopy (if r.2.1.subst then Code.OK_SUBST else Code.OK)
      else offlineLines q [] n (put.setJob q { r.2.1 with wrote := true, pos := j.pos + 1 })) := by
  rw [offlineLines]
  simp only [hj, hx, hd, hunits]
  exact if_neg hcool

end

-- The results of a TALLY_QUERY touch no queue.

theorem statUpsets_queues (s : State) (r : Nat) (us : List Upset) : (statUpsets s r us).queues = s.queues :=
  forEach_keeps State.queues (fun t (u : Upset) => t.fail u.space u.addr) (fun _ _ => rfl) _ s

theorem statRead_queues (s : State) (r w : Nat) : (statRead s r w).2.queues = s.queues := by
  unfold statRead
  split
  · exact raise_queues _ 311
  · rfl

theorem tallyResult_queues (s : State) (r : Nat) : (tallyResult s r).2.queues = s.queues :=
  (statRead_queues _ r 0).trans (statRead_queues s r 1)

theorem denyPriv_queues (s : State) (m : Master) (job : Bool) (log : Word) : (denyPriv s m job log).queues = s.queues := raise_queues _ 280

theorem tallyJob_queues (us : List Upset) (s : State) (q : Nat) (j : Job) : (tallyJob us s q j).2.queues = s.queues := by
  unfold tallyJob
  extract_lets r0 n s1
  have hres : ∀ (t : State) (i : Nat), (if j.priv then tallyResult (statUpsets t (r0 + i) us) (r0 + i) else (leBytes 8 0, t)).2.queues = t.queues := by
    intro t i
    split
    · rw [tallyResult_queues, statUpsets_queues]
    · rfl
  have hs1 : s1.queues = s.queues := forEach_keeps State.queues _ (fun t i => by
    extract_lets r
    have hr : r.2.queues = t.queues := hres t i
    split <;> rw [writeSlot_queues, hr]) _ s
  clear_value s1
  split
  · exact hs1
  · rw [denyPriv_queues, hs1]

end Sys2Proof.Machine

namespace Sys2Proof.Proofs
-- One proof at a time, so that the stacks of the evaluations do not add up.
set_option Elab.async false

open Sys2Proof.Machine Sys2Proof.Claims

/-- Settles O32: a job in `.act` passes its checks or fails with their code, and each of the five line jobs unfolds by one line. -/
theorem lineJobs : Obligations.LineJobs := by
  refine ⟨fun q j s hs htr hj => ⟨fun hc => ends_of hs (fun _ => rfl) ?upload, fun c hc => gives_of hs (fun _ => rfl) ?uploadFails⟩,
    fun q k data j s hs hj hown hbus => ⟨fun hmore => gives_of hs (fun _ => rfl) ?line, fun hlast hseg => gives_of hs (fun _ => rfl) ?segment,
      fun hlast hseg => gives_of hs (fun _ => rfl) ?done, gives_of hs (fun _ => rfl) ?error⟩,
    fun q k r j s hs hj hown hbus => gives_of hs (fun _ => rfl) ?noBus,
    fun q j s hs htr hj hcool => ⟨fun hc => ends_of hs (fun _ => rfl) ?copy, fun c hc => gives_of hs (fun _ => rfl) ?copyFails⟩,
    fun q j s hs hj => gives_of hs (fun _ => rfl) ?copyLine,
    fun q j s hs htr hj hcool => ⟨fun hc => ends_of hs (fun _ => rfl) ?fill, fun c hc => gives_of hs (fun _ => rfl) ?fillFails⟩,
    fun q j x s hs hj hx => gives_of hs (fun _ => rfl) ?fillLine,
    fun q j s hs htr hj hcool => ⟨fun hc => gives_of hs (fun _ => rfl) ?offline, fun c hc => gives_of hs (fun _ => rfl) ?offlineFails⟩,
    fun q j x d n u s hs hj hx hd hcool hunits => gives_of hs (fun _ => rfl) ?offlineLine,
    fun q n j x d s hs hj hx hd hpos hhot => gives_of hs (fun _ => rfl) ?hot,
    fun q us j s hs hj => gives_of hs (fun _ => rfl) ?tally,
    fun q us j s hs hj => ends_of hs (fun _ => rfl) ?tallyEnds⟩
  case upload =>
    simp only [uploadLines_nil, startLines_passes htr hj (.inr rfl) hc]
    exact ⟨congrArg Queue.job (State.queue_setQueue_self _ _ _), rfl, rfl⟩
  case uploadFails => exact startLines_fails htr hj (.inr rfl) hc
  case line =>
    simp only [startLines_running hj, uploadLines_ok hj (queueHostRead_master hown hbus _ _), uploadLines_nil, decide_eq_true_eq, Nat.not_le.mpr hmore,
      if_false, false_and]
  case segment =>
    simp only [startLines_running hj, uploadLines_ok hj (queueHostRead_master hown hbus _ _), uploadLines_nil, decide_eq_true_eq, hlast,
      Nat.not_le.mpr hseg, if_true, if_false, and_false]
  case done =>
    simp only [startLines_running hj, uploadLines_ok hj (queueHostRead_master hown hbus _ _), decide_eq_true_eq, hlast, hseg, if_true, and_self]
  case error => simp only [startLines_running hj, uploadLines_error hj (queueHostRead_master hown hbus _ _)]
  case noBus => simp only [startLines_running hj, uploadLines_unread hj (queueHostRead_no_bus hown hbus _ _)]
  case copy =>
    simp only [copyLines_zero, startLines_passes htr hj (.inl hcool) hc]
    exact ⟨congrArg Queue.job (State.queue_setQueue_self _ _ _), rfl, rfl⟩
  case copyFails => exact startLines_fails htr hj (.inl hcool) hc
  case copyLine => simp only [startLines_running hj, copyLines_running hj, copyLines_zero]
  case fill =>
    simp only [fillLines_zero, startLines_passes htr hj (.inl hcool) hc]
    exact ⟨congrArg Queue.job (State.queue_setQueue_self _ _ _), rfl, rfl⟩
  case fillFails => exact startLines_fails htr hj (.inl hcool) hc
  case fillLine => simp only [startLines_running hj, fillLines_running hj hx, fillLines_zero]
  case offline => simp only [offlineLines_zero, startLines_passes htr hj (.inl hcool) hc]
  case offlineFails => simp only [offlineLines_zero, startLines_fails htr hj (.inl hcool) hc]
  case offlineLine => simp only [startLines_running hj, offlineLines_running hj hx hd hcool hunits, offlineLines_zero]
  case hot => simp only [startLines_running hj, offlineLines_hot hj hx hd ⟨hpos, hhot⟩]
  case tally => simp only [hj]
  case tallyEnds =>
    simp only [hj]
    have hjob : ((tallyJob (us.filter (fun u => u.space == Space.TALLY_STAT)) s q j).2.queue q).job = some j := by
      rw [State.queue, tallyJob_queues]
      exact (jobIn_eq_some.mp hj).1
    obtain ⟨hnone, hseq⟩ := finish_queue _ q (tallyJob (us.filter (fun u => u.space == Space.TALLY_STAT)) s q j).1 false j hjob
    exact ⟨hnone, hseq, rfl⟩

end Sys2Proof.Proofs

/-!
PROOFS. What leaves surface memory and its placement as they are, and what the write of a line reaches (03_surfaces_placement.md, Surfaces, Line
tails).
-/
namespace Sys2Proof.Machine
-- One proof at a time, so that the stacks of the evaluations do not add up.
set_option Elab.async false

open Sys2Proof.Claims

/-- Surface memory: what surfaces there are, and every byte. -/
def memory (s : State) : KMap (Option Surface) × KMap Byte := (s.store.surfaces, s.hbm)

/-- One byte of surface memory, and what surfaces there are. -/
def spot (h' off : Nat) (s : State) : KMap (Option Surface) × Byte := (s.store.surfaces, s.byte h' off)

theorem memory_congr {s t : State} (hsurf : t.store.surfaces = s.store.surfaces) (hhbm : t.hbm = s.hbm) : memory t = memory s := by
  rw [memory, memory, hsurf, hhbm]

theorem hbm_of_memory {s t : State} (h : memory t = memory s) : t.hbm = s.hbm := congrArg Prod.snd h

theorem surface_of_memory {s t : State} (h : memory t = memory s) (k : Nat) : t.surface k = s.surface k :=
  congrArg (fun m : KMap (Option Surface) × KMap Byte => kget (fun _ => none) m.1 k) h

theorem spot_of_memory {s t : State} (h : memory t = memory s) (h' off : Nat) : spot h' off t = spot h' off s :=
  congrArg (fun m : KMap (Option Surface) × KMap Byte => (m.1, kget (fun _ => 0#8) m.2 (skeyByte h' off))) h

theorem byte_of_spot {s t : State} {h' off : Nat} (h : spot h' off t = spot h' off s) : t.byte h' off = s.byte h' off := congrArg Prod.snd h

theorem surface_of_spot {s t : State} {h' off : Nat} (h : spot h' off t = spot h' off s) (k : Nat) : t.surface k = s.surface k :=
  congrArg (fun m : KMap (Option Surface) × Byte => kget (fun _ => none) m.1 k) h

-- What reaches no memory.

section
variable (s : State)

@[simp] theorem raiseFull_memory (src detail : Nat) (inj : Bool) (own : Word) : memory (raiseFull s src detail inj own) = memory s := by simp [memory]

@[simp] theorem raise_memory (src : Nat) : memory (raise s src) = memory s := raiseFull_memory s src 0 false 0#32

@[simp] theorem raiseInj_memory (src : Nat) (inj : Bool) : memory (raiseInj s src inj) = memory s := raiseFull_memory s src 0 inj 0#32

@[simp] theorem setFunc_memory (k : Nat) (x : Func) : memory (s.setFunc k x) = memory s := by
  rw [memory, State.setFunc_store, State.setFunc_hbm, memory]

@[simp] theorem wr_memory (o : Nat) (v : Word) : memory (s.wr o v) = memory s := by rw [memory, State.wr_store, State.wr_hbm, memory]

@[simp] theorem bump_memory (o n : Nat) : memory (s.bump o n) = memory s := wr_memory s o _

@[simp] theorem setFlag_memory (o i : Nat) : memory (s.setFlag o i) = memory s := wr_memory s o _

@[simp] theorem setSp_memory (k : Nat) (v : Word) : memory (s.setSp k v) = memory s := by rw [memory, State.setSp_store, State.setSp_hbm, memory]

@[simp] theorem setCol_memory (x : Collector) : memory { s with col := x } = memory s := rfl

@[simp] theorem setFailing_memory (x : List Nat) : memory { s with failing := x } = memory s := rfl

@[simp] theorem fail_memory (code a : Nat) : memory (s.fail code a) = memory s := rfl

@[simp] theorem emit_memory (e : Out) : memory (s.emit e) = memory s := rfl

@[simp] theorem drawn_memory (n : Nat) : memory (s.drawn n) = memory s := rfl

@[simp] theorem bumpFresh_memory : memory s.bumpFresh = memory s := rfl

@[simp] theorem setGroup_memory (g : Nat) (x : Group) : memory (s.setGroup g x) = memory s := rfl

@[simp] theorem setHead_memory (h : Nat) (x : Head) : memory (s.setHead h x) = memory s := rfl

@[simp] theorem setWb_memory (h : Nat) (x : Wb) : memory (s.setWb h x) = memory s := rfl

@[simp] theorem setJob_memory (q : Nat) (j : Job) : memory (s.setJob q j) = memory s := rfl

@[simp] theorem setMetered_memory (u : Nat) (x : Metered) : memory (s.setMetered u x) = memory s := rfl

@[simp] theorem setReqEff_memory (u e : Nat) : memory (setReqEff s u e) = memory s := rfl

@[simp] theorem raiseN_memory (src n : Nat) : memory (raiseN s src n) = memory s := by
  induction n generalizing s with
  | zero => rw [raiseN.eq_def]
  | succ n ih => rw [raiseN.eq_def, ih, raise_memory]

end

theorem foldl_memory {α β : Type} (f : β × State → α → β × State) (hf : ∀ a x, memory (f a x).2 = memory a.2) :
    ∀ (xs : List α) (a : β × State), memory (xs.foldl f a).2 = memory a.2
  | [], _ => rfl
  | x :: xs, a => (foldl_memory f hf xs (f a x)).trans (hf a x)

-- Checks, with the errors and injections they meet.

theorem injectCheck_memory (s : State) (target unit : Nat) : memory (injectCheck s target unit).2 = memory s := by
  unfold injectCheck
  cases s.col.inj with
  | none => rfl
  | some i => dsimp only; split_ifs <;> simp

theorem sramCheck_memory (s : State) (cls unit : Nat) : memory (sramCheck s cls unit).2 = memory s := by
  have h1 := injectCheck_memory s 6 (256 * cls + unit)
  have h2 := injectCheck_memory (injectCheck s 6 (256 * cls + unit)).2 5 (256 * cls + unit)
  unfold sramCheck
  dsimp only
  split_ifs
  · exact h1
  · exact h2.trans h1
  · exact h2.trans h1

theorem sramReads_memory (s : State) (cls unit : Nat) (ws : List (Nat × Nat)) : memory (sramReads s cls unit ws).2 = memory s := by
  unfold sramReads
  refine foldl_memory _ (fun a w => ?_) _ _
  exact sramCheck_memory a.2 cls unit

theorem tableReport_memory (inj : Bool) (s : State) (u : Upset) : memory (tableReport inj s u) = memory s := by
  unfold tableReport
  cases u.ecc <;> simp

theorem tableUpset_memory (s : State) (u : Upset) : memory (tableUpset s u) = memory s := by
  unfold tableUpset
  rw [tableReport_memory]
  split_ifs <;> simp

theorem tableUpsets_memory (s : State) (us : List Upset) (ws : List (Nat × Nat)) : memory (tableUpsets s us ws).2 = memory s :=
  (forEach_keeps memory _ tableUpset_memory us _).trans ((forEach_keeps memory _ (tableReport_memory true) _ _).trans (sramReads_memory s 0 0 ws))

theorem coefReport_memory (phys : Nat) (inj : Bool) (s : State) (u : Upset) : memory (coefReport phys inj s u) = memory s := by
  unfold coefReport
  cases u.ecc <;> simp

theorem coefUpset_memory (phys : Nat) (s : State) (u : Upset) : memory (coefUpset phys s u) = memory s := by
  unfold coefUpset
  dsimp only
  rw [coefReport_memory]
  split_ifs <;> simp

theorem coefUpsets_memory (s : State) (phys : Nat) (us : List Upset) (ws : List Nat) : memory (coefUpsets s phys us ws).2 = memory s :=
  (forEach_keeps memory _ (coefUpset_memory phys) us _).trans ((forEach_keeps memory _ (coefReport_memory phys true) _ _).trans
    (sramReads_memory s 1 phys _))

theorem countClip_memory (s : State) (n : Nat) : memory (countClip s n) = memory s := by
  unfold countClip
  split_ifs <;> simp

theorem countSat_memory (s : State) (n : Nat) : memory (countSat s n) = memory s := by
  unfold countSat
  split_ifs <;> simp

theorem countCheck_memory (s : State) (h i : Nat) (c : LineClass) (inj : Bool) : memory (countCheck s h i c inj) = memory s := by
  cases c <;> simp [countCheck]

/-- The read of a line leaves memory as it is. -/
theorem fetchLine_memory (s : State) (h i : Nat) (flips : List (Nat × Bead)) : memory (fetchLine s h i flips).2.2 = memory s := by
  unfold fetchLine
  split_ifs
  · exact drawn_memory s 1
  · cases (memLine s h i).bind (fun b => carryLine b false false flips) with
    | none => rfl
    | some bytes => exact (countCheck_memory _ _ _ _ _).trans (injectCheck_memory s 3 h)

-- Fences.

theorem raDrop_memory (s : State) (g : Nat) (p : RaLine → Bool) : memory (raDrop s g p) = memory s := by
  have hlevel : ∀ t, memory (raLevel t) = memory t := fun t => memory_congr rfl rfl
  unfold raDrop
  dsimp only
  split_ifs <;> simp [hlevel]

theorem raFenceDown_memory (s : State) (h : Nat) : memory (raFenceDown s h) = memory s :=
  forEach_keeps memory _ (fun _ _ => by
    split_ifs
    · exact raDrop_memory _ _ _
    · rfl) _ s

theorem setFence_memory (s : State) (h : Nat) (sig writing : Bool) (writer : Nat) : memory (setFence s h sig writing writer) = memory s := by
  unfold setFence putFence
  dsimp only
  split_ifs <;> simp [raFenceDown_memory]

theorem signalFence_memory (s : State) (h writer : Nat) : memory (signalFence s h writer) = memory s := by
  unfold signalFence
  split_ifs <;> simp

theorem startFence_memory (s : State) (h writer : Nat) : memory (startFence s h writer) = memory s := setFence_memory s h false true writer

theorem dropFence_memory (s : State) (h writer : Nat) : memory (dropFence s h writer) = memory s := setFence_memory s h false false writer

-- The end of a job.

theorem finishJob_memory (s : State) (q code : Nat) (quiet : Bool) : memory (finishJob s q code quiet) = memory s := by
  unfold finishJob
  dsimp only
  cases (s.queue q).job with
  | none => rfl
  | some j => exact memory_congr rfl rfl

theorem wbFail_memory (s : State) (h : Nat) : memory (wbFail s h) = memory s := by
  unfold wbFail wbSkip
  dsimp only
  cases (s.head h).wb.cur <;> simp [dropFence_memory]

theorem jobRelease_memory (s : State) (q : Nat) : memory (jobRelease s q) = memory s := by
  unfold jobRelease
  cases (s.queue q).job with
  | none => rfl
  | some j =>
    dsimp only
    split_ifs
    · cases (s.group (jobGroup j)).commit with
      | none => simp
      | some c => dsimp only; split_ifs <;> simp
    · cases (s.head (byteAt j.head 16)).wb.capture with
      | none => rfl
      | some c => dsimp only; split_ifs <;> simp [wbFail_memory]
    · cases (s.head (byteAt j.head 16)).wb.capture with
      | none => rfl
      | some c => dsimp only; split_ifs <;> simp
    · cases jobDst j <;> simp [dropFence_memory]
    · cases jobDst j <;> rfl

theorem jobFail_memory (s : State) (q code : Nat) : memory (jobFail s q code) = memory s :=
  (finishJob_memory _ q code false).trans (jobRelease_memory s q)

theorem jobDone_memory (s : State) (q h w code : Nat) : memory (jobDone s q h w code) = memory s :=
  (finishJob_memory _ q code false).trans (signalFence_memory s h w)

theorem copyVoid_memory (s : State) (q : Nat) (j : Job) : memory (copyVoid s q j) = memory s := by
  unfold copyVoid
  split_ifs <;> simp [jobFail_memory]

theorem startLines_memory (s : State) (q typ : Nat) (check : Job → Option Nat) : memory (startLines s q typ check) = memory s := by
  unfold startLines
  cases hbmJob s q typ .act with
  | none => rfl
  | some j =>
    dsimp only
    split_ifs
    · rfl
    · cases check j <;> simp [jobFail_memory]

-- What the write of a line reaches: the line, and nothing else.

/-- The byte is no byte of line `i` of the surface at `h`, if it has that line. -/
def Beyond (s : State) (h i h' off : Nat) : Prop := ∀ x, s.surface h = some x → 4 ≤ x.pitch ∧ (i < x.lines → ¬ inLine h x i h' off)

theorem Beyond.congr {s t : State} {h i h' off : Nat} (hs : Beyond s h i h' off) (hsurf : t.surface h = s.surface h) : Beyond t h i h' off :=
  fun x hx => hs x (hsurf ▸ hx)

theorem kspan_length {α : Type} (d : Nat → α) : ∀ (n k : Nat) (m : KMap α), (kspan d n k m).length = n
  | 0, _, _ => by rw [kspan]; rfl
  | n + 1, k, [] => by rw [kspan, List.length_cons, kspan_length d n]
  | n + 1, k, (k', v) :: m => by rw [kspan]; split_ifs <;> rw [List.length_cons, kspan_length d n]

theorem lineBody_length (s : State) (h : Nat) (x : Surface) (i : Nat) : (lineBody s h x i).length = x.pitch - 4 := by
  rw [lineBody, State.bytes, kgets, kspan_length]

section
variable {s : State} {h i h' off : Nat}

theorem writeBody_spot {x : Surface} {body : List Byte} (poison : Bool) (hlen : body.length + 4 = x.pitch) (hout : ¬ inLine h x i h' off) :
    spot h' off (writeBody s h x i body poison) = spot h' off s := by
  refine Prod.ext rfl ?_
  change (writeBody s h x i body poison).byte h' off = s.byte h' off
  rw [writeBody, State.byte_setBytes, if_neg]
  rw [List.length_append, leBytes_length, hlen]
  exact hout

variable (hout : Beyond s h i h' off)
include hout

theorem poisonLine_spot : spot h' off (poisonLine s h i) = spot h' off s := by
  unfold poisonLine
  cases hx : s.surface h with
  | none => rfl
  | some x =>
    obtain ⟨hpitch, hline⟩ := hout x hx
    dsimp only
    split_ifs with hi
    · exact writeBody_spot true (by rw [lineBody_length]; omega) (hline hi)
    · rfl

theorem writeLine_spot (payload : List Byte) (poison : Bool) : spot h' off (writeLine s h i payload poison) = spot h' off s := by
  unfold writeLine
  cases hx : s.surface h with
  | none => rfl
  | some x =>
    obtain ⟨hpitch, hline⟩ := hout x hx
    dsimp only
    split_ifs with hi
    · exact writeBody_spot poison (by rw [padBody_length]; omega) (hline hi)
    · rfl

theorem writePart_spot (o : Nat) (data : List Byte) (last : Bool) : spot h' off (writePart s h i o data last) = spot h' off s := by
  unfold writePart
  cases hx : s.surface h with
  | none => rfl
  | some x =>
    obtain ⟨hpitch, hline⟩ := hout x hx
    dsimp only
    split_ifs with hi
    · exact writeBody_spot (!last) (by rw [padBody_length]; omega) (hline hi)
    · rfl

/-- A merge stays in its line when its data begin in the payload. -/
theorem mergeLine_spot {o : Nat} (data : List Byte) (hin : ∀ x, s.surface h = some x → x.payload + 4 ≤ x.pitch ∧ o ≤ x.payload) :
    spot h' off (mergeLine s h i o data) = spot h' off s := by
  unfold mergeLine
  cases hx : s.surface h with
  | none => rfl
  | some x =>
    obtain ⟨hpitch, hline⟩ := hout x hx
    obtain ⟨hpayload, ho⟩ := hin x hx
    dsimp only
    split_ifs with hi
    · refine writeBody_spot (s := s) _ ?_ (hline hi)
      simp only [List.length_append, List.length_take, List.length_drop, lineBody_length]
      omega
    · rfl

theorem ingestLine_spot (payload : List Byte) (poison : Bool) : spot h' off (ingestLine s h i payload poison) = spot h' off s := by
  unfold ingestLine
  dsimp only
  split_ifs
  · exact poisonLine_spot (s := s.drawn 1) hout
  · exact writeLine_spot hout payload poison
  · exact writeLine_spot hout _ _

end

end Sys2Proof.Machine

/-!
PROOFS. Surface memory under the commands that write the lines of jobs, of write-backs and of the aperture (03_surfaces_placement.md, Surfaces,
Line tails; 09_outputs_writeback.md, Write-back; 12_work_queues.md, Surface aperture, Entries and chains).
-/
namespace Sys2Proof.Machine
-- One proof at a time, so that the stacks of the evaluations do not add up.
set_option Elab.async false

open Sys2Proof.Claims

-- A command and what it leaves of memory.

section
variable {c : Instr} {s t : State} {ps : List Part} {f : State → State}

theorem next_eq (hs : Runs s) (hx : ∀ s, exec c s = runOn ps s f) (ht : exec c s = .next t) : t = hold s (keeping ps s (f s)) := by
  obtain ⟨hp, hd⟩ := hs
  rw [hx, runOn_on hp hd] at ht
  exact (Host.Outcome.next.inj ht).symm

theorem byte_of_exec {h' off : Nat} (hs : Runs s) (hx : ∀ s, exec c s = runOn ps s f) (ht : exec c s = .next t)
    (hf : spot h' off (f s) = spot h' off s) : t.byte h' off = s.byte h' off := by
  rw [next_eq hs hx ht, State.hold_byte, State.keeping_byte]
  split
  · exact byte_of_spot hf
  · rfl

theorem hbm_of_exec (hs : Runs s) (hx : ∀ s, exec c s = runOn ps s f) (ht : exec c s = .next t) (hf : memory (f s) = memory s) : t.hbm = s.hbm := by
  rw [next_eq hs hx ht, State.hold_hbm, State.keeping_hbm]
  split
  · exact hbm_of_memory hf
  · rfl

end

-- OFFLINE_COMPOSE reads memory and writes it through its destination alone.

theorem offlineUnits_memory {s u : State} {q : Nat} {j : Job} {n : List Nat} (h : offlineUnits s q j = some (n, u)) : memory u = memory s := by
  unfold offlineUnits at h
  dsimp only at h
  split_ifs at h
  · rw [← (Prod.mk.inj (Option.some.inj h)).2]
  · rw [← (Prod.mk.inj (Option.some.inj h)).2, forEach_keeps memory _ (fun _ _ => by split_ifs <;> simp)]
    simp

theorem offlineVoid_memory (s : State) : memory (offlineVoid s) = memory s := by simp [offlineVoid]

theorem offlineFetch_memory (s : State) (j : Job) (d : Desc) (x : Surface) (want : List Nat) : memory (offlineFetch s j d x want).2 = memory s := by
  unfold offlineFetch
  refine foldl_memory _ (fun a e => ?_) _ _
  exact fetchLine_memory a.2 _ _ _

theorem offlineScale_memory (us : List Upset) (s : State) (j : Job) (d : Desc) (x0 x1 ln : Nat) (first : Bool) :
    memory (offlineScale us s j d x0 x1 ln first).2.2 = memory s := by
  unfold offlineScale
  cases s.surface d.handle with
  | none => exact offlineVoid_memory s
  | some x =>
    extract_lets void j0
    dsimp only
    split
    · exact (offlineVoid_memory _).trans ((coefUpsets_memory _ _ _ _).trans (offlineFetch_memory _ _ _ _ _))
    · exact (countClip_memory _ _).trans ((coefUpsets_memory _ _ _ _).trans (offlineFetch_memory _ _ _ _ _))

/-- What a job has of its entries and its kind stays while a layer goes over a line. -/
theorem offlineScale_job (us : List Upset) (s : State) (j : Job) (d : Desc) (x0 x1 ln : Nat) (first : Bool) :
    (offlineScale us s j d x0 x1 ln first).2.1.entries = j.entries ∧ (offlineScale us s j d x0 x1 ln first).2.1.typ = j.typ := by
  unfold offlineScale
  cases s.surface d.handle with
  | none => exact ⟨rfl, rfl⟩
  | some x =>
    extract_lets void j0
    have hj0 : j0.entries = j.entries ∧ j0.typ = j.typ := by
      subst j0
      split_ifs <;> exact ⟨rfl, rfl⟩
    clear_value j0
    dsimp only
    split <;> exact hj0

section
variable (v : DeckView) (us : List Upset) (s : State) (j : Job) (d : Desc) (w ht : Nat)

theorem offlineLayer_memory : memory (offlineLayer v us s j d w ht).2.2 = memory s := by
  unfold offlineLayer
  rcases clipBox d w ht with _ | ⟨x0, x1, y0, y1⟩
  · rfl
  · dsimp only
    by_cases hout : j.pos < y0 ∨ y1 ≤ j.pos
    · rw [if_pos hout]
    · rw [if_neg hout]
      by_cases hkind : d.kind = 1
      · simp only [if_pos hkind, tableUpsets_memory]
      · simp only [if_neg hkind, drawn_memory, offlineScale_memory, tableUpsets_memory]

theorem offlineLayer_job : (offlineLayer v us s j d w ht).2.1.entries = j.entries ∧ (offlineLayer v us s j d w ht).2.1.typ = j.typ := by
  unfold offlineLayer
  rcases clipBox d w ht with _ | ⟨x0, x1, y0, y1⟩
  · exact ⟨rfl, rfl⟩
  · dsimp only
    by_cases hout : j.pos < y0 ∨ y1 ≤ j.pos
    · rw [if_pos hout]
      exact ⟨rfl, rfl⟩
    · rw [if_neg hout]
      by_cases hkind : d.kind = 1
      · simp only [if_pos hkind, and_self]
      · simp only [if_neg hkind, offlineScale_job, and_self]

theorem offlineLine_memory : memory (offlineLine us s j d w ht).2.2 = memory s := (countSat_memory _ _).trans (offlineLayer_memory _ us s j d w ht)

theorem offlineLine_job : (offlineLine us s j d w ht).2.1.entries = j.entries ∧ (offlineLine us s j d w ht).2.1.typ = j.typ :=
  offlineLayer_job (offlineView s j) us s j d w ht

end

theorem offlineStarts_job (s : State) (us : List Upset) (j : Job) : (offlineStarts s us j).entries = j.entries ∧ (offlineStarts s us j).typ = j.typ := by
  unfold offlineStarts
  dsimp only
  split_ifs <;> exact ⟨rfl, rfl⟩

theorem copyFaults_memory (s : State) : memory (copyFaults s) = memory s := memory_congr rfl rfl

-- Jobs that write lines: each keeps to the lines of its destination.

theorem jobWrite_spot {s : State} {h i h' off : Nat} (hout : Beyond s h i h' off) (q : Nat) (j : Job) (w : Nat) (payload : List Byte) (poison : Bool) :
    spot h' off (jobWrite s q j h w i payload poison) = spot h' off s := by
  have hfence : memory (if j.wrote then s else startFence s h w) = memory s := by
    split_ifs
    · rfl
    · exact startFence_memory s h w
  unfold jobWrite
  dsimp only
  generalize (if j.wrote then s else startFence s h w) = u at hfence
  exact ((spot_of_memory (setJob_memory _ _ _) h' off).trans (ingestLine_spot (hout.congr (surface_of_memory hfence h)) payload poison)).trans
    (spot_of_memory hfence h' off)

/-- The byte is in no line of the surface that the job of queue `q` writes. -/
def Clear (s : State) (q h' off : Nat) : Prop := ∀ j h w, (s.queue q).job = some j → jobDst j = some (h, w) → ∀ i, Beyond s h i h' off

theorem jobDst_congr {j k : Job} (hentries : k.entries = j.entries) (htyp : k.typ = j.typ) : jobDst k = jobDst j := by
  unfold jobDst Job.head
  rw [hentries, htyp]

/-- What a job leaves after one more line: memory is as before at the byte, and the job goes on as the same job or `r` is the end. -/
def Advances (next : State → State) (q h' off : Nat) (j : Job) (s r : State) : Prop :=
  ∃ u, spot h' off u = spot h' off s ∧
    (r = u ∨ (r = next u ∧ ∃ k : Job, (u.queue q).job = some k ∧ k.entries = j.entries ∧ k.typ = j.typ))

theorem Clear.advance {s u : State} {q h' off : Nat} {j k : Job} (hclear : Clear s q h' off) (hj : (s.queue q).job = some j)
    (hspot : spot h' off u = spot h' off s) (hk : (u.queue q).job = some k) (hentries : k.entries = j.entries) (htyp : k.typ = j.typ) :
    Clear u q h' off := by
  intro k' h w hk' hdst i
  obtain rfl : k = k' := Option.some.inj (hk.symm.trans hk')
  exact (hclear j h w hj (jobDst_congr hentries htyp ▸ hdst) i).congr (surface_of_spot hspot h)

theorem Clear.of_no_job {s : State} {q h' off : Nat} (hnone : (s.queue q).job = none) : Clear s q h' off := by
  intro j h w hj
  rw [hnone] at hj
  cases hj

theorem finishJob_no_job (s : State) (q code : Nat) (quiet : Bool) : ((finishJob s q code quiet).queue q).job = none := by
  cases hjob : (s.queue q).job with
  | none =>
    unfold finishJob
    simp only [hjob]
  | some j => exact (finish_queue s q code quiet j hjob).1

/-- A job that starts, or ends at its checks, writes what it did. -/
theorem Clear.startLines {s : State} {q typ h' off : Nat} {check : Job → Option Nat} (hclear : Clear s q h' off) :
    Clear (startLines s q typ check) q h' off := by
  unfold Machine.startLines hbmJob
  cases htr : s.store.trained with
  | false => exact hclear
  | true =>
    cases hact : s.jobIn q typ .act with
    | none => exact hclear
    | some j =>
      obtain ⟨hjob, -, -⟩ := jobIn_eq_some.mp hact
      simp only [if_true]
      split_ifs
      · exact hclear
      · cases check j with
        | some c => exact .of_no_job (finishJob_no_job _ q c false)
        | none => exact hclear.advance hjob (spot_of_memory (setJob_memory _ _ _) h' off) (congrArg Queue.job (State.queue_setQueue_self _ _ _)) rfl rfl

section
variable {s : State} {q h' off : Nat} {j : Job}

theorem setJob_job (k : Job) : ((s.setJob q k).queue q).job = some k := congrArg Queue.job (State.queue_setQueue_self _ _ _)

theorem jobDst_upload (htyp : j.typ = Typ.SURFACE_UPLOAD) : jobDst j = some (le j.head 16 2, writerUpload) := by
  unfold jobDst
  rw [htyp]
  rfl

theorem jobDst_copy (htyp : j.typ = Typ.SURFACE_COPY) : jobDst j = some (le j.head 18 2, writerCopy) := by
  unfold jobDst
  rw [htyp]
  rfl

theorem jobDst_fill (htyp : j.typ = Typ.FILL) : jobDst j = some (le j.head 16 2, writerCopy) := by
  unfold jobDst
  rw [htyp]
  rfl

theorem jobDst_offline (htyp : j.typ = Typ.OFFLINE_COMPOSE) : jobDst j = some (le j.head 16 2, writerCopy) := by
  unfold jobDst
  rw [htyp]
  rfl

theorem queueHostRead_memory {u : State} {a n : Nat} (h : queueHostRead s q a n = some u) : memory u = memory s := by
  unfold queueHostRead at h
  cases hown : queueOwner s q with
  | none => simp [hown] at h
  | some k =>
    simp only [hown] at h
    split_ifs at h
    rw [← Option.some.inj h]
    exact emit_memory s _

theorem uploadLines_advances (hj : s.jobIn q Typ.SURFACE_UPLOAD .running = some j)
    (hout : Beyond s (le j.head 16 2) (le ((uploadSegments j).getD j.seg []) 0 2 + j.pos) h' off) (r : HostRead) (rest : List HostRead) :
    Advances (uploadLines q rest) q h' off j s (uploadLines q (r :: rest) s) := by
  cases hread : uploadRead s q j with
  | none =>
    rw [uploadLines_unread hj hread]
    exact ⟨_, spot_of_memory (jobFail_memory s q Code.NO_BUS) h' off, .inl rfl⟩
  | some read =>
    have hmem := queueHostRead_memory hread
    cases r with
    | error =>
      rw [uploadLines_error hj hread]
      exact ⟨_, spot_of_memory ((jobFail_memory read q Code.HOST_READ_ERR).trans hmem) h' off, .inl rfl⟩
    | ok data =>
      have hput := fun w => (jobWrite_spot (hout.congr (surface_of_memory hmem _)) q j w data false).trans (spot_of_memory hmem h' off)
      rw [uploadLines_ok hj hread]
      dsimp only
      split_ifs
      · exact ⟨_, (spot_of_memory (jobDone_memory _ q _ _ _) h' off).trans (hput _), .inl rfl⟩
      all_goals exact ⟨_, (spot_of_memory (setJob_memory _ q _) h' off).trans (hput _), .inr ⟨rfl, _, setJob_job _, rfl, rfl⟩⟩

theorem copyLines_advances (hj : s.jobIn q Typ.SURFACE_COPY .running = some j) (hout : Beyond s (le j.head 18 2) (le j.head 22 2 + j.pos) h' off)
    (n : Nat) : Advances (copyLines q n) q h' off j s (copyLines q (n + 1) s) := by
  have hmem := fetchLine_memory s (le j.head 16 2) (le j.head 20 2 + j.pos) []
  have hput := fun w p b => (jobWrite_spot (hout.congr (surface_of_memory hmem _)) q j w p b).trans (spot_of_memory hmem h' off)
  rw [copyLines_running hj]
  dsimp only
  split_ifs
  · exact ⟨_, spot_of_memory ((copyVoid_memory _ q j).trans hmem) h' off, .inl rfl⟩
  · exact ⟨_, (spot_of_memory (jobDone_memory _ q _ _ _) h' off).trans (hput _ _ _), .inl rfl⟩
  · exact ⟨_, (spot_of_memory (setJob_memory _ q _) h' off).trans (hput _ _ _), .inr ⟨rfl, _, setJob_job _, rfl, rfl⟩⟩

theorem fillLines_advances (hj : s.jobIn q Typ.FILL .running = some j) (hout : Beyond s (le j.head 16 2) (le j.head 18 2 + j.pos) h' off)
    (n : Nat) : Advances (fillLines q n) q h' off j s (fillLines q (n + 1) s) := by
  cases hx : s.surface (le j.head 16 2) with
  | none =>
    rw [fillLines]
    simp only [hj, hx]
    exact ⟨_, spot_of_memory (jobFail_memory s q _) h' off, .inl rfl⟩
  | some x =>
    have hput := fun w p b => jobWrite_spot hout q j w p b
    rw [fillLines_running hj hx]
    dsimp only
    split_ifs
    · exact ⟨_, (spot_of_memory (jobDone_memory _ q _ _ _) h' off).trans (hput _ _ _), .inl rfl⟩
    · exact ⟨_, (spot_of_memory (setJob_memory _ q _) h' off).trans (hput _ _ _), .inr ⟨rfl, _, setJob_job _, rfl, rfl⟩⟩

theorem releaseUnits_memory (s : State) (q : Nat) : memory (releaseUnits s q) = memory s := by
  unfold releaseUnits
  cases (s.queue q).job with
  | none => rfl
  | some j => exact (forEach_keeps memory _ (fun _ _ => by split_ifs <;> simp) _ _).trans (setJob_memory _ _ _)

theorem releaseUnits_job (hj : (s.queue q).job = some j) :
    ∃ k : Job, ((releaseUnits s q).queue q).job = some k ∧ k.entries = j.entries ∧ k.typ = j.typ := by
  refine ⟨{ j with units := [] }, ?_, rfl, rfl⟩
  unfold releaseUnits
  simp only [hj]
  rw [forEach_keeps (fun t => (t.queue q).job) _ (fun _ _ => by split_ifs <;> rfl)]
  exact setJob_job _

theorem offlineNext_memory (px : List (BitVec 64)) (ht : Nat) : memory (offlineNext s q j px ht) = memory s := by
  unfold offlineNext
  dsimp only
  split_ifs <;> simp [releaseUnits_memory]

theorem offlineNext_job (px : List (BitVec 64)) (ht : Nat) :
    ∃ k : Job, ((offlineNext s q j px ht).queue q).job = some k ∧ k.entries = j.entries ∧ k.typ = j.typ := by
  unfold offlineNext
  extract_lets j1 s1
  split_ifs
  · exact ⟨_, setJob_job _, rfl, rfl⟩
  · exact releaseUnits_job (j := { j1 with pos := 0, seg := j.seg + 1, held := [], hdone := [] }) (setJob_job _)
  · exact ⟨_, setJob_job _, rfl, rfl⟩

theorem offlineLines_advances (us : List Upset) (hj : s.jobIn q Typ.OFFLINE_COMPOSE .running = some j)
    (hout : Beyond s (le j.head 16 2) j.pos h' off) (n : Nat) : Advances (offlineLines q [] n) q h' off j s (offlineLines q us (n + 1) s) := by
  cases hx : s.surface (le j.head 16 2) with
  | none =>
    rw [offlineLines]
    simp only [hj, hx]
    exact ⟨_, spot_of_memory (jobFail_memory s q _) h' off, .inl rfl⟩
  | some x =>
    cases hd : (offlineDescs j)[j.seg]? with
    | none =>
      rw [offlineLines]
      simp only [hj, hx, hd]
      exact ⟨_, spot_of_memory (jobFail_memory s q _) h' off, .inl rfl⟩
    | some d =>
      by_cases hhot : j.pos = 0 ∧ 2 ≤ s.health.level
      · rw [offlineLines_hot hj hx hd hhot]
        exact ⟨s, rfl, .inl rfl⟩
      · cases hunits : offlineUnits s q j with
        | none =>
          rw [offlineLines]
          simp only [hj, hx, hd, hunits, if_neg hhot]
          exact ⟨s, rfl, .inl rfl⟩
        | some got =>
          obtain ⟨units, u⟩ := got
          have hmem : memory (offlineLine us u { offlineStarts u us j with units := units } d x.width x.height).2.2 = memory s :=
            (offlineLine_memory us u _ d x.width x.height).trans (offlineUnits_memory hunits)
          obtain ⟨hstart, hstartTyp⟩ := offlineStarts_job u us j
          obtain ⟨hentries, htyp⟩ := offlineLine_job us u { offlineStarts u us j with units := units } d x.width x.height
          replace hentries := hentries.trans hstart
          replace htyp := htyp.trans hstartTyp
          rw [offlineLines_running hj hx hd hhot hunits]
          generalize offlineLine us u { offlineStarts u us j with units := units } d x.width x.height = r at hmem hentries htyp
          have hput := fun w p b => (jobWrite_spot (hout.congr (surface_of_memory hmem _)) q r.2.1 w p b).trans (spot_of_memory hmem h' off)
          dsimp only
          split_ifs
          · obtain ⟨k, hk, hkentries, hktyp⟩ := offlineNext_job (s := r.2.2) (q := q) (j := r.2.1) r.1 x.height
            exact ⟨_, spot_of_memory ((offlineNext_memory r.1 x.height).trans hmem) h' off,
              .inr ⟨rfl, k, hk, hkentries.trans hentries, hktyp.trans htyp⟩⟩
          · exact ⟨_, (spot_of_memory (jobDone_memory _ q _ _ _) h' off).trans (hput _ _ _), .inl rfl⟩
          · exact ⟨_, (spot_of_memory (jobDone_memory _ q _ _ _) h' off).trans (hput _ _ _), .inl rfl⟩
          · exact ⟨_, (spot_of_memory (setJob_memory _ q _) h' off).trans (hput _ _ _), .inr ⟨rfl, _, setJob_job _, hentries, htyp⟩⟩

end

-- The lines of a job, one after another.

section
variable {s : State} {q h' off : Nat}

/-- A list of lines, each of which advances the job, changes no byte outside the job's destination. -/
theorem loop_spot {next : State → State} {r : State} {j : Job} (hclear : Clear s q h' off) (hj : (s.queue q).job = some j)
    (hadv : Advances next q h' off j s r) (hnext : ∀ u, Clear u q h' off → spot h' off (next u) = spot h' off u) : spot h' off r = spot h' off s := by
  obtain ⟨u, hspot, rfl | ⟨rfl, k, hk, hentries, htyp⟩⟩ := hadv
  · exact hspot
  · exact (hnext u (hclear.advance hj hspot hk hentries htyp)).trans hspot

/-- The last line a command moves. -/
theorem last_spot {next : State → State} {r : State} {j : Job} (hadv : Advances next q h' off j s r) (hnext : ∀ u, next u = u) :
    spot h' off r = spot h' off s := by
  obtain ⟨u, hspot, rfl | ⟨rfl, -⟩⟩ := hadv
  · exact hspot
  · rw [hnext, hspot]

theorem uploadLines_idle (hj : s.jobIn q Typ.SURFACE_UPLOAD .running = none) (lines : List HostRead) : uploadLines q lines s = s := by
  cases lines with
  | nil => rfl
  | cons r rest =>
    rw [uploadLines]
    simp only [hj]

theorem copyLines_idle (hj : s.jobIn q Typ.SURFACE_COPY .running = none) (n : Nat) : copyLines q n s = s := by
  cases n with
  | zero => rfl
  | succ n =>
    rw [copyLines]
    simp only [hj]

theorem fillLines_idle (hj : s.jobIn q Typ.FILL .running = none) (n : Nat) : fillLines q n s = s := by
  cases n with
  | zero => rfl
  | succ n =>
    rw [fillLines]
    simp only [hj]

theorem offlineLines_idle (hj : s.jobIn q Typ.OFFLINE_COMPOSE .running = none) (us : List Upset) (n : Nat) : offlineLines q us n s = s := by
  cases n with
  | zero => rfl
  | succ n =>
    rw [offlineLines]
    simp only [hj]

theorem uploadLines_spot (lines : List HostRead) (s : State) (hclear : Clear s q h' off) : spot h' off (uploadLines q lines s) = spot h' off s := by
  induction lines generalizing s with
  | nil => rfl
  | cons r rest ih =>
    cases hj : s.jobIn q Typ.SURFACE_UPLOAD .running with
    | none => rw [uploadLines_idle hj]
    | some j =>
      obtain ⟨hjob, htyp, -⟩ := jobIn_eq_some.mp hj
      exact loop_spot hclear hjob (uploadLines_advances hj (hclear j _ _ hjob (jobDst_upload htyp) _) r rest) ih

theorem copyLines_spot (n : Nat) (s : State) (hclear : Clear s q h' off) : spot h' off (copyLines q n s) = spot h' off s := by
  induction n generalizing s with
  | zero => rfl
  | succ n ih =>
    cases hj : s.jobIn q Typ.SURFACE_COPY .running with
    | none => rw [copyLines_idle hj]
    | some j =>
      obtain ⟨hjob, htyp, -⟩ := jobIn_eq_some.mp hj
      exact loop_spot hclear hjob (copyLines_advances hj (hclear j _ _ hjob (jobDst_copy htyp) _) n) ih

theorem fillLines_spot (n : Nat) (s : State) (hclear : Clear s q h' off) : spot h' off (fillLines q n s) = spot h' off s := by
  induction n generalizing s with
  | zero => rfl
  | succ n ih =>
    cases hj : s.jobIn q Typ.FILL .running with
    | none => rw [fillLines_idle hj]
    | some j =>
      obtain ⟨hjob, htyp, -⟩ := jobIn_eq_some.mp hj
      exact loop_spot hclear hjob (fillLines_advances hj (hclear j _ _ hjob (jobDst_fill htyp) _) n) ih

theorem offlineLines_spot (us : List Upset) (n : Nat) (s : State) (hclear : Clear s q h' off) :
    spot h' off (offlineLines q us n s) = spot h' off s := by
  induction n generalizing s us with
  | zero => rfl
  | succ n ih =>
    cases hj : s.jobIn q Typ.OFFLINE_COMPOSE .running with
    | none => rw [offlineLines_idle hj]
    | some j =>
      obtain ⟨hjob, htyp, -⟩ := jobIn_eq_some.mp hj
      exact loop_spot hclear hjob (offlineLines_advances us hj (hclear j _ _ hjob (jobDst_offline htyp) _) n) (ih [])

end

/-- A queue with no job that writes lines has none of the four in any phase. -/
theorem jobIn_none_of_no_dst {s : State} {q typ : Nat} (hnone : ∀ j, (s.queue q).job = some j → jobDst j = none) (p : JobPhase)
    (htyp : typ = Typ.SURFACE_UPLOAD ∨ typ = Typ.SURFACE_COPY ∨ typ = Typ.FILL ∨ typ = Typ.OFFLINE_COMPOSE) : s.jobIn q typ p = none := by
  cases hj : s.jobIn q typ p with
  | none => rfl
  | some j =>
    obtain ⟨hjob, rfl, -⟩ := jobIn_eq_some.mp hj
    have hdst := hnone j hjob
    rcases htyp with h | h | h | h
    · rw [jobDst_upload h] at hdst
      cases hdst
    · rw [jobDst_copy h] at hdst
      cases hdst
    · rw [jobDst_fill h] at hdst
      cases hdst
    · rw [jobDst_offline h] at hdst
      cases hdst

-- Write-back.

theorem wbVoid_memory (s : State) (h y : Nat) : memory (wbVoid s h y) = memory s := by
  unfold wbVoid
  dsimp only
  split_ifs <;> simp

theorem wbDrop_memory (s : State) (h f y : Nat) : memory (wbDrop s h f y) = memory s := by
  unfold wbDrop
  dsimp only
  split_ifs <;> simp

theorem wbPart_spot {s : State} {c y h' off : Nat} (hout : Beyond s c y h' off) (h f x0 : Nat) (px : List (Option (BitVec 64))) (last whole : Bool) :
    spot h' off (wbPart s h c f y x0 px last whole) = spot h' off s := by
  have hpart := writePart_spot hout (8 * x0) (wbPayload (wbView s h f) h px) (last && whole)
  unfold wbPart
  extract_lets s1 w s2
  have hs2 : memory s2 = memory s1 := by
    subst s2
    split_ifs <;> simp
  split_ifs
  · exact (spot_of_memory ((wbVoid_memory s2 h y).trans hs2) h' off).trans hpart
  · exact (spot_of_memory hs2 h' off).trans hpart

/-- Beads of a write-back reach the line of the store's first bead, in the buffer of the frame in progress. -/
theorem wbArrival_spot {s : State} {h h' off : Nat} (hout : ∀ l rest c, (s.head h).wbq = l :: rest → (s.head h).wb.cur = some c → Beyond s c l.line.y h' off)
    (n : Nat) (full : Bool) : spot h' off (wbArrival s h n full) = spot h' off s := by
  unfold wbArrival
  dsimp only
  cases hq : (s.head h).wbq with
  | nil => rfl
  | cons l rest =>
    have hset := fun x => spot_of_memory (setHead_memory s h x) h' off
    cases hcur : (s.head h).wb.cur with
    | none =>
      dsimp only
      split_ifs
      · exact (spot_of_memory (wbDrop_memory _ h _ _) h' off).trans (hset _)
      · rfl
      · exact hset _
    | some c =>
      dsimp only
      split_ifs
      · exact (spot_of_memory (wbDrop_memory _ h _ _) h' off).trans (hset _)
      · rfl
      · exact hset _
      · exact (wbPart_spot (s := s.setHead h _) (hout l rest c hq hcur) _ _ _ _ _ _).trans (hset _)

theorem wbArrival_memory {s : State} {h : Nat} {full : Bool} (hnone : (s.head h).wbq = [] ∨ (s.head h).wb.cur = none ∨ full = true) (n : Nat) :
    memory (wbArrival s h n full) = memory s := by
  unfold wbArrival
  dsimp only
  cases hq : (s.head h).wbq with
  | nil => rfl
  | cons l rest =>
    by_cases hfull : full = true
    · simp only [if_pos hfull]
      exact (wbDrop_memory _ h _ _).trans (setHead_memory s h _)
    · have hcur : (s.head h).wb.cur = none := by
        obtain hempty | hcur | htrue := hnone
        · rw [hq] at hempty
          cases hempty
        · exact hcur
        · exact absurd htrue hfull
      simp only [hcur, if_neg hfull]
      split_ifs
      · rfl
      · exact setHead_memory s h _

-- The aperture.

theorem logUnsupported_memory (s : State) (k : Nat) : memory (logUnsupported s k) = memory s := by simp [logUnsupported]

theorem apSite_surface {s : State} {k off h b : Nat} {x : Surface} (hsite : apSite s k off = some (h, x, b)) : s.surface h = some x := by
  unfold apSite at hsite
  dsimp only at hsite
  split_ifs at hsite
  cases hx : s.surface (bits (s.cfg (R.HWQ_Fk_AWww_CTRL k (off / 0x4000000))) 15 0) with
  | none =>
    rw [hx] at hsite
    cases hsite
  | some y =>
    rw [hx] at hsite
    cases hsite
    exact hx

theorem apWrite_memory {s : State} {k off : Nat} (hnone : apSite s k off = none ∨ (s.func k).cfg.memory = false) (data : List Byte) :
    memory (apWrite s k off data) = memory s := by
  unfold apWrite
  split_ifs with hmem
  · obtain hsite | hclosed := hnone
    · rw [hsite]
      exact bump_memory s _ 1
    · rw [hclosed] at hmem
      cases hmem
  · exact logUnsupported_memory s k

theorem forEach_induct_mem {α : Type} {P : State → Prop} {f : State → α → State} : ∀ {xs : List α} {s : State}, P s →
    (∀ a ∈ xs, ∀ u, P u → P (f u a)) → P (forEach xs s f)
  | [], _, hs, _ => hs
  | a :: xs, s, hs, hf => forEach_induct_mem (xs := xs) (s := f s a) (hf a (by simp) s hs) (fun b hb => hf b (by simp [hb]))

theorem apWrite_spot {s : State} {k off h b h' o : Nat} {x : Surface} {data : List Byte} (hsite : apSite s k off = some (h, x, b)) (hx : s.surface h = some x)
    (hpitch : x.payload + 4 ≤ x.pitch) (hout : ∀ i ∈ apLines x b data.length, ¬ inLine h x i h' o) :
    spot h' o (apWrite s k off data) = spot h' o s := by
  have hbeyond : ∀ u, spot h' o u = spot h' o s → ∀ i ∈ apLines x b data.length, Beyond u h i h' o := by
    intro u hu i hi y hy
    obtain rfl : y = x := Option.some.inj (hy.symm.trans ((surface_of_spot hu h).trans hx))
    exact ⟨by omega, fun _ => hout i hi⟩
  unfold apWrite
  split_ifs
  · simp only [hsite]
    split_ifs
    · exact spot_of_memory (bump_memory s _ 1) h' o
    · refine forEach_induct_mem (P := fun u => spot h' o u = spot h' o s) rfl (fun i hi u hu => ?_)
      have hline := hbeyond u hu i hi
      split_ifs with hnone
      · exact hu
      · exact (poisonLine_spot (s := u.drawn (i + 1)) hline).trans hu
      · refine (mergeLine_spot hline _ (fun y hy => ?_)).trans hu
        obtain rfl : y = x := Option.some.inj (hy.symm.trans ((surface_of_spot hu h).trans hx))
        refine ⟨hpitch, ?_⟩
        omega
  · exact spot_of_memory (logUnsupported_memory s k) h' o

end Sys2Proof.Machine

namespace Sys2Proof.Proofs
-- One proof at a time, so that the stacks of the evaluations do not add up.
set_option Elab.async false

open Sys2Proof.Machine Sys2Proof.Claims

/-- Settles O35: every line a command writes goes through the write of one line, which changes the bytes of that line alone, and everything
else such a command does leaves surface memory as it is. -/
theorem frameOfLineCommands : Obligations.FrameOfLineCommands := by
  have hone : ∀ {s : State} {h i h' off : Nat} {x : Surface}, s.surface h = some x → 4 ≤ x.pitch → (∀ k ∈ [i], ¬ inLine h x k h' off) →
      Beyond s h i h' off := by
    intro s h i h' off x hx hpitch hout y hy
    obtain rfl : x = y := Option.some.inj (hx.symm.trans hy)
    exact ⟨hpitch, fun _ => hout i (by simp)⟩
  refine ⟨fun q data j x s t hs hj hx hpitch ht h' off hout => byte_of_exec hs (fun _ => rfl) ht ?upload,
    fun q j x s t hs hj hx hpitch ht h' off hout => byte_of_exec hs (fun _ => rfl) ht ?copy,
    fun q j x s t hs hj hx hpitch ht h' off hout => byte_of_exec hs (fun _ => rfl) ht ?fill,
    fun q us j x s t hs hj hx hpitch ht h' off hout => byte_of_exec hs (fun _ => rfl) ht ?offline,
    fun q n us lines j h x s t hs hj hdst hx hpitch ht h' off hout => ?many,
    fun q n us lines s t hs hnone ht => ?idle,
    fun h n full l rest c x s t hs hq hcur hx hpitch ht h' off hout => byte_of_exec hs (fun _ => rfl) ht ?beads,
    fun h n full s t hs hnone ht => hbm_of_exec hs (fun _ => rfl) ht (wbArrival_memory hnone n),
    fun k off data h b x s t hs hsite hpitch ht h' o hout => byte_of_exec hs (fun _ => rfl) ht ?aperture,
    fun k off data s t hs hnone ht => hbm_of_exec hs (fun _ => rfl) ht (apWrite_memory hnone data)⟩
  case upload =>
    rw [startLines_running hj]
    exact last_spot (uploadLines_advances hj (hone hx hpitch hout) (.ok data) []) (fun _ => rfl)
  case copy =>
    rw [startLines_running hj]
    exact last_spot (copyLines_advances hj (hone hx hpitch hout) 0) (fun _ => rfl)
  case fill =>
    rw [startLines_running hj]
    exact last_spot (fillLines_advances hj (hone hx hpitch hout) 0) (fun _ => rfl)
  case offline =>
    rw [startLines_running hj, spot_of_memory (copyFaults_memory _)]
    exact last_spot (offlineLines_advances us hj (hone hx hpitch hout) 0) (fun _ => rfl)
  case many =>
    have hclear : Clear s q h' off := by
      intro k g w hk hg i y hy
      obtain rfl : j = k := Option.some.inj (hj.symm.trans hk)
      obtain rfl : g = h := by simpa [hg] using hdst
      obtain rfl : x = y := Option.some.inj (hx.symm.trans hy)
      exact ⟨hpitch, fun hi => hout i (List.mem_range.mpr hi)⟩
    have hstart : ∀ typ check, spot h' off (startLines s q typ check) = spot h' off s := fun typ check =>
      spot_of_memory (startLines_memory s q typ check) h' off
    rcases ht with ht | ht | ht | ht
    · exact byte_of_exec hs (fun _ => rfl) ht ((uploadLines_spot lines _ hclear.startLines).trans (hstart _ _))
    · exact byte_of_exec hs (fun _ => rfl) ht ((copyLines_spot n _ hclear.startLines).trans (hstart _ _))
    · exact byte_of_exec hs (fun _ => rfl) ht ((fillLines_spot n _ hclear.startLines).trans (hstart _ _))
    · refine byte_of_exec hs (fun _ => rfl) ht ?_
      exact ((spot_of_memory (copyFaults_memory _) h' off).trans ((offlineLines_spot us n _ hclear.startLines).trans (hstart _ _)))
  case idle =>
    have hidle : ∀ typ p, _ → s.jobIn q typ p = none := fun typ p => jobIn_none_of_no_dst hnone p
    rcases ht with ht | ht | ht | ht
    · refine hbm_of_exec hs (fun _ => rfl) ht ?_
      rw [startLines_no_act (hidle _ _ (.inl rfl)), uploadLines_idle (hidle _ _ (.inl rfl))]
    · refine hbm_of_exec hs (fun _ => rfl) ht ?_
      rw [startLines_no_act (hidle _ _ (.inr (.inl rfl))), copyLines_idle (hidle _ _ (.inr (.inl rfl)))]
    · refine hbm_of_exec hs (fun _ => rfl) ht ?_
      rw [startLines_no_act (hidle _ _ (.inr (.inr (.inl rfl)))), fillLines_idle (hidle _ _ (.inr (.inr (.inl rfl))))]
    · refine hbm_of_exec hs (fun _ => rfl) ht ?_
      rw [startLines_no_act (hidle _ _ (.inr (.inr (.inr rfl)))), offlineLines_idle (hidle _ _ (.inr (.inr (.inr rfl)))), copyFaults_memory]
  case beads =>
    refine wbArrival_spot (fun m ms d hm hd => ?_) n full
    obtain ⟨rfl, rfl⟩ := List.cons.inj (hq.symm.trans hm)
    obtain rfl : c = d := Option.some.inj (hcur.symm.trans hd)
    exact hone hx hpitch hout
  case aperture => exact apWrite_spot hsite (apSite_surface hsite) hpitch hout

end Sys2Proof.Proofs

/-!
PROOFS. Surface memory under a bead that an ingest rod brings (01_architecture.md, VOID beads; 15_health_spares_power.md, Carries): the bead's own
line, and the lines that receive streams assemble when the bead shows a fault of the rod.
-/
namespace Sys2Proof.Machine
-- One proof at a time, so that the stacks of the evaluations do not add up.
set_option Elab.async false

open Sys2Proof.Claims

section
variable (s : State)

@[simp] theorem setScaler_memory (l : Nat) (x : Scaler) : memory (s.setScaler l x) = memory s := rfl

@[simp] theorem setTile_memory (t : Nat) (x : Tile) : memory (s.setTile t x) = memory s := rfl

@[simp] theorem setRod_memory (r : Nat) (x : Rod) : memory (s.setRod r x) = memory s := rfl

@[simp] theorem setQueue_memory (q : Nat) (x : Queue) : memory (s.setQueue q x) = memory s := rfl

@[simp] theorem setCarry_memory (c : Nat) (x : Option UnitCarry) : memory (s.setCarry c x) = memory s := rfl

@[simp] theorem setWaitingCarries_memory (c : Nat) (xs : List UnitCarry) : memory (s.setWaitingCarries c xs) = memory s := rfl

@[simp] theorem setEff_memory (u e : Nat) : memory (setEff s u e) = memory s := rfl

theorem setHealth_memory (x : Health) : memory { s with health := x } = memory s := rfl

@[simp] theorem wrBits_memory (o hi lo v : Nat) : memory (s.wrBits o hi lo v) = memory s := wr_memory s o _

@[simp] theorem raiseQ_memory (src q : Nat) : memory (raiseQ s src q) = memory s := raiseFull_memory s src q false 0#32

@[simp] theorem faultAnswered_memory (src part : Nat) : memory (faultAnswered s src part) = memory s := rfl

@[simp] theorem deliverResult_memory (h : Nat) (l : ResLine) : memory (deliverResult s h l) = memory s := rfl

end

-- Composition.

theorem countLine_memory (g : Nat) (s : State) (l : LayAt) : memory (countLine g s l) = memory s := by
  unfold countLine
  dsimp only
  split_ifs <;> simp

theorem composeLine_memory (s : State) (t : Nat) (v : DeckView) (st : Step) (ls : List (Entry × Option LayAt)) :
    memory (composeLine s t v st ls) = memory s := by
  unfold composeLine
  dsimp only
  split
  rw [countSat_memory, forEach_keeps memory _ (countLine_memory st.group), deliverResult_memory, setTile_memory]

theorem tileAdvance_memory (n : Nat) (s : State) (t : Nat) : memory (tileAdvance n s t) = memory s := by
  induction n generalizing s with
  | zero => rfl
  | succ n ih =>
    rw [tileAdvance]
    cases (s.tile t).run with
    | none => rfl
    | some st =>
      dsimp only
      split_ifs
      · rfl
      · rw [ih, composeLine_memory]
      · rfl

theorem layerLine_memory (s : State) (j : ScaleJob) (y : Nat) (px : List LayerPx) (low : Bool) : memory (layerLine s j y px low) = memory s := by
  unfold layerLine
  dsimp only
  cases (s.tile j.tile).run with
  | none => rfl
  | some st =>
    cases (s.tile j.tile).entries[j.entry]? with
    | none => rfl
    | some e =>
      dsimp only
      split_ifs
      · rw [tileAdvance_memory, setTile_memory, drawn_memory]
      · rfl

theorem voidLine_memory (s : State) (j : ScaleJob) (d : Desc) (v : Nat) : memory (voidLine s j d v) = memory s := by
  rw [voidLine, layerLine_memory, raise_memory, bump_memory]

theorem voidJob_memory (s : State) (j : ScaleJob) : memory (voidJob s j) = memory s :=
  forEach_keeps memory _ (fun _ _ => voidLine_memory _ _ _ _) _ s

theorem scalerAdvance_memory (n : Nat) (s : State) (l : Nat) : memory (scalerAdvance n s l) = memory s := by
  induction n generalizing s with
  | zero => rfl
  | succ n ih =>
    rw [scalerAdvance]
    cases (s.scaler l).jobs with
    | nil => rfl
    | cons j rest =>
      dsimp only
      by_cases hend : j.vEnd ≤ j.v
      · rw [if_pos hend, ih, setScaler_memory]
      rw [if_neg hend]
      by_cases hvoid : jobVoided s l j = true
      · rw [if_pos hvoid, ih, voidJob_memory, setScaler_memory]
      rw [if_neg hvoid]
      cases s.surface j.handle with
      | none =>
        dsimp only
        rw [ih, voidJob_memory, setScaler_memory]
      | some x =>
        dsimp only
        split
        · rfl
        · split
          · rw [ih, voidLine_memory, setScaler_memory]
          · split
            rw [ih, countClip_memory, layerLine_memory, setScaler_memory]

-- A unit that fails.

theorem partFault_memory (s : State) (src part : Nat) : memory (partFault s src part) = memory s := by
  unfold partFault
  dsimp only
  cases s.col.faults <;> simp

theorem carryBusy_memory (s : State) : memory (carryBusy s) = memory s := wrBits_memory s _ _ _ _

theorem logCarry_memory (s : State) (u reason : Nat) : memory (logCarry s u reason) = memory s := by simp [logCarry]

theorem checkExhausted_memory (s : State) (u : Nat) : memory (checkExhausted s u) = memory s := by
  unfold checkExhausted
  split_ifs <;> simp

theorem faultWaits_memory (s : State) (u l : Nat) : memory (faultWaits s u l) = memory s := setWaitingCarries_memory s _ _

theorem publishDemand_memory (s : State) : memory (publishDemand s) = memory s := by simp [publishDemand]

theorem loseLogical_memory (s : State) (c l : Nat) : memory (loseLogical s c l) = memory s := by
  unfold loseLogical
  dsimp only
  rw [publishDemand_memory]
  split <;> exact setHealth_memory s _

theorem mapLogical_memory (s : State) (c l u : Nat) : memory (mapLogical s c l u) = memory s := by
  unfold mapLogical
  split
  · exact setHealth_memory s _
  · exact setHealth_memory s _
  · exact wrBits_memory s _ _ _ _

theorem switchCarry_memory (s : State) (c : Nat) (x : UnitCarry) (g : Option Nat) (f : Nat) : memory (switchCarry s c x g f) = memory s := by
  unfold switchCarry
  cases x.spare <;> simp [mapLogical_memory]

theorem updateSpareStat_memory (s : State) (c d : Nat) : memory (updateSpareStat s c d) = memory s := by
  unfold updateSpareStat
  split <;> simp

theorem endCarry_memory (s : State) (c : Nat) (x : UnitCarry) : memory (endCarry s c x) = memory s := by
  simp [endCarry, checkExhausted_memory, carryBusy_memory, updateSpareStat_memory]

theorem finishFault_memory (s : State) (c : Nat) : memory (finishFault s c) = memory s := by
  unfold finishFault
  cases s.carry c with
  | none => rfl
  | some x =>
    dsimp only
    split_ifs <;> simp [endCarry_memory, switchCarry_memory]

theorem beginCarry_memory (s : State) (x : UnitCarry) : memory (beginCarry s x) = memory s := by
  unfold beginCarry
  dsimp only
  cases chooseSpare s x.unit with
  | none =>
    dsimp only
    split_ifs
    · rw [faultAnswered_memory, loseLogical_memory, raise_memory]
    · rw [loseLogical_memory, raise_memory]
    · rw [raise_memory]
  | some v =>
    dsimp only
    rw [finishFault_memory, carryBusy_memory, logCarry_memory, setCarry_memory, setMetered_memory]

theorem nextCarry_memory (n : Nat) (s : State) (c : Nat) : memory (nextCarry n s c) = memory s := by
  induction n generalizing s with
  | zero => rfl
  | succ n ih =>
    rw [nextCarry]
    cases s.waitingCarries c with
    | nil => exact ite_self _ ▸ rfl
    | cons x rest =>
      dsimp only
      split_ifs
      · rfl
      · rw [ih, beginCarry_memory, setWaitingCarries_memory]
      · rw [ih, setWaitingCarries_memory]

theorem rerunJob_memory (s : State) (q : Nat) : memory (rerunJob s q) = memory s := by
  unfold rerunJob
  cases (s.queue q).job with
  | none => rfl
  | some j =>
    dsimp only
    split_ifs <;> simp [jobRelease_memory]

theorem haltQueue_memory (s : State) (q code : Nat) : memory (haltQueue s q code) = memory s := by
  unfold haltQueue
  dsimp only
  split_ifs
  · exact (finishJob_memory _ _ _ _).trans ((jobRelease_memory _ _).trans (setFlag_memory s _ _))
  · exact (setQueue_memory _ _ _).trans ((jobRelease_memory _ _).trans (setFlag_memory s _ _))

theorem jobsOfUnit_memory (s : State) (u : Nat) (second : Bool) : memory (jobsOfUnit s u second) = memory s := by
  unfold jobsOfUnit unitJobs
  rw [forEach_keeps memory _ (fun t q => ?_)]
  · simp
  · cases (t.queue q).job with
    | none => rfl
    | some j =>
      dsimp only
      split_ifs <;> simp [haltQueue_memory, rerunJob_memory]

-- What the fault of a unit voids.

theorem voidTile_memory (s : State) (t : Nat) : memory (voidTile s t) = memory s := by
  unfold voidTile
  dsimp only
  cases (s.tile t).run with
  | none => rfl
  | some st =>
    dsimp only
    rw [forEach_keeps memory _ (fun _ _ => deliverResult_memory _ _ _), setTile_memory]

theorem voidFetch_memory (s : State) (r : Nat) : memory (voidFetch s r) = memory s := by
  unfold voidFetch
  dsimp only
  rw [forEach_keeps memory _ (fun _ _ => by rw [setGroup_memory, drawn_memory]), forEach_keeps memory _ (fun t l => ?_)]
  cases (t.scaler l).jobs <;> simp

theorem voidLayerRod_memory (s : State) (l : Nat) : memory (voidLayerRod s l) = memory s := by
  unfold voidLayerRod
  cases (s.scaler l).jobs with
  | nil => rfl
  | cons j rest =>
    dsimp only
    cases (s.tile j.tile).entries[j.entry]? with
    | none => rfl
    | some e =>
      dsimp only
      split_ifs <;> simp

theorem voidResultRod_memory (s : State) (t : Nat) : memory (voidResultRod s t) = memory s :=
  forEach_keeps memory _ (fun u h => by
    dsimp only
    cases (u.head h).results.reverse with
    | nil => rfl
    | cons l rest =>
      dsimp only
      split_ifs <;> simp) _ s

/-- The byte is in no line that a receive stream assembles. -/
def Unassembled (s : State) (h' off : Nat) : Prop :=
  ∀ (st : Nat) (f : RxFrame) (sl : Slot) (g : Nat), f ∈ (s.rxs st).frames → sl ∈ f.slots → f.handle = some g → Beyond s g sl.line h' off

theorem Unassembled.congr {s t : State} {h' off : Nat} (hs : Unassembled s h' off) (hrx : t.rx = s.rx) (hsurf : ∀ k, t.surface k = s.surface k) :
    Unassembled t h' off := by
  intro st f sl g hf hsl hg
  have hrxs : t.rxs st = s.rxs st := congrArg (fun m => kget (fun _ => RxStream.reset) m st) hrx
  exact (hs st f sl g (hrxs ▸ hf) hsl hg).congr (hsurf g)

theorem ingestFlip_spot {s : State} {h i h' off : Nat} (hout : Beyond s h i h' off) (k : Nat) (flip : Bead) :
    spot h' off (ingestFlip s h i k flip) = spot h' off s := by
  have hline : spot h' off (if (beadGood flip && !beadVoid flip) then s else poisonLine s h i) = spot h' off s := by
    split_ifs
    · rfl
    · exact poisonLine_spot hout
  exact hline

section
variable {s : State} {h' off : Nat} (hslots : Unassembled s h' off)
include hslots

theorem voidIngest_spot : spot h' off (voidIngest s) = spot h' off s := by
  unfold voidIngest
  extract_lets lines hit
  have hhit : ∀ e ∈ hit, Beyond s e.1 e.2 h' off := by
    intro e he
    obtain ⟨p, hp, rfl⟩ := List.mem_map.mp he
    have hline : p.1 ∈ lines := (List.mem_zipIdx' (List.mem_filter.mp hp).1).2 ▸ List.getElem_mem _
    obtain ⟨st, -, hst⟩ := List.mem_flatMap.mp hline
    obtain ⟨f, hf, hp⟩ := List.mem_flatMap.mp hst
    cases hg : f.handle with
    | none =>
      rw [hg] at hp
      cases hp
    | some g =>
      rw [hg] at hp
      obtain ⟨sl, hsl, hp⟩ := List.mem_map.mp hp
      rw [← hp]
      exact hslots st f sl g hf hsl hg
  refine forEach_induct_mem (P := fun u => spot h' off u = spot h' off s) rfl (fun e he u hu => ?_)
  exact (ingestFlip_spot ((hhit e he).congr (surface_of_spot hu e.1)) 0 voidFlip).trans hu

theorem voidHeld_spot (u : Nat) : spot h' off (voidHeld s u) = spot h' off s := by
  unfold voidHeld voidRod
  split
  · cases servedLogical s u with
    | none => rfl
    | some r =>
      dsimp only
      split
      · exact spot_of_memory (voidFetch_memory s r) h' off
      · exact spot_of_memory (voidLayerRod_memory s _) h' off
      · exact spot_of_memory (voidResultRod_memory s _) h' off
      · exact voidIngest_spot hslots
  · exact spot_of_memory (forEach_keeps memory _ voidTile_memory _ s) h' off
  · exact spot_of_memory (forEach_keeps memory _ (scalerAdvance_memory scalerFuel) _ s) h' off
  · rfl

end

theorem partFault_rx (s : State) (src part : Nat) : (partFault s src part).rx = s.rx := by
  unfold partFault
  dsimp only
  cases s.col.faults with
  | nil => rfl
  | cons f fs => exact (raise_rx _ _).trans (State.wr_rx _ _ _)

/-- The fault of a unit voids what the unit holds; the rest of it leaves memory as it is. -/
theorem failUnit_spot {s : State} {h' off : Nat} (hslots : Unassembled s h' off) (u : Nat) : spot h' off (failUnit s u) = spot h' off s := by
  have hraised : memory (raise (setEff s u 7) 313) = memory s := (raise_memory _ 313).trans (setEff_memory s u 7)
  have hraisedSlots : Unassembled (raise (setEff s u 7) 313) h' off := hslots.congr (raise_rx _ 313) (surface_of_memory hraised)
  have hspot := spot_of_memory hraised h' off
  unfold failUnit
  dsimp only
  generalize raise (setEff s u 7) 313 = s1 at hraised hraisedSlots hspot ⊢
  have hreq : Unassembled (setReqEff s1 u 7) h' off := hraisedSlots.congr rfl (fun _ => rfl)
  have hpart : memory (partFault (setReqEff s1 u 7) 313 u) = memory s1 := (partFault_memory _ 313 u).trans (setReqEff_memory s1 u 7)
  have hpartSlots : Unassembled (partFault (setReqEff s1 u 7) 313 u) h' off := hreq.congr (partFault_rx _ 313 u) (surface_of_memory (partFault_memory _ 313 u))
  split
  · rfl
  split
  · exact (voidHeld_spot hraisedSlots u).trans hspot
  split
  · cases s1.carry (unitClass u) with
    | none => exact hspot
    | some x =>
      refine (spot_of_memory ?_ h' off).trans hspot
      dsimp only
      rw [carryBusy_memory, nextCarry_memory, beginCarry_memory, setCarry_memory, hpart]
  · cases logicalOf s1 u with
    | none =>
      exact (spot_of_memory (checkExhausted_memory _ u) h' off).trans ((voidHeld_spot hreq u).trans ((spot_of_memory (setReqEff_memory s1 u 7) h' off).trans hspot))
    | some l =>
      have hheld := (voidHeld_spot hpartSlots u).trans ((spot_of_memory hpart h' off).trans hspot)
      dsimp only
      generalize voidHeld (partFault (setReqEff s1 u 7) 313 u) u = s3 at hheld ⊢
      cases s3.carry (unitClass u) with
      | none => exact (spot_of_memory (beginCarry_memory s3 _) h' off).trans hheld
      | some x =>
        dsimp only
        split
        · exact (spot_of_memory ((logCarry_memory _ u 1).trans (setCarry_memory s3 _ _)) h' off).trans hheld
        · exact (spot_of_memory (faultWaits_memory s3 u l) h' off).trans hheld

theorem faultUnit_spot {s : State} {h' off : Nat} (hslots : Unassembled s h' off) (u : Nat) (voids : Bool) :
    spot h' off (faultUnit s u voids) = spot h' off s := by
  unfold faultUnit
  dsimp only
  split
  · rfl
  · split
    · refine (spot_of_memory (jobsOfUnit_memory _ _ _) h' off).trans ?_
      have hraised := raise_memory s 72
      exact (failUnit_spot (hslots.congr (raise_rx s 72) (surface_of_memory hraised)) u).trans (spot_of_memory hraised h' off)
    · exact (spot_of_memory (jobsOfUnit_memory _ _ _) h' off).trans (failUnit_spot hslots u)

-- A bead on a rod.

theorem injectCheck_rx (s : State) (target unit : Nat) : (injectCheck s target unit).2.rx = s.rx := by
  unfold injectCheck
  cases s.col.inj with
  | none => rfl
  | some i =>
    dsimp only
    split_ifs
    · exact (raise_rx _ 310).trans (State.wr_rx _ _ _)
    · exact State.wr_rx _ _ _
    · rfl

theorem beadError_ssp_memory (inj : Bool) (s : State) (h i k : Nat) : memory (beadError inj s (.ssp h i k)) = memory s := raiseInj_memory s 39 inj

theorem beadError_ssp_rx (inj : Bool) (s : State) (h i k : Nat) : (beadError inj s (.ssp h i k)).rx = s.rx := raiseFull_rx s 39 0 inj 0#32

theorem poisonLine_rx (s : State) (h i : Nat) : (poisonLine s h i).rx = s.rx := poisonLine_keeps State.rx (fun _ _ => rfl) s h i

theorem ingestFlip_rx (s : State) (h i k : Nat) (flip : Bead) : (ingestFlip s h i k flip).rx = s.rx := by
  have hline : (if (beadGood flip && !beadVoid flip) then s else poisonLine s h i).rx = s.rx := by
    split_ifs
    · rfl
    · exact poisonLine_rx s h i
  exact hline

/-- An ingest bead poisons its own line at most, and a fault it shows of the rod the lines in assembly. -/
theorem beadReceive_spot {s : State} {h i h' off : Nat} (hout : Beyond s h i h' off) (hslots : Unassembled s h' off) (rod k : Nat) (flip : BitVec 137) :
    spot h' off (beadReceive s rod flip (.ssp h i k)) = spot h' off s := by
  unfold beadReceive
  cases beadSite s rod (.ssp h i k) with
  | none => rfl
  | some b =>
    dsimp only
    split
    · rfl
    · have hcheck := injectCheck_memory s 4 rod
      have hcheckRx := injectCheck_rx s 4 rod
      generalize injectCheck s 4 rod = checked at hcheck hcheckRx ⊢
      obtain ⟨inj, s1⟩ := checked
      dsimp only
      generalize (if inj = true then flip ^^^ 1#137 <<< 132 else flip) = f
      generalize hs2 : (if beadGood (mkBead 0 b.st b.ra (b.bead + 1 == b.beads) false ^^^ f) = true then s1 else beadError inj s1 (.ssp h i k)) = s2
      have hmem : memory s2 = memory s := by
        subst hs2
        split_ifs
        · exact hcheck
        · exact (beadError_ssp_memory inj s1 h i k).trans hcheck
      have hrx : s2.rx = s.rx := by
        subst hs2
        split_ifs
        · exact hcheckRx
        · exact (beadError_ssp_rx inj s1 h i k).trans hcheckRx
      have hrod : ∀ x : Rod, memory (s2.setRod rod x) = memory s := fun x => (setRod_memory s2 rod x).trans hmem
      have hrodRx : ∀ x : Rod, (s2.setRod rod x).rx = s.rx := fun x => (State.setRod_rx s2 rod x).trans hrx
      have hs4 : ∀ x : Rod, spot h' off (ingestFlip (s2.setRod rod x) h i k f) = spot h' off s := fun x =>
        (ingestFlip_spot (hout.congr (surface_of_memory (hrod x) h)) k f).trans (spot_of_memory (hrod x) h' off)
      have hfault : ∀ (x : Rod) (n u : Nat), spot h' off (if 4 ≤ n then faultUnit (ingestFlip (s2.setRod rod x) h i k f) u false
          else ingestFlip (s2.setRod rod x) h i k f) = spot h' off s := by
        intro x n u
        split_ifs
        · have hrx4 : (ingestFlip (s2.setRod rod x) h i k f).rx = s.rx := (ingestFlip_rx _ h i k f).trans (hrodRx x)
          exact (faultUnit_spot (hslots.congr hrx4 (surface_of_spot (hs4 x))) u false).trans (hs4 x)
        · exact hs4 x
      simp only [takeFlip]
      exact hfault _ _ _

end Sys2Proof.Machine

/-!
PROOFS. Surface memory under a received frame (10_network_media.md, Receive streams): its samples go to lines of open frames and of the ring of
their stream.
-/
namespace Sys2Proof.Machine
-- One proof at a time, so that the stacks of the evaluations do not add up.
set_option Elab.async false

open Sys2Proof.Claims

-- What a frame of another kind reaches.

theorem keeping_memory {ps : List Part} (h : ps.contains .store = false) (s t : State) : memory (keeping ps s t) = memory s := by
  rw [memory, memory, State.keeping_store, State.keeping_hbm, h]
  rfl

@[simp] theorem setPort_memory (s : State) (p : Nat) (x : Port) : memory (s.setPort p x) = memory s := rfl

theorem setRxs_memory (s : State) (i : Nat) (x : RxStream) : memory (s.setRxs i x) = memory s := rfl

theorem creditChange_memory (s : State) (p k : Nat) (c : Int) : memory (creditChange s p k c) = memory s := by
  unfold creditChange
  dsimp only
  split_ifs <;> simp

theorem txDrop_memory (s : State) (p k : Nat) (st : Option Nat) : memory (txDrop s p k st) = memory s := by
  unfold txDrop
  cases st <;> simp

theorem enqueue_memory (s : State) (p k : Nat) (bytes : List Byte) (st : Option Nat) : memory (enqueue s p k bytes st) = memory s := by
  unfold enqueue
  dsimp only
  split_ifs <;> simp [txDrop_memory, creditChange_memory]

theorem igmpJoin_memory (change : Bool) (s : State) (m : Member) : memory (igmpJoin change s m) = memory s := by
  unfold igmpJoin
  dsimp only
  split_ifs <;> exact enqueue_memory s _ _ _ _

theorem igmpQuery_memory (s : State) (p group : Nat) : memory (igmpQuery s p group) = memory s := forEach_keeps memory _ (igmpJoin_memory false) _ s

theorem arpReply_memory (s : State) (p : Nat) (a : List Byte) : memory (arpReply s p a) = memory s := enqueue_memory s _ _ _ _

theorem rxOther_memory (s : State) (p : Nat) : memory (rxOther s p) = memory s := bump_memory s _ 1

theorem rxCount_memory (s : State) (st w n : Nat) : memory (rxCount s st w n) = memory s := setSp_memory s _ _

theorem rxRaise_memory (s : State) (st : Nat) : memory (rxRaise s st) = memory s := raise_memory s _

-- The settings of a receive stream, and its open frames.

/-- The settings that aim a stream at its ring: they lie before what counters, records and raises write. -/
theorem rxWord_setSp {st w k : Nat} (hst : st < 256) (hw : w < 2) (hk : skey Space.NMP_RXC 0 ≤ k) (s : State) (v : Word) :
    rxWord (s.setSp k v) st w = rxWord s st w := by
  rw [rxWord, rxWord, State.spw, State.spw, State.sp_setSp, if_neg]
  simp only [skey, Space.NMP_RXC, Space.NMP_RXS] at hk ⊢
  omega

theorem rxWord_wr (s : State) (o : Nat) (v : Word) (st w : Nat) : rxWord (s.wr o v) st w = rxWord s st w := rfl

theorem rxcKey_le (st w : Nat) : skey Space.NMP_RXC 0 ≤ rxcKey st w := by
  simp only [rxcKey, skey, Space.NMP_RXC]
  omega

theorem raise_rxWord {st w : Nat} (hst : st < 256) (hw : w < 2) (s : State) (src : Nat) : rxWord (raise s src) st w = rxWord s st w := by
  have hP : Unforced (fun t => rxWord t st w = rxWord s st w) :=
    { wr := fun _ _ _ h => h
      setSp := fun t k v hk h => (rxWord_setSp hst hw hk t v).trans h
      setSafe := fun _ _ _ h => h
      setPort := fun _ _ _ h => h
      cut := fun _ _ h => h
      setFunc := fun t k x h => by rw [rxWord, State.spw, State.sp, State.setFunc_spaces]; exact h
      emit := fun _ _ h => h
      col := fun _ _ h => h
      fresh := fun _ h => h }
  exact hP.raiseFull rfl (fun _ _ h => h) src 0 false 0#32

/-- Memory at a byte, the open frames of a stream, and the words that aim it. -/
def bench (st h' off : Nat) (t : State) : (KMap (Option Surface) × Byte) × List RxFrame × Word × Word :=
  (spot h' off t, (t.rxs st).frames, rxWord t st 0, rxWord t st 1)

theorem bench_congr {s t : State} {st : Nat} (h' off : Nat) (hmem : memory t = memory s) (hframes : (t.rxs st).frames = (s.rxs st).frames)
    (h0 : rxWord t st 0 = rxWord s st 0) (h1 : rxWord t st 1 = rxWord s st 1) : bench st h' off t = bench st h' off s := by
  rw [bench, bench, spot_of_memory hmem, hframes, h0, h1]

section
variable {st : Nat} (hst : st < 256) (h' off : Nat) (s : State)

theorem wr_bench (o : Nat) (v : Word) : bench st h' off (s.wr o v) = bench st h' off s :=
  bench_congr h' off (wr_memory s o v) rfl rfl rfl

theorem setRxs_bench {x : RxStream} (hx : x.frames = (s.rxs st).frames) : bench st h' off (s.setRxs st x) = bench st h' off s :=
  bench_congr h' off (setRxs_memory s st x) (by rw [State.rxs_setRxs_self, hx]) rfl rfl

include hst

theorem raise_bench (src : Nat) : bench st h' off (raise s src) = bench st h' off s :=
  bench_congr h' off (raise_memory s src) (by rw [State.rxs, raise_rx, State.rxs]) (raise_rxWord hst (by decide) s src) (raise_rxWord hst (by decide) s src)

theorem setRxc_bench (i w : Nat) (v : Word) : bench st h' off (s.setSp (rxcKey i w) v) = bench st h' off s :=
  bench_congr h' off (setSp_memory s _ v) rfl (rxWord_setSp hst (by decide) (rxcKey_le i w) s v) (rxWord_setSp hst (by decide) (rxcKey_le i w) s v)

theorem rxCount_bench (w n : Nat) : bench st h' off (rxCount s st w n) = bench st h' off s := setRxc_bench hst h' off s st w _

theorem rxStatus_bench : bench st h' off (rxStatus s st) = bench st h' off s := setRxc_bench hst h' off s st 14 _

theorem rxRaise_bench : bench st h' off (rxRaise s st) = bench st h' off s := raise_bench hst h' off s _

end

-- What leaves every stream as it is.

theorem setFence_rx (s : State) (h : Nat) (sig writing : Bool) (writer : Nat) : (setFence s h sig writing writer).rx = s.rx := by
  have hdrop : ∀ (t : State) (g : Nat) (p : RaLine → Bool), (raDrop t g p).rx = t.rx := by
    intro t g p
    have hlevel : ∀ u, (raLevel u).rx = u.rx := fun _ => rfl
    unfold raDrop
    dsimp only
    split_ifs
    · rw [hlevel, State.setGroup_rx]
    · rw [raise_rx, State.bump, State.wr_rx, hlevel, State.setGroup_rx]
  unfold setFence putFence raFenceDown
  dsimp only
  split_ifs
  · rfl
  · rw [forEach_keeps State.rx _ (fun t g => by split_ifs <;> simp [hdrop]), State.setSp_rx]
  · exact State.setSp_rx s _ _

theorem signalFence_rx (s : State) (h writer : Nat) : (signalFence s h writer).rx = s.rx := by
  unfold signalFence
  split_ifs
  · rfl
  · rw [State.setSp_rx, State.setSp_rx, State.wr_rx]

theorem loseLines_rx (s : State) (h : Nat) (is : List Nat) : (loseLines s h is).rx = s.rx :=
  (rfl : (loseLines s h is).rx = (forEach is s (fun s i => poisonLine s h i)).rx).trans (forEach_keeps State.rx _ (fun t i => poisonLine_rx t h i) is s)

theorem ingestLine_rx (s : State) (h i : Nat) (payload : List Byte) (poison : Bool) : (ingestLine s h i payload poison).rx = s.rx := by
  unfold ingestLine
  dsimp only
  split_ifs
  · exact poisonLine_rx (s.drawn 1) h i
  · exact writeLine_keeps State.rx (fun _ _ _ _ => rfl) s h i payload poison
  · exact writeLine_keeps State.rx (fun _ _ _ _ => rfl) s h i _ _

theorem sramCheck_rx (s : State) (cls unit : Nat) : (sramCheck s cls unit).2.rx = s.rx := by
  have h1 := injectCheck_rx s 6 (256 * cls + unit)
  have h2 := injectCheck_rx (injectCheck s 6 (256 * cls + unit)).2 5 (256 * cls + unit)
  unfold sramCheck
  dsimp only
  split_ifs
  · exact h1
  · exact h2.trans h1
  · exact h2.trans h1

theorem loseLines_spot {s : State} {h h' off : Nat} {is : List Nat} (hout : ∀ i, Beyond s h i h' off) : spot h' off (loseLines s h is) = spot h' off s := by
  have hlost : spot h' off (forEach is s (fun s i => poisonLine s h i)) = spot h' off s :=
    forEach_induct_mem (P := fun u => spot h' off u = spot h' off s) rfl
      (fun i _ u hu => (poisonLine_spot ((hout i).congr (surface_of_spot hu h))).trans hu)
  exact hlost

-- Fences and the settings of a stream.

/-- The stream's aim is as before, or its settings name no format, so that no frame of it is placed. A fence word of a handle that no handle
field can hold may lie over the settings, and leaves no format. -/
def AimKept (st : Nat) (s t : State) : Prop := (rxWord t st 0 = rxWord s st 0 ∧ rxWord t st 1 = rxWord s st 1) ∨ rxFormat t st = 0

section
variable {st : Nat} {s t u : State}

theorem AimKept.of_bench {h' off : Nat} (h : bench st h' off t = bench st h' off s) : AimKept st s t :=
  .inl ⟨congrArg (fun b => b.2.2.1) h, congrArg (fun b => b.2.2.2) h⟩

theorem AimKept.format (h : AimKept st s t) (hs : rxFormat s st = 0) : rxFormat t st = 0 := by
  obtain ⟨h0, -⟩ | hz := h
  · rwa [rxFormat, h0]
  · exact hz

theorem AimKept.trans (hst : AimKept st s t) (htu : AimKept st t u) : AimKept st s u := by
  obtain ⟨h0, h1⟩ | hz := htu
  · obtain ⟨h0', h1'⟩ | hz := hst
    · exact .inl ⟨h0.trans h0', h1.trans h1'⟩
    · exact .inr (AimKept.format (.inl ⟨h0, h1⟩) hz)
  · exact .inr hz

end

theorem rxWord_setFence0 (s : State) (h st : Nat) (v : Word) :
    rxWord (s.setSp (fence0 h) v) st 0 = (if fence0 h = skey Space.NMP_RXS (16 * st) then v else rxWord s st 0) ∧
    rxWord (s.setSp (fence0 h) v) st 1 = rxWord s st 1 := by
  constructor
  · rw [rxWord, rxWord, State.spw, State.spw, State.sp_setSp, Nat.add_zero]
    simp only [eq_comm]
  · rw [rxWord, rxWord, State.spw, State.spw, State.sp_setSp, if_neg]
    simp only [fence0, skey, Space.FENCE, Space.NMP_RXS]
    omega

theorem setFence_aim {st : Nat} (hst : st < 256) (s : State) (h : Nat) (sig writing : Bool) : AimKept st s (setFence s h sig writing writerIngest) := by
  have hdrop : ∀ {w : Nat}, w < 2 → ∀ (t : State) (g : Nat) (p : RaLine → Bool), rxWord (raDrop t g p) st w = rxWord t st w := by
    intro w hw t g p
    have hlevel : ∀ u : State, rxWord (raLevel u) st w = rxWord u st w := fun _ => rfl
    unfold raDrop
    dsimp only
    split_ifs
    · exact hlevel _
    · rw [raise_rxWord hst hw, State.bump, rxWord_wr]
      exact hlevel _
  have hdown : ∀ {w : Nat}, w < 2 → ∀ t : State, rxWord (raFenceDown t h) st w = rxWord t st w := fun hw t =>
    forEach_keeps (fun u => rxWord u st _) _ (fun u g => by
      split_ifs
      · exact hdrop hw u g _
      · rfl) _ t
  have hput : AimKept st s (s.setSp (fence0 h) (fenceWord sig writing writerIngest)) := by
    obtain ⟨h0, h1⟩ := rxWord_setFence0 s h st (fenceWord sig writing writerIngest)
    by_cases hover : fence0 h = skey Space.NMP_RXS (16 * st)
    · rw [if_pos hover] at h0
      refine .inr ?_
      rw [rxFormat, h0]
      cases sig <;> cases writing <;> decide
    · rw [if_neg hover] at h0
      exact .inl ⟨h0, h1⟩
  unfold setFence putFence
  dsimp only
  split_ifs
  · exact .inl ⟨rfl, rfl⟩
  · exact hput.trans (.inl ⟨hdown (by decide) _, hdown (by decide) _⟩)
  · exact hput

theorem signalFence_aim (st : Nat) (s : State) (h : Nat) : AimKept st s (signalFence s h writerIngest) := by
  unfold signalFence
  split_ifs
  · exact .inl ⟨rfl, rfl⟩
  · dsimp only
    obtain ⟨h0, h1⟩ := rxWord_setFence0 (s.wr R.SEQ_FENCE_STAMP (s.rd R.SEQ_FENCE_STAMP + 1#32)) h st (fenceWord true false writerIngest)
    generalize hu : (s.wr R.SEQ_FENCE_STAMP (s.rd R.SEQ_FENCE_STAMP + 1#32)).setSp (fence0 h) (fenceWord true false writerIngest) = u at h0 h1
    have hstamp : ∀ w, w < 2 → (w = 1 → fence0 h ≠ skey Space.NMP_RXS (16 * st)) →
        rxWord (u.setSp (fence1 h) (s.rd R.SEQ_FENCE_STAMP + 1#32)) st w = rxWord u st w := by
      intro w hw hover
      rw [rxWord, rxWord, State.spw, State.spw, State.sp_setSp, if_neg]
      simp only [fence0, fence1, skey, Space.FENCE, Space.NMP_RXS] at hover ⊢
      omega
    have hstamp0 := hstamp 0 (by decide) (by simp)
    by_cases hover : fence0 h = skey Space.NMP_RXS (16 * st)
    · rw [if_pos hover] at h0
      refine .inr ?_
      rw [rxFormat, hstamp0, h0]
      decide
    · rw [if_neg hover] at h0
      exact .inl ⟨hstamp0.trans h0, (hstamp 1 (by decide) (fun _ => hover)).trans h1⟩

-- The open frames of a stream.

/-- The byte is in no buffer of the stream's open frames. -/
def Framed (st h' off : Nat) (s : State) : Prop := ∀ f ∈ (s.rxs st).frames, ∀ h, f.handle = some h → ∀ i, Beyond s h i h' off

section
variable {st h' off : Nat} {s t : State}

theorem Framed.congr (hs : Framed st h' off s) (hspot : spot h' off t = spot h' off s) (hframes : ∀ f ∈ (t.rxs st).frames,
    ∃ g ∈ (s.rxs st).frames, f.handle = g.handle) : Framed st h' off t := by
  intro f hf h hh i
  obtain ⟨g, hg, hfg⟩ := hframes f hf
  exact (hs g hg h (hfg ▸ hh) i).congr (surface_of_spot hspot h)

theorem rxs_of_rx (h : t.rx = s.rx) (i : Nat) : t.rxs i = s.rxs i := congrArg (fun m => kget (fun _ => RxStream.reset) m i) h

theorem Framed.of_rx (hs : Framed st h' off s) (hspot : spot h' off t = spot h' off s) (hrx : t.rx = s.rx) : Framed st h' off t :=
  hs.congr hspot (fun f hf => ⟨f, rxs_of_rx hrx st ▸ hf, rfl⟩)

theorem Framed.of_bench (hs : Framed st h' off s) (h : bench st h' off t = bench st h' off s) : Framed st h' off t :=
  hs.congr (congrArg Prod.fst h) (fun f hf => ⟨f, (show (t.rxs st).frames = (s.rxs st).frames from congrArg (fun b => b.2.1) h) ▸ hf, rfl⟩)

theorem setRxFrames_spot (fs : List RxFrame) : spot h' off (setRxFrames s st fs) = spot h' off s := spot_of_memory (setRxs_memory s st _) h' off

theorem setRxFrames_frames (fs : List RxFrame) : ((setRxFrames s st fs).rxs st).frames = fs := by rw [setRxFrames, State.rxs_setRxs_self]

/-- A frame put in the place of one with its buffer. -/
theorem Framed.replace (hs : Framed st h' off s) {f g : RxFrame} (hf : f ∈ (s.rxs st).frames) (hg : g.handle = f.handle) (p : RxFrame → Bool) :
    Framed st h' off (setRxFrames s st ((s.rxs st).frames.map (fun e => if p e then g else e))) := by
  refine hs.congr (setRxFrames_spot _) (fun e he => ?_)
  rw [setRxFrames_frames] at he
  obtain ⟨d, hd, rfl⟩ := List.mem_map.mp he
  split_ifs
  · exact ⟨f, hf, hg⟩
  · exact ⟨d, hd, rfl⟩

theorem getRxFrame_mem {ts : Word} {f : RxFrame} (h : getRxFrame s st ts = some f) : f ∈ (s.rxs st).frames := List.mem_of_find?_eq_some h

theorem Framed.put (hs : Framed st h' off s) {f g : RxFrame} (hf : f ∈ (s.rxs st).frames) (hg : g.handle = f.handle) :
    Framed st h' off (putRxFrame s st g) := by
  have h := hs.replace hf hg (fun e => decide (e.ts = g.ts))
  unfold putRxFrame
  simpa only [decide_eq_true_eq] using h

theorem putRxFrame_spot (g : RxFrame) : spot h' off (putRxFrame s st g) = spot h' off s := setRxFrames_spot _

theorem oldestFrame_mem : ∀ {fs : List RxFrame} {f : RxFrame}, oldestFrame fs = some f → f ∈ fs
  | [], _, h => by cases h
  | a :: fs, f, h => by
    have hfold : ∀ (gs : List RxFrame) (m : RxFrame), gs.foldl (fun m g => if newer m.ts g.ts then g else m) m = m ∨
        gs.foldl (fun m g => if newer m.ts g.ts then g else m) m ∈ gs := by
      intro gs
      induction gs with
      | nil => exact fun m => .inl rfl
      | cons g gs ih =>
        intro m
        rw [List.foldl_cons]
        obtain h | h := ih (if newer m.ts g.ts then g else m)
        · rw [h]
          split_ifs
          · exact .inr (by simp)
          · exact .inl rfl
        · exact .inr (List.mem_cons_of_mem _ h)
    rw [← Option.some.inj h]
    obtain h | h := hfold fs a
    · rw [h]
      simp
    · exact List.mem_cons_of_mem _ h

end

-- A frame is closed, and one is opened.

section
variable {st h' off : Nat} (hst : st < 256) {s : State}
include hst

/-- What the fence of a closed frame and its counters leave. -/
theorem closeRxFrame_holds {f : RxFrame} (hout : ∀ h, f.handle = some h → ∀ i, Beyond s h i h' off) (cut : Bool) :
    spot h' off (closeRxFrame s st f cut) = spot h' off s ∧ AimKept st s (closeRxFrame s st f cut) ∧
      ((closeRxFrame s st f cut).rxs st).frames = (s.rxs st).frames.filter (fun g => g.ts != f.ts) := by
  unfold closeRxFrame
  extract_lets x s1
  have hs1 : spot h' off s1 = spot h' off s := spot_of_memory (setRxs_memory s st _) h' off
  have haim1 : AimKept st s s1 := .inl ⟨rfl, rfl⟩
  have hframes1 : (s1.rxs st).frames = (s.rxs st).frames.filter (fun g => g.ts != f.ts) := by rw [State.rxs_setRxs_self]
  clear_value s1
  cases hh : f.handle with
  | none => exact ⟨hs1, haim1, hframes1⟩
  | some h =>
    dsimp only
    generalize (List.range (((s1.surface h).map (·.lines)).getD 0)).filter (fun i => !f.done.contains i && !f.lost.contains i) = missing
    have hlost : spot h' off (loseLines s1 h missing) = spot h' off s1 := loseLines_spot fun i => (hout h hh i).congr (surface_of_spot hs1 h)
    have hlostFrames := congrArg RxStream.frames (rxs_of_rx (loseLines_rx s1 h missing) st)
    have hlostSp : ∀ w, rxWord (loseLines s1 h missing) st w = rxWord s1 st w := fun w =>
      forEach_keeps (fun t => rxWord t st w) (fun t i => poisonLine t h i) (fun t i => poisonLine_keeps (fun t => rxWord t st w) (fun _ _ => rfl) t h i) missing s1
    have hbench := rxCount_bench hst h' off (loseLines s1 h missing) 3 missing.length
    generalize rxCount (loseLines s1 h missing) st 3 missing.length = s2 at hbench
    have hs2 : spot h' off s2 = spot h' off s := (congrArg Prod.fst hbench).trans (hlost.trans hs1)
    have haim2 : AimKept st s s2 := (haim1.trans (.inl ⟨hlostSp 0, hlostSp 1⟩)).trans (.of_bench hbench)
    have hframes2 : (s2.rxs st).frames = (s.rxs st).frames.filter (fun g => g.ts != f.ts) :=
      (show (s2.rxs st).frames = _ from congrArg (fun b => b.2.1) hbench).trans (hlostFrames.trans hframes1)
    have hdone : ∀ {u v : State}, memory u = memory s2 → AimKept st s2 u → u.rx = s2.rx → bench st h' off v = bench st h' off u →
        spot h' off v = spot h' off s ∧ AimKept st s v ∧ (v.rxs st).frames = (s.rxs st).frames.filter (fun g => g.ts != f.ts) :=
      fun hmem haim hrx hv => ⟨(congrArg Prod.fst hv).trans ((spot_of_memory hmem h' off).trans hs2), (haim2.trans haim).trans (.of_bench hv),
        (congrArg (fun b => b.2.1) hv).trans ((congrArg RxStream.frames (rxs_of_rx hrx st)).trans hframes2)⟩
    split_ifs
    · exact hdone (signalFence_memory s2 h _) (signalFence_aim st s2 h) (signalFence_rx s2 h _) (rxCount_bench hst h' off _ 0 1)
    · exact hdone (signalFence_memory s2 h _) (signalFence_aim st s2 h) (signalFence_rx s2 h _)
        ((rxRaise_bench hst h' off _).trans (rxCount_bench hst h' off _ 1 1))
    · exact hdone (dropFence_memory s2 h _) (setFence_aim hst s2 h false false) (setFence_rx s2 h _ _ _)
        ((rxRaise_bench hst h' off _).trans (rxCount_bench hst h' off _ 1 1))

omit hst in
theorem pickBuffer_mem : ∀ {hs : List Nat} {h : Nat}, (pickBuffer s st hs).2 = some h → h ∈ hs
  | [], _, hp => by cases hp
  | a :: hs, h, hp => by
    rw [pickBuffer] at hp
    split_ifs at hp
    · rw [← Option.some.inj hp]
      simp
    · exact List.mem_cons_of_mem _ (pickBuffer_mem hp)
    · exact List.mem_cons_of_mem _ (pickBuffer_mem hp)

omit hst in
/-- Whichever buffer of a ring comes first, the ring is the same. -/
theorem mem_ringOrder {base ring h : Nat} {last : Option Nat} (hh : h ∈ ringOrder base ring last) : h ∈ ringOrder base ring none := by
  unfold ringOrder at hh ⊢
  cases last with
  | none => exact hh
  | some l =>
    dsimp only at hh ⊢
    split_ifs at hh
    · obtain hh | hh := List.mem_append.mp hh
      · exact List.mem_of_mem_drop hh
      · exact List.mem_of_mem_take hh
    · exact hh

/-- A frame that opens takes a buffer of the stream's ring, or its stream names no format. -/
theorem openRxFrame_holds (hframed : Framed st h' off s) (hring : ∀ h ∈ ringOrder (rxHandle s st) (rxRing s st) none, ∀ i, Beyond s h i h' off) (ts : Word) :
    spot h' off (openRxFrame s st ts) = spot h' off s ∧ (Framed st h' off (openRxFrame s st ts) ∨ rxFormat (openRxFrame s st ts) st = 0) := by
  unfold openRxFrame
  extract_lets s1 x
  have hs1 : spot h' off s1 = spot h' off s ∧ AimKept st s s1 ∧ ∀ f ∈ (s1.rxs st).frames, f ∈ (s.rxs st).frames := by
    subst s1
    cases ha : oldestFrame (s.rxs st).frames with
    | none => exact ⟨rfl, .inl ⟨rfl, rfl⟩, fun _ hf => hf⟩
    | some a =>
      dsimp only
      split_ifs
      · obtain ⟨hspot, haim, hframes⟩ := closeRxFrame_holds hst (hframed a (oldestFrame_mem ha)) false
        exact ⟨hspot, haim, fun f hf => (List.mem_filter.mp (hframes ▸ hf)).1⟩
      · exact ⟨rfl, .inl ⟨rfl, rfl⟩, fun _ hf => hf⟩
  clear_value s1
  obtain ⟨hspot1, haim1, hframes1⟩ := hs1
  have hframed1 : Framed st h' off s1 := hframed.congr hspot1 (fun f hf => ⟨f, hframes1 f hf, rfl⟩)
  have hpicked : ∀ h, (pickBuffer s1 st (ringOrder (rxHandle s1 st) (rxRing s1 st) x.last)).2 = some h →
      rxFormat s1 st = 0 ∨ ∀ i, Beyond s1 h i h' off := by
    intro h hh
    obtain ⟨h0, h1⟩ | hz := haim1
    · have hmem := mem_ringOrder (pickBuffer_mem hh)
      rw [rxHandle, rxRing, h0, h1] at hmem
      exact .inr fun i => (hring h hmem i).congr (surface_of_spot hspot1 h)
    · exact .inl hz
  dsimp only
  generalize pickBuffer s1 st (ringOrder (rxHandle s1 st) (rxRing s1 st) x.last) = picked at hpicked ⊢
  obtain ⟨bad, pick⟩ := picked
  dsimp only
  generalize hu : s1.setRxs st { x with frames := x.frames ++ [⟨ts, pick, false, [], [], []⟩], last := (pick <|> x.last) } = u
  have hspotU : spot h' off u = spot h' off s1 := by
    rw [← hu]
    exact spot_of_memory (setRxs_memory s1 st _) h' off
  have haimU : AimKept st s1 u := by
    rw [← hu]
    exact .inl ⟨rfl, rfl⟩
  have hframesU : (u.rxs st).frames = x.frames ++ [⟨ts, pick, false, [], [], []⟩] := by rw [← hu, State.rxs_setRxs_self]
  have hU : Framed st h' off u ∨ rxFormat u st = 0 := by
    by_cases hz : rxFormat s1 st = 0
    · exact .inr (haimU.format hz)
    · refine .inl fun f hf h hh i => ?_
      rw [hframesU] at hf
      obtain hf | hf := List.mem_append.mp hf
      · exact (hframed1 f hf h hh i).congr (surface_of_spot hspotU h)
      · rw [List.mem_singleton.mp hf] at hh
        exact ((hpicked h hh).resolve_left hz i).congr (surface_of_spot hspotU h)
  clear hu
  have hend : ∀ {v w : State}, memory v = memory u → AimKept st u v → v.rx = u.rx → bench st h' off w = bench st h' off v →
      spot h' off w = spot h' off s ∧ (Framed st h' off w ∨ rxFormat w st = 0) := by
    intro v w hmem haim hrx hw
    have hspotV := spot_of_memory hmem h' off
    refine ⟨(congrArg Prod.fst hw).trans (hspotV.trans (hspotU.trans hspot1)), ?_⟩
    obtain hU | hz := hU
    · exact .inl ((hU.of_rx hspotV hrx).of_bench hw)
    · exact .inr ((AimKept.of_bench hw).format (haim.format hz))
  have hcount := rxCount_bench hst h' off u 13 bad
  have hcountRx : (rxCount u st 13 bad).rx = u.rx := State.setSp_rx u _ _
  cases pick with
  | none => exact hend (rxCount_memory u st 13 bad) (.of_bench hcount) hcountRx ((rxRaise_bench hst h' off _).trans (rxCount_bench hst h' off _ 2 1))
  | some h =>
    exact hend ((startFence_memory _ h _).trans (rxCount_memory u st 13 bad)) ((AimKept.of_bench hcount).trans (setFence_aim hst _ h false true))
      ((setFence_rx _ h _ _ _).trans hcountRx) (rxStatus_bench hst h' off _)

end

-- Samples are placed.

/-- Memory at the byte stays, and the stream's open frames keep clear of it. -/
def Placing (st h' off : Nat) (s t : State) : Prop := spot h' off t = spot h' off s ∧ Framed st h' off t

section
variable {st h' off : Nat} {s t u : State}

theorem Placing.of_rx (ht : Placing st h' off s t) (hspot : spot h' off u = spot h' off t) (hrx : u.rx = t.rx) : Placing st h' off s u :=
  ⟨hspot.trans ht.1, ht.2.of_rx hspot hrx⟩

theorem Placing.put (ht : Placing st h' off s t) {f g : RxFrame} (hf : f ∈ (t.rxs st).frames) (hg : g.handle = f.handle) :
    Placing st h' off s (putRxFrame t st g) := ⟨(putRxFrame_spot g).trans ht.1, ht.2.put hf hg⟩

theorem rxCount_placing (ht : Placing st h' off s t) (w n : Nat) : Placing st h' off s (rxCount t st w n) :=
  ht.of_rx (spot_of_memory (rxCount_memory t st w n) h' off) (State.setSp_rx t _ _)

theorem stealSlot_placing (ht : Placing st h' off s t) : Placing st h' off s (stealSlot t st) := by
  unfold stealSlot
  extract_lets x
  split
  · exact ht
  · next f hf =>
    have hmem : f ∈ (t.rxs st).frames := (List.mem_filter.mp (oldestFrame_mem hf)).1
    extract_lets i f1 s1
    have hput : Placing st h' off s s1 := ht.put (g := f1) hmem rfl
    clear_value s1
    refine rxCount_placing ?_ 3 1
    split
    · next h hh =>
      exact hput.of_rx (loseLines_spot fun k => (ht.2 f hmem h hh k).congr (surface_of_spot (hput.1.trans ht.1.symm) h)) (loseLines_rx _ h [i])
    · exact hput

theorem placePart_placing {h : Nat} (hout : ∀ i, Beyond s h i h' off) (ts : Word) (x : Surface) (asm : Ecc) (e : Nat × Nat × List Nat)
    (ht : Placing st h' off s t) : Placing st h' off s (placePart st h ts x asm t e) := by
  have hline : ∀ {u}, Placing st h' off s u → ∀ i, Beyond u h i h' off := fun hu i => (hout i).congr (surface_of_spot hu.1 h)
  unfold placePart
  split
  · exact ht
  · next f hf =>
    extract_lets i taken s1
    split_ifs
    · exact ht
    have htaken : Placing st h' off s taken := by
      subst taken
      split_ifs
      · exact ht
      · exact stealSlot_placing ht
    have hs1 : Placing st h' off s s1 := by
      subst s1
      clear_value taken
      split
      · exact ht
      · split
        · exact htaken
        · next g hg =>
          have hput := htaken.put (g := { g with slots := g.slots ++ [⟨i, List.replicate (lineSamples x.format x.width) none⟩] }) (getRxFrame_mem hg) rfl
          exact hput.of_rx (poisonLine_spot (hline hput i)) (poisonLine_rx _ h i)
    clear_value s1
    split
    · exact hs1
    · next g hg =>
      extract_lets slots
      split
      · exact hs1
      · split
        · have hput := hs1.put (g := { g with slots := slots.filter (fun t => t.line != i), done := i :: g.done }) (getRxFrame_mem hg) rfl
          have hread := hput.of_rx (spot_of_memory (sramCheck_memory _ 6 0) h' off) (sramCheck_rx _ 6 0)
          exact hread.of_rx (ingestLine_spot (hline hread i) _ _) (ingestLine_rx _ h i _ _)
        · exact hs1.put (getRxFrame_mem hg) rfl

theorem placeSrd_placing {h : Nat} (hout : ∀ i, Beyond s h i h' off) (ts : Word) (x : Surface) (g : Nat × Nat × Nat) (asm : Ecc) (d : Srd × List Byte)
    (ht : Placing st h' off s t) : Placing st h' off s (placeSrd st h ts x g asm t d) := by
  unfold placeSrd
  extract_lets groups parts lines
  refine forEach_induct_mem (P := Placing st h' off s) ht (fun i _ u hu => ?_)
  cases parts.find? (fun e => e.1 == i) with
  | none => exact hu
  | some e => exact placePart_placing hout ts x asm _ hu

end

section
variable {st h' off : Nat} (hst : st < 256) {s : State}
include hst

omit hst in
theorem startClosing_holds {o : State} (ts : Word) (hspot : spot h' off o = spot h' off s) (hopen : Framed st h' off o ∨ rxFormat o st = 0) :
    spot h' off (startClosing o st ts) = spot h' off s ∧ (Framed st h' off (startClosing o st ts) ∨ rxFormat (startClosing o st ts) st = 0) := by
  refine ⟨(setRxFrames_spot _).trans hspot, hopen.imp (fun hframed => hframed.congr (setRxFrames_spot _) fun f hf => ?_) id⟩
  rw [startClosing, setRxFrames_frames] at hf
  obtain ⟨g, hg, rfl⟩ := List.mem_map.mp hf
  refine ⟨g, hg, ?_⟩
  split_ifs <;> rfl

/-- A packet of a stream reaches lines of the stream's open frames and of its ring. -/
theorem rxPlace_spot (hframed : Framed st h' off s) (hring : ∀ h ∈ ringOrder (rxHandle s st) (rxRing s st) none, ∀ i, Beyond s h i h' off) (ts : Word)
    (marker : Bool) (body : List Byte) (asm : Ecc) : spot h' off (rxPlace s st ts marker body asm) = spot h' off s := by
  unfold rxPlace
  extract_lets x s1
  split
  · exact spot_of_memory (rxCount_memory s st 11 1) h' off
  have hs1 : spot h' off s1 = spot h' off s ∧ (Framed st h' off s1 ∨ rxFormat s1 st = 0) := by
    subst s1
    split_ifs
    · exact startClosing_holds ts rfl (.inl hframed)
    · obtain ⟨hspot, hopened⟩ := openRxFrame_holds hst hframed hring ts
      exact startClosing_holds ts hspot hopened
  clear_value s1
  obtain ⟨hspot1, hopened⟩ := hs1
  split
  · exact hspot1
  · next f hf =>
    extract_lets s2
    have hspot2 : spot h' off s2 = spot h' off s1 := by
      subst s2
      split_ifs
      · exact putRxFrame_spot _
      · rfl
    have hframed2 : Framed st h' off s1 → Framed st h' off s2 := by
      intro hframed1
      subst s2
      split_ifs
      · exact hframed1.put (getRxFrame_mem hf) rfl
      · exact hframed1
    have hformat2 : rxFormat s2 st = rxFormat s1 st := by
      subst s2
      split_ifs <;> rfl
    clear_value s2
    split
    · next h g hh hg =>
      have hformat : rxFormat s1 st ≠ 0 := by
        intro hz
        rw [hformat2, hz] at hg
        cases hg
      have hframed1 := hopened.resolve_right hformat
      split
      · exact hspot2.trans hspot1
      next sf hsf =>
        split
        split_ifs
        · exact (spot_of_memory (rxCount_memory s2 st 12 1) h' off).trans (hspot2.trans hspot1)
        · have hout : ∀ i, Beyond s2 h i h' off := fun i => (hframed1 f (getRxFrame_mem hf) h hh i).congr (surface_of_spot hspot2 h)
          have hplaced := forEach_induct (P := Placing st h' off s2) (f := placeSrd st h ts sf g asm) (fun u d hu => placeSrd_placing hout ts sf g asm d hu)
            ⟨rfl, hframed2 hframed1⟩
          exact (hplaced _).1.trans (hspot2.trans hspot1)
    · exact hspot2.trans hspot1

/-- The ring of a stream and its open frames keep clear of the byte. -/
def ClearStream (st h' off : Nat) (s : State) : Prop :=
  Framed st h' off s ∧ ∀ h ∈ ringOrder (rxHandle s st) (rxRing s st) none, ∀ i, Beyond s h i h' off

omit hst in
theorem ClearStream.of_bench {t : State} (hs : ClearStream st h' off s) (h : bench st h' off t = bench st h' off s) : ClearStream st h' off t := by
  refine ⟨hs.1.of_bench h, fun g hg i => (hs.2 g ?_ i).congr (surface_of_spot (congrArg Prod.fst h) g)⟩
  have h0 : rxWord t st 0 = rxWord s st 0 := congrArg (fun b => b.2.2.1) h
  have h1 : rxWord t st 1 = rxWord s st 1 := congrArg (fun b => b.2.2.2) h
  rwa [rxHandle, rxRing, h0, h1] at hg

theorem rxMerge_spot (hclear : ClearStream st h' off s) (n : Nat) (ts : Word) (marker : Bool) (body : List Byte) (asm : Ecc) :
    spot h' off (rxMerge s st n ts marker body asm) = spot h' off s := by
  unfold rxMerge
  extract_lets x take
  have htake : ∀ q, spot h' off (take q) = spot h' off s := by
    intro q
    have hbench : ∀ seen, bench st h' off (rxStatus (s.setRxs st { x with q := some q, seen := seen, state := 2 }) st) = bench st h' off s := fun seen =>
      (rxStatus_bench hst h' off _).trans (setRxs_bench h' off s rfl)
    obtain ⟨hframed, hring⟩ := hclear.of_bench (hbench _)
    exact (rxPlace_spot hst hframed hring ts marker body asm).trans (congrArg Prod.fst (hbench _))
  clear_value take
  split
  · exact htake n
  · split_ifs
    · exact spot_of_memory (rxCount_memory s st 10 1) h' off
    · exact htake n
    · exact htake _
    · exact spot_of_memory (rxCount_memory s st 11 1) h' off

theorem pathArrival_bench (b : Bool) (n : Nat) : bench st h' off (pathArrival s st b n) = bench st h' off s := by
  unfold pathArrival
  extract_lets x last gap now was s1 s2
  have hs1 : bench st h' off s1 = bench st h' off s := by
    subst s1
    exact setRxs_bench h' off s (by split_ifs <;> rfl)
  have hs2 : bench st h' off s2 = bench st h' off s := (rxCount_bench hst h' off _ _ gap).trans ((rxCount_bench hst h' off s1 _ 1).trans hs1)
  split_ifs
  · exact hs2
  · exact (rxRaise_bench hst h' off _).trans ((rxStatus_bench hst h' off s2).trans hs2)

theorem rxPacket_spot (hclear : ClearStream st h' off s) (b : Bool) (len : Nat) (rtp : List Byte) (asm : Ecc) :
    spot h' off (rxPacket s st b len rtp asm) = spot h' off s := by
  unfold rxPacket
  extract_lets p x tok pass left s1 head ext body n
  have hs1 : bench st h' off s1 = bench st h' off s := by
    subst s1
    exact setRxs_bench h' off s (by split_ifs <;> rfl)
  clear_value s1
  split
  · refine (spot_of_memory ?_ h' off).trans (congrArg Prod.fst hs1)
    rw [rxRaise_memory, setFlag_memory, rxCount_memory]
  · have harrive := (pathArrival_bench hst (h' := h') (off := off) (s := s1) b n).trans hs1
    exact (rxMerge_spot hst (hclear.of_bench harrive) n _ _ _ asm).trans (congrArg Prod.fst harrive)

end

-- A frame of a port.

theorem rxStreamOf_lt {s : State} {p src dst udp st : Nat} {b : Bool} {rtp : List Byte} (h : rxStreamOf s p src dst udp rtp = some (st, b)) : st < 256 := by
  obtain ⟨i, hi, hsome⟩ := List.exists_of_findSome?_eq_some h
  have hi := List.mem_range.mp hi
  split_ifs at hsome
  have hst : i / 2 = st := congrArg Prod.fst (Option.some.inj hsome)
  omega

section
variable {h' off : Nat} {s : State}

theorem rxIpv4_spot (hclear : ∀ st < 256, ClearStream st h' off s) (p len : Nat) (ip : List Byte) (note : RxNote) :
    spot h' off (rxIpv4 s p len ip note) = spot h' off s := by
  unfold rxIpv4
  extract_lets body src dst port data
  split_ifs
  · exact spot_of_memory (rxOther_memory s p) h' off
  · exact spot_of_memory (keeping_memory rfl s _) h' off
  · exact spot_of_memory (keeping_memory rfl s _) h' off
  · split
    · next st b hst => exact rxPacket_spot (rxStreamOf_lt hst) (hclear st (rxStreamOf_lt hst)) b len data note.asm
    · exact spot_of_memory (rxOther_memory s p) h' off
  · exact spot_of_memory (igmpQuery_memory s p _) h' off
  · exact spot_of_memory (rxOther_memory s p) h' off

theorem ethFrameIn_spot (hclear : ∀ st < 256, ClearStream st h' off s) (p : Nat) (frame : List Byte) (note : RxNote) :
    spot h' off (ethFrameIn s p frame note) = spot h' off s := by
  unfold ethFrameIn
  extract_lets tagged at_ typ rest
  have hother := spot_of_memory (rxOther_memory s p) h' off
  split_ifs
  · rfl
  · exact spot_of_memory ((raise_memory _ _).trans (bump_memory s _ 1)) h' off
  · exact spot_of_memory (bump_memory s _ 1) h' off
  · exact hother
  · exact hother
  · exact spot_of_memory (arpReply_memory s p rest) h' off
  · exact rxIpv4_spot hclear p frame.length rest note
  · exact hother

theorem fecCount_bench {st : Nat} (hst : st < 256) (p : Nat) (note : RxNote) : bench st h' off (fecCount s p note) = bench st h' off s := by
  have hraise : ∀ (n : Nat) (t : State) (src : Nat), bench st h' off (raiseN t src n) = bench st h' off t := by
    intro n
    induction n with
    | zero =>
      intro t src
      rw [raiseN.eq_def]
    | succ n ih =>
      intro t src
      rw [raiseN.eq_def, ih, raise_bench hst]
  unfold fecCount
  extract_lets s1
  have hs1 : bench st h' off s1 = bench st h' off s := wr_bench h' off s _ _
  clear_value s1
  split_ifs
  · exact hs1
  · exact (hraise _ _ _).trans ((wr_bench h' off _ _ _).trans ((wr_bench h' off s1 _ _).trans hs1))

end

end Sys2Proof.Machine

namespace Sys2Proof.Proofs
-- One proof at a time, so that the stacks of the evaluations do not add up.
set_option Elab.async false

open Sys2Proof.Machine Sys2Proof.Claims

/-- Settles O36: a bead of an ingest rod poisons its own line, and the slots of the streams when its rod fails; samples of a frame go to the
buffers of the open frames of their stream, and a frame that opens takes one of its ring. -/
theorem frameOfReception : Obligations.FrameOfReception := by
  refine ⟨fun rod flip h i k s t hs ht h' off hline hslots => byte_of_exec hs (fun _ => rfl) ht ?bead,
    fun p frame note s t hs ht h' off hout => byte_of_exec hs (fun _ => rfl) ht ?frame⟩
  case bead =>
    refine beadReceive_spot (fun x hx => ?_) (fun st f sl g hf hsl hg x hx => ?_) rod k flip
    · exact ⟨(hline x hx).1, fun _ => (hline x hx).2⟩
    · obtain ⟨hpitch, hline⟩ := hslots st f sl g x hf hsl hg hx
      exact ⟨hpitch, fun _ => hline⟩
  case frame =>
    have hclear : ∀ st < 256, ClearStream st h' off s := fun st _ =>
      ⟨fun f hf h hh i x hx => ⟨(hout st h x (.inr ⟨f, hf, hh⟩) hx).1, (hout st h x (.inr ⟨f, hf, hh⟩) hx).2 i⟩,
        fun h hh i x hx => ⟨(hout st h x (.inl hh) hx).1, (hout st h x (.inl hh) hx).2 i⟩⟩
    unfold ethRx
    split_ifs
    · rfl
    · have hfec := fun st (hst : st < 256) => fecCount_bench (h' := h') (off := off) (s := s) hst p note
      exact (ethFrameIn_spot (fun st hst => (hclear st hst).of_bench (hfec st hst)) p frame note).trans (congrArg Prod.fst (hfec 0 (by decide)))

end Sys2Proof.Proofs

/-!
PROOFS. The surface jobs (03_surfaces_placement.md, Surfaces, Allocation and freeing, Pins and hints; 08_commits_updates.md, Buffer fences).
-/
namespace Sys2Proof.Machine
-- One proof at a time, so that the stacks of the evaluations do not add up.
set_option Elab.async false

open Sys2Proof.Claims

-- The end of a job writes records and counters, all behind the words of the fences.

section
variable {P : State → Prop} (hP : Unforced P) {s : State} (hs : P s)
include hP hs

theorem queueWrite_holds (q k a : Nat) (data : List Byte) : P (queueWrite s q k a data) := by
  unfold queueWrite
  split
  · exact hP.emit _ _ hs
  · exact hP.setFlag hs _ _

theorem writeSlot_holds (q : Nat) (i : Word) (off : Nat) (data : List Byte) : P (writeSlot s q i off data) := by
  have hring : ∀ a, skey Space.NMP_RXC 0 ≤ skey Space.QRING a := fun a => by
    simp only [skey, Space.NMP_RXC, Space.QRING]
    omega
  unfold writeSlot
  extract_lets a
  split
  · exact forEach_induct (fun _ _ h => hP.setSp _ _ _ (hring _) h) hs _
  · split
    · exact queueWrite_holds hP hs _ _ _ _
    · exact hs

theorem writeIndex_holds (q : Nat) : P (writeIndex s q) := by
  unfold writeIndex
  split
  · exact hs
  · exact queueWrite_holds hP hs _ _ _ _

theorem completionEvent_holds (hraise : ∀ t src, P t → P (raise t src)) (hcfg : ∀ t o v, P t → P (State.setCfg t o v)) (q : Nat) (first : List Byte)
    (code seq : Nat) (quiet : Bool) : P (completionEvent s q first code seq quiet) := by
  unfold completionEvent
  split
  · exact hP.setFlag hs _ _
  · split
    · exact hs
    · next k hk =>
      extract_lets r
      have hr : P r.1 := by
        subst r
        unfold withoutMessage
        dsimp only
        refine hcfg _ _ _ (hP.postRecord ?_ _ _ _)
        split
        · exact hcfg _ _ _ hs
        · exact hs
      clear_value r
      split
      · exact hraise _ _ hr
      · exact hr

theorem writeCompletion_holds (hraise : ∀ t src, P t → P (raise t src)) (hraiseQ : ∀ t src q, P t → P (raiseQ t src q))
    (hcfg : ∀ t o v, P t → P (State.setCfg t o v)) (hqueue : ∀ t q x, P t → P (State.setQueue t q x)) (q : Nat) (i : Word) (first : List Byte)
    (code seq entries : Nat) (rerun event quiet : Bool) : P (writeCompletion s q i first code seq entries rerun event quiet) := by
  unfold writeCompletion
  extract_lets x s1 s2 s3 cfg s4
  have hs2 : P s2 := writeIndex_holds hP (hqueue _ _ _ (writeSlot_holds hP hs _ _ _ _)) _
  have hs3 : P s3 := by
    subst s3
    split
    · exact completionEvent_holds hP hs2 hraise hcfg _ _ _ _ _
    · exact hs2
  have hs4 : P s4 := by
    subst s4
    split
    · split
      · exact hP.sendMsix hs3 _ _
      · exact hs3
    · exact hs3
  clear_value s4
  split
  · exact hraiseQ _ _ _ hs4
  · exact hs4

end

/-- The end of a job leaves the fences. -/
theorem finishJob_sp {k : Nat} (hk : k < skey Space.NMP_RXC 0) (s : State) (q code : Nat) (quiet : Bool) : (finishJob s q code quiet).sp k = s.sp k := by
  have hP : Unforced (fun t => t.sp k = s.sp k) :=
    { wr := fun _ _ _ h => h
      setSp := fun t k' v hk' h => by
        rw [State.sp_setSp, if_neg (by omega)]
        exact h
      setSafe := fun _ _ _ h => h
      setPort := fun _ _ _ h => h
      cut := fun _ _ h => h
      setFunc := fun t i x h => by rw [State.sp, State.setFunc_spaces]; exact h
      emit := fun _ _ h => h
      col := fun _ _ h => h
      fresh := fun _ h => h }
  have hparts : ∀ t u : State, u.sp k = s.sp k → (keeping [] t u).sp k = s.sp k := fun _ _ h => h
  have hcfg : ∀ (t : State) (o : Nat) (v : Word), t.sp k = s.sp k → (t.setCfg o v).sp k = s.sp k := fun _ _ _ h => h
  have hqueue : ∀ (t : State) (q : Nat) (x : Queue), t.sp k = s.sp k → (t.setQueue q x).sp k = s.sp k := fun _ _ _ h => h
  unfold finishJob
  extract_lets x quiet'
  split
  · rfl
  · next j hj =>
    extract_lets first
    rw [State.sp, State.keeping_spaces, ← State.sp, pollQueue_keeps (fun t => t.sp k) (fun _ _ _ => rfl)]
    exact writeCompletion_holds hP (hqueue s q _ rfl) (fun t src h => hP.raiseFull h hparts src 0 false 0#32)
      (fun t src q h => hP.raiseFull h hparts src q false 0#32) hcfg hqueue _ _ _ _ _ _ _ _ _

theorem finishJob_store (s : State) (q code : Nat) (quiet : Bool) : (finishJob s q code quiet).store = s.store := by
  unfold finishJob
  dsimp only
  cases (s.queue q).job with
  | none => rfl
  | some j => exact State.keeping_store _ _ _

-- Placement takes stripes and nothing else.

theorem placeFrom_keeps {β : Type} (g : State → β) (hset : ∀ s p x, g (State.setPc s p x) = g s) {mask : Nat} {apart : List Nat} {duplex : Bool}
    {u : State} {ps' ts' : List Nat} : ∀ {n pos : Nat} {s : State} {ps ts : List Nat}, placeFrom mask apart duplex n pos s ps ts = some (ps', ts', u) → g u = g s
  | 0, _, s, _, _, h => by
    rw [placeFrom] at h
    rw [(Prod.mk.inj (Prod.mk.inj (Option.some.inj h)).2).2]
  | n + 1, pos, s, ps, ts, h => by
    rw [placeFrom] at h
    split at h
    · cases h
    · split_ifs at h
      · dsimp only at h
        split at h
        · cases h
        · exact (placeFrom_keeps g hset h).trans ((hset _ _ _).trans (hset _ _ _))
      · exact (placeFrom_keeps g hset h).trans (hset _ _ _)

theorem placeSurface_keeps {β : Type} (g : State → β) (hset : ∀ s p x, g (State.setPc s p x) = g s) {s u : State} {mask apart heat n : Nat} {duplex : Bool}
    {ps ts : List Nat} (h : placeSurface s mask apart heat n duplex = some (ps, ts, u)) : g u = g s := by
  unfold placeSurface at h
  dsimp only at h
  split at h
  · cases h
  · exact placeFrom_keeps g hset h

-- The fence of a handle.

theorem leNat_lt : ∀ bs : List Byte, leNat bs < 256 ^ bs.length
  | [] => by decide
  | b :: bs => by
    have hb := b.isLt
    have hbs := leNat_lt bs
    rw [leNat, List.length_cons, pow_succ]
    omega

theorem le_lt (bs : List Byte) (off len : Nat) : le bs off len < 256 ^ len := by
  have h := leNat_lt (slice bs off len)
  rwa [slice_length] at h

/-- A handle's fence lies before the counters and records when a handle field can hold the handle. -/
theorem fence_lt {h : Nat} (hh : h < 65536) : fence0 h < skey Space.NMP_RXC 0 ∧ fence1 h < skey Space.NMP_RXC 0 := by
  simp only [fence0, fence1, skey, Space.FENCE, Space.NMP_RXC]
  omega

theorem clearFence_sp (s : State) (h : Nat) : (clearFence s h).sp (fence0 h) = 0#32 ∧ (clearFence s h).sp (fence1 h) = 0#32 := by
  have hne : fence0 h ≠ fence1 h := by
    simp only [fence0, fence1, skey]
    omega
  refine ⟨?_, State.sp_setSp_self _ _ _⟩
  rw [clearFence, State.sp_setSp, if_neg hne, State.sp_setSp_self]

theorem clearedOwner_surface (s : State) (h q : Nat) (seq : BitVec 16) (alloc : Bool) (k : Nat) :
    (clearFence (setOwner s h q seq alloc) h).surface k = s.surface k := rfl

/-- What the command of a job leaves once the job has ended in `v`. -/
theorem jobEnd_holds {ps : List Part} (hstore : ps.contains .store = true) (hqueues : ps.contains .queues = true) (s v : State) (q code : Nat) :
    let t := hold s (keeping ps s (completeJob v q code))
    t.store = v.store ∧ t.hbm = v.hbm ∧ (t.queue q).job = none ∧ ∀ k < skey Space.NMP_RXC 0, t.sp k = v.sp k := by
  have hs := finishJob_store v q code false
  have hm := hbm_of_memory (finishJob_memory v q code false)
  have hq := finishJob_no_job v q code false
  have hsp := fun k (hk : k < skey Space.NMP_RXC 0) => finishJob_sp hk v q code false
  intro t
  refine ⟨?_, ?_, ?_, hsp⟩
  · rw [State.hold_store, State.keeping_store, if_pos hstore]
    exact hs
  · rw [State.hold_hbm, State.keeping_hbm, if_pos hstore]
    exact hm
  · rw [State.queue, State.hold_queues, State.keeping_queues, if_pos hqueues]
    exact hq

theorem surface_of_store {s t : State} (h : t.store = s.store) (k : Nat) : t.surface k = s.surface k :=
  congrArg (fun x : Store => kget (fun _ => none) x.surfaces k) h

theorem pc_of_store {s t : State} (h : t.store = s.store) (p : Nat) : t.pc p = s.pc p := congrArg (fun x : Store => kget (fun _ => Pc.reset) x.pcs p) h

/-- With no carry left, a hint ends. -/
theorem settlePin_done {s : State} {q : Nat} {j : Job} (htr : s.store.trained = true) (hj : s.jobIn q Typ.PIN_HINT .running = some j)
    (hcarries : s.store.carries = []) : settlePin s q = completeJob s q Code.OK := by
  have hleft : pinCarriesLeft s (le j.head 16 2) = false := by
    unfold pinCarriesLeft
    rw [hcarries]
    split <;> rfl
  unfold settlePin
  rw [hbmJob_trained htr, hj]
  simp only [hleft, Bool.false_eq_true, if_false]

theorem actOnce_acts {s : State} {q typ : Nat} {j : Job} (htr : s.store.trained = true) (hj : s.jobIn q typ .act = some j) (f : State → Nat → Job → Nat × State) :
    actOnce s q typ f = completeJob (f s q j).2 q (f s q j).1 := by
  rw [actOnce, hbmJob_trained htr, hj]

-- A surface that is freed.

theorem releaseStripe_pc (s : State) (a p : Nat) : (releaseStripe s a).pc p =
    if p = a ∧ ((s.pc a).state = .active ∨ (s.pc a).state = .draining) then { s.pc a with scrub := (s.pc a).scrub + 1 } else s.pc p := by
  have hraise : ∀ t : State, (raise t 36).pc p = t.pc p := fun t => by rw [State.pc, raise_store, State.pc]
  unfold releaseStripe
  dsimp only
  by_cases hst : (s.pc a).state = .active ∨ (s.pc a).state = .draining
  · rw [if_pos hst]
    have hset : (s.setPc a { s.pc a with scrub := (s.pc a).scrub + 1 }).pc p =
        if p = a ∧ ((s.pc a).state = .active ∨ (s.pc a).state = .draining) then { s.pc a with scrub := (s.pc a).scrub + 1 } else s.pc p := by
      rw [State.pc_setPc]
      simp only [hst, and_true]
    split
    · rw [hraise, hset]
    · exact hset
  · rw [if_neg hst, if_neg fun h => hst h.2]

/-- An ACTIVE channel gets its stripes back in its scrub queue, each once. -/
theorem releaseStripes_pc {p : Nat} : ∀ (ps : List Nat) {s : State}, (s.pc p).state = .active →
    (forEach ps s releaseStripe).pc p = { s.pc p with scrub := (s.pc p).scrub + ps.count p }
  | [], _, _ => rfl
  | a :: ps, s, hact => by
    have hone := releaseStripe_pc s a p
    have hcount : (releaseStripe s a).pc p = { s.pc p with scrub := (s.pc p).scrub + if a = p then 1 else 0 } := by
      rw [hone]
      by_cases ha : p = a
      · subst ha
        simp [hact]
      · rw [if_neg fun h => ha h.1, if_neg fun h => ha h.symm]
        rfl
    have hrest := releaseStripes_pc ps (s := releaseStripe s a) (by rw [hcount]; exact hact)
    refine hrest.trans ?_
    rw [hcount, List.count_cons]
    simp only [beq_iff_eq]
    congr 1
    omega

/-- The surface at `h`, with its stripes released and its bytes gone, when no carry runs. -/
theorem dropSurface_idle {s : State} {h : Nat} {x : Surface} (hx : s.surface h = some x) (hcarries : s.store.carries = []) :
    dropSurface s h = checkRetired (((forEach (x.place ++ x.twins) (ingestEnds (setCarries s []) (fun e => e.1 == h)) releaseStripe).setSurface h none).zeroBytes
      h 0 4294967296) := by
  have hkept := forEach_keeps (fun t => t.store.carries) releaseStripe
    (releaseStripe_keeps (fun t => t.store.carries) (fun _ _ _ => rfl) (fun t src => congrArg Store.carries (raise_store t src))) (x.place ++ x.twins)
    (ingestEnds (setCarries s []) (fun e => e.1 == h))
  unfold dropSurface
  simp only [hx, hcarries, List.filter_nil, forEach_nil]
  rw [pump_idle]
  exact hkept

theorem dropSurface_holds {s : State} {h : Nat} {x : Surface} (hx : s.surface h = some x) (hcarries : s.store.carries = []) :
    (∀ k, (dropSurface s h).surface k = if k = h then none else s.surface k) ∧
    (dropSurface s h).hbm = kclear s.hbm (skeyByte h 0) (skeyByte h 4294967296) ∧
    ∀ p, (s.pc p).state = .active →
      ((dropSurface s h).pc p).scrub = (s.pc p).scrub + (x.place ++ x.twins).count p ∧ ((dropSurface s h).pc p).free = (s.pc p).free := by
  rw [dropSurface_idle hx hcarries]
  generalize hu : forEach (x.place ++ x.twins) (ingestEnds (setCarries s []) (fun e => e.1 == h)) releaseStripe = u
  have hsurf : ∀ k, u.surface k = s.surface k := fun k => by
    rw [← hu, forEach_keeps (fun t => t.surface k) releaseStripe (releaseStripe_keeps (fun t => t.surface k) (fun _ _ _ => rfl)
      (fun t src => raise_surface_read t src k))]
    rfl
  have hhbm : u.hbm = s.hbm := by
    rw [← hu, forEach_keeps State.hbm releaseStripe (releaseStripe_keeps State.hbm (fun _ _ _ => rfl) raise_hbm)]
    rfl
  have hpc : ∀ p, (s.pc p).state = .active → u.pc p = { s.pc p with scrub := (s.pc p).scrub + (x.place ++ x.twins).count p } := fun p hact => by
    rw [← hu]
    exact releaseStripes_pc _ (s := ingestEnds (setCarries s []) (fun e => e.1 == h)) hact
  clear hu
  refine ⟨fun k => ?_, ?_, fun p hact => ?_⟩
  · rw [checkRetired_keeps (fun t => t.surface k) (fun _ _ _ => rfl) (fun _ _ => rfl), State.zeroBytes_surface_other, State.surface_setSurface, hsurf]
  · rw [checkRetired_keeps State.hbm (fun _ _ _ => rfl) (fun _ _ => rfl), State.zeroBytes, State.setSurface_hbm, hhbm]
  · have hpcU : ((u.setSurface h none).zeroBytes h 0 4294967296).pc p = u.pc p := rfl
    rw [checkRetired_pc, if_neg, hpcU, hpc p hact]
    · exact ⟨rfl, rfl⟩
    · rw [hpcU, hpc p hact]
      rintro ⟨-, hst, -⟩
      rw [hact] at hst
      obtain h | h := hst <;> cases h

/-- A handle that no receive frame uses has none to cut. -/
theorem cutRxHandle_idle {s : State} {h : Nat} (hfree : ∀ st : Nat, ∀ f ∈ (s.rxs st).frames, f.handle ≠ some h) : cutRxHandle s h = s := by
  refine forEach_id _ fun st _ => ?_
  rw [List.filter_eq_nil_iff.mpr fun f hf => by simpa using hfree st f hf]
  rfl

theorem freeJob_frees {s : State} {q : Nat} {j : Job} {x : Surface} (hx : s.surface (le j.head 16 2) = some x) (huse : handleInUse s (le j.head 16 2) q = false)
    (hfree : ∀ st : Nat, ∀ f ∈ (s.rxs st).frames, f.handle ≠ some (le j.head 16 2)) :
    freeJob s q j = (Code.OK, clearFence (setOwner (dropSurface s (le j.head 16 2)) (le j.head 16 2) q j.seq false) (le j.head 16 2)) := by
  have hfreed : freeSurface s (le j.head 16 2) q j.seq j.rerun =
      (Code.OK, setOwner (dropSurface s (le j.head 16 2)) (le j.head 16 2) q j.seq false) := by
    unfold freeSurface
    simp only [hx, huse, Bool.false_eq_true, if_false]
  unfold freeJob
  simp only [hfreed, hx, Option.isSome_some, if_true, cutRxHandle_idle hfree, ne_eq, not_true_eq_false, if_false]

/-- A free that does not succeed leaves everything. -/
theorem freeJob_refused {s : State} {q c : Nat} {j : Job} (hr : freeSurface s (le j.head 16 2) q j.seq j.rerun = (c, s)) (hc : c ≠ Code.OK) :
    freeJob s q j = (c, s) := by
  unfold freeJob
  simp only [hr]
  exact if_pos hc

-- A surface that is allocated.

theorem allocSurface_places {s u : State} {h w ht f q : Nat} {r : PinRec} {seq : BitVec 16} {rerun : Bool} {ps ts : List Nat}
    (hformat : formatKnown f = true) (hsize : sizeOk f w ht = true) (hpin : pinOk s r = true) (hh : h ≠ 0) (hnone : s.surface h = none)
    (hinside : (if (wantedSurface w ht f r).duplex then 2 * (wantedSurface w ht f r).stripes else (wantedSurface w ht f r).stripes) ≤
      freeInside s (wantedSurface w ht f r).mask)
    (hall : (if (wantedSurface w ht f r).duplex then 2 * (wantedSurface w ht f r).stripes else (wantedSurface w ht f r).stripes) ≤ freeStripes s)
    (hplace : placeSurface s (wantedSurface w ht f r).mask (wantedSurface w ht f r).apart (wantedSurface w ht f r).heat (wantedSurface w ht f r).stripes
      (wantedSurface w ht f r).duplex = some (ps, ts, u)) :
    allocSurface s h w ht f r q seq rerun =
      (Code.OK, setOwner (u.setSurface h (some { wantedSurface w ht f r with place := ps, twins := ts })) h q seq true) := by
  unfold allocSurface
  rw [if_neg (not_not.mpr hformat), if_neg (not_not.mpr hsize), if_neg (not_not.mpr hpin)]
  dsimp only
  rw [hnone]
  dsimp only
  rw [if_neg hh, if_neg (by omega), hplace]

/-- The surface `x` with the placement record `r` in the place of its own. -/
def hintedSurface (x : Surface) (r : PinRec) : Surface := { x with mask := r.mask, apart := r.apart, heat := r.heat, fixed := r.fixed }

theorem pinHintStart_within {s : State} {h : Nat} {r : PinRec} {x : Surface} (hx : s.surface h = some x) (hpin : pinOk s r = true) (hduplex : r.duplex = x.duplex)
    (hfits : fitsMask s x r.mask = true) (hin : ∀ p ∈ x.place ++ x.twins, permits r.mask p = true) (hcarries : s.store.carries = []) :
    pinHintStart s h r = (Code.OK, s.setSurface h (some (hintedSurface x r))) := by
  have hnone : ∀ (y : Surface) (twin : Bool), (∀ p ∈ y.copy twin, permits r.mask p = true) →
      ((y.copy twin).zipIdx.filterMap (fun e => if permits r.mask e.1 then none else some (e.2, twin))) = [] := by
    intro y twin hy
    refine List.filterMap_eq_nil_iff.mpr fun e he => if_pos (hy e.1 ?_)
    exact (List.mem_zipIdx' he).2 ▸ List.getElem_mem _
  unfold pinHintStart
  simp only [hx]
  change (if _ then _ else (Code.OK, pump (forEach (((hintedSurface x r).copy false).zipIdx.filterMap _ ++ ((hintedSurface x r).copy true).zipIdx.filterMap _)
    (s.setSurface h (some (hintedSurface x r))) _))) = _
  rw [if_neg (by simp [hpin, hduplex, hfits]), hnone (hintedSurface x r) false
      fun p hp => hin p (List.mem_append_left _ hp),
    hnone (hintedSurface x r) true fun p hp => hin p (List.mem_append_right _ hp), List.append_nil, forEach_nil, pump_idle]
  exact hcarries

end Sys2Proof.Machine

namespace Sys2Proof.Proofs
-- One proof at a time, so that the stacks of the evaluations do not add up.
set_option Elab.async false

open Sys2Proof.Machine Sys2Proof.Claims

/-- Settles O4: what an allocation, a free and a hint answer, and where they succeed the surface, its stripes, its bytes and its fence. -/
theorem surfaceJobs : Obligations.SurfaceJobs := by
  have hhandle : ∀ j : Job, le j.head 16 2 < 65536 := fun j => le_lt j.head 16 2
  refine ⟨fun q j s hs htr hj => gives_of hs (fun _ => rfl) ?alloc,
    fun q j ps ts u s hs htr hj hformat hsize hpin hh hnone hinside hall hplace => ends_of hs (fun _ => rfl) ?placed,
    fun q j s hs htr hj => gives_of hs (fun _ => rfl) (actOnce_acts htr hj freeJob),
    fun q j x s hs htr hj hx huse hcarries hfree => ends_of hs (fun _ => rfl) ?freed,
    fun q j x s hs htr hj hx huse => gives_of hs (fun _ => rfl) ?inUse,
    fun q j s hs htr hj hrerun hx => gives_of hs (fun _ => rfl) ?handleFree,
    fun q j s hs htr hj => gives_of hs (fun _ => rfl) ?hint,
    fun q j x s hs htr hj hx hpin hduplex hfits hin hcarries => ends_of hs (fun _ => rfl) ?hinted⟩
  case alloc =>
    rw [actOnce_acts htr hj]
    unfold allocJob
    dsimp only
    split_ifs <;> rfl
  case placed =>
    have hdone := allocSurface_places (q := q) (seq := j.seq) (rerun := j.rerun) hformat hsize hpin hh hnone hinside hall hplace
    rw [actOnce_acts htr hj, allocJob, hdone]
    dsimp only
    rw [if_pos rfl]
    have hsurfU : ∀ k, u.surface k = s.surface k := fun k => placeSurface_keeps (fun t => t.surface k) (fun _ _ _ => rfl) hplace
    have hhbmU : u.hbm = s.hbm := placeSurface_keeps State.hbm (fun _ _ _ => rfl) hplace
    obtain ⟨hstore, hhbm, hjob, hsp⟩ := jobEnd_holds (ps := [.store, .force, .queues]) rfl rfl s
      (clearFence (setOwner (u.setSurface (le j.head 16 2) (some { wantedSurface (le j.head 18 2) (le j.head 20 2) (byteAt j.head 22) (pinRec (slice j.head 32 32)) with
        place := ps, twins := ts })) (le j.head 16 2) q j.seq true) (le j.head 16 2)) q Code.OK
    obtain ⟨hf0, hf1⟩ := fence_lt (hhandle j)
    have hsurf := fun k => (surface_of_store hstore k).trans (clearedOwner_surface _ _ _ _ _ k)
    refine ⟨(hsurf _).trans (State.surface_setSurface_self _ _ _), hjob, fun k hk => ?_, hhbm.trans hhbmU,
      (hsp _ hf0).trans (clearFence_sp _ _).1, (hsp _ hf1).trans (clearFence_sp _ _).2⟩
    exact (hsurf k).trans ((State.surface_setSurface _ _ _ _).trans ((if_neg hk).trans (hsurfU k)))
  case freed =>
    obtain ⟨hsurf, hhbmV, hpc⟩ := dropSurface_holds hx hcarries
    rw [actOnce_acts htr hj, freeJob_frees hx huse hfree]
    obtain ⟨hstore, hhbm, hjob, hsp⟩ := jobEnd_holds (ps := [.store, .force, .queues, .compose, .receive]) rfl rfl s
      (clearFence (setOwner (dropSurface s (le j.head 16 2)) (le j.head 16 2) q j.seq false) (le j.head 16 2)) q Code.OK
    obtain ⟨hf0, hf1⟩ := fence_lt (hhandle j)
    have hsurfT := fun k => (surface_of_store hstore k).trans ((clearedOwner_surface _ _ _ _ _ k).trans (hsurf k))
    refine ⟨(hsurfT _).trans (if_pos rfl), fun k hk => (hsurfT k).trans (if_neg hk), hjob,
      fun p hact => ?_, (hsp _ hf0).trans (clearFence_sp _ _).1, (hsp _ hf1).trans (clearFence_sp _ _).2, fun k o hk ho => ?_⟩
    · have hpcT := pc_of_store hstore p
      obtain ⟨hscrub, hleft⟩ := hpc p hact
      exact ⟨(congrArg Pc.scrub hpcT).trans hscrub, (congrArg Pc.free hpcT).trans hleft⟩
    · rw [hhbm.trans hhbmV, kget_kclear, if_neg]
      simp only [skeyByte]
      omega
  case inUse =>
    have hrefused : freeSurface s (le j.head 16 2) q j.seq j.rerun = (Code.IN_USE, s) := by
      unfold freeSurface
      simp only [hx]
      exact if_pos huse
    rw [actOnce_acts htr hj, freeJob_refused hrefused (by decide)]
  case handleFree =>
    have hrefused : freeSurface s (le j.head 16 2) q j.seq j.rerun = (Code.HANDLE_FREE, s) := by
      unfold freeSurface
      simp only [hx]
      exact if_neg (by simp [hrerun])
    rw [actOnce_acts htr hj, freeJob_refused hrefused (by decide)]
  case hint =>
    unfold pinJob
    rw [hbmJob_trained htr, hj]
    exact ite_not _ _ _
  case hinted =>
    have hstart := pinHintStart_within hx hpin hduplex hfits hin hcarries
    generalize hy : hintedSurface x (pinRec (slice j.head 32 32)) = y at hstart
    have hsettle : pinJob s q = completeJob ((s.setSurface (le j.head 16 2) (some y)).setJob q { j with phase := .running }) q Code.OK := by
      obtain ⟨hjob, htyp, -⟩ := jobIn_eq_some.mp hj
      unfold pinJob
      rw [hbmJob_trained htr, hj]
      simp only [hstart, ne_eq, not_true_eq_false, if_false]
      exact settlePin_done htr (jobIn_eq_some.mpr ⟨setJob_job _, htyp, rfl⟩) hcarries
    rw [hsettle]
    obtain ⟨hstore, hhbm, hnone, -⟩ := jobEnd_holds (ps := [.store, .force, .queues]) rfl rfl s
      ((s.setSurface (le j.head 16 2) (some y)).setJob q { j with phase := .running }) q Code.OK
    have hsurf := fun k => (surface_of_store hstore k).trans (surface_of_memory (setJob_memory _ _ _) k)
    refine ⟨(hsurf _).trans ((State.surface_setSurface_self _ _ _).trans (congrArg some hy.symm)), fun k hk => ?_, hnone, hhbm⟩
    exact (hsurf k).trans ((State.surface_setSurface _ _ _ _).trans (if_neg hk))

end Sys2Proof.Proofs
